-- ==== Sys2Proof/Word.lean ====
section
/-! DEFINITION. The word types of the Irhorn IH-4 model and the sparse map that every array of state uses. -/
namespace Sys2Proof

/-- One byte of memory. -/
abbrev Byte := BitVec 8
/-- A 32-bit lane, FP32 or INT32 (R169). -/
abbrev W32 := BitVec 32
/-- A 64-bit scalar register or module register. -/
abbrev W64 := BitVec 64

/-- A sparse array: the entries that differ from the default, keys strictly rising. An unlisted key reads as the
default that its reader names. -/
abbrev SMap (α : Type) := List (Nat × α)

/-- Bytes by address; an unlisted address reads as 0. -/
abbrev Cells := SMap Byte

end Sys2Proof
end

