-- ==== Sys2Proof/Syntax.lean ====
section
/-! DEFINITION. The commands of the block: one constructor of `Instr` per row of the opcode table, and the operands
they carry. A core instruction carries its whole format, reserved bits included, so that R191 can be judged. -/
namespace Sys2Proof

/-- A core: its deck and its core index in the deck (R16). -/
structure CoreRef where
  deck : Fin 8
  core : Fin 3200
deriving DecidableEq, Repr

/-- A logical device: CXL port, and LD-ID 0-7, or 8 for the FM-owned LD (R416). -/
structure LdRef where
  port : Fin 2
  ld : Fin 9
deriving DecidableEq, Repr

/-- Who reads or writes a module register: CMDP firmware, the MGC, or a host through an LD. -/
inductive Agent where
  | fw
  | mgc
  | host (l : LdRef)
deriving DecidableEq, Repr

/-- The four engines of a core (R109). -/
inductive Engine where
  | scalar | vector | matrix | mover
deriving DecidableEq, Repr

/-- Format C (R165): the 56 bits above OP. -/
structure FmtC where
  body : BitVec 56
deriving DecidableEq, Repr

/-- Format R (R163); `res` is bits [63:28]. -/
structure FmtR where
  rd : BitVec 5
  rs1 : BitVec 5
  rs2 : BitVec 5
  rs3 : BitVec 5
  res : BitVec 36
deriving DecidableEq, Repr

/-- Format I (R163); `res` is bits [31:23]. -/
structure FmtI where
  rd : BitVec 5
  rs1 : BitVec 5
  rs2 : BitVec 5
  res : BitVec 9
  imm : BitVec 32
deriving DecidableEq, Repr

/-- Vector layout (R173); `res` is bits [31:28]. -/
structure FmtV where
  nm1 : BitVec 8
  dfmt : BitVec 4
  sfmt : BitVec 4
  km : BitVec 3
  men : BitVec 1
  res : BitVec 4
  d : BitVec 17
  a : BitVec 17
  b : BitVec 17
  c : BitVec 17
  ext : BitVec 28
deriving DecidableEq, Repr

/-- Matrix layout (R176); `res` is bits [31:30], `res2` bits [127:86]. -/
structure FmtM where
  nm1 : BitVec 6
  acc : BitVec 2
  arow : BitVec 6
  fmt : BitVec 4
  accum : BitVec 1
  pair : BitVec 1
  frozen : BitVec 1
  gang : BitVec 1
  res : BitVec 2
  x : BitVec 16
  s : BitVec 16
  tb : BitVec 16
  dfmt : BitVec 4
  sen : BitVec 1
  clr : BitVec 1
  res2 : BitVec 42
deriving DecidableEq, Repr

/-- Mover layout (R180); `res` is bits [63:62], `res2` bits [127:80]. -/
structure FmtX where
  rd : BitVec 5
  rs : BitVec 5
  rl : BitVec 5
  f : BitVec 1
  cen : BitVec 1
  cobj : BitVec 12
  amt : BitVec 16
  prio : BitVec 2
  atype : BitVec 2
  efmt : BitVec 4
  hall : BitVec 1
  res : BitVec 2
  htag : BitVec 16
  res2 : BitVec 48
deriving DecidableEq, Repr

/-- A stamp of a TIME exchange (R351): ns and 1/256 ns. -/
structure Stamp where
  ns : BitVec 64 := 0
  frac : BitVec 8 := 0
deriving DecidableEq, Repr

/-- The body of a beacon frame (R350). -/
structure Beacon where
  ns : BitVec 64 := 0
  frac : BitVec 8 := 0
  state : BitVec 3 := 0
  errEst : BitVec 8 := 0
  hops : BitVec 8 := 0
  gmPrio : BitVec 3 := 0
  gmModule : BitVec 17 := 0
deriving DecidableEq, Repr

/-- Packet classes (R359). -/
inductive PClass where
  | s | q | p | m
deriving DecidableEq, Repr

/-- A packet: the header fields of R359 and R360 (those of other classes 0) and, with `data`, 512 bytes of payload. -/
structure Packet where
  cls : PClass := .q
  vc : Bool := false
  data : Bool := false
  type : BitVec 4 := 0
  tag : BitVec 3 := 0
  f : Bool := false
  mc : Bool := false
  dst : BitVec 17 := 0
  dstDeck : BitVec 3 := 0
  space : BitVec 4 := 0
  src : BitVec 17 := 0
  srcDeck : BitVec 3 := 0
  offset : BitVec 40 := 0
  srcCore : BitVec 12 := 0
  txn : BitVec 16 := 0
  atype : BitVec 4 := 0
  trk : Bool := false
  fepoch : BitVec 16 := 0
  nepoch : BitVec 16 := 0
  fcount : BitVec 32 := 0
  imm : BitVec 32 := 0
  status : BitVec 16 := 0
  retry : Bool := false
  slot : BitVec 16 := 0
  pkt : BitVec 16 := 0
  chunk : BitVec 32 := 0
  mcmask : BitVec 32 := 0
  undel : BitVec 32 := 0
  reason : BitVec 4 := 0
  step : BitVec 64 := 0
  /-- Payload bytes that count: 512, or fewer in the last packet of a transfer. -/
  len : Nat := 512
  payload : Cells := []
deriving DecidableEq, Repr

/-- A packet that waits, and the clock in ns at which it came (R370, R373). -/
structure Queued where
  pk : Packet
  since : Nat := 0
deriving DecidableEq, Repr

/-- A TRAIN frame (R353) with the timetable digests of R357, and whether its CRC was right (R349). -/
structure TrainFrame where
  crcOk : Bool := true
  module : BitVec 17
  port : BitVec 4
  build : BitVec 32
  lpl : BitVec 3
  digests : List (BitVec 32)
deriving DecidableEq, Repr

/-- A frame as received (R347): whether its CRC and its reserved fields were right, its FTYPE and NPKT, its numbers and its
packets. A good frame of FTYPE 1 to 4 is a command of its own. -/
structure PktFrame where
  crcOk : Bool
  formOk : Bool
  ftype : BitVec 4 := 0
  npkt : BitVec 5 := 0
  seq : BitVec 16
  ack : BitVec 16
  pkts : List Packet
deriving DecidableEq, Repr

/-- Where a packet that waits to leave stands (R365): the transit buffer of a port, or local injection. -/
inductive RouteIn where
  | port (p : Fin 9)
  | deck (d : Fin 8)
  | hub
deriving DecidableEq, Repr

/-- What ECC finds in one 32-byte sector that an access reads (R299, R300, R313). -/
inductive EccKind where
  | corrected (persists : Bool)
  | rereadOk
  | lost
deriving DecidableEq, Repr

/-- An ECC finding: the sector number (deck address / 32) and its kind. -/
structure SectorErr where
  sector : Nat
  kind : EccKind
deriving DecidableEq, Repr

/-- One slice's failed shadow comparison (R260): which of the three DPUs agree. -/
inductive ShadowVerdict where
  | first | second | both
deriving DecidableEq, Repr

/-- A failed comparison in one slice of a pen. -/
structure ShadowMiss where
  slice : Fin 16
  verdict : ShadowVerdict
deriving DecidableEq, Repr

/-- A collective of one deck: its slot and the step of the occurrence it is bound to (R401). -/
structure CollRef where
  deck : Fin 8
  slot : BitVec 16
  tstep : BitVec 64
deriving DecidableEq, Repr

/-- A CONTROL notice of Churn (R408). -/
structure Notice where
  slot : BitVec 16
  status : BitVec 16 := 0
  digest : BitVec 32 := 0
  chunk : BitVec 32 := 0
  tstep : BitVec 64 := 0
  originModule : BitVec 17 := 0
  originDeck : BitVec 3 := 0
deriving DecidableEq, Repr

/-- What a fabric flit error hit (R31): the transfer of a mover instruction, of a collective, of an arrived request, of a
snapshot, or of the head entry of a stream. -/
inductive FabricVictim where
  | mover (c : CoreRef) (id : Nat)
  | coll (k : CollRef)
  | request (pk : Packet)
  | snapshot (x : BitVec 4)
  | stream (n : BitVec 13)
deriving DecidableEq, Repr

/-- The header of a command packet that has been taken (R423) and the ring it came from. -/
structure CmdHdr where
  ld : LdRef
  ring : Fin 2
  opcode : BitVec 16
  irq : Bool
  seq : BitVec 32
  tag : BitVec 32
deriving DecidableEq, Repr

/-- BIND_LD parameters (R430). -/
structure BindLdP where
  port : BitVec 8
  ld : BitVec 8
  decks : BitVec 8
  tag : BitVec 3
  window : BitVec 16
  owner : Bool
deriving DecidableEq, Repr

/-- CTX_CREATE parameters. -/
structure CtxCreateP where
  deck : BitVec 8
  pail : BitVec 16
  recv : BitVec 16
deriving DecidableEq, Repr

/-- CTX_DESTROY parameters. -/
structure CtxDestroyP where
  deck : BitVec 8
  ctx : BitVec 8
  drainUs : BitVec 32
deriving DecidableEq, Repr

/-- STREAM_OPEN parameters. -/
structure StreamOpenP where
  deck : BitVec 8
  ctx : BitVec 8
  entries : BitVec 32
  base : BitVec 64
deriving DecidableEq, Repr

/-- STREAM_CLOSE parameters. -/
structure StreamCloseP where
  deck : BitVec 8
  stream : BitVec 16
deriving DecidableEq, Repr

/-- LAUNCH parameters. -/
structure LaunchP where
  deck : BitVec 8
  stream : BitVec 16
  publish : BitVec 32
  start : BitVec 64
deriving DecidableEq, Repr

/-- SYNC_ALLOC parameters. -/
structure SyncAllocP where
  deck : BitVec 8
  ctx : BitVec 8
  count : BitVec 8
  free : Bool
  mask : BitVec 64
deriving DecidableEq, Repr

/-- SYNC_POISON parameters. -/
structure SyncPoisonP where
  deck : BitVec 8
  ctx : BitVec 8
  obj : BitVec 12
  status : BitVec 16
deriving DecidableEq, Repr

/-- MEM_MAP parameters. -/
structure MemMapP where
  deck : BitVec 8
  ctx : BitVec 8
  access : BitVec 4
  rkey : BitVec 32
  base : BitVec 64
  length : BitVec 64
deriving DecidableEq, Repr

/-- QP_OPEN parameters. -/
structure QpOpenP where
  port : BitVec 8
  mtu : BitVec 8
  vlan : BitVec 16
  remoteQpn : BitVec 24
  sqPsn : BitVec 32
  rqPsn : BitVec 32
  remoteIp : BitVec 128
  nextHop : BitVec 48
  retry : BitVec 8
deriving DecidableEq, Repr

/-- TT_LOAD parameters. -/
structure TtLoadP where
  kind : BitVec 8
  variant : BitVec 8
  portOrDeck : BitVec 8
  dir : BitVec 8
  base : BitVec 32
  count : BitVec 32
  source : BitVec 64
deriving DecidableEq, Repr

/-- TT_ARM parameters. -/
structure TtArmP where
  e0 : BitVec 64
  p : BitVec 32
  variant : BitVec 8
  disarm : Bool
deriving DecidableEq, Repr

/-- TT_SELECT_VARIANT parameters. -/
structure TtSelectP where
  variant : BitVec 8
  step : BitVec 64
deriving DecidableEq, Repr

/-- JOB_EPOCH parameters. -/
structure JobEpochP where
  deck : BitVec 8
  ctx : BitVec 8
  applyObj : BitVec 12
  fpSlots : BitVec 16
  step : BitVec 48
  mbase : BitVec 64
  msize : BitVec 64
  hbase : BitVec 64
  hsize : BitVec 64
deriving DecidableEq, Repr

/-- SNAPSHOT parameters. -/
structure SnapshotP where
  deck : BitVec 8
  ctx : BitVec 8
  qpn : BitVec 32
  snapBase : BitVec 64
  length : BitVec 64
  remoteAddr : BitVec 64
  rkey : BitVec 32
deriving DecidableEq, Repr

/-- RESET parameters. -/
structure ResetP where
  level : BitVec 8
  deck : BitVec 8
  ctx : BitVec 8
  core : BitVec 16
deriving DecidableEq, Repr

/-- QUIESCE parameters. -/
structure QuiesceP where
  decks : BitVec 8
  release : Bool
  timeoutUs : BitVec 32
deriving DecidableEq, Repr

/-- FW_STAGE parameters. -/
structure FwStageP where
  offset : BitVec 32
  length : BitVec 32
  source : BitVec 64
  last : Bool
deriving DecidableEq, Repr

/-- ATTEST parameters. -/
structure AttestP where
  nonce : BitVec 256
  dest : BitVec 64
  destLen : BitVec 32
deriving DecidableEq, Repr

/-- MCTP transports (R457). -/
inductive Transport where
  | i3c | cxl
deriving DecidableEq, Repr

/-- PLDM sensors of R460. -/
inductive SensorId where
  | feedAVolts | feedBVolts | inputCurrent | inputPower
  | dieTemp (n : Fin 9)
  | stackTemp (s : Fin 32)
  | elsOutput (n : Fin 4)
deriving DecidableEq, Repr

/-- PLDM state sensors of R460. -/
inductive StateSensorId where
  | htu
  | port (p : Fin 9)
  | deck (d : Fin 8)
  | fwMode
deriving DecidableEq, Repr

/-- PLDM numeric effecters of R460. -/
inductive EffecterId where
  | powerLimit | warmC | hotC | warmCap | hotCap
deriving DecidableEq, Repr

/-- RoCEv2 operations the module does not support (R450). -/
inductive UnsupportedRdma where
  | send | atomic | unreliable | datagram
deriving DecidableEq, Repr

/-- The scope of a reset (R519). -/
inductive Scope where
  | ctx (d : Fin 8) (c : BitVec 4)
  | engine (d : Fin 8) (c : BitVec 4) (core : BitVec 16)
  | compute (d : Fin 8)
  | full (d : Fin 8)
  | module
  | cmdp
deriving DecidableEq, Repr

/-- The feeds (R485). -/
inductive Feed where
  | a | b
deriving DecidableEq, Repr

/-- Which of the boot's verifications failed, at release step 1 or 2 (R474, R483, R484). -/
inductive BootCheck where
  | ok | authFail | rollback | cfgReject
deriving DecidableEq, Repr

/-- Who waits on a sync object (R150). -/
inductive Who where
  | core (i : Nat)
  | stream (n : Nat)
deriving DecidableEq, Repr

/-- What the scratchpad scrubber finds in a unit (R515). -/
inductive SpadFinding where
  | clean | corrected | uncorrectable
deriving DecidableEq, Repr

/-- The reserved registers of a block's range (R12): a stack's word at 0x038, a port's words from 0x050, a context's word at
0x038, a Tally's words outside the table of R227, a context's words from 0x060. -/
inductive ResReg where
  | mem (s : Fin 32)
  | lnk (p : Fin 9) (i : Fin 6)
  | chn (d : Fin 8) (c : BitVec 4)
  | tly (d : Fin 8) (n : BitVec 12) (i : Fin 10)
  | hold (d : Fin 8) (c : BitVec 4) (i : Fin 4)
deriving DecidableEq, Repr

/-- The module registers, by block (the register summaries of 02, 05, 07-14). Space-2 words of a deck are under `syncSet`
and below. -/
inductive Reg where
  | htNow | htNowFrac | htStatus | htCfg | htGmNextSec | htEvents | htDisagree
  | htLinkDelay (k : Fin 9) | htAlarmTime (d : Fin 8) (a : Fin 64) | htAlarmCtl (d : Fin 8) (a : Fin 64)
  | ttStatus | ttEpoch | ttPeriod | ttStep | ttPendingStep | ttArmErr
  | ttTxStat (p : Fin 9) | ttRxStat (p : Fin 9) | ttTtbl (p : Fin 9) (v : Fin 4) (r : Fin 2)
  | ttDsched (d : Fin 8) (v : Fin 4) | ttDstat (d : Fin 8)
  | tlyCtl (d : Fin 8) (c : BitVec 4) | tlyStat (d : Fin 8)
  | tlyTotal (d : Fin 8) (n : BitVec 12) | tlyZeros (d : Fin 8) (n : BitVec 12) | tlySats (d : Fin 8) (n : BitVec 12)
  | tlyNonfinite (d : Fin 8) (n : BitVec 12) | tlyFlushes (d : Fin 8) (n : BitVec 12) | tlyAmax (d : Fin 8) (n : BitVec 12)
  | tlyHist (d : Fin 8) (n : BitVec 12) (m : Fin 16)
  | holdStep (d : Fin 8) (c : BitVec 4) | holdStepStatus (d : Fin 8) (c : BitVec 4) | holdCommit (d : Fin 8) (c : BitVec 4)
  | holdMbase (d : Fin 8) (c : BitVec 4) | holdMsize (d : Fin 8) (c : BitVec 4) | holdBase (d : Fin 8) (c : BitVec 4)
  | holdSize (d : Fin 8) (c : BitVec 4) | holdTop (d : Fin 8) (c : BitVec 4) | holdHwm (d : Fin 8) (c : BitVec 4)
  | holdFault (d : Fin 8) (c : BitVec 4) | holdSnap (d : Fin 8) (c : BitVec 4) | holdSnapTag (d : Fin 8) (c : BitVec 4)
  | holdDrop (d : Fin 8)
  | memCfg | memEvents | memPlogCnt | memPlogLo (n : Fin 64) | memPlogHi (n : Fin 64)
  | memStatus (s : Fin 32) | memEcc (s : Fin 32) | memLink (s : Fin 32) | memRemap (s : Fin 32) | memScrub (s : Fin 32)
  | memPrio (s : Fin 32) | memTherm (s : Fin 32)
  | lnkCfg | lnkMap | lnkFtrk | lnkFdrop
  | lnkStatus (p : Fin 9) | lnkLanesTx (p : Fin 9) | lnkLanesRx (p : Fin 9) | lnkPeer (p : Fin 9) | lnkExpect (p : Fin 9)
  | lnkFibre (p : Fin 9) | lnkErr (p : Fin 9) | lnkDrop (p : Fin 9) | lnkEvents (p : Fin 9) | lnkCtl (p : Fin 9)
  | chnCfg | chnStat | chnResend
  | chnPail (d : Fin 8) (c : BitVec 4) | chnActive (d : Fin 8) (c : BitVec 4) | chnLast (d : Fin 8) (c : BitVec 4)
  | chnUndel (d : Fin 8) (c : BitVec 4) | chnVote (d : Fin 8) (c : BitVec 4) | chnVoteMember (d : Fin 8) (c : BitVec 4)
  | chnSkim (d : Fin 8) (c : BitVec 4)
  | cmdId | cmdCfg | cmdCtl | cmdViol | cmdCrTail (r : Fin 2) | cmdCrHead (r : Fin 2) | cmdSrTail (r : Fin 2)
  | cmdSrHead (r : Fin 2) | cmdEvTail | cmdEvHead | cmdEvLost | cmdEthErr | cmdTmo (g : Fin 7) | cmdCtx (d : Fin 8)
  | cmdCtxDrop (d : Fin 8)
  | mbxPtr (m : Fin 10) | mbxLt (m : Fin 10) | mbxRing (m : Fin 10) | mbxStat (m : Fin 10) | mbxDcfg (d : Fin 8)
  | lck (l : Fin 80) | lckIgnored
  | mgtFw | mgtSvn | mgtCfg | mgtStage | mgtIdent | mgtTraySerial | mgtElsSerial (n : Fin 4) | mgtMctp | mgtEvents
  | pwrStatus | pwrFeedA | pwrFeedB | pwrInput | pwrLimit | pwrGov | pwrCfg | pwrEvents | pwrModule | pwrDeck (d : Fin 8)
  | thmCfg | thmEvents | thmDie (n : Fin 9) | thmCoolant
  | safStatus | safTime | safEvents | safArithCnt | safArith (n : Fin 16) | safArithMiss (n : Fin 16)
  | safArithClean (n : Fin 16) | safSpscrub (d : Fin 8) | safLockstep
  | rstStatus | rstCfg | rstAction | rstLimits | rstLast | rstOptload | rstEvents | rstLegacyWarm | rstSample
  | rstSwrstHub | rstSwrst (d : Fin 8) | rstDetect (n : Fin 16) | bkp (n : Fin 16)
  | ringMem (off : BitVec 15)
  | retained (off : BitVec 13)
  | hdmDecoder | hdmRange
  | reserved (x : ResReg)
  | syncSet (d : Fin 8) (i : BitVec 12) | syncSignal (d : Fin 8) (i : BitVec 12) | syncPoison (d : Fin 8) (i : BitVec 12)
  | syncGroup (d : Fin 8) (g : BitVec 6) | syncTimed (d : Fin 8) (g : BitVec 6) | syncPoisoned (d : Fin 8) (g : BitVec 6)
deriving DecidableEq, Repr

/-- The commands: one constructor per row of spec/opcode_table.json, in the table's order. -/
inductive Instr where
  | nop (c : CoreRef) (f : FmtC)
  | endKernel (c : CoreRef) (f : FmtC)
  | csrr (c : CoreRef) (f : FmtC)
  | csrw (c : CoreRef) (f : FmtC)
  | loop (c : CoreRef) (f : FmtC)
  | fence (c : CoreRef) (f : FmtC)
  | fenceRelease (c : CoreRef)
  | waitObj (c : CoreRef) (f : FmtC)
  | waitt (c : CoreRef) (f : FmtC)
  | waittExpire (c : CoreRef)
  | add (c : CoreRef) (f : FmtR)
  | sub (c : CoreRef) (f : FmtR)
  | andOp (c : CoreRef) (f : FmtR)
  | orOp (c : CoreRef) (f : FmtR)
  | xor (c : CoreRef) (f : FmtR)
  | sll (c : CoreRef) (f : FmtR)
  | srl (c : CoreRef) (f : FmtR)
  | sra (c : CoreRef) (f : FmtR)
  | slt (c : CoreRef) (f : FmtR)
  | sltu (c : CoreRef) (f : FmtR)
  | mul (c : CoreRef) (f : FmtR)
  | mulhu (c : CoreRef) (f : FmtR)
  | div (c : CoreRef) (f : FmtR)
  | divu (c : CoreRef) (f : FmtR)
  | rem (c : CoreRef) (f : FmtR)
  | remu (c : CoreRef) (f : FmtR)
  | addi (c : CoreRef) (f : FmtI)
  | andi (c : CoreRef) (f : FmtI)
  | ori (c : CoreRef) (f : FmtI)
  | xori (c : CoreRef) (f : FmtI)
  | slli (c : CoreRef) (f : FmtI)
  | srli (c : CoreRef) (f : FmtI)
  | srai (c : CoreRef) (f : FmtI)
  | slti (c : CoreRef) (f : FmtI)
  | sltiu (c : CoreRef) (f : FmtI)
  | lih (c : CoreRef) (f : FmtI)
  | ldb (c : CoreRef) (f : FmtI)
  | ldh (c : CoreRef) (f : FmtI)
  | ldw (c : CoreRef) (f : FmtI)
  | ldd (c : CoreRef) (f : FmtI)
  | ldbs (c : CoreRef) (f : FmtI)
  | ldhs (c : CoreRef) (f : FmtI)
  | ldws (c : CoreRef) (f : FmtI)
  | stb (c : CoreRef) (f : FmtI)
  | sth (c : CoreRef) (f : FmtI)
  | stw (c : CoreRef) (f : FmtI)
  | std (c : CoreRef) (f : FmtI)
  | lds (c : CoreRef) (f : FmtI)
  | sts (c : CoreRef) (f : FmtI)
  | fadd (c : CoreRef) (f : FmtR)
  | fsub (c : CoreRef) (f : FmtR)
  | fmul (c : CoreRef) (f : FmtR)
  | ffma (c : CoreRef) (f : FmtR)
  | fmin (c : CoreRef) (f : FmtR)
  | fmax (c : CoreRef) (f : FmtR)
  | flt (c : CoreRef) (f : FmtR)
  | fle (c : CoreRef) (f : FmtR)
  | feq (c : CoreRef) (f : FmtR)
  | fcvtSL (c : CoreRef) (f : FmtR)
  | fcvtLS (c : CoreRef) (f : FmtR)
  | beq (c : CoreRef) (f : FmtI)
  | bne (c : CoreRef) (f : FmtI)
  | blt (c : CoreRef) (f : FmtI)
  | bge (c : CoreRef) (f : FmtI)
  | bltu (c : CoreRef) (f : FmtI)
  | bgeu (c : CoreRef) (f : FmtI)
  | jal (c : CoreRef) (f : FmtI)
  | jalr (c : CoreRef) (f : FmtI)
  | vadd (c : CoreRef) (f : FmtV)
  | vsub (c : CoreRef) (f : FmtV)
  | vmul (c : CoreRef) (f : FmtV)
  | vfma (c : CoreRef) (f : FmtV)
  | vmin (c : CoreRef) (f : FmtV)
  | vmax (c : CoreRef) (f : FmtV)
  | vcmp (c : CoreRef) (f : FmtV)
  | vsel (c : CoreRef) (f : FmtV)
  | vcvt (c : CoreRef) (f : FmtV)
  | vqnt (c : CoreRef) (f : FmtV)
  | vrsqs (c : CoreRef) (f : FmtV)
  | vbcst (c : CoreRef) (f : FmtV)
  | vext (c : CoreRef) (f : FmtV)
  | tlyacc (c : CoreRef) (f : FmtV)
  | tlyctr (c : CoreRef) (f : FmtV)
  | tallyUpdateApply (d : Fin 8)
  | mlds (c : CoreRef) (f : FmtM)
  | mmul (c : CoreRef) (f : FmtM)
  | mdrn (c : CoreRef) (f : FmtM)
  | mzero (c : CoreRef) (f : FmtM)
  | matrixStart (c : CoreRef)
  | gangRendezvous (d : Fin 8) (pen : Fin 200)
  | gangTimeout (d : Fin 8) (pen : Fin 200)
  | mov (c : CoreRef) (f : FmtX)
  | movt (c : CoreRef) (f : FmtX)
  | put (c : CoreRef) (f : FmtX)
  | get (c : CoreRef) (f : FmtX)
  | atom (c : CoreRef) (f : FmtX)
  | sig (c : CoreRef) (f : FmtX)
  | syncrd (c : CoreRef) (f : FmtX)
  | hpush (c : CoreRef) (f : FmtX)
  | hpop (c : CoreRef) (f : FmtX)
  | moverTransferComplete (c : CoreRef) (id : Nat) (errs : List SectorErr)
  | launchStopComplete (d : Fin 8) (id : Nat)
  | syncWaitTimeout (d : Fin 8) (w : Who)
  | beaconSend (p : Fin 9)
  | beaconReceive (p : Fin 9) (crcOk : Bool) (b : Beacon)
  | beaconMissing (p : Fin 9)
  | timeReqReceive (p : Fin 9) (crcOk : Bool) (t1 : Stamp)
  | timeRespReceive (p : Fin 9) (crcOk : Bool) (t1 t2 t3 : Stamp)
  | timeExchangeStart (p : Fin 9)
  | disagreeWindowEnd
  | acquireNoSource
  | holdoverExpire
  | ppsEdge (falling : Bool) (cycles : Nat) (refOk : Bool)
  | ppsOverdue
  | ref25Invalid
  | gmSecondElapse
  | htGmNextSecWrite (a : Agent) (v : BitVec 64)
  | htCfgWrite (a : Agent) (v : BitVec 64)
  | htNowRead (a : Agent)
  | alarmFire (d : Fin 8) (n : Fin 64)
  | stepEpoch
  | sailingDepart (p : Fin 9) (r : Nat)
  | schedLaunch (d : Fin 8) (r : Nat)
  | schedScrub (d : Fin 8) (r : Nat)
  | schedShadow (d : Fin 8) (r : Nat)
  | schedRamp (d : Fin 8) (r : Nat)
  | launchStartTime (d : Fin 8) (n : BitVec 13)
  | shadowCheck (d : Fin 8) (pen : Fin 200) (miss : List ShadowMiss)
  | elsFail (n : Fin 4)
  | elsPairLost (pair : Fin 2)
  | elsInsert (n : Fin 4) (rec : List Byte)
  | fabricFlitUe (d : Fin 8) (v : FabricVictim)
  | deckHubLinkFail (d : Fin 8)
  | deckClearDone (d : Fin 8)
  | laneFail (p : Fin 9) (dir : Fin 2) (lane : Fin 34)
  | portLoss (p : Fin 9)
  | portRetry (p : Fin 9)
  | trainingTimeout (p : Fin 9)
  | quarantineExpire (p : Fin 9)
  | trainFrameReceive (p : Fin 9) (f : TrainFrame)
  | fibreConnectorInsert (p : Fin 9) (rec : List Byte)
  | pktFrameReceive (p : Fin 9) (f : PktFrame)
  | nakReceive (p : Fin 9) (seq : BitVec 16)
  | packetForward (r : RouteIn)
  | packetAgeOut (r : RouteIn)
  | pktWrite (pk : Packet)
  | pktRead (pk : Packet) (errs : List SectorErr)
  | pktAtom (pk : Packet)
  | pktSig (pk : Packet)
  | pktResend (pk : Packet)
  | pktAck (pk : Packet)
  | pktData (pk : Packet)
  | pktVacancy (p : Fin 9) (pk : Packet)
  | pktControl (pk : Packet)
  | pktMcReport (pk : Packet)
  | pktChunk (p : Fin 9) (pk : Packet)
  | fenceWaitExpire (n : Nat)
  | fenceEntryExpire (n : Nat)
  | fenceWindowAbandon (c : CoreRef) (dst : BitVec 17)
  | retryResend (c : CoreRef) (txn : BitVec 16)
  | requestTimeout (c : CoreRef) (txn : BitVec 16)
  | lnkRetrain (a : Agent) (p : Fin 9)
  | lnkDisable (a : Agent) (p : Fin 9) (v : Bool)
  | collBuffersGranted (k : CollRef)
  | chunkLanded (k : CollRef) (p : Fin 9) (chunk : BitVec 32)
  | churnResendReq (p : Fin 9) (n : Notice)
  | churnAbort (p : Fin 9) (n : Notice)
  | collComplete (k : CollRef)
  | collDeadline (k : CollRef)
  | collSlackExpire (k : CollRef)
  | snapshotCopyDone (d : Fin 8) (x : BitVec 4)
  | snapshotShipDone (d : Fin 8) (x : BitVec 4) (ok : Bool)
  | cxlMemRead (l : LdRef) (off len : Nat) (errs : List SectorErr)
  | cxlMemWrite (l : LdRef) (off : Nat) (data : List Byte) (errs : List SectorErr)
  | rowCopyDone (s : Fin 32) (ch : BitVec 4) (row : Nat)
  | remapFlashWrite (s : Fin 32)
  | patrolRead (s : Fin 32) (errs : List SectorErr)
  | scrubAgeLate (s : Fin 32)
  | readAgePromote (s : Fin 32)
  | parityError (s : Fin 32) (ch : BitVec 4)
  | channelRetrainDone (s : Fin 32) (ch : BitVec 4) (ok : Bool)
  | stackTempReport (s : Fin 32) (temp : BitVec 8)
  | warmGraceExpire (s : Fin 32)
  | stackSensorLost (s : Fin 32)
  | selfRefreshEnter (s : Fin 32)
  | memCfgWrite (a : Agent) (v : BitVec 64)
  | cmdDoorbell (l : LdRef) (r : Fin 2) (tail : BitVec 32)
  | cmdTake (l : LdRef) (r : Fin 2)
  | cmdTimeout (l : LdRef) (r : Fin 2)
  | cmdResume (l : LdRef)
  | identify (h : CmdHdr)
  | bindLd (h : CmdHdr) (q : BindLdP)
  | ctxCreate (h : CmdHdr) (q : CtxCreateP)
  | ctxDestroy (h : CmdHdr) (q : CtxDestroyP)
  | ctxDrainEnd (d : Fin 8) (x : BitVec 4)
  | ctxQuarantineEnd (d : Fin 8) (x : BitVec 4)
  | streamOpen (h : CmdHdr) (q : StreamOpenP)
  | streamClose (h : CmdHdr) (q : StreamCloseP)
  | launch (h : CmdHdr) (q : LaunchP)
  | syncAlloc (h : CmdHdr) (q : SyncAllocP)
  | syncPoison (h : CmdHdr) (q : SyncPoisonP)
  | memMap (h : CmdHdr) (q : MemMapP)
  | qpOpen (h : CmdHdr) (q : QpOpenP)
  | qpClose (h : CmdHdr) (qpn : BitVec 32)
  | ttLoad (h : CmdHdr) (q : TtLoadP)
  | ttArm (h : CmdHdr) (q : TtArmP)
  | ttSelectVariant (h : CmdHdr) (q : TtSelectP)
  | timeStatus (h : CmdHdr)
  | jobEpoch (h : CmdHdr) (q : JobEpochP)
  | snapshot (h : CmdHdr) (q : SnapshotP)
  | reset (h : CmdHdr) (q : ResetP)
  | quiesce (h : CmdHdr) (q : QuiesceP)
  | quiesceEnd (l : LdRef) (r : Fin 2)
  | health (h : CmdHdr)
  | fwStage (h : CmdHdr) (q : FwStageP)
  | fwActivate (h : CmdHdr)
  | attest (h : CmdHdr) (q : AttestP)
  | streamNop (d : Fin 8) (n : BitVec 13)
  | streamKernel (d : Fin 8) (n : BitVec 13)
  | streamWait (d : Fin 8) (n : BitVec 13)
  | streamSignal (d : Fin 8) (n : BitVec 13)
  | streamColl (d : Fin 8) (n : BitVec 13)
  | kernelComplete (d : Fin 8) (id : Nat)
  | mbxRing (a : Agent) (m : Fin 10)
  | mbxDeliver (d : Fin 8)
  | lckRead (a : Agent) (n : Fin 80)
  | lckWrite (a : Agent) (n : Fin 80) (v : BitVec 64)
  | cxlPerst (port : Fin 2)
  | rdmaWrite (qpn : Nat) (rkey : BitVec 32) (addr : Nat) (data : List Byte) (errs : List SectorErr)
  | rdmaWriteImmediate (qpn : Nat) (rkey : BitVec 32) (addr : Nat) (data : List Byte) (imm : BitVec 32) (errs : List SectorErr)
  | rdmaRead (qpn : Nat) (rkey : BitVec 32) (addr len : Nat) (errs : List SectorErr)
  | rdmaUnsupportedOp (qpn : Nat) (u : UnsupportedRdma)
  | qpRetryExhausted (qpn : Nat)
  | tlyClear (a : Agent) (d : Fin 8) (x : BitVec 4) (v : BitVec 64)
  | tlyClearDone (d : Fin 8) (x : BitVec 4)
  | setEndpointId (t : Transport) (eid : BitVec 8)
  | getEndpointId (t : Transport)
  | getMctpVersionSupport (t : Transport) (ty : BitVec 8)
  | getMessageTypeSupport (t : Transport)
  | mctpUnsupportedType (t : Transport) (ty : BitVec 8)
  | getPdrRepositoryInfo (t : Transport)
  | getPdr (t : Transport) (handle : BitVec 32)
  | getSensorReading (t : Transport) (i : SensorId)
  | getStateSensorReadings (t : Transport) (i : StateSensorId)
  | getNumericEffecterValue (t : Transport) (i : EffecterId)
  | setNumericEffecterValue (t : Transport) (i : EffecterId) (v : BitVec 16)
  | pollForPlatformEventMessage (t : Transport)
  | getVersion (t : Transport)
  | getCapabilities (t : Transport)
  | negotiateAlgorithms (t : Transport) (rsa3072 sha256 : Bool)
  | getDigests (t : Transport)
  | getCertificate (t : Transport) (slot : BitVec 8) (off len : BitVec 16)
  | challenge (t : Transport) (slot : BitVec 8) (nonce : BitVec 256)
  | getMeasurements (t : Transport) (index : BitVec 8) (signed : Bool) (nonce : BitVec 256)
  | spdmUnsupported (t : Transport) (code : BitVec 8)
  | queryDeviceIdentifiers (t : Transport)
  | getFirmwareParameters (t : Transport)
  | requestUpdate (t : Transport)
  | passComponentTable (t : Transport) (comp : BitVec 16)
  | updateComponent (t : Transport) (comp : BitVec 16) (size : BitVec 32)
  | requestFirmwareData (data : List Byte) (last : Bool)
  | verifyComplete
  | activateFirmware (t : Transport)
  | getStatus (t : Transport)
  | cancelUpdateComponent (t : Transport)
  | cancelUpdate (t : Transport)
  | stageTimeout
  | flashWriteDone
  | presentChange (high : Bool) (rec : List Byte)
  | standbyPowerGood (pufOk : Bool)
  | standbyPowerLoss
  | feedAFail
  | feedAReturn
  | efuseTrip (feed : Feed)
  | efuseReclose (feed : Feed)
  | powerLoss
  | powerWindowEnd
  | powerLimitWrite (a : Agent) (v : BitVec 64)
  | throttleCWrite (a : Agent) (v : BitVec 64)
  | dockReqWrite (a : Agent) (d : Fin 8) (v : Bool)
  | deckDock (d : Fin 8)
  | deckWake (d : Fin 8)
  | dockIdleExpire (d : Fin 8)
  | standbyReqWrite (a : Agent) (v : Bool)
  | moduleStandbyEnter
  | rampWindow
  | rowPark (d : Fin 8) (row : Fin 13)
  | dieTempSample (n : Fin 9) (temps : List (Option (BitVec 8)))
  | thermalWindowEnd
  | cmdpLockstepDiverge
  | spadScrubUnit (c : CoreRef) (r : SpadFinding)
  | spadScrubLate (d : Fin 8)
  | swrstCtx (a : Agent) (d : Fin 8) (x : BitVec 4)
  | swrstEngine (a : Agent) (d : Fin 8) (x : BitVec 4) (core : BitVec 12)
  | swrstCompute (a : Agent) (d : Fin 8)
  | swrstFull (a : Agent) (d : Fin 8)
  | swrstCmdpRestart (a : Agent)
  | swrstEth (a : Agent) (e : Fin 2)
  | swrstModuleWarm (a : Agent)
  | cmdpRestartTimeout
  | resetComplete (sc : Scope)
  | resetTimeLimit (sc : Scope)
  | mrst (low : Bool) (widthNs : Nat)
  | releaseStep (boot : BootCheck)
  | watchdogExpire (c : CoreRef)
  | shutdownRecovery (d : Fin 8)
  | pwrcycTimeout
  | rstLegacyWarm (a : Agent) (key : BitVec 16)
  | legacyWindowExpire
  | registerWrite (a : Agent) (r : Reg) (v : BitVec 64)
  | engineInstructionComplete (c : CoreRef) (e : Engine)
  | badOpcodeIssue (c : CoreRef) (w : BitVec 64)
  | chunkReady (k : CollRef) (p : Fin 9) (chunk : BitVec 32) (errs : List SectorErr)
  | powerSample (watts va ia vb ib : BitVec 16)
  | powerOn
  | fibreConnectorRemove (p : Fin 9)
  | laneSignal (p : Fin 9)
  | idleFrameReceive (p : Fin 9) (ack : BitVec 16)
  | rcRegisterRead (a : Agent) (r : Reg)
  | entdaa (addr : BitVec 7)
  | fencedSendRelease (c : CoreRef)
  | congestionNotificationPacket (qpn : Nat)
  | priorityFlowControlFrame (e : Fin 2) (pause : Bool)
  | cxlLinkTrained (port : Fin 2) (width : BitVec 5) (rate : BitVec 6)
deriving DecidableEq, Repr

end Sys2Proof
end

