-- ==== Sys2Proof/WellFormed.lean ====
section
/-! DEFINITION. The field checks that an encoding must pass at issue: reserved bits, unused fields, reserved values and
format codes (R163 to R183, R191, R210). A core instruction that fails its check faults with BAD_PARAM (R191). -/
namespace Sys2Proof

/-! ### 64-bit formats -/

/-- Only the listed bits of a format C body may be set; `m` is their mask over bits [63:8]. -/
def onlyC (f : FmtC) (m : BitVec 56) : Bool := f.body &&& ~~~m == 0

/-- Field `[lo+w-1 : lo]` of a format C instruction, by its bit numbers in the instruction (R165). -/
def fieldC (f : FmtC) (lo w : Nat) : BitVec w := f.body.extractLsb' (lo - 8) w

/-- NOP and END have no fields (R165). -/
def wfNone (f : FmtC) : Bool := onlyC f 0
/-- CSRR: RD and CSR. -/
def wfCsrr (f : FmtC) : Bool := onlyC f 0xFFF00001F
/-- CSRW: RS1 and CSR. -/
def wfCsrw (f : FmtC) : Bool := onlyC f 0xFFF0003E0
/-- LOOP: LCN, which is not 3 (R162), and LM1. -/
def wfLoop (f : FmtC) : Bool := onlyC f 0xFFF000003 && fieldC f 8 2 != 3
/-- FENCE: KIND, MASK, DST; R166. -/
def wfFence (f : FmtC) : Bool :=
  onlyC f 0x3FF && fieldC f 8 2 != 3 && (fieldC f 8 2 != 0 || fieldC f 14 4 == 0) &&
  (fieldC f 8 2 != 2 || (fieldC f 10 4 == 0 && fieldC f 14 4 == 0))
/-- WAIT: SD, RT, OBJ. -/
def wfWait (f : FmtC) : Bool := onlyC f 0xFFF0003FF
/-- WAITT: RS1. -/
def wfWaitt (f : FmtC) : Bool := onlyC f 0x3E0

/-- Format R with RS1 and RS2. -/
def wfR2 (f : FmtR) : Bool := f.res == 0 && f.rs3 == 0
/-- Format R with RS1, RS2 and RS3 (FFMA). -/
def wfR3 (f : FmtR) : Bool := f.res == 0
/-- Format R with RS1 alone (the conversions). -/
def wfR1 (f : FmtR) : Bool := f.res == 0 && f.rs3 == 0 && f.rs2 == 0

/-- Format I with RD and RS1. -/
def wfI (f : FmtI) : Bool := f.res == 0 && f.rs2 == 0
/-- Immediate shifts: IMM32[31:6] is 0. -/
def wfIShift (f : FmtI) : Bool := wfI f && f.imm.extractLsb' 6 26 == 0
/-- Stores and conditional branches: RS1 and RS2, no RD. -/
def wfIStore (f : FmtI) : Bool := f.res == 0 && f.rd == 0
/-- JAL: RD alone. -/
def wfJal (f : FmtI) : Bool := f.res == 0 && f.rs1 == 0 && f.rs2 == 0

/-! ### Vector layout -/

/-- REG of a vector operand field (R167). -/
def opReg (o : BitVec 17) : Bool := o.getLsbD 16
/-- BASE of an operand field. -/
def opBase (o : BitVec 17) : BitVec 13 := o.extractLsb' 0 13
/-- TS of an operand field. -/
def opTs (o : BitVec 17) : BitVec 3 := o.extractLsb' 13 3

/-- R168 for an operand that may name a v register. -/
def okV (o : BitVec 17) : Bool := !opReg o || (o.extractLsb' 4 12 == 0)
/-- R168 for an operand that must name a k register. -/
def okK (o : BitVec 17) : Bool := opReg o && (o.extractLsb' 3 13 == 0)

/-- Rows of the vector layout: NM1 + 1. -/
def vecN (f : FmtV) : Nat := f.nm1.toNat + 1

/-- Vector SFMT of R183: E4M3, E5M2, E2M1, BF16, FP32. -/
def okSfmt (c : BitVec 4) : Bool := c.toNat ≤ 4
/-- Vector DFMT of R183 outside VCVT and VQNT. -/
def okDfmt (c : BitVec 4) : Bool := c == 3 || c == 4

/-- R171: N is a multiple of 2 for a 4-bit format, wherever the operand lies. -/
def okPack (f : FmtV) (fmt : BitVec 4) : Bool := fmt != 2 || vecN f % 2 == 0

/-- Reserved bits are 0, and KM is 0 where MEN is 0 (R174, R191). -/
def okVBase (f : FmtV) : Bool := f.res == 0 && (f.men == 1 || f.km == 0)

/-- D and A used, with the D format check. -/
def okD (f : FmtV) : Bool := okV f.d && okDfmt f.dfmt && okPack f f.dfmt
def okA (f : FmtV) : Bool := okV f.a && okPack f f.sfmt
def okB (f : FmtV) : Bool := okV f.b && okPack f f.sfmt
def okC (f : FmtV) : Bool := okV f.c && okPack f f.sfmt

/-- VADD, VSUB, VMUL, VMIN, VMAX: D, A, B. -/
def wfV2 (f : FmtV) : Bool :=
  okVBase f && okSfmt f.sfmt && okD f && okA f && okB f && f.c == 0 && f.ext == 0
/-- VFMA: D, A, B, C. -/
def wfV3 (f : FmtV) : Bool := okVBase f && okSfmt f.sfmt && okD f && okA f && okB f && okC f && f.ext == 0
/-- VCMP: D a k register, COND 0 to 5, DFMT 0 (R175, R556). -/
def wfVcmp (f : FmtV) : Bool :=
  okVBase f && okSfmt f.sfmt && okK f.d && f.dfmt == 0 && okA f && okB f && f.c == 0 &&
  f.ext.extractLsb' 3 25 == 0 && decide ((f.ext.extractLsb' 0 3).toNat ≤ 5)
/-- VSEL: MEN must be 1. -/
def wfVsel (f : FmtV) : Bool := wfV2 f && f.men == 1
/-- VCVT: INT32 is accepted on both sides (R183). -/
def wfVcvt (f : FmtV) : Bool :=
  okVBase f && (okSfmt f.sfmt || f.sfmt == 7) && (okSfmt f.dfmt || f.dfmt == 7) && okV f.d &&
  okPack f f.dfmt && okA f && f.b == 0 && f.c == 0 && f.ext == 0
/-- VQNT: R210. -/
def wfVqnt (f : FmtV) : Bool :=
  okVBase f && (f.sfmt == 3 || f.sfmt == 4) && decide (f.dfmt.toNat ≤ 2) && f.men == 0 && !opReg f.d &&
  !opReg f.b && !opReg f.c && okPack f f.dfmt && okA f && f.ext.extractLsb' 1 27 == 0
/-- VRSQS: D and A. -/
def wfVrsqs (f : FmtV) : Bool :=
  okVBase f && okSfmt f.sfmt && okD f && okA f && f.b == 0 && f.c == 0 && f.ext == 0
/-- VBCST: D and EXT.RS; no source format. -/
def wfVbcst (f : FmtV) : Bool :=
  okVBase f && f.sfmt == 0 && okD f && f.a == 0 && f.b == 0 && f.c == 0 && f.ext.extractLsb' 5 23 == 0
/-- VEXT: A a v register, N = 1, EXT.SD and EXT.LANE; D, DFMT unused (R556). -/
def wfVext (f : FmtV) : Bool :=
  okVBase f && okSfmt f.sfmt && f.dfmt == 0 && f.d == 0 && opReg f.a && okA f && f.nm1 == 0 && f.b == 0 &&
  f.c == 0 && f.men == 0 && f.ext.extractLsb' 10 18 == 0
/-- TLYACC: A in SFMT; D, B, C, DFMT, KM and MEN are 0. -/
def wfTlyacc (f : FmtV) : Bool :=
  f.res == 0 && okSfmt f.sfmt && okA f && f.d == 0 && f.b == 0 && f.c == 0 && f.dfmt == 0 && f.km == 0 &&
  f.men == 0 && f.ext.extractLsb' 12 16 == 0
/-- TLYCTR: also A and SFMT 0, N = 1. -/
def wfTlyctr (f : FmtV) : Bool :=
  f.res == 0 && f.sfmt == 0 && f.a == 0 && f.d == 0 && f.b == 0 && f.c == 0 && f.dfmt == 0 && f.km == 0 &&
  f.men == 0 && f.nm1 == 0 && f.ext.extractLsb' 12 16 == 0

/-! ### Matrix layout -/

/-- Rows of the matrix layout: NM1 + 1. -/
def matN (f : FmtM) : Nat := f.nm1.toNat + 1

/-- R177: AROW + N does not exceed 64. -/
def okArow (f : FmtM) : Bool := decide (f.arow.toNat + matN f ≤ 64)

/-- MLDS: NM1, FMT, X, S, TB, GANG (R171, R178, R183, R207). -/
def wfMlds (f : FmtM) : Bool :=
  f.res == 0 && f.res2 == 0 && f.acc == 0 && f.arow == 0 && f.accum == 0 && f.pair == 0 && f.frozen == 0 &&
  f.dfmt == 0 && f.sen == 0 && f.clr == 0 &&
  (f.fmt == 0 || f.fmt == 1 || f.fmt == 2 || f.fmt == 3 || f.fmt == 5 || f.fmt == 6) &&
  (if f.fmt == 5 || f.fmt == 6 then f.tb.extractLsb' 13 3 == 0 else f.tb == 0) &&
  (f.fmt != 3 || f.s == 0) && (!(f.fmt == 2 || f.fmt == 5) || matN f % 2 == 0) && (f.fmt != 6 || matN f % 4 == 0)
/-- MMUL: R177, R179, R183, R207, and for a pair R247 (N = 32, AROW 0 or 32). -/
def wfMmul (f : FmtM) : Bool :=
  f.res == 0 && f.res2 == 0 && f.tb == 0 && f.dfmt == 0 && f.sen == 0 && f.clr == 0 && decide (f.fmt.toNat ≤ 3) &&
  okArow f && (f.frozen == 0 || f.pair == 1) && (f.pair == 0 || f.acc == 0) && (f.fmt != 3 || f.s == 0) &&
  (f.fmt != 2 || matN f % 2 == 0) &&
  (f.pair == 0 || (matN f == 32 && (f.arow == 0 || f.arow == 32)))
/-- MDRN: NM1, ACC, AROW, DFMT, SEN, CLR, GANG, X, S (the table lists S whatever SEN is). (DEDUCED, log entry 26.) -/
def wfMdrn (f : FmtM) : Bool :=
  f.res == 0 && f.res2 == 0 && f.tb == 0 && f.fmt == 0 && f.accum == 0 && f.pair == 0 && f.frozen == 0 &&
  (f.dfmt == 3 || f.dfmt == 4) && okArow f
/-- MZERO: NM1, ACC, AROW. -/
def wfMzero (f : FmtM) : Bool :=
  f.res == 0 && f.res2 == 0 && f.fmt == 0 && f.accum == 0 && f.pair == 0 && f.frozen == 0 && f.gang == 0 &&
  f.x == 0 && f.s == 0 && f.tb == 0 && f.dfmt == 0 && f.sen == 0 && f.clr == 0 && okArow f

/-! ### Mover layout -/

/-- Reserved bits, and CEN, COBJ, AMT (R182). -/
def okXBase (f : FmtX) : Bool :=
  f.res == 0 && f.res2 == 0 && (f.cen == 1 || (f.cobj == 0 && f.amt == 0))

/-- MOV, PUT, GET: RD, RS, RL, PRIO (R181). -/
def wfMove (f : FmtX) : Bool := okXBase f && f.atype == 0 && f.efmt == 0 && f.hall == 0 && f.htag == 0
/-- MOVT: EFMT is E4M3, E5M2, BF16 or FP32. -/
def wfMovt (f : FmtX) : Bool :=
  okXBase f && f.atype == 0 && f.hall == 0 && f.htag == 0 && (f.efmt == 0 || f.efmt == 1 || f.efmt == 3 || f.efmt == 4)
/-- ATOM: ATYPE and HALL; no PRIO. -/
def wfAtom (f : FmtX) : Bool := okXBase f && f.prio == 0 && f.efmt == 0 && f.htag == 0
/-- SIG: RD and RS. -/
def wfSig (f : FmtX) : Bool :=
  okXBase f && f.rl == 0 && f.prio == 0 && f.atype == 0 && f.efmt == 0 && f.hall == 0 && f.htag == 0
/-- SYNCRD: RD, RS; CEN, COBJ and AMT are 0. -/
def wfSyncrd (f : FmtX) : Bool :=
  okXBase f && f.cen == 0 && f.rl == 0 && f.prio == 0 && f.atype == 0 && f.efmt == 0 && f.hall == 0 && f.htag == 0
/-- HPUSH: RS, RL, HTAG, PRIO. -/
def wfHpush (f : FmtX) : Bool := okXBase f && f.rd == 0 && f.atype == 0 && f.efmt == 0 && f.hall == 0
/-- HPOP: RD, RL, HTAG, PRIO. -/
def wfHpop (f : FmtX) : Bool := okXBase f && f.rs == 0 && f.atype == 0 && f.efmt == 0 && f.hall == 0

/-- Every check of R191 that the encoding alone decides, by instruction; the other commands carry only operands that
their types bound. -/
def wellFormed (i : Instr) : Bool :=
  match i with
  | .nop _ f => wfNone f
  | .endKernel _ f => wfNone f
  | .csrr _ f => wfCsrr f
  | .csrw _ f => wfCsrw f
  | .loop _ f => wfLoop f
  | .fence _ f => wfFence f
  | .waitObj _ f => wfWait f
  | .waitt _ f => wfWaitt f
  | .add _ f => wfR2 f
  | .sub _ f => wfR2 f
  | .andOp _ f => wfR2 f
  | .orOp _ f => wfR2 f
  | .xor _ f => wfR2 f
  | .sll _ f => wfR2 f
  | .srl _ f => wfR2 f
  | .sra _ f => wfR2 f
  | .slt _ f => wfR2 f
  | .sltu _ f => wfR2 f
  | .mul _ f => wfR2 f
  | .mulhu _ f => wfR2 f
  | .div _ f => wfR2 f
  | .divu _ f => wfR2 f
  | .rem _ f => wfR2 f
  | .remu _ f => wfR2 f
  | .fadd _ f => wfR2 f
  | .fsub _ f => wfR2 f
  | .fmul _ f => wfR2 f
  | .fmin _ f => wfR2 f
  | .fmax _ f => wfR2 f
  | .flt _ f => wfR2 f
  | .fle _ f => wfR2 f
  | .feq _ f => wfR2 f
  | .ffma _ f => wfR3 f
  | .fcvtSL _ f => wfR1 f
  | .fcvtLS _ f => wfR1 f
  | .addi _ f => wfI f
  | .andi _ f => wfI f
  | .ori _ f => wfI f
  | .xori _ f => wfI f
  | .slti _ f => wfI f
  | .sltiu _ f => wfI f
  | .lih _ f => wfI f
  | .ldb _ f => wfI f
  | .ldh _ f => wfI f
  | .ldw _ f => wfI f
  | .ldd _ f => wfI f
  | .ldbs _ f => wfI f
  | .ldhs _ f => wfI f
  | .ldws _ f => wfI f
  | .lds _ f => wfI f
  | .jalr _ f => wfI f
  | .slli _ f => wfIShift f
  | .srli _ f => wfIShift f
  | .srai _ f => wfIShift f
  | .stb _ f => wfIStore f
  | .sth _ f => wfIStore f
  | .stw _ f => wfIStore f
  | .std _ f => wfIStore f
  | .sts _ f => wfIStore f
  | .beq _ f => wfIStore f
  | .bne _ f => wfIStore f
  | .blt _ f => wfIStore f
  | .bge _ f => wfIStore f
  | .bltu _ f => wfIStore f
  | .bgeu _ f => wfIStore f
  | .jal _ f => wfJal f
  | .vadd _ f => wfV2 f
  | .vsub _ f => wfV2 f
  | .vmul _ f => wfV2 f
  | .vmin _ f => wfV2 f
  | .vmax _ f => wfV2 f
  | .vfma _ f => wfV3 f
  | .vcmp _ f => wfVcmp f
  | .vsel _ f => wfVsel f
  | .vcvt _ f => wfVcvt f
  | .vqnt _ f => wfVqnt f
  | .vrsqs _ f => wfVrsqs f
  | .vbcst _ f => wfVbcst f
  | .vext _ f => wfVext f
  | .tlyacc _ f => wfTlyacc f
  | .tlyctr _ f => wfTlyctr f
  | .mlds _ f => wfMlds f
  | .mmul _ f => wfMmul f
  | .mdrn _ f => wfMdrn f
  | .mzero _ f => wfMzero f
  | .mov _ f => wfMove f
  | .put _ f => wfMove f
  | .get _ f => wfMove f
  | .movt _ f => wfMovt f
  | .atom _ f => wfAtom f
  | .sig _ f => wfSig f
  | .syncrd _ f => wfSyncrd f
  | .hpush _ f => wfHpush f
  | .hpop _ f => wfHpop f
  | .fenceRelease .. | .waittExpire .. | .tallyUpdateApply .. | .matrixStart .. | .gangRendezvous .. | .gangTimeout ..
  | .moverTransferComplete .. | .launchStopComplete .. | .syncWaitTimeout .. | .beaconSend .. | .beaconReceive ..
  | .beaconMissing .. | .timeReqReceive .. | .timeRespReceive .. | .timeExchangeStart .. | .disagreeWindowEnd ..
  | .acquireNoSource .. | .holdoverExpire .. | .ppsEdge .. | .ppsOverdue .. | .ref25Invalid .. | .gmSecondElapse ..
  | .htGmNextSecWrite .. | .htCfgWrite .. | .htNowRead .. | .alarmFire .. | .stepEpoch .. | .sailingDepart ..
  | .schedLaunch .. | .schedScrub .. | .schedShadow .. | .schedRamp .. | .launchStartTime .. | .shadowCheck ..
  | .elsFail .. | .elsPairLost .. | .elsInsert .. | .fabricFlitUe .. | .deckHubLinkFail .. | .deckClearDone ..
  | .laneFail .. | .portLoss .. | .portRetry .. | .trainingTimeout .. | .quarantineExpire .. | .trainFrameReceive ..
  | .fibreConnectorInsert .. | .pktFrameReceive .. | .nakReceive .. | .packetForward .. | .packetAgeOut ..
  | .pktWrite .. | .pktRead .. | .pktAtom .. | .pktSig .. | .pktResend .. | .pktAck .. | .pktData .. | .pktVacancy ..
  | .pktControl .. | .pktMcReport .. | .pktChunk .. | .fenceWaitExpire .. | .fenceEntryExpire ..
  | .fenceWindowAbandon .. | .retryResend .. | .requestTimeout .. | .lnkRetrain .. | .lnkDisable ..
  | .collBuffersGranted .. | .chunkLanded .. | .churnResendReq .. | .churnAbort .. | .collComplete ..
  | .collDeadline .. | .collSlackExpire .. | .snapshotCopyDone .. | .snapshotShipDone .. | .cxlMemRead ..
  | .cxlMemWrite .. | .rowCopyDone .. | .remapFlashWrite .. | .patrolRead .. | .scrubAgeLate .. | .readAgePromote ..
  | .parityError .. | .channelRetrainDone .. | .stackTempReport .. | .warmGraceExpire .. | .stackSensorLost ..
  | .selfRefreshEnter .. | .memCfgWrite .. | .cmdDoorbell .. | .cmdTake .. | .cmdTimeout .. | .cmdResume ..
  | .identify .. | .bindLd .. | .ctxCreate .. | .ctxDestroy .. | .ctxDrainEnd .. | .ctxQuarantineEnd ..
  | .streamOpen .. | .streamClose .. | .launch .. | .syncAlloc .. | .syncPoison .. | .memMap .. | .qpOpen ..
  | .qpClose .. | .ttLoad .. | .ttArm .. | .ttSelectVariant .. | .timeStatus .. | .jobEpoch .. | .snapshot ..
  | .reset .. | .quiesce .. | .quiesceEnd .. | .health .. | .fwStage .. | .fwActivate .. | .attest .. | .streamNop ..
  | .streamKernel .. | .streamWait .. | .streamSignal .. | .streamColl .. | .kernelComplete .. | .mbxRing ..
  | .mbxDeliver .. | .lckRead .. | .lckWrite .. | .cxlPerst .. | .rdmaWrite .. | .rdmaWriteImmediate .. | .rdmaRead ..
  | .rdmaUnsupportedOp .. | .qpRetryExhausted .. | .tlyClear .. | .tlyClearDone .. | .setEndpointId ..
  | .getEndpointId .. | .getMctpVersionSupport .. | .getMessageTypeSupport .. | .mctpUnsupportedType ..
  | .getPdrRepositoryInfo .. | .getPdr .. | .getSensorReading .. | .getStateSensorReadings ..
  | .getNumericEffecterValue .. | .setNumericEffecterValue .. | .pollForPlatformEventMessage .. | .getVersion ..
  | .getCapabilities .. | .negotiateAlgorithms .. | .getDigests .. | .getCertificate .. | .challenge ..
  | .getMeasurements .. | .spdmUnsupported .. | .queryDeviceIdentifiers .. | .getFirmwareParameters ..
  | .requestUpdate .. | .passComponentTable .. | .updateComponent .. | .requestFirmwareData .. | .verifyComplete ..
  | .activateFirmware .. | .getStatus .. | .cancelUpdateComponent .. | .cancelUpdate .. | .stageTimeout ..
  | .flashWriteDone .. | .presentChange .. | .standbyPowerGood .. | .standbyPowerLoss .. | .feedAFail ..
  | .feedAReturn .. | .efuseTrip .. | .efuseReclose .. | .powerLoss .. | .powerWindowEnd .. | .powerLimitWrite ..
  | .throttleCWrite .. | .dockReqWrite .. | .deckDock .. | .deckWake .. | .dockIdleExpire .. | .standbyReqWrite ..
  | .moduleStandbyEnter .. | .rampWindow .. | .rowPark .. | .dieTempSample .. | .thermalWindowEnd ..
  | .cmdpLockstepDiverge .. | .spadScrubUnit .. | .spadScrubLate .. | .swrstCtx .. | .swrstEngine ..
  | .swrstCompute .. | .swrstFull .. | .swrstCmdpRestart .. | .swrstEth .. | .swrstModuleWarm ..
  | .cmdpRestartTimeout .. | .resetComplete .. | .resetTimeLimit .. | .mrst .. | .releaseStep .. | .watchdogExpire ..
  | .shutdownRecovery .. | .pwrcycTimeout .. | .rstLegacyWarm .. | .legacyWindowExpire .. | .registerWrite ..
  | .engineInstructionComplete .. | .badOpcodeIssue .. | .chunkReady .. | .powerSample .. | .powerOn ..
  | .fibreConnectorRemove .. | .laneSignal .. | .idleFrameReceive .. | .rcRegisterRead .. | .entdaa ..
  | .fencedSendRelease .. | .congestionNotificationPacket .. | .priorityFlowControlFrame .. | .cxlLinkTrained .. => true

end Sys2Proof
end

