-- ==== Sys2Proof/Decode.lean ====
section
/-! DEFINITION. The words of the core instructions (chapter 04): the six formats as fields of 128 bits, a decoder and an
encoder; and the host's reading of table words. A 64-bit instruction leaves bits [127:64] 0. -/
namespace Sys2Proof

/-- The command that a word spells by the table's bits. No row of the table gives bits, so no word spells one.
(DESIGN CHOICE, log entry 81.) -/
def decodeTableWord (_nbits _w : Nat) : Option Instr := none

/-! ### The formats -/

/-- Format C (R165): the 56 bits above OP. -/
def readC (w : BitVec 128) : FmtC := { body := w.extractLsb' 8 56 }
def packC (op : BitVec 8) (f : FmtC) : BitVec 128 := 0#64 ++ f.body ++ op

/-- Format R (R163). -/
def readR (w : BitVec 128) : FmtR :=
  { rd := w.extractLsb' 8 5, rs1 := w.extractLsb' 13 5, rs2 := w.extractLsb' 18 5, rs3 := w.extractLsb' 23 5,
    res := w.extractLsb' 28 36 }
def packR (op : BitVec 8) (f : FmtR) : BitVec 128 := 0#64 ++ f.res ++ f.rs3 ++ f.rs2 ++ f.rs1 ++ f.rd ++ op

/-- Format I (R163). -/
def readI (w : BitVec 128) : FmtI :=
  { rd := w.extractLsb' 8 5, rs1 := w.extractLsb' 13 5, rs2 := w.extractLsb' 18 5, res := w.extractLsb' 23 9,
    imm := w.extractLsb' 32 32 }
def packI (op : BitVec 8) (f : FmtI) : BitVec 128 := 0#64 ++ f.imm ++ f.res ++ f.rs2 ++ f.rs1 ++ f.rd ++ op

/-- Vector and tally layout (R173). -/
def readV (w : BitVec 128) : FmtV :=
  { nm1 := w.extractLsb' 8 8, dfmt := w.extractLsb' 16 4, sfmt := w.extractLsb' 20 4, km := w.extractLsb' 24 3,
    men := w.extractLsb' 27 1, res := w.extractLsb' 28 4, d := w.extractLsb' 32 17, a := w.extractLsb' 49 17,
    b := w.extractLsb' 66 17, c := w.extractLsb' 83 17, ext := w.extractLsb' 100 28 }
def packV (op : BitVec 8) (f : FmtV) : BitVec 128 :=
  f.ext ++ f.c ++ f.b ++ f.a ++ f.d ++ f.res ++ f.men ++ f.km ++ f.sfmt ++ f.dfmt ++ f.nm1 ++ op

/-- Matrix layout (R176). -/
def readM (w : BitVec 128) : FmtM :=
  { nm1 := w.extractLsb' 8 6, acc := w.extractLsb' 14 2, arow := w.extractLsb' 16 6, fmt := w.extractLsb' 22 4,
    accum := w.extractLsb' 26 1, pair := w.extractLsb' 27 1, frozen := w.extractLsb' 28 1, gang := w.extractLsb' 29 1,
    res := w.extractLsb' 30 2, x := w.extractLsb' 32 16, s := w.extractLsb' 48 16, tb := w.extractLsb' 64 16,
    dfmt := w.extractLsb' 80 4, sen := w.extractLsb' 84 1, clr := w.extractLsb' 85 1, res2 := w.extractLsb' 86 42 }
def packM (op : BitVec 8) (f : FmtM) : BitVec 128 :=
  f.res2 ++ f.clr ++ f.sen ++ f.dfmt ++ f.tb ++ f.s ++ f.x ++ f.res ++ f.gang ++ f.frozen ++ f.pair ++ f.accum ++ f.fmt ++
  f.arow ++ f.acc ++ f.nm1 ++ op

/-- Mover, sync and hold layout (R180). -/
def readX (w : BitVec 128) : FmtX :=
  { rd := w.extractLsb' 8 5, rs := w.extractLsb' 13 5, rl := w.extractLsb' 18 5, f := w.extractLsb' 23 1,
    cen := w.extractLsb' 24 1, cobj := w.extractLsb' 25 12, amt := w.extractLsb' 37 16, prio := w.extractLsb' 53 2,
    atype := w.extractLsb' 55 2, efmt := w.extractLsb' 57 4, hall := w.extractLsb' 61 1, res := w.extractLsb' 62 2,
    htag := w.extractLsb' 64 16, res2 := w.extractLsb' 80 48 }
def packX (op : BitVec 8) (f : FmtX) : BitVec 128 :=
  f.res2 ++ f.htag ++ f.res ++ f.hall ++ f.efmt ++ f.atype ++ f.prio ++ f.amt ++ f.cobj ++ f.cen ++ f.f ++ f.rl ++ f.rs ++
  f.rd ++ op

/-! ### Opcodes (the opcode tables of chapter 04) -/

/-- The instruction of core `c` that the words at PC spell, the first in bits [63:0]; none for a reserved opcode (R190). -/
def decodeCore (c : CoreRef) (w : BitVec 128) : Option Instr :=
  match (w.extractLsb' 0 8).toNat with
  | 0x00 => some (.nop c (readC w))
  | 0x01 => some (.endKernel c (readC w))
  | 0x02 => some (.csrr c (readC w))
  | 0x03 => some (.csrw c (readC w))
  | 0x04 => some (.loop c (readC w))
  | 0x05 => some (.fence c (readC w))
  | 0x06 => some (.waitObj c (readC w))
  | 0x07 => some (.waitt c (readC w))
  | 0x10 => some (.add c (readR w))
  | 0x11 => some (.sub c (readR w))
  | 0x12 => some (.andOp c (readR w))
  | 0x13 => some (.orOp c (readR w))
  | 0x14 => some (.xor c (readR w))
  | 0x15 => some (.sll c (readR w))
  | 0x16 => some (.srl c (readR w))
  | 0x17 => some (.sra c (readR w))
  | 0x18 => some (.slt c (readR w))
  | 0x19 => some (.sltu c (readR w))
  | 0x1A => some (.mul c (readR w))
  | 0x1B => some (.mulhu c (readR w))
  | 0x1C => some (.div c (readR w))
  | 0x1D => some (.divu c (readR w))
  | 0x1E => some (.rem c (readR w))
  | 0x1F => some (.remu c (readR w))
  | 0x20 => some (.addi c (readI w))
  | 0x21 => some (.andi c (readI w))
  | 0x22 => some (.ori c (readI w))
  | 0x23 => some (.xori c (readI w))
  | 0x24 => some (.slli c (readI w))
  | 0x25 => some (.srli c (readI w))
  | 0x26 => some (.srai c (readI w))
  | 0x27 => some (.slti c (readI w))
  | 0x28 => some (.sltiu c (readI w))
  | 0x29 => some (.lih c (readI w))
  | 0x30 => some (.ldb c (readI w))
  | 0x31 => some (.ldh c (readI w))
  | 0x32 => some (.ldw c (readI w))
  | 0x33 => some (.ldd c (readI w))
  | 0x34 => some (.ldbs c (readI w))
  | 0x35 => some (.ldhs c (readI w))
  | 0x36 => some (.ldws c (readI w))
  | 0x38 => some (.stb c (readI w))
  | 0x39 => some (.sth c (readI w))
  | 0x3A => some (.stw c (readI w))
  | 0x3B => some (.std c (readI w))
  | 0x3C => some (.lds c (readI w))
  | 0x3D => some (.sts c (readI w))
  | 0x40 => some (.fadd c (readR w))
  | 0x41 => some (.fsub c (readR w))
  | 0x42 => some (.fmul c (readR w))
  | 0x43 => some (.ffma c (readR w))
  | 0x44 => some (.fmin c (readR w))
  | 0x45 => some (.fmax c (readR w))
  | 0x46 => some (.flt c (readR w))
  | 0x47 => some (.fle c (readR w))
  | 0x48 => some (.feq c (readR w))
  | 0x49 => some (.fcvtSL c (readR w))
  | 0x4A => some (.fcvtLS c (readR w))
  | 0x50 => some (.beq c (readI w))
  | 0x51 => some (.bne c (readI w))
  | 0x52 => some (.blt c (readI w))
  | 0x53 => some (.bge c (readI w))
  | 0x54 => some (.bltu c (readI w))
  | 0x55 => some (.bgeu c (readI w))
  | 0x56 => some (.jal c (readI w))
  | 0x57 => some (.jalr c (readI w))
  | 0x80 => some (.vadd c (readV w))
  | 0x81 => some (.vsub c (readV w))
  | 0x82 => some (.vmul c (readV w))
  | 0x83 => some (.vfma c (readV w))
  | 0x84 => some (.vmin c (readV w))
  | 0x85 => some (.vmax c (readV w))
  | 0x86 => some (.vcmp c (readV w))
  | 0x87 => some (.vsel c (readV w))
  | 0x88 => some (.vcvt c (readV w))
  | 0x89 => some (.vqnt c (readV w))
  | 0x8A => some (.vrsqs c (readV w))
  | 0x8B => some (.vbcst c (readV w))
  | 0x8C => some (.vext c (readV w))
  | 0x90 => some (.tlyacc c (readV w))
  | 0x91 => some (.tlyctr c (readV w))
  | 0xA0 => some (.mlds c (readM w))
  | 0xA1 => some (.mmul c (readM w))
  | 0xA2 => some (.mdrn c (readM w))
  | 0xA3 => some (.mzero c (readM w))
  | 0xB0 => some (.mov c (readX w))
  | 0xB1 => some (.movt c (readX w))
  | 0xB2 => some (.put c (readX w))
  | 0xB3 => some (.get c (readX w))
  | 0xB4 => some (.atom c (readX w))
  | 0xC0 => some (.sig c (readX w))
  | 0xC1 => some (.syncrd c (readX w))
  | 0xD0 => some (.hpush c (readX w))
  | 0xD1 => some (.hpop c (readX w))
  | _ => none

/-- The words of a core instruction; none for a command that is no core instruction. -/
def encodeCore (i : Instr) : Option (BitVec 128) :=
  match i with
  | .nop _ f => some (packC 0x00 f)
  | .endKernel _ f => some (packC 0x01 f)
  | .csrr _ f => some (packC 0x02 f)
  | .csrw _ f => some (packC 0x03 f)
  | .loop _ f => some (packC 0x04 f)
  | .fence _ f => some (packC 0x05 f)
  | .waitObj _ f => some (packC 0x06 f)
  | .waitt _ f => some (packC 0x07 f)
  | .add _ f => some (packR 0x10 f)
  | .sub _ f => some (packR 0x11 f)
  | .andOp _ f => some (packR 0x12 f)
  | .orOp _ f => some (packR 0x13 f)
  | .xor _ f => some (packR 0x14 f)
  | .sll _ f => some (packR 0x15 f)
  | .srl _ f => some (packR 0x16 f)
  | .sra _ f => some (packR 0x17 f)
  | .slt _ f => some (packR 0x18 f)
  | .sltu _ f => some (packR 0x19 f)
  | .mul _ f => some (packR 0x1A f)
  | .mulhu _ f => some (packR 0x1B f)
  | .div _ f => some (packR 0x1C f)
  | .divu _ f => some (packR 0x1D f)
  | .rem _ f => some (packR 0x1E f)
  | .remu _ f => some (packR 0x1F f)
  | .addi _ f => some (packI 0x20 f)
  | .andi _ f => some (packI 0x21 f)
  | .ori _ f => some (packI 0x22 f)
  | .xori _ f => some (packI 0x23 f)
  | .slli _ f => some (packI 0x24 f)
  | .srli _ f => some (packI 0x25 f)
  | .srai _ f => some (packI 0x26 f)
  | .slti _ f => some (packI 0x27 f)
  | .sltiu _ f => some (packI 0x28 f)
  | .lih _ f => some (packI 0x29 f)
  | .ldb _ f => some (packI 0x30 f)
  | .ldh _ f => some (packI 0x31 f)
  | .ldw _ f => some (packI 0x32 f)
  | .ldd _ f => some (packI 0x33 f)
  | .ldbs _ f => some (packI 0x34 f)
  | .ldhs _ f => some (packI 0x35 f)
  | .ldws _ f => some (packI 0x36 f)
  | .stb _ f => some (packI 0x38 f)
  | .sth _ f => some (packI 0x39 f)
  | .stw _ f => some (packI 0x3A f)
  | .std _ f => some (packI 0x3B f)
  | .lds _ f => some (packI 0x3C f)
  | .sts _ f => some (packI 0x3D f)
  | .fadd _ f => some (packR 0x40 f)
  | .fsub _ f => some (packR 0x41 f)
  | .fmul _ f => some (packR 0x42 f)
  | .ffma _ f => some (packR 0x43 f)
  | .fmin _ f => some (packR 0x44 f)
  | .fmax _ f => some (packR 0x45 f)
  | .flt _ f => some (packR 0x46 f)
  | .fle _ f => some (packR 0x47 f)
  | .feq _ f => some (packR 0x48 f)
  | .fcvtSL _ f => some (packR 0x49 f)
  | .fcvtLS _ f => some (packR 0x4A f)
  | .beq _ f => some (packI 0x50 f)
  | .bne _ f => some (packI 0x51 f)
  | .blt _ f => some (packI 0x52 f)
  | .bge _ f => some (packI 0x53 f)
  | .bltu _ f => some (packI 0x54 f)
  | .bgeu _ f => some (packI 0x55 f)
  | .jal _ f => some (packI 0x56 f)
  | .jalr _ f => some (packI 0x57 f)
  | .vadd _ f => some (packV 0x80 f)
  | .vsub _ f => some (packV 0x81 f)
  | .vmul _ f => some (packV 0x82 f)
  | .vfma _ f => some (packV 0x83 f)
  | .vmin _ f => some (packV 0x84 f)
  | .vmax _ f => some (packV 0x85 f)
  | .vcmp _ f => some (packV 0x86 f)
  | .vsel _ f => some (packV 0x87 f)
  | .vcvt _ f => some (packV 0x88 f)
  | .vqnt _ f => some (packV 0x89 f)
  | .vrsqs _ f => some (packV 0x8A f)
  | .vbcst _ f => some (packV 0x8B f)
  | .vext _ f => some (packV 0x8C f)
  | .tlyacc _ f => some (packV 0x90 f)
  | .tlyctr _ f => some (packV 0x91 f)
  | .mlds _ f => some (packM 0xA0 f)
  | .mmul _ f => some (packM 0xA1 f)
  | .mdrn _ f => some (packM 0xA2 f)
  | .mzero _ f => some (packM 0xA3 f)
  | .mov _ f => some (packX 0xB0 f)
  | .movt _ f => some (packX 0xB1 f)
  | .put _ f => some (packX 0xB2 f)
  | .get _ f => some (packX 0xB3 f)
  | .atom _ f => some (packX 0xB4 f)
  | .sig _ f => some (packX 0xC0 f)
  | .syncrd _ f => some (packX 0xC1 f)
  | .hpush _ f => some (packX 0xD0 f)
  | .hpop _ f => some (packX 0xD1 f)
  | _ => none

/-- The core that a core instruction runs on. -/
def instrCore (i : Instr) : Option CoreRef :=
  match i with
  | .nop c _ => some c
  | .endKernel c _ => some c
  | .csrr c _ => some c
  | .csrw c _ => some c
  | .loop c _ => some c
  | .fence c _ => some c
  | .waitObj c _ => some c
  | .waitt c _ => some c
  | .add c _ => some c
  | .sub c _ => some c
  | .andOp c _ => some c
  | .orOp c _ => some c
  | .xor c _ => some c
  | .sll c _ => some c
  | .srl c _ => some c
  | .sra c _ => some c
  | .slt c _ => some c
  | .sltu c _ => some c
  | .mul c _ => some c
  | .mulhu c _ => some c
  | .div c _ => some c
  | .divu c _ => some c
  | .rem c _ => some c
  | .remu c _ => some c
  | .addi c _ => some c
  | .andi c _ => some c
  | .ori c _ => some c
  | .xori c _ => some c
  | .slli c _ => some c
  | .srli c _ => some c
  | .srai c _ => some c
  | .slti c _ => some c
  | .sltiu c _ => some c
  | .lih c _ => some c
  | .ldb c _ => some c
  | .ldh c _ => some c
  | .ldw c _ => some c
  | .ldd c _ => some c
  | .ldbs c _ => some c
  | .ldhs c _ => some c
  | .ldws c _ => some c
  | .stb c _ => some c
  | .sth c _ => some c
  | .stw c _ => some c
  | .std c _ => some c
  | .lds c _ => some c
  | .sts c _ => some c
  | .fadd c _ => some c
  | .fsub c _ => some c
  | .fmul c _ => some c
  | .ffma c _ => some c
  | .fmin c _ => some c
  | .fmax c _ => some c
  | .flt c _ => some c
  | .fle c _ => some c
  | .feq c _ => some c
  | .fcvtSL c _ => some c
  | .fcvtLS c _ => some c
  | .beq c _ => some c
  | .bne c _ => some c
  | .blt c _ => some c
  | .bge c _ => some c
  | .bltu c _ => some c
  | .bgeu c _ => some c
  | .jal c _ => some c
  | .jalr c _ => some c
  | .vadd c _ => some c
  | .vsub c _ => some c
  | .vmul c _ => some c
  | .vfma c _ => some c
  | .vmin c _ => some c
  | .vmax c _ => some c
  | .vcmp c _ => some c
  | .vsel c _ => some c
  | .vcvt c _ => some c
  | .vqnt c _ => some c
  | .vrsqs c _ => some c
  | .vbcst c _ => some c
  | .vext c _ => some c
  | .tlyacc c _ => some c
  | .tlyctr c _ => some c
  | .mlds c _ => some c
  | .mmul c _ => some c
  | .mdrn c _ => some c
  | .mzero c _ => some c
  | .mov c _ => some c
  | .movt c _ => some c
  | .put c _ => some c
  | .get c _ => some c
  | .atom c _ => some c
  | .sig c _ => some c
  | .syncrd c _ => some c
  | .hpush c _ => some c
  | .hpop c _ => some c
  | _ => none

end Sys2Proof
end

