-- ==== Sys2Proof/Machine/Codes.lean ====
section
/-! DEFINITION. The status codes of R433, by name. -/
namespace Sys2Proof.Machine

/-- A 16-bit status code (R433). -/
abbrev Status := BitVec 16

abbrev stGood : Status := 0x0000
abbrev stPending : Status := 0x0001
abbrev stBadOpcode : Status := 0x0101
abbrev stBadParam : Status := 0x0102
abbrev stBadPacket : Status := 0x0103
abbrev stNoContext : Status := 0x0104
abbrev stNoStream : Status := 0x0105
abbrev stNotBound : Status := 0x0106
abbrev stBusyReset : Status := 0x0107
abbrev stNoSync : Status := 0x0108
abbrev stMismatch : Status := 0x0201
abbrev stCheckFailed : Status := 0x0202
abbrev stLinkLost : Status := 0x0203
abbrev stPeerReset : Status := 0x0204
abbrev stLate : Status := 0x0205
abbrev stStaleShard : Status := 0x0206
abbrev stShardChanged : Status := 0x0207
abbrev stFencedMember : Status := 0x0208
abbrev stVoteFailed : Status := 0x0209
abbrev stHoldFull : Status := 0x0301
abbrev stHoldEmpty : Status := 0x0302
abbrev stHoldTag : Status := 0x0303
abbrev stSyncTimeout : Status := 0x0304
abbrev stArithCheck : Status := 0x0305
abbrev stMemPoison : Status := 0x0306
abbrev stIsolated : Status := 0x0307
abbrev stAdrift : Status := 0x0401
abbrev stMiswired : Status := 0x0402
abbrev stIncompatiblePeer : Status := 0x0403
abbrev stThermalLimit : Status := 0x0404
abbrev stAuthFailed : Status := 0x0501
abbrev stRollback : Status := 0x0502

end Sys2Proof.Machine
end

