-- ==== Sys2Proof/Machine/Maps.lean ====
section
/-! DEFINITION. The operations on sparse maps and byte stores: one place for reading, writing, block copies and byte
order (all multi-byte fields are little-endian, chapter 00 "Notation"). -/
namespace Sys2Proof.Machine
open Sys2Proof

/-- The entry of key `i`, or the default `d` where none is listed. -/
def mapGet {α : Type} (d : α) (m : SMap α) (i : Nat) : α :=
  match m with
  | [] => d
  | (k, v) :: rest => if k = i then v else mapGet d rest i

/-- `m` without key `i`. -/
def mapErase {α : Type} (m : SMap α) (i : Nat) : SMap α := m.filter (fun e => e.1 != i)

/-- `m` with `v` listed at key `i`, keys rising. -/
def mapInsert {α : Type} (m : SMap α) (i : Nat) (v : α) : SMap α :=
  match m with
  | [] => [(i, v)]
  | (k, w) :: rest =>
    if i < k then (i, v) :: (k, w) :: rest
    else if k = i then (i, v) :: rest
    else (k, w) :: mapInsert rest i v

/-- Write `v` at key `i`; the default value is not listed. -/
def mapSet {α : Type} [DecidableEq α] (d : α) (m : SMap α) (i : Nat) (v : α) : SMap α :=
  if v = d then mapErase m i else mapInsert m i v

/-- Change the entry of key `i`. -/
def mapMod {α : Type} [DecidableEq α] (d : α) (m : SMap α) (i : Nat) (f : α → α) : SMap α :=
  mapSet d m i (f (mapGet d m i))

/-- The canonical form: keys strictly rising, no entry equal to the default. -/
def mapWf {α : Type} [DecidableEq α] (d : α) (m : SMap α) : Bool :=
  match m with
  | [] => true
  | (k, v) :: rest => (v != d) && (rest.all (fun e => decide (k < e.1))) && mapWf d rest

/-- The part of `m` at `a` to `a + n - 1`, its keys counted from 0. -/
def mapSlice {α : Type} (m : SMap α) (a n : Nat) : SMap α :=
  (m.filter (fun e => decide (a ≤ e.1) && decide (e.1 < a + n))).map (fun e => (e.1 - a, e.2))

/-- `m` with the `n` keys from `a` replaced by `src`, whose keys count from 0. -/
def mapSplice {α : Type} (m : SMap α) (a n : Nat) (src : SMap α) : SMap α :=
  m.filter (fun e => decide (e.1 < a)) ++
  ((src.filter (fun e => decide (e.1 < n))).map (fun e => (e.1 + a, e.2)) ++
   m.filter (fun e => decide (a + n ≤ e.1)))

/-- One byte of a byte store. -/
def cellGet (m : Cells) (a : Nat) : Byte := mapGet 0 m a

/-- Write one byte. -/
def cellSet (m : Cells) (a : Nat) (b : Byte) : Cells := mapSet 0 m a b

/-- `n` bytes from `a`, lowest address first. -/
def readBytes (m : Cells) (a n : Nat) : List Byte := (List.range n).map (fun i => cellGet m (a + i))

/-- Write bytes from `a` upwards. -/
def writeBytes (m : Cells) (a : Nat) (bs : List Byte) : Cells :=
  match bs with
  | [] => m
  | b :: rest => writeBytes (cellSet m a b) (a + 1) rest

/-- The number that `n` bytes from `a` spell, little-endian. -/
def readNat (m : Cells) (a n : Nat) : Nat :=
  match n with
  | 0 => 0
  | k + 1 => (cellGet m a).toNat + 256 * readNat m (a + 1) k

/-- The lowest `n` bytes of `v`, little-endian. -/
def natBytes (n v : Nat) : List Byte :=
  match n with
  | 0 => []
  | k + 1 => BitVec.ofNat 8 v :: natBytes k (v / 256)

/-- The number that bytes spell, little-endian. -/
def bytesNat (bs : List Byte) : Nat :=
  match bs with
  | [] => 0
  | b :: rest => b.toNat + 256 * bytesNat rest

/-- Write the lowest `n` bytes of `v` at `a`. -/
def writeNat (m : Cells) (a n v : Nat) : Cells := writeBytes m a (natBytes n v)

/-- A byte list as a store from address 0. -/
def bytesCells (bs : List Byte) : Cells := writeBytes [] 0 bs

/-- Bits `[hi:lo]` of a number. -/
def bits (v lo w : Nat) : Nat := v / 2 ^ lo % 2 ^ w

/-- Add 1, staying at all ones. -/
def satInc {w : Nat} (v : BitVec w) : BitVec w := if v = BitVec.allOnes w then v else v + 1

/-- Add `n`, saturating at all ones. -/
def satAdd {w : Nat} (v : BitVec w) (n : Nat) : BitVec w :=
  if v.toNat + n < 2 ^ w then BitVec.ofNat w (v.toNat + n) else BitVec.allOnes w

/-- One bit as a Bool. -/
def bitOf {w : Nat} (v : BitVec w) (i : Nat) : Bool := v.getLsbD i

/-- A Bool as one bit. -/
def boolNat (b : Bool) : Nat := if b then 1 else 0

/-- Write bit `i`. -/
def setBit {w : Nat} (v : BitVec w) (i : Nat) (b : Bool) : BitVec w :=
  if b then v ||| BitVec.ofNat w (2 ^ i) else v &&& ~~~ BitVec.ofNat w (2 ^ i)

/-- Replace element `i` of a list. -/
def listMod {α : Type} (l : List α) (i : Nat) (f : α → α) : List α := l.modify i f

end Sys2Proof.Machine
end

