-- ==== Sys2Proof/Machine/CoreState.lean ====
section
/-! DEFINITION. The state of one core: register files, memories, engine queues, loops, fences and waits (chapter 03),
the matrix slice (chapter 06), the per-operation counters (R220). -/
namespace Sys2Proof.Machine
open Sys2Proof

/-- A stride register Tn (chapter 03, Control and status registers). -/
structure Stride where
  row : BitVec 16 := 0
  iter : BitVec 14 := 0
  loop : BitVec 2 := 0
deriving DecidableEq, Repr

/-- CORE_FAULT. -/
structure CoreFault where
  status : Status := 0
  pc : BitVec 13 := 0
  engine : BitVec 2 := 0
  valid : Bool := false
deriving DecidableEq, Repr

/-- A running hardware loop: its counter and the words of its body (R138). -/
structure LoopFrame where
  ctr : BitVec 2
  first : Nat
  last : Nat
deriving DecidableEq, Repr

/-- A waiting FENCE.PASS (R128): engine masks, and the sequence number the fence took. -/
structure Pass where
  src : BitVec 4
  dst : BitVec 4
  seq : Nat
deriving DecidableEq, Repr

/-- A scratchpad operand as captured at issue (R111, R126): the unit of row 0 and the signed row stride; or a register
operand (R168), naming the first v or k register. -/
inductive VOp where
  | spad (start : Nat) (stride : Int)
  | vreg (r : Nat)
deriving DecidableEq, Repr

/-- A queued vector or tally instruction, everything it names read at issue (R111). `mask` is KM's value. -/
structure VecEntry where
  seq : Nat
  pc : BitVec 13
  op : BitVec 8
  n : Nat
  dfmt : BitVec 4
  sfmt : BitVec 4
  men : Bool
  mask : BitVec 32
  d : VOp
  a : VOp
  b : VOp
  c : VOp
  ext : BitVec 28
  scalar : W32
deriving DecidableEq, Repr

/-- A queued matrix instruction. `low` is its bits [31:0] (R241). -/
structure MatEntry where
  seq : Nat
  pc : BitVec 13
  op : BitVec 8
  low : BitVec 32
  n : Nat
  acc : Nat
  arow : Nat
  fmt : BitVec 4
  accum : Bool
  pair : Bool
  frozen : Bool
  gang : Bool
  x : Nat
  xStride : Int
  s : Nat
  tb : Nat
  dfmt : BitVec 4
  sen : Bool
  clr : Bool
  started : Bool := false
  /-- A ganged MMUL: the rows and scale bytes that the lead core's scratchpad gave at the start (R242). -/
  lead : Option (List (List Nat) × List Nat) := none
deriving DecidableEq, Repr

/-- A queued or running mover instruction (R180, R181). `rest` counts what it still waits for: reply packets, granules
or the local copy; `err` is the first error (R135). -/
structure MovEntry where
  seq : Nat
  pc : BitVec 13
  op : BitVec 8
  f : Bool
  cobj : Option (BitVec 12)
  amt : BitVec 16
  prio : BitVec 2
  atype : BitVec 2
  efmt : BitVec 4
  hall : Bool
  htag : BitVec 16
  dst : W64
  src : W64
  len : Nat
  rd : BitVec 5
  started : Bool := false
  /-- The source has been read in full (R128, FENCE.SOURCE). -/
  srcRead : Bool := false
  /-- The target is another module. -/
  remote : Bool := false
  /-- Packets of a PUT or ATOM already sent, and requests not yet answered. -/
  sent : Nat := 0
  rest : Nat := 0
  err : Status := 0
  /-- The target module of a remote instruction. -/
  target : BitVec 17 := 0
  /-- The word that a remote SYNCRD has received and not yet given to its register (R115). -/
  value : Option W64 := none
deriving DecidableEq, Repr

/-- Why a core issues or does not (R110). -/
inductive RunState where
  /-- No kernel runs on the core. -/
  | idle
  | ready
  /-- FENCE, kind 0 (R128). -/
  | fence (mask : BitVec 4)
  /-- FENCE.SOURCE. -/
  | fenceSource
  /-- WAIT (R150): the deck's list of waiters holds the object and the target. -/
  | object
  /-- WAITT (R152): the hall time waited for, and the tick boundary at which issue resumes. -/
  | time (t boundary : Nat)
  /-- A result-to-scalar instruction (R115) of the engine is incomplete. -/
  | result (e : Engine) (seq : Nat)
  /-- END waits for the engines (R187). -/
  | endWait
  /-- The core's part of the launch has ended (R187). -/
  | ended
  /-- Stopped by a fault of its own or of its launch (R156). -/
  | stopped
deriving DecidableEq, Repr

/-- A live fence window of a core's mover for one destination module (R366). -/
structure SendWin where
  epoch : BitVec 16 := 0
  sent : Nat := 0
  pred : Bool := false
  /-- Model clock in ns at its last send. -/
  last : Nat := 0
deriving DecidableEq, Repr

/-- An outstanding request packet of a core, by TXN: the instruction it belongs to, what was sent, the data packets still
to come (GET), whether a RETRY reply makes it wait for its re-send (R368). -/
structure TxnRec where
  seq : Nat
  packet : Packet
  left : Nat := 0
  retry : Bool := false
  /-- Model clock in ns when the packet was sent (R372), and when it was answered with RETRY (R368). -/
  sentAt : Nat := 0
  retryAt : Nat := 0
deriving DecidableEq, Repr

/-- One core. -/
structure Core where
  /-- s1 to s31; s0 is never listed. -/
  s : SMap W64 := []
  /-- v registers: lane l of v r at key 32r + l. -/
  v : SMap W32 := []
  k : SMap (BitVec 32) := []
  /-- Accumulators: element [row][col] of acc a at key 4096a + 64row + col. -/
  acc : SMap W32 := []
  pc : BitVec 13 := 0
  imem : SMap W64 := []
  dmem : Cells := []
  spad : Cells := []
  /-- Scratchpad units that hold an uncorrectable error (R125). -/
  spadBad : SMap Bool := []
  /-- Single-bit errors of the scratchpad that were corrected and counted (R125). -/
  spadCe : Nat := 0
  fault : CoreFault := {}
  /-- CORE_CTX. -/
  ctx : BitVec 4 := 0
  tag : BitVec 3 := 0
  launchSeq : BitVec 32 := 0
  /-- The core clock's time at kernel start, for CORE_CYCLE; none before the first kernel since reset. -/
  start : Option Nat := none
  t : SMap Stride := []
  lc : SMap (BitVec 32) := []
  live : SMap (BitVec 32) := []
  latched : SMap (BitVec 32) := []
  loops : List LoopFrame := []
  passes : List Pass := []
  run : RunState := .idle
  /-- The launch the core belongs to. -/
  launch : Option Nat := none
  /-- The context whose kernel last ran here (R118). -/
  lastCtx : Option (BitVec 4) := none
  /-- Model clock in ns until which the DKC zeroes the core for another context (R118). -/
  zeroUntil : Nat := 0
  /-- Sequence number of the next queued instruction. -/
  seq : Nat := 0
  vq : List VecEntry := []
  mq : List MatEntry := []
  xq : List MovEntry := []
  /-- Stationary rows of the slice: element e of DPU p at key 32p + e, E4M3 after expansion (R205). -/
  stat : SMap (BitVec 16) := []
  statScale : Cells := []
  active : BitVec 64 := 0
  statFmt : Option (BitVec 4) := none
  /-- PC of the last matrix instruction started (R261). -/
  matPc : BitVec 13 := 0
  satc : BitVec 32 := 0
  flsc : BitVec 32 := 0
  /-- A Tally update of this core is queued at the Tally unit (R225). -/
  tallySent : Bool := false
  /-- Fence windows by destination module, the number the last one opened took, and the clock at which it opened. -/
  wins : SMap (Option SendWin) := []
  winEpoch : BitVec 16 := 0
  winOpened : Option Nat := none
  /-- Model clock in ns at which an engine reset last cleared the core (R371). -/
  clearedAt : Option Nat := none
  txns : SMap (Option TxnRec) := []
  nextTxn : BitVec 16 := 0
  /-- Transfers within the module that the wrapper has completed and whose completion is still to come (R157). -/
  isolated : List Nat := []
deriving DecidableEq, Repr

end Sys2Proof.Machine
end

