-- ==== Sys2Proof/Machine/DeckState.lean ====
section
/-! DEFINITION. The state of one deck: its cores, sync unit (chapter 03), Tally unit (05), contexts with hold and
collective registers (07, 10), streams and launches (11), stacks and their controllers (08), schedule memory and
alarms (02), pens and shadow checking (01, 06), power state (13). -/
namespace Sys2Proof.Machine
open Sys2Proof

/-- The fields of an object word that belong to the object (R144); WAITED, CTX and ALLOC follow from the waiters and
the group. -/
structure SyncObj where
  count : BitVec 32 := 0
  status : Status := 0
  poison : Bool := false
  sat : Bool := false
deriving DecidableEq, Repr

/-- A group configuration word and timed-out word (R144); POISONED mirrors the objects. -/
structure SyncGroup where
  timeout : BitVec 24 := 10000
  ctx : BitVec 4 := 0
  alloc : Bool := false
  timed : BitVec 64 := 0
deriving DecidableEq, Repr

/-- A waiter of the sync unit (R150) and the model clock in ns at the start of its wait; `reported` is set once its
SYNC_TIMEOUT is raised, `untimed` once a write of TIMEOUT 0 has ended its timeout (R155). -/
structure Waiter where
  who : Who
  sd : BitVec 5
  obj : BitVec 12
  target : W64
  start : Nat := 0
  reported : Bool := false
  untimed : Bool := false
deriving DecidableEq, Repr

/-- One Tally (R223); bins by number. -/
structure Tally where
  total : W64 := 0
  zeros : W64 := 0
  sats : W64 := 0
  nonfinite : W64 := 0
  flushes : W64 := 0
  amax : BitVec 32 := 0
  bins : SMap (BitVec 32) := []
deriving DecidableEq, Repr

/-- An update that waits at the Tally unit (R225): who sent it and what it adds. -/
structure TlyUpdate where
  core : Nat
  tally : BitVec 12
  total : Nat := 0
  zeros : Nat := 0
  sats : Nat := 0
  nonfinite : Nat := 0
  flushes : Nat := 0
  amax : BitVec 32 := 0
  bins : SMap Nat := []
deriving DecidableEq, Repr

/-- The HOLD registers of a context (chapter 07). -/
structure Hold where
  step : BitVec 48 := 0
  attempt : BitVec 16 := 0
  status : Status := 0x0307
  origin : BitVec 3 := 0
  /-- 0 CLOSED, 1 OPEN, 2 BROKEN (R283). -/
  gate : BitVec 2 := 0
  defer : Bool := false
  applyObj : BitVec 12 := 0
  mbase : BitVec 40 := 0
  msize : BitVec 40 := 0
  base : BitVec 40 := 0
  size : BitVec 40 := 0
  fpSlots : BitVec 13 := 0
  top : BitVec 40 := 0
  entries : BitVec 24 := 0
  hwm : BitVec 40 := 0
  faultStatus : Status := 0
  faultWant : BitVec 16 := 0
  faultFound : BitVec 16 := 0
  faultCore : BitVec 12 := 0
  faultValid : Bool := false
  snapState : BitVec 3 := 0
  snapStatus : Status := 0
  snapTag : W64 := 0
  /-- JOB_EPOCH has named APPLY_OBJ and the regions. -/
  configured : Bool := false
  /-- A GOOD vote's opening waits for the snapshot copy (R284). -/
  opening : Bool := false
deriving DecidableEq, Repr

/-- A snapshot in progress (R293 to R295). -/
structure SnapJob where
  hdr : CmdHdr
  qpn : BitVec 32
  dst : BitVec 64
  length : BitVec 64
  remote : BitVec 64
  rkey : BitVec 32
deriving DecidableEq, Repr

/-- The life of a context id (R442). -/
inductive CtxLife where
  | free | live | draining | isolating | quarantine
deriving DecidableEq, Repr

/-- One context: its life, its hold and its collective registers (R414). -/
structure Ctx where
  life : CtxLife := .free
  hold : Hold := {}
  pailBase : BitVec 16 := 0
  pailSize : BitVec 16 := 0
  recv : BitVec 16 := 0
  /-- Slots of its running collectives, oldest first (CHN.ACTIVE). -/
  running : List (BitVec 16) := []
  lastStatus : Status := 0
  lastSlot : BitVec 16 := 0
  lastSeq : BitVec 32 := 0
  undel : BitVec 32 := 0
  undelAxis : BitVec 2 := 0
  voteNbad : BitVec 32 := 0
  voteStatus : Status := 0
  voteColl : Status := 0
  voteMember : BitVec 32 := 0
  skimSat : BitVec 32 := 0
  skimFlush : BitVec 32 := 0
  hbias : BitVec 8 := 0x14
  clearing : Bool := false
  snap : Option SnapJob := none
  /-- The command that destroys the context, for its final reply; none for an unbinding. -/
  destroyer : Option CmdHdr := none
  /-- Core transactions that stood when the context was isolated: core and TXN (R443). -/
  retired : List (Nat × Nat) := []
  /-- Model clock in ns at which DRAIN_US has passed (R442), and at which the quarantine began (R443). -/
  drainUntil : Nat := 0
  quarAt : Nat := 0
deriving DecidableEq, Repr

/-- A published stream entry that has not started (R436, R438). -/
structure PubEntry where
  slot : Nat
  order : Nat
  /-- The LAUNCH command's START for this entry, and the command that waits for its final reply. -/
  start : Nat := 0
  hdr : Option CmdHdr := none
  /-- Its START has come (R101). -/
  due : Bool := false
  /-- START had already passed on arrival (R101). -/
  late : Bool := false
deriving DecidableEq, Repr

/-- What a stream is executing. -/
inductive StreamRun where
  | none
  | kernel (launch : Nat)
  | wait
deriving DecidableEq, Repr

/-- A stream (R436). -/
structure Stream where
  ctx : BitVec 4
  entries : Nat
  base : BitVec 40
  /-- Ring slot of the next entry to be published. -/
  next : Nat := 0
  pubs : List PubEntry := []
  run : StreamRun := .none
  closing : Option CmdHdr := none
  /-- COBJ, CEN and AMT of the WAIT entry that runs. -/
  waitCobj : Option (BitVec 12) := none
  waitAmt : BitVec 16 := 0
deriving DecidableEq, Repr

/-- A running launch (R436, R156). -/
structure Launch where
  stream : Nat
  ctx : BitVec 4
  cores : List Nat
  cobj : Option (BitVec 12) := none
  amt : BitVec 16 := 0
  faulted : Option Status := none
  hdr : Option CmdHdr := none
  seq : BitVec 32 := 0
  late : Bool := false
  /-- Started by a LAUNCH record (detector 3 of R531). -/
  sched : Bool := false
deriving DecidableEq, Repr

/-- An alarm of the deck (R107). -/
structure Alarm where
  time : W64 := 0
  sync : BitVec 12 := 0
  enable : Bool := false
  fired : Bool := false
  ctx : BitVec 4 := 0
deriving DecidableEq, Repr

/-- An entry of a stack's remap table (R331). -/
structure RemapEntry where
  fails : BitVec 2 := 0
  retired : Bool := false
  spare : BitVec 8 := 0
  prev : BitVec 8 := 0
  time : W64 := 0
deriving DecidableEq, Repr

/-- One stack and its controller (chapter 08): the MEM registers, the remap table by channel·0x18_0000 + row, the
spares consumed by channel·256 + spare. -/
structure Stack where
  temp : BitVec 8 := 0
  level : BitVec 2 := 0
  grace : Bool := false
  refresh2x : Bool := false
  selfRefresh : Bool := false
  /-- No report for three periods (R325). -/
  sensorLost : Bool := false
  chFailed : BitVec 16 := 0
  chRetrain : BitVec 16 := 0
  ce : BitVec 32 := 0
  ue : BitVec 16 := 0
  parityRetry : BitVec 16 := 0
  retrain : BitVec 16 := 0
  rereadOk : BitVec 16 := 0
  partialDrop : BitVec 16 := 0
  passes : BitVec 32 := 0
  ageS : BitVec 32 := 0
  p3Demoted : BitVec 32 := 0
  aged : BitVec 32 := 0
  /-- Priority-3 reads served since P3_DEMOTED was last brought up to date (R309). -/
  p3Reads : Nat := 0
  /-- Poisoned sectors that patrol has met and skipped (R301). -/
  skipped : Nat := 0
  /-- SCRUB_LATE has been raised for the pass (R321). -/
  scrubLate : Bool := false
  /-- Failed channels that are trained again when the deck comes up (R316). -/
  trainAgain : BitVec 16 := 0
  warmEntries : BitVec 16 := 0
  hotEntries : BitVec 16 := 0
  maxTemp : BitVec 8 := 0
  remap : SMap RemapEntry := []
  /-- The copy of the table in flash, and the older copy (R332, R476). -/
  remapFlash : SMap RemapEntry := []
  remapOlder : SMap RemapEntry := []
  spareUsed : SMap Bool := []
  /-- Rows whose copy to a spare is running, by the key of `remap` (R329). -/
  copying : List Nat := []
  /-- Hall times of a channel's retrainings, newest first, by channel (R316). -/
  retrainTimes : SMap (List Nat) := []
  /-- The next row that patrol reads (R320), as row·16 + channel. -/
  patrol : Nat := 0
deriving DecidableEq, Repr

/-- The power state of a deck (PWR.DECKd.STATE). -/
inductive DeckPower where
  | run | dock | shutdown | waking
deriving DecidableEq, Repr

/-- A reset that is under way on a deck (R519, R527). -/
inductive DeckReset where
  | none | compute | full
deriving DecidableEq, Repr

/-- The shadow checker of a pen (R257, R258): the number of the next check and the hall time of each DPU's last clean
check, by 64·slice + DPU. -/
structure PenShadow where
  check : Nat := 0
  /-- A sweep of all 64 DPUs has completed in the running window (R258). -/
  swept : Bool := false
  clean : SMap Nat := []
deriving DecidableEq, Repr

/-- One deck. -/
structure Deck where
  cores : SMap Core := []
  objs : SMap SyncObj := []
  groups : SMap SyncGroup := []
  waiters : List Waiter := []
  tallies : SMap Tally := []
  tlyQueue : List TlyUpdate := []
  binSat : BitVec 32 := 0
  ctxs : SMap Ctx := []
  gateDrop : BitVec 32 := 0
  ctxDrop : BitVec 32 := 0
  streams : SMap (Option Stream) := []
  launches : SMap (Option Launch) := []
  nextLaunch : Nat := 0
  nextOrder : Nat := 0
  /-- Stack memory by deck address, and the poisoned sectors by sector number (R300). -/
  mem : Cells := []
  memBad : SMap Bool := []
  /-- ECC errors that stand in sectors and that no read has met yet (R299, R300). -/
  latent : List SectorErr := []
  stks : SMap Stack := []
  /-- Schedule memory, 16-byte records by index, as bytes (R99). -/
  sched : Cells := []
  dschedBase : SMap (BitVec 13) := []
  dschedCount : SMap (BitVec 14) := []
  missed : BitVec 32 := 0
  /-- Alarms that were dropped (R147). -/
  alarmDrops : BitVec 32 := 0
  alarms : SMap Alarm := []
  mbxBase : BitVec 40 := 0
  mbxCtx : BitVec 4 := 0
  mbxSync : BitVec 12 := 0
  mbxValid : Bool := false
  /-- Logical pen to physical pen (R15), the flash copy that R18 changes and the older copy (R476), and the physical pens retired. -/
  penMap : SMap Nat := []
  penFlash : SMap Nat := []
  penOlder : SMap Nat := []
  pensBad : List Nat := []
  shadow : SMap PenShadow := []
  /-- A SCRUB or SHADOW window runs until this hall time (R102, R103). -/
  scrubUntil : SMap Nat := []
  shadowUntil : Nat := 0
  /-- Rows that a RAMP record has named and that are not yet admitted (R504). -/
  rampRows : BitVec 13 := 0
  outOfService : Bool := false
  /-- Both copies of the pen map or of a remap table failed at option loading: the deck needs maintenance (R477). -/
  maint : Bool := false
  hubLinkFailed : Bool := false
  reset : DeckReset := .none
  /-- The deck is being cleared after an unbinding (R43); the bind replies that wait for it (R44). -/
  clearing : Bool := false
  power : DeckPower := .run
  dockReq : Bool := false
  admitted : BitVec 13 := 0
  quiesced : Bool := false
  /-- The scratchpad scrubber (R515): seconds the deck has been in Run, and by core the second at which its pass began and
  the unit it reads next. -/
  scrubRun : Nat := 0
  scrubStart : SMap Nat := []
  scrubPos : SMap Nat := []
  /-- Hold instructions accepted and not executed: context, core, number, oldest first (R288). -/
  holdQ : List (BitVec 4 × Nat × Nat) := []
  /-- Packets that wait to leave the deck for the hub (R365). -/
  txq : List Queued := []
  /-- Model clock in ns at which a reset last cleared every core of the deck (R371). -/
  clearedAt : Option Nat := none
  /-- Model clock in ns since which the deck is unbound (R499), and at which it was last hot: a Shutdown, or a sample or report
  that is not cool (R531). -/
  unboundAt : Nat := 0
  hotAt : Nat := 0
deriving DecidableEq, Repr

/-- What a core or deck operation reports to the fault and reset controller: a detector of R531, the context and the
cores concerned. -/
structure Report where
  detector : Nat
  ctx : Option (BitVec 4) := none
  cores : List Nat := []
deriving DecidableEq, Repr

/-- What an operation of a deck asks of the rest of the module. -/
inductive DeckEff where
  /-- A detector of the fault and reset controller. -/
  | report (r : Report)
  /-- The final reply of a command. -/
  | reply (h : CmdHdr) (st : Status) (result : BitVec 64)
  /-- An asynchronous status for the deck's LD (R434). -/
  | async (st : Status) (arg0 : BitVec 32) (arg1 : BitVec 64)
  /-- A bit of MEM.EVENTS. -/
  | memEvent (n : Nat)
  /-- An entry of the poison log (R303): deck address, stack of the deck, channel, cause. -/
  | plog (addr : Nat) (stack : Nat) (channel : Nat) (cause : Nat)
  /-- MEM_POISON to the deck's LD (R303, R330): deck address of the page, and the sector in it or all ones. -/
  | poisonEvent (page : Nat) (sector : BitVec 32)
  /-- THERMAL_LIMIT for a stack of the deck (R324). -/
  | hot (stack : Nat)
  /-- A write into the partition's hub window: offset, length, bytes. -/
  | hubWrite (off n : Nat) (src : Cells)
  /-- A collective's descriptor handed over to Churn (R383). -/
  | coll (ctx : BitVec 4) (desc : Cells)
deriving DecidableEq, Repr

/-- A deck and what it asks of the module. -/
abbrev DeckRes := Deck × List DeckEff

end Sys2Proof.Machine
end

