-- ==== Sys2Proof/Machine/TimeState.lean ====
section
/-! DEFINITION. The state of the hall-time unit and of the timetable (chapter 02): HT and TT registers, what the HTU
remembers of each link, the timetable and landing memories of the ports. -/
namespace Sys2Proof.Machine
open Sys2Proof

/-- What the HTU keeps of one link: the delay measurement (R61, R351), the last beacon and its offset sample in 1/256 ns
(R60), the comparison window (R68). -/
structure LinkTime where
  delay : BitVec 32 := 0
  asym : BitVec 16 := 0
  exchanges : Nat := 0
  /-- t1 of the TIME_REQ that awaits its answer, in 1/256 ns. -/
  t1 : Option Nat := none
  beacon : Option Beacon := none
  /-- Consecutive beacons that a bad CRC has lost (R349). -/
  missed : Nat := 0
  /-- The last offset sample. -/
  offset : Option Int := none
  winSum : Int := 0
  winCount : Nat := 0
  /-- Removed from qualification until the link is next trained (R68). -/
  removed : Bool := false
deriving DecidableEq, Repr

/-- The hall-time unit. Hall time is held in 1/256 ns: NS is `t / 256`, FRAC is `t % 256`. -/
structure Htu where
  t : Nat := 0
  /-- The core clock's time in 1/256 ns, six core cycles in each 1,280: it follows hall time in Locked and Holdover, the
  oscillator otherwise (R57). -/
  core : Nat := 0
  nowFrac : BitVec 8 := 0
  /-- The correction still to be slewed, in 1/256 ns (R58, R72). -/
  slew : Int := 0
  /-- 0 Free, 1 Acquiring, 2 Locked, 3 Holdover, 4 Adrift (R71). -/
  state : BitVec 3 := 0
  announced : Bool := false
  source : BitVec 4 := 0xF
  /-- ERR_EST as of `errSince` (clock ns); in Holdover and Adrift it grows from there (R69). -/
  errEst : BitVec 8 := 0xFF
  errSince : Nat := 0
  hops : BitVec 8 := 0xFF
  schedOn : Bool := false
  gmPrio : BitVec 3 := 7
  gmModule : BitVec 17 := 0
  /-- HOPS and grand master as last held in Locked (R559). -/
  heldHops : BitVec 8 := 0xFF
  heldPrio : BitVec 3 := 7
  heldModule : BitVec 17 := 0
  cfgGmEn : Bool := false
  cfgGmPrio : BitVec 3 := 7
  cfgPpsEdge : Bool := false
  cfgSrcMask : BitVec 9 := 0x1FF
  gmNextSec : W64 := 0
  /-- HT.EVENTS, bit by bit: SOURCE_LOST, SOURCE_CHANGE, DISAGREE, HOLDOVER_ENTER, ADRIFT, LOCKED, STEPPED, PPS_FAULT,
  REF_FAULT. -/
  events : BitVec 9 := 0
  disA : BitVec 4 := 0
  disB : BitVec 4 := 0
  disDiff : BitVec 16 := 0
  links : SMap LinkTime := []
  /-- Clock at entry to Acquiring, and consecutive samples within ±1 ns (R71). -/
  acqSince : Nat := 0
  good : Nat := 0
  ppsValid : Bool := false
  refValid : Bool := false
  /-- Hall time at which the HTU returned to Locked, until scheduled sending resumes (R96). -/
  lockedAt : Option Nat := none
deriving DecidableEq, Repr

/-- One port's timetable memory, landing tables and TT counters (R84, R85). Ranges by 2·variant + direction. -/
structure PortTt where
  mem : Cells := []
  base : SMap (BitVec 16) := []
  count : SMap (BitVec 17) := []
  /-- Landing entries of variant v from byte 32,768·v. -/
  land : Cells := []
  vacantSent : BitVec 16 := 0
  standbyUsed : BitVec 16 := 0
  slotEnded : BitVec 16 := 0
  vacantRecv : BitVec 16 := 0
  tagDrop : BitVec 16 := 0
  unexpected : BitVec 16 := 0
deriving DecidableEq, Repr

/-- The timetable as a whole (R74, R88 to R92). -/
structure Timetable where
  armed : Bool := false
  activeVar : BitVec 2 := 0
  pendingVar : BitVec 2 := 0
  pendingValid : Bool := false
  disarmPending : Bool := false
  /-- The step at whose epoch a pending disarm takes effect (R92). -/
  disarmStep : Nat := 0
  e0 : W64 := 0
  p : BitVec 32 := 0
  step : W64 := 0
  pendingStep : W64 := 0
  errCheck : BitVec 8 := 0
  errPort : BitVec 4 := 0
  errDir : BitVec 1 := 0
  errVariant : BitVec 2 := 0
  errRecord : BitVec 16 := 0
  errDeck : BitVec 3 := 0
  /-- The first step epoch has been reached. -/
  begun : Bool := false
deriving DecidableEq, Repr

end Sys2Proof.Machine
end

