-- ==== Sys2Proof/Machine/NetState.lean ====
section
/-! DEFINITION. The state of the tensor network (chapter 09) and of Churn (chapter 10): ports, topology map, fence tracker,
router queues, running collectives. -/
namespace Sys2Proof.Machine
open Sys2Proof

/-- A sent PKT frame that awaits its acknowledgement (R348). -/
structure ReplayFrame where
  seq : BitVec 16
  pkts : List Packet
  tries : Nat := 0
deriving DecidableEq, Repr

/-- A packet that a sailing is to carry: one to forward, or the next of the collective of a deck of this module. -/
structure SailItem where
  pk : Packet
  own : Option Nat := none
deriving DecidableEq, Repr

/-- The COLL sailing that a port is in (R75 to R77): its record's slot, tag and kind, its step, the ticks of hall time from
which and up to which it has payload, the tick up to which its capacity is counted, the capacity that is left over in
quarters of a byte (replays may have used more than there was), what it has to carry, whether it departed vacant, and whether
it has carried data. -/
structure SailRun where
  slot : BitVec 16
  tag : BitVec 3
  standby : Bool
  step : Nat
  from_ : Nat
  upto : Nat
  at_ : Nat
  credit : Int := 0
  items : List SailItem := []
  vacant : Bool := false
  carried : Bool := false
deriving DecidableEq, Repr

/-- A fibre assembly's identity as read (R462): valid only under R463. -/
structure FibreId where
  group : BitVec 8
  serial : W64
  /-- ASYM as it applies at this end (R464). -/
  asym : Int
deriving DecidableEq, Repr

/-- One tensor port. -/
structure Port where
  /-- LNK.STATUSp.STATE (R358): 0 DOWN, 1 TRAINING, 2 IDENTIFIED, 3 UP, 4 MISWIRED, 5 INCOMPATIBLE, 6 QUARANTINED,
  7 DISABLED. -/
  state : BitVec 3 := 0
  widthTx : BitVec 2 := 0
  widthRx : BitVec 2 := 0
  lpl : BitVec 3 := 0
  sparesTx : BitVec 2 := 0
  sparesRx : BitVec 2 := 0
  schedWait : Bool := false
  /-- Hall time at which the port reached UP while a timetable was armed (R343). -/
  upAt : Nat := 0
  failedTx : BitVec 34 := 0
  failedRx : BitVec 34 := 0
  peerModule : BitVec 17 := 0
  peerPort : BitVec 4 := 0
  peerLpl : BitVec 3 := 0
  peerBuild : BitVec 32 := 0
  /-- The peer's transmit timetable digests by variant (R357). -/
  peerDigests : List (BitVec 32) := []
  expModule : BitVec 17 := 0
  expPort : BitVec 4 := 0
  expLpl : BitVec 3 := 0
  enabled : Bool := false
  fibre : W64 := 0
  crcErr : BitVec 16 := 0
  replay : BitVec 16 := 0
  fecUncorr : BitVec 16 := 0
  violation : BitVec 16 := 0
  ageDrop : BitVec 16 := 0
  downDrop : BitVec 16 := 0
  mcFenced : BitVec 16 := 0
  tagDiscard : BitVec 16 := 0
  /-- LNK.EVENTSp: UP, DOWN, LANE_SPARED, WIDTH_DOWN, MISWIRED, INCOMPATIBLE, QUARANTINED, ELS_SWITCH, FIBRE_UNREAD. -/
  events : BitVec 9 := 0
  disable : Bool := false
  /-- The connector is in place, and what its identity memory gave (R345). -/
  plugged : Bool := false
  fibreId : Option FibreId := none
  /-- Protocol violations of the last second, by clock time (R352). -/
  violTimes : List Nat := []
  txSeq : BitVec 16 := 0
  rxSeq : BitVec 16 := 0
  replayBuf : List ReplayFrame := []
  /-- The COLL sailing in progress. -/
  sail : Option SailRun := none
  /-- Clock in ns of the last entry to DOWN, TRAINING or QUARANTINED (R343, R352, R358). -/
  since : Nat := 0
  tt : PortTt := {}
deriving DecidableEq, Repr

/-- An entry of the fence tracker (R368): its key, its deliveries, the recorded status, the clock in ns of its last delivery. -/
structure FenceEntry where
  src : BitVec 17
  deck : BitVec 3
  core : BitVec 12
  epoch : BitVec 16
  count : Nat := 0
  status : Status := 0
  last : Nat := 0
deriving DecidableEq, Repr

/-- The network as a whole: LNK's module registers, the topology map as loaded and as armed (R354), the fence tracker and
hold, the transit and injection queues of the router, oldest first, and what has arrived for this module. -/
structure Net where
  fenceWaitUs : BitVec 16 := 1500
  reqTimeoutUs : BitVec 16 := 3000
  violLimit : BitVec 16 := 1024
  armed : Bool := false
  mapErr : BitVec 3 := 0
  mapLoaded : Cells := []
  mapArmed : Cells := []
  tracker : List FenceEntry := []
  fenceHold : List Queued := []
  refused : BitVec 32 := 0
  fenceDiscard : BitVec 32 := 0
  lateReply : BitVec 32 := 0
  /-- Packets of which a destination has consumed nothing since its deck is unbound or holds another tag (R47). -/
  notBound : BitVec 32 := 0
  /-- Transit queues by port, and the hub's own injection queue at key 9; the decks' injection queues stand in `Deck.txq`. -/
  queues : SMap (List Queued) := []
  /-- CONTROL packets in the CMDP inbox, and those discarded when it was full (R365). -/
  inbox : List Packet := []
  inboxDrop : BitVec 32 := 0
  arrived : List Packet := []
deriving DecidableEq, Repr

/-- The fields of a collective descriptor (R383). -/
structure CollDesc where
  op : Nat
  rtype : Nat
  skim : Nat
  dir : Bool
  chunkLog : Nat
  axes : BitVec 4
  dmask : BitVec 8
  slot : BitVec 16
  root : Nat
  count : Nat
  seq : BitVec 32
  layer : BitVec 16
  cobj : BitVec 12
  src : Nat
  dst : Nat
  amt : BitVec 16
deriving DecidableEq, Repr

/-- A collective of one member (one deck) that Churn runs. -/
structure Coll where
  deck : Nat
  ctx : BitVec 4
  desc : CollDesc
  /-- The step of the slot occurrence it is bound to (R401). -/
  tstep : Nat
  digest : BitVec 32
  /-- Send buffers granted (R396). -/
  granted : Bool := false
  /-- The local level has run (R389). -/
  summed : Bool := false
  /-- A GATHER_JIT source whose shard has passed the check of R271. -/
  checked : Bool := false
  /-- Statuses learned (R406); the first of R407's list decides. -/
  learned : List Status := []
  /-- Reset member: ends with no status of its own (R406). -/
  silent : Bool := false
  /-- Accumulation space, in FP32 or integer lanes, or the vote record; bytes of moved data (R388). -/
  acc : Cells := []
  /-- The own contribution to a VOTE, as a record (R411). -/
  vote : Nat := 0
  /-- Chunks that landed and were used, by 2³²·port + chunk; the data of T contributions that wait (R390). -/
  used : SMap Bool := []
  waiting : SMap Cells := []
  /-- Re-sends asked for, by the same key (R399). -/
  asked : SMap Bool := []
  /-- Chunks in send buffers, by the same key, as bytes with their header packet; their keys, oldest first; packets already
  sent; the chunks that have wholly left (R396, R399). -/
  ready : SMap Cells := []
  buffered : List Nat := []
  sent : SMap Nat := []
  left : SMap Bool := []
  /-- Delivery reports of a BCAST root, by port, and undelivered coordinates (R404, R410). -/
  reports : SMap Bool := []
  undel : BitVec 32 := 0
  undelAxis : BitVec 2 := 0
  /-- The sum is final: rounded once (R386, R394). -/
  isFinal : Bool := false
  /-- The collective has completed GOOD; it stays until its deadline for its remaining sailings. -/
  done : Bool := false
deriving DecidableEq, Repr

/-- An error that reached the module for a slot occurrence from outside: the status, and the notice with the module it came
from where it was an abort notice (R406). -/
structure EarlyNote where
  slot : BitVec 16
  tstep : Nat
  status : Status
  notice : Option (Notice × BitVec 17) := none
deriving DecidableEq, Repr

/-- What has landed of a chunk on a port (R362, R376): its number of packets once the header packet is there, the packets as a
bit mask, UNDEL gathered for a multicast, and whether the chunk is delivered here. -/
structure Landed where
  len : Nat := 0
  got : Nat := 0
  undel : BitVec 32 := 0
  delivered : Bool := true
deriving DecidableEq, Repr

/-- Churn: CHN's module registers, the running collectives, the landed packets that wait, the occurrences whose abort was
forwarded (slot, step). -/
structure Churn where
  resendEn : Bool := true
  maxActive : BitVec 5 := 8
  digestDrop : BitVec 16 := 0
  stepDrop : BitVec 16 := 0
  abortSent : BitVec 16 := 0
  abortLate : BitVec 16 := 0
  requested : BitVec 32 := 0
  recovered : BitVec 32 := 0
  colls : List Coll := []
  /-- Aborts already forwarded: slot and occurrence (R408). -/
  aborted : List (BitVec 16 × Nat) := []
  /-- What abort and vacancy notices have said of occurrences whose deadline is still to come (R406). -/
  early : List EarlyNote := []
  /-- Multicast packets that leave again from their landing, by port (R376). -/
  forward : List (Nat × Packet) := []
  /-- What has landed, by 2³²·(2¹⁶·port + slot) + chunk. -/
  landed : SMap Landed := []
  /-- Packets whose place waits for the chunk size of a collective that is not accepted yet: the port, the packet, and the
  deadline of its occurrence in ns (R362, R402). -/
  unplaced : List (Nat × Packet × Nat) := []
  /-- The deck and context that last issued a collective on a slot: 16·deck + context + 1. -/
  slotSource : SMap Nat := []
deriving DecidableEq, Repr

end Sys2Proof.Machine
end

