-- ==== Sys2Proof/Machine/HostState.lean ====
section
/-! DEFINITION. The state of the host attachment (chapter 11) and of the partitions (chapter 01): bindings, rings, memory
regions, queue pairs, mailboxes, locks. -/
namespace Sys2Proof.Machine
open Sys2Proof

/-- A command that the CMDP has taken and not finally answered (R427): what it asks, the model clock in ns and the place in
the order of taking (R428, R429). -/
structure TakenCmd where
  hdr : CmdHdr
  cmd : Instr
  takenAt : Nat := 0
  order : Nat := 0
  /-- It has taken effect. -/
  started : Bool := false
  /-- Its LD has been unbound since it was taken: it takes effect and posts no reply (R421). -/
  mute : Bool := false
  /-- A PENDING reply has been posted. -/
  pending : Bool := false
  /-- R429's overrun has been reported. -/
  timedOut : Bool := false
deriving DecidableEq, Repr

/-- One command ring of an LD with its status ring. -/
structure Ring where
  crTail : BitVec 32 := 0
  crHead : BitVec 32 := 0
  expectSeq : BitVec 32 := 0
  srTail : BitVec 32 := 0
  srHead : BitVec 32 := 0
  taken : List TakenCmd := []
deriving DecidableEq, Repr

/-- An LD's partition binding (R38, R40). -/
structure Binding where
  slot : Nat
  decks : BitVec 8
  tag : BitVec 3
  /-- Hub window in MiB, and its bytes. -/
  window : Nat
  owner : Bool
  mem : Cells := []
  /-- Decks that are being unbound: drained or cleared, and still of this partition (R43). -/
  leaving : BitVec 8 := 0
deriving DecidableEq, Repr

/-- One LD: its banked CMD registers, rings and ring memory, mailbox staging, binding. -/
structure Ld where
  drainUs : BitVec 16 := 1000
  evIrq : Bool := true
  viol : BitVec 16 := 0
  paused : Bool := false
  pausedAt : Nat := 0
  violTimes : List Nat := []
  rings : SMap Ring := []
  /-- Ring memory by offset from 0x0020_0000. -/
  mem : Cells := []
  evTail : BitVec 32 := 0
  evHead : BitVec 32 := 0
  evLost : BitVec 32 := 0
  nakSent : BitVec 16 := 0
  immBad : BitVec 16 := 0
  qpErr : BitVec 16 := 0
  /-- CMD.TMOg. -/
  tmo : SMap (BitVec 32) := []
  mbxPtr : SMap W64 := []
  mbxLt : SMap W64 := []
  bind : Option Binding := none
  /-- The HDM decoder is committed (R419); its interleave field, and whether a commit was refused (R417). -/
  committed : Bool := false
  decoderIw : BitVec 4 := 0
  decoderErr : Bool := false
  /-- The window of R538 is open: a QUIESCE of all the LD's decks has ended GOOD. -/
  legacyWindow : Bool := false
  /-- Model clock in ns at which that reply was posted. -/
  legacyAt : Nat := 0
deriving DecidableEq, Repr

/-- A memory region of MEM_MAP (R451). -/
structure Region where
  port : Fin 2
  ld : Fin 9
  deck : Nat
  ctx : BitVec 4
  base : Nat
  length : Nat
  access : BitVec 3
deriving DecidableEq, Repr

/-- A queue pair (R450). -/
structure Qp where
  port : Fin 2
  ld : Fin 9
  eth : Nat
  mtu : BitVec 8
  vlan : BitVec 16
  remoteQpn : BitVec 24
  sqPsn : BitVec 32
  rqPsn : BitVec 32
  remoteIp : BitVec 128
  nextHop : BitVec 48
  retry : BitVec 8
  err : Bool := false
  /-- Congestion notifications received: the sending rate is reduced (R450). -/
  cnps : Nat := 0
deriving DecidableEq, Repr

/-- A mailbox's queue: pointer, length and tag words (R444). -/
structure Mailbox where
  queue : List (W64 × W64) := []
  full : BitVec 16 := 0
  downErr : BitVec 16 := 0
deriving DecidableEq, Repr

/-- A QUIESCE that waits for its decks (R431). -/
structure QuiesceJob where
  hdr : CmdHdr
  decks : BitVec 8
  /-- Model clock in ns at its start, and TIMEOUT_US. -/
  since : Nat := 0
  timeoutUs : Nat := 0
deriving DecidableEq, Repr

/-- A BIND_LD that waits for a clearing or a wake (R44, R499). -/
structure BindJob where
  hdr : CmdHdr
  /-- The LD to be bound, and what it will hold. -/
  target : Nat
  bind : Binding
deriving DecidableEq, Repr

/-- The host side: LDs by 16·port + LD-ID, regions by RKEY, queue pairs by QPN, mailboxes, locks. -/
structure HostSide where
  lds : SMap Ld := []
  regions : SMap (Option Region) := []
  qps : SMap (Option Qp) := []
  mbx : SMap Mailbox := []
  locks : SMap Nat := []
  lckIgnored : BitVec 32 := 0
  /-- Doorbell order: LD key and ring of every posted packet not taken (R428). -/
  doorbells : List (Nat × Nat) := []
  quiesces : List QuiesceJob := []
  binds : List BindJob := []
  /-- CXL ports: trained, width, rate; Ethernet ports paused by PFC. -/
  cxlUp : SMap Bool := []
  cxlWidth : SMap Nat := []
  cxlRate : SMap Nat := []
  pfcPaused : SMap Bool := []
  /-- CMDP firmware's own mailbox staging (R444). -/
  fwPtr : SMap W64 := []
  fwLt : SMap W64 := []
  /-- Notices delivered to a deck's area since MBX.DCFGd was written (R446). -/
  delivered : SMap Nat := []
  /-- Commands taken so far (R428). -/
  takes : Nat := 0
  /-- Host and RDMA accesses that wait for a channel's retraining or a row's copy, in acceptance order (R315, R329). -/
  held : List Instr := []
deriving DecidableEq, Repr

end Sys2Proof.Machine
end

