-- ==== Sys2Proof/Machine/MgmtState.lean ====
section
/-! DEFINITION. The state of the management plane (chapter 12), of power, thermal and safety (13), of reset and recovery
(14) and of the memory system's module registers (08). -/
namespace Sys2Proof.Machine
open Sys2Proof

/-- MGT and what the MGC and the security unit hold. -/
structure Mgmt where
  build : BitVec 32 := 0
  svn : BitVec 16 := 0
  recovery : Bool := false
  fwPending : Bool := false
  /-- The security version counter and the record in force, in flash (K7). -/
  counter : BitVec 16 := 0
  sequence : BitVec 32 := 0
  /-- The configuration record in force, as an object, and its payload (R475); flash: the image, the record, the stored
  SEQUENCE, the image write marker (R476). -/
  recordObj : Cells := []
  record : Cells := []
  flashImage : Cells := []
  flashRecord : Cells := []
  storedSeq : BitVec 32 := 0
  writeMarker : Bool := false
  /-- Staging (R478): bytes, state, owner, kind, status, contents, the LD that owns it, the command that waits. -/
  stageBytes : BitVec 25 := 0
  stageState : BitVec 3 := 0
  stageOwner : BitVec 2 := 0
  stageKind : Bool := false
  stageStatus : Status := 0
  stageMem : Cells := []
  stageLd : Option LdRef := none
  stageCmd : Option CmdHdr := none
  /-- Model clock in ns of the last chunk (R479). -/
  stageAt : Nat := 0
  elsPresent : BitVec 4 := 0
  elsValid : BitVec 4 := 0
  trayValid : Bool := false
  bay : BitVec 2 := 0
  pufOk : Bool := false
  fibreValid : BitVec 9 := 0
  traySerial : W64 := 0
  elsSerial : SMap W64 := []
  /-- Channels of each ELS's record; the ELS that have failed; by pair, whether the odd ELS is the one that supplies it. -/
  elsChannels : SMap Nat := []
  elsFailed : BitVec 4 := 0
  elsOdd : BitVec 2 := 0
  i3cAddr : BitVec 7 := 0
  eidI3c : BitVec 8 := 0
  eidCxl : BitVec 8 := 0
  /-- MGT.EVENTS: AUTH_FAIL, ROLLBACK, FLASH_TORN, CFG_REJECT, ELS_ID_BAD, TRAY_ID_BAD, PUF_FAIL, STAGE_TIMEOUT. -/
  events : BitVec 8 := 0
  presentHigh : Bool := false
  /-- Queued PLDM events, oldest first (R459). -/
  pldm : List Nat := []
  mctpDrop : Nat := 0
  /-- Measurements of R471, fixed at boot; boot verification has passed. -/
  measured : SMap (BitVec 256) := []
  verified : Bool := false
  /-- Update time of the PDR repository (R460). -/
  pdrTime : W64 := 0
  /-- PLDM firmware update (R482): its component and its size. -/
  updComp : BitVec 16 := 0
  updSize : BitVec 32 := 0
deriving DecidableEq, Repr

/-- PWR (chapter 13). -/
structure Power where
  activeFeed : BitVec 2 := 0
  efuseA : Bool := false
  efuseB : Bool := false
  moduleState : BitVec 2 := 0
  voltsA : BitVec 16 := 0
  ampsA : BitVec 16 := 0
  voltsB : BitVec 16 := 0
  ampsB : BitVec 16 := 0
  /-- Clock times of each eFuse's trips, newest first (R487). -/
  tripTimesA : List Nat := []
  tripTimesB : List Nat := []
  latchedA : Bool := false
  latchedB : Bool := false
  /-- Model clock in ns since which every sample of a feed has lain in its range (R486, R487). -/
  goodA : Option Nat := none
  goodB : Option Nat := none
  sampleW : BitVec 16 := 0
  avgW : BitVec 16 := 0
  peakW : BitVec 16 := 0
  winSum : Nat := 0
  winCount : Nat := 0
  mgcW : BitVec 16 := 15000
  fwW : BitVec 16 := 15000
  effW : BitVec 16 := 15000
  duty : BitVec 5 := 16
  overCnt : BitVec 8 := 0
  changes : BitVec 32 := 0
  /-- Windows since D last changed, at most 10 count (R493). -/
  calm : Nat := 10
  parkUs : BitVec 16 := 500
  dockIdleMs : BitVec 16 := 1000
  /-- PWR.EVENTS, bit by bit. -/
  events : BitVec 12 := 0
  standbyReq : Bool := false
  /-- Rows that wait for the ramp governor, by 16·deck + row (R503). -/
  waitRows : List Nat := []
  /-- Standby power is present. -/
  island : Bool := true
deriving DecidableEq, Repr

/-- One die of THM: its register, its samples, its sensors' state. -/
structure Die where
  temp : BitVec 8 := 0
  sensor : BitVec 4 := 0
  duty : BitVec 5 := 16
  rate : BitVec 8 := 0
  maxTemp : BitVec 8 := 0
  /-- The last samples by sensor, newest first; none for a failed sensor. -/
  samples : List (Option (BitVec 8)) := []
  /-- Which sensors stood above 115 °C in the last sample, and above THROTTLE_C, or not below it by 5, in the window. -/
  hot : List Bool := []
  above : Bool := false
  notBelow : Bool := false
  /-- Each sensor's samples of the window's start, for the rate (R506). -/
  base : List (Option (BitVec 8)) := []
deriving DecidableEq, Repr

/-- THM. -/
structure Thermal where
  throttleC : BitVec 8 := 105
  events : BitVec 6 := 0
  dies : SMap Die := []
  count : BitVec 8 := 0
  consec : BitVec 2 := 0
deriving DecidableEq, Repr

/-- An arithmetic record (R516). -/
structure ArithRec where
  word : W64 := 0
  miss : W64 := 0
  clean : W64 := 0
deriving DecidableEq, Repr

/-- SAF. -/
structure Safety where
  latched : Bool := false
  safeN : Bool := false
  cause : BitVec 4 := 0
  time : W64 := 0
  events : BitVec 16 := 0
  written : BitVec 32 := 0
  arith : SMap ArithRec := []
  diverge : BitVec 32 := 0
deriving DecidableEq, Repr

/-- Where a reset stands: its scope by level, deck, context and core. -/
structure RunningReset where
  scope : Scope
  detector : Nat := 0
  hdr : Option CmdHdr := none
  /-- Model clock in ns at its start. -/
  since : Nat := 0
deriving DecidableEq, Repr

/-- RST, the backup registers and retained memory. -/
structure Rst where
  phase : BitVec 4 := 0
  hold : Bool := false
  cmdpRestart : Bool := false
  cmdpStopped : Bool := false
  pwrcycReq : Bool := false
  /-- Model clock in ns at which PWRCYC_REQ was set. -/
  pwrcycAt : Nat := 0
  /-- Model clock in ns at which the module reset of an answered RESET at level 5 takes effect (R431). -/
  resetDue : Option Nat := none
  maxAuto : BitVec 4 := 4
  escWindowMs : BitVec 16 := 1000
  pwrcycEn : Bool := false
  pwrcycWaitMs : BitVec 16 := 5000
  action : W64 := 0x0000470400000010
  wdogLog2 : BitVec 6 := 24
  collSlackUs : BitVec 16 := 20
  last : BitVec 32 := 0
  restarts : BitVec 16 := 0
  restartTimes : List Nat := []
  events : BitVec 6 := 0
  legacyStatus : Status := 0
  sampleDeck : BitVec 3 := 0
  sampleAuto : Bool := true
  sampleCount : BitVec 3 := 1
  samplePen : BitVec 8 := 0
  swHub : BitVec 4 := 0
  swDeck : SMap (BitVec 20) := []
  detCount : SMap (BitVec 32) := []
  detLast : SMap (BitVec 3) := []
  bkp : SMap W64 := []
  retained : Cells := []
  running : List RunningReset := []
  /-- Detector, scope and clock time of the resets that detectors caused and that completed (R531). -/
  past : List (Nat × Scope × Nat) := []
  cmdpTimes : List Nat := []
  shutdownTimes : SMap (List Nat) := []
  mrstLow : Bool := false
  /-- A Slack-water reset runs (R540). -/
  slack : Bool := false
deriving DecidableEq, Repr

/-- MEM.CFG, MEM.EVENTS and the poison log (chapter 08). -/
structure MemCtl where
  cfg : W64 := 0x1002485F55
  /-- WARM_C, HOT_C, WARM_CAP and HOT_CAP as the management plane last set them (R35, R327). -/
  mgcCfg : BitVec 24 := 0x485F55
  events : BitVec 16 := 0
  plogCnt : BitVec 32 := 0
  plogLo : SMap W64 := []
  plogHi : SMap W64 := []
  /-- Entries written and not yet read, for PLOG_OVF. -/
  plogUnread : SMap Bool := []
deriving DecidableEq, Repr

end Sys2Proof.Machine
end

