-- ==== Sys2Proof/Machine/State.lean ====
section
/-! DEFINITION. The whole state of the block, its faults and refusals, and the state after reset. -/
namespace Sys2Proof.Machine
open Sys2Proof

/-- Completion and error codes of the MGC's responses, by name (R458, R460, R468, R470, R478). -/
inductive MctpCode where
  | success | unsupportedPldmCmd | unsupportedRequest | invalidRequest | authFailed | alreadyInUpdateMode | notInUpdateMode
  | badParam
deriving DecidableEq, Repr

/-- What leaves the module: answers to its agents, frames, interrupts, messages. -/
inductive Output where
  /-- A register read's value, and a register access that ends with Unsupported Request or Completer Abort. -/
  | value (a : Agent) (v : W64)
  | unsupported (a : Agent)
  | aborted (a : Agent)
  /-- A CXL.mem read: its bytes and the sectors (by HDM offset / 32) that carry the poison indication (R301). -/
  | cxlData (l : LdRef) (data : Cells) (poison : List Nat)
  | cxlWritten (l : LdRef)
  | msix (l : LdRef) (vector : Nat)
  | beacon (p : Nat) (b : Beacon)
  | timeReq (p : Nat) (t1 : Stamp)
  | timeResp (p : Nat) (t1 t2 t3 : Stamp)
  | train (p : Nat) (f : TrainFrame)
  | frame (p : Nat) (seq : BitVec 16) (ack : BitVec 16) (pkts : List Packet)
  | nak (p : Nat) (expect : BitVec 16)
  /-- An IDLE frame that acknowledges (R347). -/
  | idle (p : Nat) (ack : BitVec 16)
  /-- A receiver tells the sender of a failed lane (R337). -/
  | laneFailed (p lane : Nat)
  /-- RoCEv2: acknowledgement, data of a READ, NAK (0 Invalid Request, 1 Remote Access Error, 2 Remote Operational
  Error), an RDMA WRITE as requester. -/
  | rdmaAck (qpn : Nat)
  | rdmaData (qpn : Nat) (data : Cells)
  | rdmaNak (qpn : Nat) (code : Nat)
  | rdmaSend (qpn : Nat) (rkey : BitVec 32) (addr len : Nat) (data : Cells)
  /-- A response of the MGC: message type, completion or error code, body. -/
  | mctp (t : Transport) (code : MctpCode) (body : List Byte)
  /-- A message that the MGC sends on its own over I3C: RequestFirmwareData, TransferComplete, VerifyComplete with its
  code, ApplyComplete (R480, R482). -/
  | pldmRequestData
  | pldmTransferComplete
  | pldmVerifyComplete (code : BitVec 8)
  | pldmApplyComplete
  /-- An I3C in-band interrupt (R459). -/
  | ibi
deriving DecidableEq, Repr

/-- Faults of the model: none. A command always ends in a next state or a refusal; where the spec gives an exception of a
core or an error status, that is the command's effect on the state. -/
inductive Fault where
  /-- Raised by no command: kept so that the type has a name to give. Safe. -/
  | none
deriving DecidableEq, Repr

/-- Refusals of the model. -/
inductive Refusal where
  /-- Raised by an arm of `exec` whose command has no meaning yet. Safe: nothing is claimed of the command. -/
  | notModelled (mnemonic : String)
deriving DecidableEq, Repr

/-- The block. -/
structure State where
  decks : SMap Deck := []
  htu : Htu := {}
  tt : Timetable := {}
  ports : SMap Port := []
  net : Net := {}
  churn : Churn := {}
  host : HostSide := {}
  mem : MemCtl := {}
  mgmt : Mgmt := {}
  power : Power := {}
  thermal : Thermal := {}
  safety : Safety := {}
  rst : Rst := {}
  /-- Commands that wait, first in, first out. -/
  pending : List Instr := []
  /-- The model's clock in 5 ns ticks, which no reset changes. -/
  clock : Nat := 0
  /-- Free values drawn so far (log entry 5). -/
  free : Nat := 0
  /-- What has left the module, newest first (log entry 6). -/
  out : List Output := []
deriving DecidableEq, Repr

/-- The module right after reset: every register at its Reset value, memory zero, no deck bound. What has no Reset value is 0,
empty or none. (DESIGN CHOICE, log entry 1.) -/
def State.reset : State := {}

end Sys2Proof.Machine
end

