-- ==== Sys2Proof/Machine/Float.lean ====
section
/-! DEFINITION. The float formats of R195 and their arithmetic: exact values, one rounding, flushing and saturation
(R197 to R204), INT32 conversion (R202), the reciprocal-square-root seed (R255). -/
namespace Sys2Proof.Machine
open Sys2Proof

/-- What an element is worth: a NaN, an infinity, a zero, or exactly ±m·2^e with m not 0. -/
inductive FVal where
  | nan
  | inf (neg : Bool)
  | zero (neg : Bool)
  | fin (neg : Bool) (m : Nat) (e : Int)
deriving DecidableEq, Repr

/-- A float format of R195: exponent and mantissa widths, bias, whether it has infinities, the largest finite code,
the NaN it writes. `sat` says that finite results saturate (R200). -/
structure FFmt where
  eb : Nat
  mb : Nat
  bias : Nat
  hasInf : Bool
  hasNan : Bool
  sat : Bool
  maxCode : Nat
  nanCode : Nat
deriving DecidableEq, Repr

/-- R195, row E4M3. -/
def fmtE4M3 : FFmt := ⟨4, 3, 7, false, true, true, 0x7E, 0x7F⟩
/-- R195, row E5M2. -/
def fmtE5M2 : FFmt := ⟨5, 2, 15, true, true, true, 0x7B, 0x7F⟩
/-- R195, row E2M1; a NaN is lost as +0 (R201). -/
def fmtE2M1 : FFmt := ⟨2, 1, 1, false, false, true, 0x7, 0x0⟩
/-- R195, row BF16. -/
def fmtBF16 : FFmt := ⟨8, 7, 127, true, true, false, 0x7F7F, 0x7FC0⟩
/-- R195, row FP32. -/
def fmtFP32 : FFmt := ⟨8, 23, 127, true, true, false, 0x7F7FFFFF, 0x7FC00000⟩

/-- The float format of a format code (R194); codes that are no float give FP32 and are never asked for. -/
def ffmtOf (code : BitVec 4) : FFmt :=
  match code.toNat with
  | 0 => fmtE4M3
  | 1 => fmtE5M2
  | 2 => fmtE2M1
  | 3 => fmtBF16
  | _ => fmtFP32

/-- The fields of an encoding: sign, exponent, mantissa. -/
def fsign (f : FFmt) (v : Nat) : Bool := bits v (f.eb + f.mb) 1 == 1
def fexp (f : FFmt) (v : Nat) : Nat := bits v f.mb f.eb
def fman (f : FFmt) (v : Nat) : Nat := bits v 0 f.mb

/-- A subnormal encoding: exponent field 0, mantissa not 0 (R195). -/
def isSubnormal (f : FFmt) (v : Nat) : Bool := fexp f v == 0 && fman f v != 0

/-- A NaN encoding (R195). -/
def isNanCode (f : FFmt) (v : Nat) : Bool :=
  f.hasNan && (fexp f v == 2 ^ f.eb - 1) && (if f.hasInf then fman f v != 0 else fman f v == 2 ^ f.mb - 1)

/-- An infinity encoding (R195). -/
def isInfCode (f : FFmt) (v : Nat) : Bool := f.hasInf && (fexp f v == 2 ^ f.eb - 1) && (fman f v == 0)

/-- The value of an encoding; a subnormal reads as a zero of its sign (R198). -/
def fdecode (f : FFmt) (v : Nat) : FVal :=
  if isNanCode f v then .nan
  else if isInfCode f v then .inf (fsign f v)
  else if fexp f v = 0 then .zero (fsign f v)
  else .fin (fsign f v) (2 ^ f.mb + fman f v) ((fexp f v : Int) - f.bias - f.mb)

/-- Round `m·2^e` to `p` significant bits, nearest, ties to even, exponent unbounded (R197). -/
def roundSig (p m : Nat) (e : Int) : Nat × Int :=
  let b := m.log2 + 1
  if b ≤ p then (m, e)
  else
    let sh := b - p
    let q := m / 2 ^ sh
    let r := m % 2 ^ sh
    let half := 2 ^ (sh - 1)
    (if r > half ∨ (r = half ∧ q % 2 = 1) then q + 1 else q, e + sh)

/-- The exponent of the leading bit of `m·2^e`. -/
def floorLog (m : Nat) (e : Int) : Int := (m.log2 : Int) + e

/-- Is `m·2^e` greater than `n·2^g`? -/
def magGt (m : Nat) (e : Int) (n : Nat) (g : Int) : Bool :=
  if e ≥ g then decide (m * 2 ^ (e - g).toNat > n) else decide (m > n * 2 ^ (g - e).toNat)

/-- What a conversion did besides its result: saturated (R200, R202), flushed (R199). -/
structure FRes where
  code : Nat
  sat : Bool := false
  flush : Bool := false
deriving DecidableEq, Repr

/-- The code of a sign. -/
def signCode (f : FFmt) (neg : Bool) : Nat := if neg then 2 ^ (f.eb + f.mb) else 0

/-- Largest finite magnitude of a format, as a mantissa and an exponent. -/
def maxMag (f : FFmt) : Nat × Int :=
  (2 ^ f.mb + fman f f.maxCode, (fexp f f.maxCode : Int) - f.bias - f.mb)

/-- Convert an exact value to a format: R197, R199, R200, R201. -/
def fencode (f : FFmt) (x : FVal) : FRes :=
  match x with
  | .nan => { code := f.nanCode }
  | .inf neg =>
    { code := signCode f neg + (if f.hasInf then (2 ^ f.eb - 1) * 2 ^ f.mb else f.maxCode) }
  | .zero neg => { code := signCode f neg }
  | .fin neg m e =>
    if f.sat && magGt m e (maxMag f).1 (maxMag f).2 then { code := signCode f neg + f.maxCode, sat := true }
    else
      let r := roundSig (f.mb + 1) m e
      let ex := floorLog r.1 r.2
      if ex < 1 - (f.bias : Int) then { code := signCode f neg, flush := true }
      else if ex > (f.bias : Int) ∧ ¬ f.sat then
        { code := signCode f neg + (2 ^ f.eb - 1) * 2 ^ f.mb }
      else
        let lead := r.1.log2
        let man := if lead ≥ f.mb then r.1 / 2 ^ (lead - f.mb) else r.1 * 2 ^ (f.mb - lead)
        { code := signCode f neg + (ex + f.bias).toNat * 2 ^ f.mb + (man - 2 ^ f.mb) }

/-- Signed exact sum of two finite terms at a common exponent. -/
def signedMan (neg : Bool) (m : Nat) : Int := if neg then -(m : Int) else m

/-- The value of a signed mantissa; `zneg` is the sign a zero takes. -/
def ofSigned (s : Int) (e : Int) (zneg : Bool) : FVal :=
  if s = 0 then .zero zneg else .fin (decide (s < 0)) s.natAbs e

/-- Exact sum (R203); a sum of opposite zeros or an exact cancellation is +0. -/
def fvAdd (a b : FVal) : FVal :=
  match a, b with
  | .nan, _ => .nan
  | _, .nan => .nan
  | .inf s, .inf t => if s = t then .inf s else .nan
  | .inf s, _ => .inf s
  | _, .inf t => .inf t
  | .zero s, .zero t => .zero (s && t)
  | .zero _, y => y
  | x, .zero _ => x
  | .fin s m e, .fin t n g =>
    let lo := min e g
    ofSigned (signedMan s (m * 2 ^ (e - lo).toNat) + signedMan t (n * 2 ^ (g - lo).toNat)) lo false

/-- Negation; a NaN stays one. -/
def fvNeg (a : FVal) : FVal :=
  match a with
  | .nan => .nan
  | .inf s => .inf (!s)
  | .zero s => .zero (!s)
  | .fin s m e => .fin (!s) m e

/-- Exact product (R203). -/
def fvMul (a b : FVal) : FVal :=
  match a, b with
  | .nan, _ => .nan
  | _, .nan => .nan
  | .inf _, .zero _ => .nan
  | .zero _, .inf _ => .nan
  | .inf s, .inf t => .inf (s != t)
  | .inf s, .fin t _ _ => .inf (s != t)
  | .fin s _ _, .inf t => .inf (s != t)
  | .zero s, .zero t => .zero (s != t)
  | .zero s, .fin t _ _ => .zero (s != t)
  | .fin s _ _, .zero t => .zero (s != t)
  | .fin s m e, .fin t n g => .fin (s != t) (m * n) (e + g)

/-- Exact `a·b + c` (R203). -/
def fvFma (a b c : FVal) : FVal := fvAdd (fvMul a b) c

/-- Order of two values that are not NaN, −0 below +0 only when `zeros` is set (R204). -/
def fvLt (zeros : Bool) (a b : FVal) : Bool :=
  match a, b with
  | .nan, _ => false
  | _, .nan => false
  | .inf s, .inf t => s && !t
  | .inf s, _ => s
  | _, .inf t => !t
  | .zero s, .zero t => zeros && s && !t
  | .zero _, .fin t _ _ => !t
  | .fin s _ _, .zero _ => s
  | .fin s m e, .fin t n g =>
    if s && !t then true
    else if !s && t then false
    else if s then magGt m e n g
    else magGt n g m e

/-- Minimum and maximum (R204). -/
def fvMin (a b : FVal) : FVal :=
  if a = .nan ∨ b = .nan then .nan else if fvLt true b a then b else a
def fvMax (a b : FVal) : FVal :=
  if a = .nan ∨ b = .nan then .nan else if fvLt true a b then b else a

/-- The comparisons of R204: `=`, `<`, `≤`, false on a NaN; +0 and −0 are equal. -/
def fvEq (a b : FVal) : Bool := a != .nan && b != .nan && !fvLt false a b && !fvLt false b a
def fvLtC (a b : FVal) : Bool := fvLt false a b
def fvLe (a b : FVal) : Bool := a != .nan && b != .nan && !fvLt false b a

/-- COND of VCMP (R175): 0 EQ, 1 NE, 2 LT, 3 LE, 4 GT, 5 GE. -/
def fvCond (cond : Nat) (a b : FVal) : Bool :=
  match cond with
  | 0 => fvEq a b
  | 1 => !fvEq a b
  | 2 => fvLtC a b
  | 3 => fvLe a b
  | 4 => fvLtC b a
  | _ => fvLe b a

/-- An integer as a value. -/
def fvOfInt (i : Int) : FVal := ofSigned i 0 false

/-- Round a magnitude `m·2^e` to an integer, nearest, ties to even. -/
def roundInt (m : Nat) (e : Int) : Nat :=
  if e ≥ 0 then m * 2 ^ e.toNat
  else
    let sh := (-e).toNat
    let q := m / 2 ^ sh
    let r := m % 2 ^ sh
    if 2 * r > 2 ^ sh ∨ (2 * r = 2 ^ sh ∧ q % 2 = 1) then q + 1 else q

/-- Truncate a magnitude to an integer. -/
def truncInt (m : Nat) (e : Int) : Nat := if e ≥ 0 then m * 2 ^ e.toNat else m / 2 ^ (-e).toNat

/-- Conversion to INT32 (R201, R202). -/
def toInt32 (x : FVal) : FRes :=
  match x with
  | .nan => { code := 0 }
  | .inf neg => { code := if neg then 0x80000000 else 0x7FFFFFFF }
  | .zero _ => { code := 0 }
  | .fin neg m e =>
    let r := roundInt m e
    if neg then
      if magGt m e (2 ^ 31) 0 then { code := 0x80000000, sat := true }
      else { code := (2 ^ 32 - r) % 2 ^ 32 }
    else if magGt m e (2 ^ 31 - 1) 0 then { code := 0x7FFFFFFF, sat := true }
    else { code := r }

/-- FCVT.L.S: toward zero, saturating, NaN gives 0 (chapter 04, Scalar FP32). -/
def toInt64Trunc (x : FVal) : W64 :=
  match x with
  | .nan => 0
  | .inf neg => if neg then 0x8000000000000000 else 0x7FFFFFFFFFFFFFFF
  | .zero _ => 0
  | .fin neg m e =>
    let r := truncInt m e
    if neg then (if r > 2 ^ 63 then 0x8000000000000000 else BitVec.ofInt 64 (-(r : Int)))
    else (if r > 2 ^ 63 - 1 then 0x7FFFFFFFFFFFFFFF else BitVec.ofNat 64 r)

/-- FP32 in, exact value out. -/
def f32 (w : W32) : FVal := fdecode fmtFP32 w.toNat
/-- One rounding to FP32. -/
def toF32 (x : FVal) : W32 := BitVec.ofNat 32 (fencode fmtFP32 x).code

/-- Scalar and vector FP32 operations (R203, R204). -/
def f32Add (a b : W32) : W32 := toF32 (fvAdd (f32 a) (f32 b))
def f32Sub (a b : W32) : W32 := toF32 (fvAdd (f32 a) (fvNeg (f32 b)))
def f32Mul (a b : W32) : W32 := toF32 (fvMul (f32 a) (f32 b))
def f32Fma (a b c : W32) : W32 := toF32 (fvFma (f32 a) (f32 b) (f32 c))
def f32Min (a b : W32) : W32 := toF32 (fvMin (f32 a) (f32 b))
def f32Max (a b : W32) : W32 := toF32 (fvMax (f32 a) (f32 b))

/-- Integer square root by bits: the largest r with r·r ≤ n, r below 2^k. -/
def isqrtBits (n : Nat) (k : Nat) (r : Nat) : Nat :=
  match k with
  | 0 => r
  | j + 1 => let t := r + 2 ^ j; isqrtBits n j (if t * t ≤ n then t else r)

/-- The 12-bit seed mantissa of interval `k`: r_k·4096 (R255). With c = num/den the midpoint of the interval, it is the
nearest integer to 4096/√c, which is never a tie. -/
def seedMan (k : Nat) : Nat :=
  let num := if k < 128 then 2 * (128 + k) + 1 else 2 * k + 1
  let den := if k < 128 then 256 else 128
  (isqrtBits (2 ^ 26 * den / num) 14 0 + 1) / 2

/-- The seed for 1/√x before its conversion to DFMT (R255). -/
def rsqrtSeed (x : FVal) : FVal :=
  match x with
  | .nan => .nan
  | .inf neg => if neg then .nan else .zero false
  | .zero neg => .inf neg
  | .fin neg m e =>
    if neg then .nan
    else
      let ex := floorLog m e
      let lead := m.log2
      let top := if lead ≥ 7 then m / 2 ^ (lead - 7) % 128 else m * 2 ^ (7 - lead) % 128
      let q := ex / 2
      let k := if ex % 2 = 0 then top else 128 + top
      .fin false (seedMan k) (-q - 12)

/-- The magnitude of a value is at least `n·2^g`. -/
def magGe (m : Nat) (e : Int) (n : Nat) (g : Int) : Bool := !magGt n g m e

/-- Multiply by a power of two, exactly. -/
def fvScale (x : FVal) (k : Int) : FVal :=
  match x with
  | .fin s m e => .fin s m (e + k)
  | y => y

end Sys2Proof.Machine
end

