-- ==== Sys2Proof/Machine/Flags.lean ====
section
/-! DEFINITION. What the hardware has in place of condition flags: the comparison results that go to a register, and the
per-operation counters SATC and FLSC (R220, R221). -/
namespace Sys2Proof.Machine
open Sys2Proof

/-- A comparison result as a register value. -/
def boolWord (b : Bool) : W64 := if b then 1 else 0

/-- Add saturations and flushes to the core's counters, which stay at all ones (R220, R221). -/
def countOps (c : Core) (sat flush : Nat) : Core :=
  { c with satc := satAdd c.satc sat, flsc := satAdd c.flsc flush }

/-- How many of a list of results are saturations, and how many flushes. -/
def satCount (l : List FRes) : Nat := l.countP (·.sat)
def flushCount (l : List FRes) : Nat := l.countP (·.flush)

/-- Division results of R121 and the text under R186 (signed −2⁶³ by −1 gives −2⁶³, remainder 0). -/
def divSigned (a b : W64) : W64 := if b = 0 then BitVec.allOnes 64 else a.sdiv b
def remSigned (a b : W64) : W64 := if b = 0 then a else a.srem b
def divUnsigned (a b : W64) : W64 := if b = 0 then BitVec.allOnes 64 else a / b
def remUnsigned (a b : W64) : W64 := if b = 0 then a else a % b

end Sys2Proof.Machine
end

