-- ==== Sys2Proof/Machine/Operands.lean ====
section
/-! DEFINITION. Operand forms: scalar registers, stride registers and operand addresses (R126), scratchpad units, packed
rows and byte lists (R170 to R172), register rows (R168, R169), and their poison rules (R125). -/
namespace Sys2Proof.Machine
open Sys2Proof

/-- Scalar register `r`; s0 reads as 0 (R116). -/
def sGet (c : Core) (r : BitVec 5) : W64 := if r = 0 then 0 else mapGet 0 c.s r.toNat

/-- Write scalar register `r`; a write to s0 is ignored (R116). -/
def sSet (c : Core) (r : BitVec 5) (v : W64) : Core :=
  if r = 0 then c else { c with s := mapSet 0 c.s r.toNat v }

/-- Stride register n; T0 is fixed (R119). -/
def tGet (c : Core) (n : Nat) : Stride := if n = 0 then { row := 1 } else mapGet {} c.t n

/-- The iteration index of loop counter n: latched count minus live count (R126). -/
def loopIndex (c : Core) (n : Nat) : Nat := (mapGet 0 c.latched n).toNat - (mapGet 0 c.live n).toNat

/-- The unit of row 0: (BASE + i × ITER_STRIDE) mod 8,192 (R126). -/
def unitStart (c : Core) (base : Nat) (ts : Nat) : Nat :=
  let t := tGet c ts
  let i := if t.loop = 0 then 0 else loopIndex c (t.loop.toNat - 1)
  (((base : Int) + (i : Int) * t.iter.toInt) % 8192).toNat

/-- The signed row stride that TS selects. -/
def rowStride (c : Core) (ts : Nat) : Int := (tGet c ts).row.toInt

/-- The unit of row `j` (R126). -/
def rowUnit (start : Nat) (stride : Int) (j : Nat) : Nat := (((start : Int) + (j : Int) * stride) % 8192).toNat

/-- A vector operand field as captured at issue (R111, R167, R168). -/
def captureV (c : Core) (o : BitVec 17) : VOp :=
  if opReg o then .vreg (opBase o).toNat
  else .spad (unitStart c (opBase o).toNat (opTs o).toNat) (rowStride c (opTs o).toNat)

/-- BASE and TS of a matrix operand field (R167). -/
def matStart (c : Core) (o : BitVec 16) : Nat := unitStart c (o.extractLsb' 0 13).toNat (o.extractLsb' 13 3).toNat
def matStride (c : Core) (o : BitVec 16) : Int := rowStride c (o.extractLsb' 13 3).toNat

/-- Bits per element of a format code (R170). -/
def elemBits (fmt : BitVec 4) : Nat :=
  match fmt.toNat with
  | 0 => 8
  | 1 => 8
  | 2 => 4
  | 3 => 16
  | 5 => 4
  | 6 => 2
  | _ => 32

/-- Is the unit free of an uncorrectable error? -/
def unitOk (c : Core) (u : Nat) : Bool := !mapGet false c.spadBad u

/-- The scratchpad byte at position `p` counted from the start of unit `u`: 8,192 units of 32 bytes (R123), which wrap
modulo 8,192 (R126). -/
def spadByte (c : Core) (u p : Nat) : Byte := cellGet c.spad ((u + p / 32) % 8192 * 32 + p % 32)

/-- The units that `n` bytes at offset `off` of unit `u` touch. -/
def unitsOf (u off n : Nat) : List Nat := (List.range ((off + n + 31) / 32)).map (fun k => (u + k) % 8192)

/-- Read `n` bytes at offset `off` from unit `u`; none where a unit holds an uncorrectable error (R125). -/
def spadRead (c : Core) (u off n : Nat) : Option (List Byte) :=
  if (unitsOf u off n).all (unitOk c) then some ((List.range n).map (fun i => spadByte c u (off + i))) else none

/-- Write the bytes given from offset `off` of unit `u`, one unit at a time: a unit written whole loses its error, a
unit written in part is read and merged (R125). The result says whether a partial write met an error; then nothing is
written. -/
def spadWrite (c : Core) (u off : Nat) (bs : List (Option Byte)) : Core × Bool :=
  let at_ := fun p => if p < off then none else (bs[p - off]?).join
  let units := List.range ((off + bs.length + 31) / 32)
  let cover := fun k => (List.range 32).countP (fun b => (at_ (32 * k + b)).isSome)
  if units.any (fun k => cover k != 0 && cover k != 32 && !unitOk c ((u + k) % 8192)) then (c, true)
  else
    let spad := units.foldl (fun m k => (List.range 32).foldl (fun m b =>
      match at_ (32 * k + b) with
      | some v => cellSet m ((u + k) % 8192 * 32 + b) v
      | none => m) m) c.spad
    let bad := units.foldl (fun m k => if cover k = 32 then mapSet false m ((u + k) % 8192) false else m) c.spadBad
    ({ c with spad := spad, spadBad := bad }, false)

/-- Write whole bytes. -/
def spadWriteAll (c : Core) (u off : Nat) (bs : List Byte) : Core × Bool := spadWrite c u off (bs.map some)

/-- Where row `j` of a scratchpad operand lies: unit, offset in it, bytes; `wide` elements a row (R170, R171). -/
def rowPlace (start : Nat) (stride : Int) (fmt : BitVec 4) (wide j : Nat) : Nat × Nat × Nat :=
  let n := wide * elemBits fmt / 8
  if n ≥ 32 then (rowUnit start stride j, 0, n)
  else (rowUnit start stride (j / (32 / n)), j % (32 / n) * n, n)

/-- The element codes in the bytes of a row (R196). -/
def rowCodes (fmt : BitVec 4) (wide : Nat) (bs : List Byte) : List Nat :=
  let b := elemBits fmt
  (List.range wide).map (fun i =>
    if b ≥ 8 then bytesNat ((bs.drop (i * (b / 8))).take (b / 8))
    else bits ((bs[i * b / 8]?.getD 0).toNat) (i * b % 8) b)

/-- The bytes of a row of codes, `none` where no lane writes the byte; `old` gives the other half of a shared byte. -/
def rowBytes (fmt : BitVec 4) (mask : Nat → Bool) (codes : List Nat) (old : List Byte) : List (Option Byte) :=
  let b := elemBits fmt
  if b ≥ 8 then
    codes.zipIdx.flatMap (fun p =>
      (natBytes (b / 8) p.1).map (fun x => if mask p.2 then some x else none))
  else
    (List.range (codes.length / 2)).map (fun i =>
      let lo := if mask (2 * i) then (codes[2 * i]?).getD 0 % 16 else ((old[i]?).getD 0).toNat % 16
      let hi := if mask (2 * i + 1) then (codes[2 * i + 1]?).getD 0 % 16 else ((old[i]?).getD 0).toNat / 16
      if mask (2 * i) || mask (2 * i + 1) then some (BitVec.ofNat 8 (lo + 16 * hi)) else none)

/-- The 32 lanes of a v register. -/
def vLanes (c : Core) (r : Nat) : List Nat := (List.range 32).map (fun l => (mapGet 0 c.v (32 * r + l)).toNat)

/-- Write the masked lanes of a v register. -/
def vSetLanes (c : Core) (r : Nat) (mask : Nat → Bool) (vals : List Nat) : Core :=
  let v := vals.zipIdx.foldl
    (fun m p => if mask p.2 then mapSet 0 m (32 * r + p.2) (BitVec.ofNat 32 p.1) else m) c.v
  { c with v := v }

/-- The codes of row `j` of a source operand; a register operand gives its 32-bit lanes (R169). -/
def readRow (c : Core) (o : VOp) (fmt : BitVec 4) (j : Nat) : Option (List Nat) :=
  match o with
  | .vreg r => some (vLanes c ((r + j) % 16))
  | .spad start stride =>
    let p := rowPlace start stride fmt 32 j
    (spadRead c p.1 p.2.1 p.2.2).map (rowCodes fmt 32)

/-- The format that an operand's codes are held in: lanes of a register are FP32, or INT32 (R169). -/
def heldFmt (o : VOp) (fmt : BitVec 4) : BitVec 4 :=
  match o with
  | .vreg _ => if fmt = 7 then 7 else 4
  | .spad _ _ => fmt

/-- The value of a code: INT32, or a float after R198. -/
def codeVal (fmt : BitVec 4) (v : Nat) : FVal :=
  if fmt = 7 then fvOfInt (BitVec.ofNat 32 v).toInt else fdecode (ffmtOf fmt) v

/-- Does reading the code flush it (R198)? -/
def codeFlush (fmt : BitVec 4) (v : Nat) : Bool := fmt != 7 && isSubnormal (ffmtOf fmt) v

/-- Convert a value to a destination format (R199 to R202). -/
def toFmt (fmt : BitVec 4) (x : FVal) : FRes := if fmt = 7 then toInt32 x else fencode (ffmtOf fmt) x

/-- What a register lane holds of a result in `fmt`: INT32, or the exact FP32 value (R169). -/
def laneOf (fmt : BitVec 4) (code : Nat) : Nat :=
  if fmt = 7 then code else (fencode fmtFP32 (fdecode (ffmtOf fmt) code)).code

/-- Write row `j` of a destination operand in `fmt`; the result says whether a unit's error stopped it (R125). -/
def writeRow (c : Core) (o : VOp) (fmt : BitVec 4) (mask : Nat → Bool) (j : Nat) (codes : List Nat) : Core × Bool :=
  match o with
  | .vreg r => (vSetLanes c ((r + j) % 16) mask (codes.map (laneOf fmt)), false)
  | .spad start stride =>
    let p := rowPlace start stride fmt 32 j
    let old := (List.range p.2.2).map (fun i => spadByte c p.1 (p.2.1 + i))
    spadWrite c p.1 p.2.1 (rowBytes fmt mask codes old)

/-- Byte `j` of a byte-list operand, which ROW_STRIDE does not touch (R172). -/
def listByte (c : Core) (start j : Nat) : Option Byte :=
  if unitOk c ((start + j / 32) % 8192) then some (spadByte c start j) else none

/-- Run a row function for rows `j` to `j + n - 1`, in order, until one meets an error (R125); of
rows that overlap the higher is written last (R127). -/
def runRows (f : Nat → Core → Core × Bool) (j n : Nat) (c : Core) : Core × Bool :=
  match n with
  | 0 => (c, false)
  | k + 1 =>
    let r := f j c
    if r.2 then r else runRows f (j + 1) k r.1

end Sys2Proof.Machine
end

