-- ==== Sys2Proof/Machine/Ops.lean ====
section
/-! DEFINITION. The shared operations of a deck: reaching its cores and objects, retiring an instruction and the loop end
checks (R138 to R142), the sync unit's updates and releases (R145 to R151), what happens when a core faults (R156), the
end of stream entries (R436, R437). -/
namespace Sys2Proof.Machine
open Sys2Proof

/-! ### Reaching the parts of a deck -/

def coreAt (d : Deck) (i : Nat) : Core := mapGet {} d.cores i
def setCore (d : Deck) (i : Nat) (c : Core) : Deck := { d with cores := mapSet {} d.cores i c }
def modCore (d : Deck) (i : Nat) (f : Core → Core) : Deck := setCore d i (f (coreAt d i))
def ctxAt (d : Deck) (c : Nat) : Ctx := mapGet {} d.ctxs c
def setCtx (d : Deck) (c : Nat) (x : Ctx) : Deck := { d with ctxs := mapSet {} d.ctxs c x }
def objAt (d : Deck) (o : Nat) : SyncObj := mapGet {} d.objs o
def setObj (d : Deck) (o : Nat) (x : SyncObj) : Deck := { d with objs := mapSet {} d.objs o x }
def groupAt (d : Deck) (g : Nat) : SyncGroup := mapGet {} d.groups g
def setGroup (d : Deck) (g : Nat) (x : SyncGroup) : Deck := { d with groups := mapSet {} d.groups g x }
def streamAt (d : Deck) (n : Nat) : Option Stream := mapGet none d.streams n
def setStream (d : Deck) (n : Nat) (x : Option Stream) : Deck := { d with streams := mapSet none d.streams n x }
def launchAt (d : Deck) (n : Nat) : Option Launch := mapGet none d.launches n
def setLaunch (d : Deck) (n : Nat) (x : Option Launch) : Deck := { d with launches := mapSet none d.launches n x }
def stackAt (d : Deck) (k : Nat) : Stack := mapGet {} d.stks k
def setStack (d : Deck) (k : Nat) (x : Stack) : Deck := { d with stks := mapSet {} d.stks k x }
def setHold (d : Deck) (c : Nat) (h : Hold) : Deck := setCtx d c { ctxAt d c with hold := h }

/-- Is object `o` allocated, and to which context (R143)? -/
def objAlloc (d : Deck) (o : Nat) : Bool := (groupAt d (o / 64)).alloc
def objCtx (d : Deck) (o : Nat) : BitVec 4 := (groupAt d (o / 64)).ctx

/-- The check of a completion object (R182, R437): none where `ctx` may use it. -/
def objRefused (d : Deck) (ctx : BitVec 4) (o : BitVec 12) : Option Status :=
  if !objAlloc d o.toNat then some stNoSync
  else if objCtx d o.toNat != ctx then some stBadParam
  else none

/-! ### Retiring an instruction: loop end checks and branches -/

/-- The end checks when the word `w` retires: innermost first (R138, R139, R141). Gives the loops still running, the live
counts and the next word. -/
def endFrames (fs : List LoopFrame) (live : SMap (BitVec 32)) (w : Nat) : List LoopFrame × SMap (BitVec 32) × Nat :=
  match fs with
  | [] => ([], live, w + 1)
  | f :: rest =>
    if f.last = w then
      let n := mapGet 0 live f.ctr.toNat - 1
      if n ≠ 0 then (f :: rest, mapSet 0 live f.ctr.toNat n, f.first)
      else endFrames rest (mapSet 0 live f.ctr.toNat 0) w
    else (f :: rest, live, w + 1)

/-- The loops that a taken branch to `t` leaves running, and the live counts (R142). -/
def dropFrames (fs : List LoopFrame) (live : SMap (BitVec 32)) (t : Nat) : List LoopFrame × SMap (BitVec 32) :=
  match fs with
  | [] => ([], live)
  | f :: rest =>
    if f.first ≤ t ∧ t ≤ f.last then (f :: rest, live)
    else dropFrames rest (mapSet 0 live f.ctr.toNat 0) t

/-- The core after the instruction that ends at word `w` retires, and whether execution ran past word 8,191 (R122);
then PC stays at the instruction, which the fault names. -/
def retire (c : Core) (w : Nat) : Core × Bool :=
  let r := endFrames c.loops c.live w
  let c' := { c with loops := r.1, live := r.2.1 }
  if r.2.2 > 8191 then (c', true) else ({ c' with pc := BitVec.ofNat 13 r.2.2 }, false)

/-- The core after a taken branch to `t`, at most 8,191 (R142). -/
def jumpTo (c : Core) (t : Nat) : Core :=
  let r := dropFrames c.loops c.live t
  { c with loops := r.1, live := r.2, pc := BitVec.ofNat 13 t }

/-! ### Fences and engine state -/

/-- Has engine `e` (1 vector, 2 matrix, 3 mover) an incomplete instruction older than `seq`? -/
def engineBusy (c : Core) (e seq : Nat) : Bool :=
  match e with
  | 1 => c.vq.any (fun x => decide (x.seq < seq))
  | 2 => c.mq.any (fun x => decide (x.seq < seq))
  | 3 => c.xq.any (fun x => decide (x.seq < seq))
  | _ => false

/-- Has an engine of the mask an incomplete instruction older than `seq`? The scalar bit has no effect (R128). -/
def maskBusy (c : Core) (mask : BitVec 4) (seq : Nat) : Bool :=
  (mask.getLsbD 1 && engineBusy c 1 seq) || (mask.getLsbD 2 && engineBusy c 2 seq) ||
  (mask.getLsbD 3 && engineBusy c 3 seq)

/-- Does a waiting FENCE.PASS hold an instruction of engine `e` that issued with number `seq` (R128)? -/
def passHolds (c : Core) (e seq : Nat) : Bool :=
  c.passes.any (fun p => p.dst.getLsbD e && decide (p.seq ≤ seq) && maskBusy c p.src p.seq)

/-- May the core issue a scalar instruction now (R110)? -/
def scalarReady (c : Core) : Bool := decide (c.run = .ready) && !passHolds c 0 c.seq

/-- Are all engines of the core idle (R156, R187)? -/
def enginesIdle (c : Core) : Bool := c.vq.isEmpty && c.mq.isEmpty && c.xq.isEmpty

/-! ### When a core faults (R156) -/

/-- Issue stops, and the gang unit discards what waits for a rendezvous (R244); ended cores stay ended. (DEDUCED,
log entry 14.) -/
def stopCore (c : Core) : Core :=
  let c' := { c with mq := c.mq.filter (fun m => !(m.gang && !m.started)) }
  match c.run with
  | .idle => c'
  | .ended => c'
  | _ => { c' with run := .stopped }

/-- Stop every core of a list and drop their waits. -/
def stopCores (d : Deck) (is : List Nat) : Deck :=
  let d' := is.foldl (fun d i => modCore d i stopCore) d
  { d' with waiters := d'.waiters.filter (fun w => match w.who with
      | .core i => !is.contains i
      | .stream _ => true) }

/-- Core `i` faults: CORE_FAULT keeps the first fault, the launch stops and keeps its first status (R156). -/
def coreFault (d : Deck) (i : Nat) (st : Status) (engine : BitVec 2) (pc : BitVec 13) : Deck :=
  let c := coreAt d i
  let c' := if c.fault.valid then c
            else { c with fault := { status := st, pc := pc, engine := engine, valid := true } }
  let d := setCore d i c'
  match c.launch with
  | none => stopCores d [i]
  | some l =>
    match launchAt d l with
    | none => stopCores d [i]
    | some la =>
      let la' := { la with faulted := some (la.faulted.getD st) }
      stopCores (setLaunch d l (some la')) la.cores

/-- Retire the instruction that ends at word `w` on core `i`; past word 8,191 the core faults with BAD_PARAM at that
instruction (R122). (DEDUCED, log entry 8.) -/
def retireOn (d : Deck) (i : Nat) (c : Core) (w : Nat) : Deck :=
  let r := retire c w
  let d' := setCore d i r.1
  if r.2 then coreFault d' i stBadParam 0 r.1.pc else d'

/-! ### The sync unit -/

/-- An update of one object (R145). `vote` marks the poison of a VOTE's completion object (R278). -/
inductive ObjUpd where
  | set (o : Nat) (v : BitVec 32)
  | signal (o : Nat) (v : BitVec 32)
  | poison (o : Nat) (st : Status) (vote : Bool)
deriving DecidableEq, Repr

def ObjUpd.obj (u : ObjUpd) : Nat :=
  match u with
  | .set o _ => o
  | .signal o _ => o
  | .poison o _ _ => o

/-- An object word after an update (R145, R149). (DEDUCED, log entry 13.) -/
def updWord (x : SyncObj) (u : ObjUpd) : SyncObj :=
  match u with
  | .set _ v => { count := v }
  | .signal _ v =>
    if x.count.toNat + v.toNat < 2 ^ 32 then { x with count := x.count + v }
    else { x with count := 0xFFFFFFFF, sat := true }
  | .poison _ st _ => { x with poison := true, status := st }

/-- What an update does to the hold registers of the object's context: the step status (R278) and the gate
(R283). (DEDUCED, log entry 27.) -/
def updHold (h : Hold) (u : ObjUpd) : Hold :=
  match u with
  | .set _ _ => h
  | .signal o _ =>
    if h.configured ∧ o = h.applyObj.toNat ∧ h.gate ≠ 0 then { h with gate := 0 } else h
  | .poison o st vote =>
    let apply := h.configured && o == h.applyObj.toNat && h.gate == 1
    let h' := if h.status = stGood ∧ vote = false then { h with status := st, origin := if apply then 4 else 1 } else h
    if apply then { h' with gate := 2 } else h'

/-- Apply an update to an allocated object; an unallocated one changes nothing (R147). -/
def objUpdate (d : Deck) (u : ObjUpd) : Deck :=
  if objAlloc d u.obj then
    let x := (objCtx d u.obj).toNat
    setHold (setObj d u.obj (updWord (objAt d u.obj) u)) x (updHold (ctxAt d x).hold u)
  else d

/-- The status that releases a waiter with this target, if the object releases it (R150). (DEDUCED, log entry 12.) -/
def released (x : SyncObj) (target : W64) : Option Status :=
  if x.poison then some x.status
  else if target.toNat ≤ x.count.toNat then some stGood
  else none

/-- A core's WAIT ends with `st` (R150): the register takes it, or an error in s0 faults the core. -/
def releaseCore (d : Deck) (i : Nat) (sd : BitVec 5) (st : Status) : Deck :=
  let c := coreAt d i
  if sd = 0 ∧ st ≠ 0 then coreFault (setCore d i { c with run := .ready }) i st 0 c.pc
  else retireOn d i { sSet c sd (st.setWidth 64) with run := .ready } c.pc.toNat

/-- Bytes of a stream's ring slot (R435). -/
def entryAddr (s : Stream) (slot : Nat) : Nat := s.base.toNat + 128 * (slot % s.entries)
def entryField (d : Deck) (s : Stream) (slot off n : Nat) : Nat := readNat d.mem (entryAddr s slot + off) n
def entryKind (d : Deck) (s : Stream) (slot : Nat) : Nat := bits (entryField d s slot 0 8) 0 4

/-- The completion object of an entry, where it names one that its context may use: COBJ of the entry, or of a COLL
entry's descriptor (R437). -/
def entryCobj (d : Deck) (s : Stream) (slot : Nat) : Option (BitVec 12) :=
  let w := entryField d s slot 0 8
  let o : BitVec 12 :=
    if bits w 0 4 = 4 then BitVec.ofNat 12 (bits (entryField d s slot (64 + 16) 8) 48 12) else BitVec.ofNat 12 (bits w 16 12)
  if (bits w 0 4 = 4 ∨ bits w 28 1 = 1) ∧ objRefused d s.ctx o = none then some o else none

/-- Discard every published entry of a stream that has not started, poisoning each one's object (R437, R439). Gives the
poisons and the final replies. -/
def discardPubs (d : Deck) (n : Nat) (s : Stream) (st : Status) : Deck × List ObjUpd × List DeckEff :=
  let ups := s.pubs.filterMap (fun p => (entryCobj d s p.slot).map (fun o => ObjUpd.poison o.toNat st false))
  let eff := s.pubs.filterMap (fun p => p.hdr.map (fun h => DeckEff.reply h st 0))
  (setStream d n (some { s with pubs := [] }), ups, eff)

/-- A stream entry ends with `st`: on an error the rest of the stream is discarded (R437); a closing stream that has
nothing more to run is freed and STREAM_CLOSE gets its final reply (R439). `own` is the entry's completion object. -/
def endEntry (d : Deck) (n : Nat) (st : Status) (own : Option (BitVec 12)) (amt : BitVec 16) (hdr : Option CmdHdr) :
    Deck × List ObjUpd × List DeckEff :=
  match streamAt d n with
  | none => (d, [], [])
  | some s =>
    let s' := { s with run := StreamRun.none }
    let mine := match own with
      | none => []
      | some o => if st = stGood then [ObjUpd.signal o.toNat (amt.setWidth 32)] else [ObjUpd.poison o.toNat st false]
    let fin := match hdr with
      | none => []
      | some h => [DeckEff.reply h st 0]
    let r := if st = stGood then (setStream d n (some s'), [], []) else discardPubs (setStream d n (some s')) n s' st
    match s.closing with
    | none => (r.1, mine ++ r.2.1, fin ++ r.2.2)
    | some h => (setStream r.1 n none, mine ++ r.2.1, fin ++ r.2.2 ++ [DeckEff.reply h stGood 0])

/-- Release every waiter of a list that its object releases now (R149, R150); one that a fault has meanwhile stopped no
longer waits (R156). Gives the updates that ended stream entries make. -/
def evalWaiters (ws : List Waiter) (d : Deck) : Deck × List ObjUpd × List DeckEff :=
  match ws with
  | [] => (d, [], [])
  | w :: rest =>
    if !d.waiters.any (fun x => decide (x.who = w.who)) then evalWaiters rest d else
    match released (objAt d w.obj.toNat) w.target with
    | none => evalWaiters rest d
    | some st =>
      let d := { d with waiters := d.waiters.filter (fun x => x.who ≠ w.who) }
      match w.who with
      | .core i => evalWaiters rest (releaseCore d i w.sd st)
      | .stream n =>
        let own := (streamAt d n).bind (·.waitCobj)
        let amt := ((streamAt d n).map (·.waitAmt)).getD 0
        let r := endEntry d n st own amt none
        let q := evalWaiters rest r.1
        (q.1, r.2.1 ++ q.2.1, r.2.2 ++ q.2.2)

/-- The updates of one core cycle in the order in which the sync unit applies them: set writes, then signals, then
poisons (R149). Those of one command share a cycle. (DESIGN CHOICE, log entry 88.) -/
def cycleOrder (ups : List ObjUpd) : List ObjUpd :=
  ups.filter (fun u => match u with
    | .set _ _ => true
    | _ => false) ++
  ups.filter (fun u => match u with
    | .signal _ _ => true
    | _ => false) ++
  ups.filter (fun u => match u with
    | .poison _ _ _ => true
    | _ => false)

/-- Apply the updates of one cycle, then evaluate every waiter of their objects against the result; the updates that the
releases make follow on the next cycle (R149). Each round beyond the first consumes a waiter or a published entry, so
`fuel` of that many rounds is enough. -/
def settleFuel (fuel : Nat) (d : Deck) (ups : List ObjUpd) : DeckRes :=
  match fuel with
  | 0 => (d, [])
  | k + 1 =>
    match ups with
    | [] => (d, [])
    | u :: rest =>
      let d := (cycleOrder (u :: rest)).foldl objUpdate d
      let ws := d.waiters.filter (fun w => (u :: rest).any (fun x => decide (w.obj.toNat = x.obj)))
      let r := evalWaiters ws d
      let q := settleFuel k r.1 r.2.1
      (q.1, r.2.2 ++ q.2)

/-- Rounds that the updates of a deck can take: the updates, and those of every waiter and published entry. -/
def settleBound (d : Deck) (n : Nat) : Nat :=
  n + d.waiters.length + (d.streams.map (fun e => match e.2 with
    | none => 0
    | some s => s.pubs.length)).sum + 1

/-- Apply updates that reach their objects on one core cycle, with everything they release (R149). (DESIGN CHOICE, log
entry 88.) -/
def settle (d : Deck) (ups : List ObjUpd) : DeckRes := settleFuel (settleBound d ups.length) d ups

/-- Signal or poison a completion object (R135). -/
def signalObj (d : Deck) (o : BitVec 12) (amt : BitVec 16) : DeckRes := settle d [.signal o.toNat (amt.setWidth 32)]
def poisonObj (d : Deck) (o : BitVec 12) (st : Status) : DeckRes := settle d [.poison o.toNat st false]

/-- Is an object waited on (WAITED of R144)? -/
def objWaited (d : Deck) (o : Nat) : Bool := d.waiters.any (fun w => decide (w.obj.toNat = o))

/-- The object word as its ports read it (R144, R145). -/
def objWord (d : Deck) (o : Nat) : W64 :=
  let x := objAt d o
  let g := groupAt d (o / 64)
  BitVec.ofNat 64 (x.count.toNat + 2 ^ 32 * x.status.toNat + 2 ^ 48 * boolNat x.poison + 2 ^ 49 * boolNat x.sat +
    2 ^ 50 * boolNat (objWaited d o) + 2 ^ 51 * g.ctx.toNat + 2 ^ 55 * boolNat g.alloc)

/-- The group configuration word. -/
def groupWord (d : Deck) (g : Nat) : W64 :=
  let x := groupAt d g
  BitVec.ofNat 64 (x.timeout.toNat + 2 ^ 24 * x.ctx.toNat + 2 ^ 28 * boolNat x.alloc)

/-- The group poisoned word: bit j mirrors POISON of object 64g + j. -/
def poisonedWord (d : Deck) (g : Nat) : W64 :=
  (List.range 64).foldl (fun w j => if (objAt d (64 * g + j)).poison then setBit w j true else w) 0

/-! ### Step wrappers -/

/-- What a scalar instruction does: the core it leaves, going on in sequence or at a target, or a fault. -/
inductive CoreStep where
  | seq (c : Core)
  | jump (c : Core) (t : Nat)
  | fault (st : Status)
deriving DecidableEq, Repr

/-- Issue a scalar instruction on core `i`: nothing happens while issue stalls (R110); a bad encoding faults (R191). -/
def issueScalar (d : Deck) (i : Nat) (wf : Bool) (body : Core → CoreStep) : Deck :=
  let c := coreAt d i
  if !scalarReady c then d
  else if !wf then coreFault d i stBadParam 0 c.pc
  else match body c with
    | .seq c' => retireOn d i c' c.pc.toNat
    | .jump c' t => setCore d i (jumpTo c' t)
    | .fault st => coreFault d i st 0 c.pc

/-- The issue check of R141: a 128-bit instruction may not begin on the last word of the body of a running loop. -/
def wideFits (c : Core) : Bool := c.loops.all (fun f => f.last != c.pc.toNat)

/-- A fault of the engine that the opcode belongs to (R191). -/
def engineCode (e : Engine) : BitVec 2 :=
  match e with
  | .scalar => 0
  | .vector => 1
  | .matrix => 2
  | .mover => 3

/-- Is the queue of the engine full (16, 16, 32)? -/
def queueFull (c : Core) (e : Engine) : Bool :=
  match e with
  | .scalar => false
  | .vector => decide (16 ≤ c.vq.length)
  | .matrix => decide (16 ≤ c.mq.length)
  | .mover => decide (32 ≤ c.xq.length)

/-- Issue an engine instruction: R161, the field checks, then R182 and the issue checks, in the order of R192. `check` gives
the status of an issue check that fails, `put` the core with the instruction at the tail of its queue; `res` says whether
issue then waits for its result (R115). -/
def issueEngine (d : Deck) (i : Nat) (e : Engine) (wf : Bool) (res : Bool) (check : Core → Option Status)
    (put : Core → Core) : Deck :=
  let c := coreAt d i
  if c.run ≠ .ready then d
  else if c.pc == 8191 || !wf then coreFault d i stBadParam (engineCode e) c.pc
  else if queueFull c e then d
  else match check c with
    | some st => coreFault d i st (engineCode e) c.pc
    | none =>
      if !wideFits c then coreFault d i stBadParam (engineCode e) c.pc else
      let c' := { put c with seq := c.seq + 1 }
      if res then setCore d i { c' with run := .result e c.seq }
      else retireOn d i c' (c.pc.toNat + 1)

/-- An END that waited completes once the engines are idle (R187). -/
def settleEnd (d : Deck) (i : Nat) : Deck :=
  let c := coreAt d i
  if c.run = .endWait ∧ enginesIdle c then setCore d i { c with run := .ended } else d

/-- A result-to-scalar instruction with number `seq` completes: its register takes the value and issue resumes (R115). -/
def giveResult (d : Deck) (i : Nat) (seq : Nat) (rd : BitVec 5) (v : W64) : Deck :=
  let c := sSet (coreAt d i) rd v
  match c.run with
  | .result _ n => if n = seq then retireOn d i { c with run := .ready } (c.pc.toNat + 1) else setCore d i c
  | _ => setCore d i c

end Sys2Proof.Machine
end

