-- ==== Sys2Proof/Machine/CoreControl.lean ====
section
/-! DEFINITION. The control group on one deck: NOP, END, CSRR, CSRW, LOOP, FENCE, WAIT, WAITT and the events that end
their waits (R128, R138 to R142, R150 to R153, R187, R188). -/
namespace Sys2Proof.Machine
open Sys2Proof

/-- What a core sees of the rest of the module: its deck, the own module number (R3), hall time, the model's clock in ns,
the partition's hub window in bytes, whether the deck is bound. -/
structure CoreEnv where
  deck : Nat := 0
  module : BitVec 17 := 0x1FFFF
  now : Nat := 0
  clock : Nat := 0
  /-- The core clock's time in 1/256 ns (R57). -/
  core : Nat := 0
  window : Nat := 0
  /-- The deck's hub link works (R28, R29). -/
  hubUp : Bool := true
  /-- LNK.CFG.REQ_TIMEOUT_US, and the model's clock at the last reset that cleared every core of the deck (R371). -/
  reqTimeoutUs : Nat := 3000
  cleared : Option Nat := none
  bound : Bool := false
  tag : BitVec 3 := 0
  /-- CHN.CFG.MAX_ACTIVE as it counts (0 is taken as 1). -/
  maxActive : Nat := 8
  /-- The hub window's bytes. -/
  hub : Cells := []
  /-- Ring sizes of the armed topology map, for R3; none while no map is armed. -/
  rings : Option (Nat × Nat × Nat) := none
deriving DecidableEq, Repr

/-- CORE_ID (chapter 03). -/
def coreId (env : CoreEnv) (i : Nat) : W64 := BitVec.ofNat 64 (i + 2 ^ 12 * env.deck + 2 ^ 15 * env.module.toNat)

/-- CORE_CTX. -/
def coreCtxWord (c : Core) : W64 := BitVec.ofNat 64 (c.ctx.toNat + 2 ^ 4 * c.tag.toNat + 2 ^ 16 * c.launchSeq.toNat)

/-- CORE_FAULT. -/
def coreFaultWord (c : Core) : W64 :=
  BitVec.ofNat 64 (c.fault.status.toNat + 2 ^ 16 * c.fault.pc.toNat + 2 ^ 29 * c.fault.engine.toNat +
    2 ^ 31 * boolNat c.fault.valid)

/-- CORE_CYCLE: six core cycles in each 1,280 units of the core clock's time (R57). -/
def coreCycle (env : CoreEnv) (c : Core) : W64 :=
  match c.start with
  | none => 0
  | some t => BitVec.ofNat 64 ((env.core - t) * 6 / 1280)

/-- Tn as a CSR. -/
def strideWord (t : Stride) : W64 :=
  BitVec.ofNat 64 (t.row.toNat + 2 ^ 16 * t.iter.toNat + 2 ^ 30 * t.loop.toNat)

/-- The value of a CSR; none for a number outside the summary (R188). -/
def csrRead (env : CoreEnv) (i : Nat) (c : Core) (n : Nat) : Option W64 :=
  if n = 0 then some (coreId env i)
  else if n = 1 then some (coreCtxWord c)
  else if n = 2 then some (coreFaultWord c)
  else if n = 3 then some (coreCycle env c)
  else if n = 4 then some (BitVec.ofNat 64 env.now)
  else if 0x10 ≤ n ∧ n ≤ 0x17 then some (strideWord (tGet c (n - 0x10)))
  else if 0x20 ≤ n ∧ n ≤ 0x22 then some ((mapGet 0 c.lc (n - 0x20)).setWidth 64)
  else if 0x28 ≤ n ∧ n ≤ 0x2A then some ((mapGet 0 c.live (n - 0x28)).setWidth 64)
  else none

/-- Write a CSR: read-only ones ignore it, T0 too (R119, R188); none for a number outside the summary. -/
def csrWrite (c : Core) (n : Nat) (v : W64) : Option Core :=
  if n ≤ 4 ∨ n = 0x10 ∨ (0x28 ≤ n ∧ n ≤ 0x2A) then some c
  else if 0x11 ≤ n ∧ n ≤ 0x17 then
    let t : Stride := { row := v.extractLsb' 0 16, iter := v.extractLsb' 16 14, loop := v.extractLsb' 30 2 }
    some { c with t := mapSet {} c.t (n - 0x10) t }
  else if 0x20 ≤ n ∧ n ≤ 0x22 then some { c with lc := mapSet 0 c.lc (n - 0x20) (v.setWidth 32) }
  else none

def bodyNop (c : Core) : CoreStep := .seq c

def bodyCsrr (env : CoreEnv) (i : Nat) (f : FmtC) (c : Core) : CoreStep :=
  match csrRead env i c (fieldC f 32 12).toNat with
  | none => .fault stBadParam
  | some v => .seq (sSet c (fieldC f 8 5) v)

def bodyCsrw (f : FmtC) (c : Core) : CoreStep :=
  match csrWrite c (fieldC f 32 12).toNat (sGet c (fieldC f 13 5)) with
  | none => .fault stBadParam
  | some c' => .seq c'

/-- The opcode of the last instruction of the body that starts at word `w`, walking instruction lengths; `n` bounds the
walk (R141). -/
def lastOp (imem : SMap W64) (w last n : Nat) : Nat :=
  let op := bits (mapGet 0 imem w).toNat 0 8
  match n with
  | 0 => op
  | k + 1 =>
    let next := w + (if op ≥ 128 then 2 else 1)
    if next > last then op else lastOp imem next last k

/-- Is the opcode a branch or a LOOP (R141)? -/
def endsBody (op : Nat) : Bool := op == 0x04 || (decide (0x50 ≤ op) && decide (op ≤ 0x57))

/-- LOOP (R138, R139, R141). -/
def bodyLoop (f : FmtC) (c : Core) : CoreStep :=
  let n := fieldC f 8 2
  let first := c.pc.toNat + 1
  let last := c.pc.toNat + (fieldC f 32 12).toNat + 1
  let outer := match c.loops with
    | [] => true
    | g :: _ => decide (last ≤ g.last)
  if c.loops.any (fun g => g.ctr == n) || !outer || endsBody (lastOp c.imem first last 4096) then .fault stBadParam
  else
    let count := mapGet 0 c.lc n.toNat
    let c' := { c with live := mapSet 0 c.live n.toNat count, latched := mapSet 0 c.latched n.toNat count }
    if count = 0 then .seq c'
    else .seq { c' with loops := { ctr := n, first := first, last := last } :: c.loops }

/-- LOOP on core `i`: a body with count 0 retires as if its last word had (R139). -/
def opLoop (d : Deck) (i : Nat) (f : FmtC) : Deck :=
  let c := coreAt d i
  if !scalarReady c then d
  else if !wfLoop f then coreFault d i stBadParam 0 c.pc
  else match bodyLoop f c with
    | .seq c' =>
      if mapGet 0 c.lc (fieldC f 8 2).toNat = 0 then retireOn d i c' (c.pc.toNat + (fieldC f 32 12).toNat + 1)
      else retireOn d i c' c.pc.toNat
    | .jump c' t => setCore d i (jumpTo c' t)
    | .fault st => coreFault d i st 0 c.pc

/-- Is a fence's condition met (R128)? -/
def sourcesRead (c : Core) : Bool := c.xq.all (·.srcRead)

/-- FENCE, FENCE.PASS and FENCE.SOURCE (R128): complete at once, or wait. Only the own core's instructions matter (R129). -/
def opFence (d : Deck) (i : Nat) (f : FmtC) : Deck :=
  issueScalar d i (wfFence f) (fun c => .seq c) |> fun d' =>
  let c := coreAt d i
  if !scalarReady c || !wfFence f then d'
  else
    let mask := fieldC f 10 4
    if fieldC f 8 2 = 0 then
      if maskBusy c mask c.seq then setCore d i { c with run := .fence mask } else d'
    else if fieldC f 8 2 = 1 then
      if maskBusy c mask c.seq && fieldC f 14 4 != 0 then
        retireOn d i { c with passes := c.passes ++ [{ src := mask, dst := fieldC f 14 4, seq := c.seq }] } c.pc.toNat
      else d'
    else if sourcesRead c then d' else setCore d i { c with run := .fenceSource }

/-- FENCE_RELEASE: a satisfied fence lets issue resume, and satisfied FENCE.PASS entries are dropped (R128). -/
def opFenceRelease (d : Deck) (i : Nat) : Deck :=
  let c0 := coreAt d i
  let c := { c0 with passes := c0.passes.filter (fun p => maskBusy c0 p.src p.seq) }
  match c.run with
  | .fence mask => if maskBusy c mask c.seq then setCore d i c else retireOn d i { c with run := .ready } c.pc.toNat
  | .fenceSource => if sourcesRead c then retireOn d i { c with run := .ready } c.pc.toNat else setCore d i c
  | _ => setCore d i c

/-- END (R187). -/
def opEnd (d : Deck) (i : Nat) (f : FmtC) : Deck :=
  let c := coreAt d i
  if !scalarReady c then d
  else if !wfNone f then coreFault d i stBadParam 0 c.pc
  else if enginesIdle c then setCore d i { c with run := .ended }
  else setCore d i { c with run := .endWait }

/-- WAIT (R150, R151): a core waits only on allocated objects of its own context. -/
def opWait (env : CoreEnv) (d : Deck) (i : Nat) (f : FmtC) : Deck :=
  let c := coreAt d i
  let o := fieldC f 32 12
  if !scalarReady c then d
  else if !wfWait f then coreFault d i stBadParam 0 c.pc
  else match objRefused d c.ctx o with
    | some st => coreFault d i st 0 c.pc
    | none =>
      let target := sGet c (fieldC f 13 5)
      match released (objAt d o.toNat) target with
      | some st => releaseCore d i (fieldC f 8 5) st
      | none =>
        let d' := setCore d i { c with run := .object }
        { d' with waiters := d'.waiters ++ [{ who := .core i, sd := fieldC f 8 5, obj := o, target := target, start := env.clock }] }

/-- The tick boundary that ends a WAITT for `t` issued at `now` (R152). -/
def waittBoundary (now t : Nat) : Nat := max ((t + 4) / 5 * 5) ((now / 5 + 1) * 5)

/-- WAITT (R152): more than 2³² ns ahead faults. -/
def opWaitt (env : CoreEnv) (d : Deck) (i : Nat) (f : FmtC) : Deck :=
  let c := coreAt d i
  let t := (sGet c (fieldC f 13 5)).toNat
  if !scalarReady c then d
  else if !wfWaitt f then coreFault d i stBadParam 0 c.pc
  else if t > env.now + 2 ^ 32 then coreFault d i stBadParam 0 c.pc
  else setCore d i { c with run := .time t (waittBoundary env.now t) }

/-- WAITT_EXPIRE: hall time has reached the boundary and issue resumes (R152, R153). -/
def opWaittExpire (env : CoreEnv) (d : Deck) (i : Nat) : Deck :=
  let c := coreAt d i
  match c.run with
  | .time _ b => if b ≤ env.now then retireOn d i { c with run := .ready } c.pc.toNat else d
  | _ => d

/-- A step of hall time to `now` (R72, R153): a WAITT whose time it has reached is satisfied at once where the step went
forward; every other is judged again against the corrected time. -/
def stepWait (now : Nat) (forward : Bool) (d : Deck) (i : Nat) : Deck :=
  let c := coreAt d i
  match c.run with
  | .time t _ =>
    if forward ∧ t ≤ now then retireOn d i { c with run := .ready } c.pc.toNat
    else setCore d i { c with run := .time t (waittBoundary now t) }
  | _ => d

/-- Every WAITT of a deck at a step of hall time. -/
def stepWaits (now : Nat) (forward : Bool) (d : Deck) : Deck :=
  (d.cores.map (·.1)).foldl (stepWait now forward) d

end Sys2Proof.Machine
end

