-- ==== Sys2Proof/Machine/CoreScalar.lean ====
section
/-! DEFINITION. The scalar processor on one core: integer register and immediate operations, data memory and scratchpad
access, FP32, branches (R120 to R122, R186, chapter 04's opcode tables). -/
namespace Sys2Proof.Machine
open Sys2Proof

/-! ### Integer operations -/

/-- RD ← op RS1 RS2. -/
def bodyRR (op : W64 → W64 → W64) (f : FmtR) (c : Core) : CoreStep :=
  .seq (sSet c f.rd (op (sGet c f.rs1) (sGet c f.rs2)))

/-- The sign-extended immediate (R164). -/
def immS (f : FmtI) : W64 := f.imm.signExtend 64

/-- RD ← op RS1 IMM32. -/
def bodyRI (op : W64 → W64 → W64) (f : FmtI) (c : Core) : CoreStep := .seq (sSet c f.rd (op (sGet c f.rs1) (immS f)))

def aluSll (a b : W64) : W64 := a <<< (b.toNat % 64)
def aluSrl (a b : W64) : W64 := a >>> (b.toNat % 64)
def aluSra (a b : W64) : W64 := a.sshiftRight (b.toNat % 64)
def aluSlt (a b : W64) : W64 := boolWord (a.slt b)
def aluSltu (a b : W64) : W64 := boolWord (a.ult b)
def aluMulhu (a b : W64) : W64 := BitVec.ofNat 64 (a.toNat * b.toNat / 2 ^ 64)

/-- LIH: the immediate, zero-extended, above RS1[31:0]. -/
def bodyLih (f : FmtI) (c : Core) : CoreStep :=
  .seq (sSet c f.rd ((f.imm.setWidth 64 <<< 32) ||| (sGet c f.rs1 &&& 0xFFFFFFFF)))

/-! ### Memory -/

/-- The address RS1 + IMM32 of the memory group. -/
def memAddr (f : FmtI) (c : Core) : Nat := (sGet c f.rs1 + immS f).toNat

/-- May `n` bytes be accessed at `a` in data memory (R120, R122)? -/
def dmemOk (a n : Nat) : Bool := decide (a + n ≤ 32768) && a % n == 0

/-- A load of `n` bytes from data memory, zero- or sign-extended. -/
def bodyLoad (n : Nat) (sx : Bool) (f : FmtI) (c : Core) : CoreStep :=
  let a := memAddr f c
  if !dmemOk a n then .fault stBadParam
  else
    let v := readNat c.dmem a n
    .seq (sSet c f.rd (if sx then (BitVec.ofNat (8 * n) v).signExtend 64 else BitVec.ofNat 64 v))

/-- A store of the low `n` bytes of RS2 to data memory. -/
def bodyStore (n : Nat) (f : FmtI) (c : Core) : CoreStep :=
  let a := memAddr f c
  if !dmemOk a n then .fault stBadParam
  else .seq { c with dmem := writeNat c.dmem a n (sGet c f.rs2).toNat }

/-- May 8 bytes be accessed at `a` in the scratchpad (R120, text under the memory table)? -/
def spadAddrOk (a : Nat) : Bool := decide (a < 262144) && a % 8 == 0

/-- LDS: an uncorrectable error faults with MEM_POISON (R125). -/
def bodyLds (f : FmtI) (c : Core) : CoreStep :=
  let a := memAddr f c
  if !spadAddrOk a then .fault stBadParam
  else match spadRead c (a / 32) (a % 32) 8 with
    | none => .fault stMemPoison
    | some bs => .seq (sSet c f.rd (BitVec.ofNat 64 (bytesNat bs)))

/-- STS: part of a unit is read, merged and written back (R125). -/
def bodySts (f : FmtI) (c : Core) : CoreStep :=
  let a := memAddr f c
  if !spadAddrOk a then .fault stBadParam
  else
    let r := spadWriteAll c (a / 32) (a % 32) (natBytes 8 (sGet c f.rs2).toNat)
    if r.2 then .fault stMemPoison else .seq r.1

/-- Issue LDS or STS: a poisoned unit also goes to the fault and reset controller (R125). -/
def opSpadScalar (d : Deck) (i : Nat) (wf : Bool) (body : Core → CoreStep) : DeckRes :=
  let c := coreAt d i
  let eff := if scalarReady c && wf && decide (body c = .fault stMemPoison)
    then [DeckEff.report { detector := 7, ctx := some c.ctx, cores := [i] }] else []
  (issueScalar d i wf body, eff)

/-! ### FP32 -/

/-- The FP32 operand in bits [31:0] of a register. -/
def fGet (c : Core) (r : BitVec 5) : W32 := (sGet c r).setWidth 32

/-- RD[31:0] ← an FP32 result; RD[63:32] is 0. -/
def fSet (c : Core) (r : BitVec 5) (v : W32) : Core := sSet c r (v.setWidth 64)

def bodyF2 (op : W32 → W32 → W32) (f : FmtR) (c : Core) : CoreStep :=
  .seq (fSet c f.rd (op (fGet c f.rs1) (fGet c f.rs2)))
def bodyF3 (op : W32 → W32 → W32 → W32) (f : FmtR) (c : Core) : CoreStep :=
  .seq (fSet c f.rd (op (fGet c f.rs1) (fGet c f.rs2) (fGet c f.rs3)))
def bodyFcmp (op : FVal → FVal → Bool) (f : FmtR) (c : Core) : CoreStep :=
  .seq (sSet c f.rd (boolWord (op (f32 (fGet c f.rs1)) (f32 (fGet c f.rs2)))))
/-- FCVT.S.L. -/
def bodyFcvtSL (f : FmtR) (c : Core) : CoreStep := .seq (fSet c f.rd (toF32 (fvOfInt (sGet c f.rs1).toInt)))
/-- FCVT.L.S. -/
def bodyFcvtLS (f : FmtR) (c : Core) : CoreStep := .seq (sSet c f.rd (toInt64Trunc (f32 (fGet c f.rs1))))

/-! ### Branches -/

/-- Go to `t`, or fault beyond word 8,191 (R122). -/
def goTo (c : Core) (t : Nat) : CoreStep := if t > 8191 then .fault stBadParam else .jump c t

/-- A conditional branch to the absolute word IMM32. -/
def bodyBranch (cond : W64 → W64 → Bool) (f : FmtI) (c : Core) : CoreStep :=
  if cond (sGet c f.rs1) (sGet c f.rs2) then goTo c f.imm.toNat else .seq c

/-- JAL and JALR write the next word's address to RD; a target that faults writes nothing. -/
def bodyJal (f : FmtI) (c : Core) : CoreStep :=
  goTo (sSet c f.rd (BitVec.ofNat 64 (c.pc.toNat + 1))) f.imm.toNat
def bodyJalr (f : FmtI) (c : Core) : CoreStep :=
  goTo (sSet c f.rd (BitVec.ofNat 64 (c.pc.toNat + 1))) (sGet c f.rs1 + immS f).toNat

end Sys2Proof.Machine
end

