-- ==== Sys2Proof/Machine/Vector.lean ====
section
/-! DEFINITION. The vector engine on one deck: issue checks and capture, execution row by row (R173 to R175, R197 to
R204, R254 to R256), quantisation (R210 to R219), VEXT (R115). -/
namespace Sys2Proof.Machine
open Sys2Proof

/-- A vector instruction as it enters the queue: everything it names is read at issue (R111, R174), the mask k too, so that a VCMP
of that mask that is still queued is not yet seen. R112 lets an instruction see every earlier result of its engine, R174 has KM
read at issue: the model follows the narrower R174. (DESIGN CHOICE, log entry 102.) -/
def vecEntry (op : BitVec 8) (f : FmtV) (c : Core) : VecEntry :=
  { seq := c.seq, pc := c.pc, op := op, n := vecN f, dfmt := f.dfmt, sfmt := f.sfmt, men := f.men == 1,
    mask := if f.men = 1 then mapGet 0 c.k f.km.toNat else BitVec.allOnes 32,
    d := captureV c f.d, a := captureV c f.a, b := captureV c f.b, c := captureV c f.c, ext := f.ext,
    scalar := (sGet c (f.ext.extractLsb' 0 5)).setWidth 32 }

/-- Issue a vector instruction; `res` for VEXT. -/
def opVec (d : Deck) (i : Nat) (op : BitVec 8) (wf : Bool) (res : Bool) (f : FmtV) : Deck :=
  issueEngine d i .vector wf res (fun _ => none) (fun c => { c with vq := c.vq ++ [vecEntry op f c] })

/-- Issue TLYACC or TLYCTR: the Tally must lie in the context's range (R222). -/
def opTly (d : Deck) (i : Nat) (op : BitVec 8) (wf : Bool) (f : FmtV) : Deck :=
  issueEngine d i .vector wf false
    (fun c => if (f.ext.extractLsb' 0 12).toNat / 256 = c.ctx.toNat then none else some stBadParam)
    (fun c => { c with vq := c.vq ++ [vecEntry op f c] })

/-- The lanes an instruction writes. -/
def laneOn (e : VecEntry) (l : Nat) : Bool := e.mask.getLsbD l

/-- The values of a source row and how many of its active lanes flush on input (R198, R221). -/
def sourceVals (e : VecEntry) (o : VOp) (codes : List Nat) (all : Bool) : List FVal × Nat :=
  let h := heldFmt o e.sfmt
  (codes.map (codeVal h), (codes.zipIdx.filter (fun p => (all || laneOn e p.2) && codeFlush h p.1)).length)

/-- One lane of the arithmetic group; FP32 rounds once (R203). -/
def lane3 (op : Nat) (a b c : FVal) : FVal :=
  match op with
  | 0x80 => fvAdd a b
  | 0x81 => fvAdd a (fvNeg b)
  | 0x82 => fvMul a b
  | 0x83 => fvFma a b c
  | 0x84 => fvMin a b
  | _ => fvMax a b

/-- A result computed in FP32, then converted to DFMT; it flushes at most once. -/
def viaF32 (dfmt : BitVec 4) (x : FVal) : FRes :=
  let r := fencode fmtFP32 x
  let q := toFmt dfmt (fdecode fmtFP32 r.code)
  { q with flush := r.flush || q.flush }

/-- Write a row of results, counting the written lanes' saturations and flushes with `fl` input flushes (R221). -/
def finishRow (e : VecEntry) (mask : Nat → Bool) (j : Nat) (rs : List FRes) (fl : Nat) (c : Core) : Core × Bool :=
  let r := writeRow c e.d e.dfmt mask j (rs.map (·.code))
  if r.2 then r
  else
    let on := (rs.zipIdx.filter (fun p => mask p.2)).map (·.1)
    (countOps r.1 (satCount on) (fl + flushCount on), false)

/-- VADD to VMAX, row `j`. -/
def rowArith (e : VecEntry) (j : Nat) (c : Core) : Core × Bool :=
  match readRow c e.a e.sfmt j, readRow c e.b e.sfmt j, (if e.op = 0x83 then readRow c e.c e.sfmt j else some []) with
  | some a, some b, some x =>
    let va := sourceVals e e.a a false
    let vb := sourceVals e e.b b false
    let vx := sourceVals e e.c x false
    let rs := (List.range 32).map (fun l =>
      viaF32 e.dfmt (lane3 e.op.toNat (va.1[l]?.getD .nan) (vb.1[l]?.getD .nan) (vx.1[l]?.getD .nan)))
    finishRow e (laneOn e) j rs (va.2 + vb.2 + vx.2) c
  | _, _, _ => (c, true)

/-- VCMP: lane bit ← A COND B; a masked lane keeps its bit. -/
def rowCmp (e : VecEntry) (j : Nat) (c : Core) : Core × Bool :=
  match readRow c e.a e.sfmt j, readRow c e.b e.sfmt j, e.d with
  | some a, some b, .vreg k =>
    let va := sourceVals e e.a a false
    let vb := sourceVals e e.b b false
    let cond := (e.ext.extractLsb' 0 3).toNat
    let key := (k + j) % 8
    let w := (List.range 32).foldl (fun w l =>
      if laneOn e l then setBit w l (fvCond cond (va.1[l]?.getD .nan) (vb.1[l]?.getD .nan)) else w) (mapGet 0 c.k key)
    (countOps { c with k := mapSet 0 c.k key w } 0 (va.2 + vb.2), false)
  | _, _, _ => (c, true)

/-- VSEL: A where KM is 1, else B, on every lane. -/
def rowSel (e : VecEntry) (j : Nat) (c : Core) : Core × Bool :=
  match readRow c e.a e.sfmt j, readRow c e.b e.sfmt j with
  | some a, some b =>
    let va := sourceVals e e.a a true
    let vb := sourceVals e e.b b true
    let rs := (List.range 32).map (fun l =>
      viaF32 e.dfmt (if laneOn e l then va.1[l]?.getD .nan else vb.1[l]?.getD .nan))
    finishRow e (fun _ => true) j rs (va.2 + vb.2) c
  | _, _ => (c, true)

/-- VCVT converts once, without block scale; VRSQS converts its seed (R202, R255). -/
def rowMap (e : VecEntry) (g : FVal → FVal) (j : Nat) (c : Core) : Core × Bool :=
  match readRow c e.a e.sfmt j with
  | some a =>
    let va := sourceVals e e.a a false
    finishRow e (laneOn e) j (va.1.map (fun x => toFmt e.dfmt (g x))) va.2 c
  | none => (c, true)

/-- VBCST (R556): a subnormal flushes once for every lane written. -/
def rowBcst (e : VecEntry) (j : Nat) (c : Core) : Core × Bool :=
  let fl := if isSubnormal fmtFP32 e.scalar.toNat then ((List.range 32).filter (laneOn e)).length else 0
  finishRow e (laneOn e) j (List.replicate 32 (toFmt e.dfmt (f32 e.scalar))) fl c

/-! ### Quantisation -/

/-- EMAX of R212. -/
def quantEmax (dfmt : BitVec 4) : Int :=
  match dfmt.toNat with
  | 0 => 8
  | 1 => 15
  | _ => 2

/-- The largest magnitude of a row's finite elements, as mantissa and exponent; 0 where none is nonzero (R212). -/
def amaxOf (vals : List FVal) : Nat × Int :=
  vals.foldl (fun a x => match x with
    | .fin _ m e => if magGt m e a.1 a.2 then (m, e) else a
    | _ => a) (0, 0)

/-- The scale of CURRENT mode: floor(log₂ amax) − EMAX + 127, clamped to 0 to 254 (R213). -/
def currentScale (dfmt : BitVec 4) (am : Nat × Int) : Nat :=
  (min 254 (max 0 (floorLog am.1 am.2 - quantEmax dfmt + 127))).toNat

/-- Does M/2 or more stand in `m·2^e`, for DFMT's M (R212, R214)? -/
def halfRange (dfmt : BitVec 4) (m : Nat) (e : Int) : Bool :=
  let x := maxMag (ffmtOf dfmt)
  magGe m e x.1 (x.2 - 1)

/-- What VQNT makes of a block: the element results, the new scale byte and the new flag byte (R213 to R219). -/
structure QuantRes where
  res : List FRes
  scale : Nat
  flags : Nat
deriving DecidableEq, Repr

/-- One block of VQNT. `delayed` is EXT.MODE, `b` the stored scale byte, `cf` the stored flag byte. -/
def quantBlock (dfmt : BitVec 4) (delayed : Bool) (vals : List FVal) (b cf : Nat) : QuantRes :=
  let am := amaxOf vals
  let nonfin := vals.any (fun x => match x with
    | .nan => true
    | .inf _ => true
    | _ => false)
  let allZero := am.1 = 0 ∧ nonfin = false
  let clean := cf / 16
  let current := !delayed || b == 0xFF
  let s := if current then (if am.1 = 0 then b else currentScale dfmt am) else b
  let res := vals.map (fun x => toFmt dfmt (fvScale x (127 - (s : Int))))
  let sat := res.any (·.sat)
  let drowned := decide (16 ≤ flushCount res)
  let low := boolNat sat + 2 * boolNat (decide allZero) + 4 * boolNat drowned + 8 * boolNat nonfin
  let keep := if b = 0xFF then 0x7F else b
  if am.1 = 0 then
    -- R217, and R219 where non-finite elements stand among the zeros
    { res := res, scale := keep,
      flags := low + 16 * (if current ∨ nonfin then 0 else clean) }
  else if current then { res := res, scale := s, flags := low }
  else if nonfin then { res := res, scale := b, flags := low }
  else if sat then { res := res, scale := min 254 (b + 1), flags := low }
  else if halfRange dfmt am.1 (am.2 + 127 - b) then { res := res, scale := b, flags := low }
  else if clean = 15 then { res := res, scale := b - 1, flags := low }
  else { res := res, scale := b, flags := low + 16 * (clean + 1) }

/-- VQNT, row `j`: the D row, then B[j], then C[j] (R211). -/
def rowQnt (e : VecEntry) (j : Nat) (c : Core) : Core × Bool :=
  match e.b, e.c with
  | .spad bs _, .spad cs _ =>
    match readRow c e.a e.sfmt j, listByte c bs j, listByte c cs j with
    | some a, some bv, some cv =>
      let va := sourceVals e e.a a false
      let q := quantBlock e.dfmt (e.ext.getLsbD 0) va.1 bv.toNat cv.toNat
      let r := finishRow e (fun _ => true) j q.res va.2 c
      if r.2 then r
      else
        let r1 := spadWriteAll r.1 bs j [BitVec.ofNat 8 q.scale]
        if r1.2 then r1 else spadWriteAll r1.1 cs j [BitVec.ofNat 8 q.flags]
    | _, _, _ => (c, true)
  | _, _ => (c, true)

/-- The row function of a vector instruction. -/
def vecRow (e : VecEntry) : Nat → Core → Core × Bool :=
  match e.op.toNat with
  | 0x86 => rowCmp e
  | 0x87 => rowSel e
  | 0x88 => rowMap e id
  | 0x89 => rowQnt e
  | 0x8A => rowMap e rsqrtSeed
  | 0x8B => rowBcst e
  | _ => rowArith e

/-- An engine instruction at number `seq` met an uncorrectable scratchpad error: the core faults with MEM_POISON and the
controller hears of it (R125, detector 7 of R531). -/
def spadFault (d : Deck) (i : Nat) (engine : BitVec 2) (pc : BitVec 13) : DeckRes :=
  (coreFault d i stMemPoison engine pc,
    [.report { detector := 7, ctx := some (coreAt d i).ctx, cores := [i] }])

/-- The vector instruction at the head of the queue completes (R113): results, counters, a waiting END or VEXT. -/
def completeVec (d : Deck) (i : Nat) (e : VecEntry) (rest : List VecEntry) : DeckRes :=
  let c := { coreAt d i with vq := rest }
  if e.op = 0x8C then
    let r := match e.a with
      | .vreg r => r
      | .spad _ _ => 0
    let v := mapGet 0 c.v (32 * (r % 16) + (e.ext.extractLsb' 5 5).toNat)
    (settleEnd (giveResult (setCore d i c) i e.seq (e.ext.extractLsb' 0 5) (v.setWidth 64)) i, [])
  else
    let r := runRows (vecRow e) 0 e.n c
    let d' := setCore d i r.1
    if r.2 then
      let q := spadFault d' i 1 e.pc
      (settleEnd q.1 i, q.2)
    else (settleEnd d' i, [])

end Sys2Proof.Machine
end

