-- ==== Sys2Proof/Machine/ChurnPlan.lean ====
section
/-! DEFINITION. Collectives as a plan: descriptors and digests (R383, R400), groups and positions (R380, R381), levels and
pieces (R388 to R391), what each port sends and receives chunk by chunk (R397), the chunk header (R398), number formats on
the wire (R386, R393, R394), CRC-32C. -/
namespace Sys2Proof.Machine
open Sys2Proof

/-! ### CRC-32C -/

/-- One byte of the reflected CRC with polynomial 0x82F63B78. -/
def crcByte (crc : BitVec 32) (b : Byte) : BitVec 32 :=
  (List.range 8).foldl (fun c _ => if c.getLsbD 0 then (c >>> 1) ^^^ 0x82F63B78 else c >>> 1) (crc ^^^ b.setWidth 32)

/-- CRC-32C of bytes. (PRESUMED, log entry 45.) -/
def crc32c (bs : List Byte) : BitVec 32 := ~~~ (bs.foldl crcByte 0xFFFFFFFF)

/-! ### Descriptors -/

/-- A descriptor from its 64 bytes (R383). -/
def collDesc (m : Cells) : CollDesc :=
  let f := fun lo w => bits (readNat m 0 64) lo w
  { op := f 0 8, rtype := f 8 4, skim := f 12 2, dir := f 14 1 == 1, chunkLog := f 16 4, axes := BitVec.ofNat 4 (f 20 4),
    dmask := BitVec.ofNat 8 (f 24 8), slot := BitVec.ofNat 16 (f 32 16), root := f 48 16 + 65536 * f 188 4,
    count := f 64 64, seq := BitVec.ofNat 32 (f 128 32), layer := BitVec.ofNat 16 (f 160 16), cobj := BitVec.ofNat 12 (f 176 12),
    src := f 192 40, dst := f 240 40, amt := BitVec.ofNat 16 (f 288 16) }

/-- Are the reserved fields zero, and the fields that only some operations use (R383)? -/
def descReserved (m : Cells) (d : CollDesc) : Bool :=
  let f := fun lo w => bits (readNat m 0 64) lo w
  f 15 1 == 0 && f 232 8 == 0 && f 280 8 == 0 && f 304 208 == 0 && decide (d.chunkLog ≤ 8) && d.skim != 3 &&
  (d.op == 7 || (!d.dir && d.layer == 0)) && (d.op == 4 || d.root == 0)

/-- The digest of R400. -/
def collDigest (d : CollDesc) (holdStep : Nat) : BitVec 32 :=
  let r := d.root
  crc32c (natBytes 1 d.op ++ natBytes 1 (d.rtype + 16 * d.skim + 64 * boolNat d.dir) ++ natBytes 1 d.chunkLog ++
    natBytes 1 (r / 65536) ++ natBytes 2 (d.axes.toNat + 16 * d.dmask.toNat) ++ natBytes 2 (r % 65536) ++ natBytes 8 d.count ++
    natBytes 4 d.seq.toNat ++ natBytes 2 d.layer.toNat ++ natBytes 2 0 ++ natBytes 8 holdStep)

/-! ### Groups -/

/-- Own coordinates and ring sizes in the order T, X, Y, Z. -/
structure Geo where
  coord : List Nat
  size : List Nat
  deck : Nat
deriving DecidableEq, Repr

def Geo.at_ (g : Geo) (a : Nat) : Nat := g.coord[a]?.getD 0
def Geo.n (g : Geo) (a : Nat) : Nat := g.size[a]?.getD 1

/-- The levels of a collective: its axes, but ring axes of size 1 (R381). -/
def levels (g : Geo) (d : CollDesc) : List Nat := (List.range 4).filter (fun a => d.axes.getLsbD a && (a == 0 || decide (1 < g.n a)))

/-- Decks of the group, in increasing order. (DEDUCED, log entry 37.) -/
def groupDecks (d : CollDesc) : List Nat := (List.range 8).filter (fun k => d.dmask.getLsbD k)

/-- The rank of a deck (R381). -/
def deckRank (d : CollDesc) (k : Nat) : Nat := ((groupDecks d).takeWhile (fun x => x != k)).length

/-- The number of members and the position of a member, T the least significant digit (R2, R263, R264, R381). -/
def memberCount (g : Geo) (d : CollDesc) : Nat := (groupDecks d).length * ((levels g d).map g.n).prod
def positionOf (g : Geo) (d : CollDesc) (deck : Nat) : Nat :=
  let r := (levels g d).foldl (fun (r : Nat × Nat) a => (r.1 + r.2 * g.at_ a, r.2 * g.n a)) (0, 1)
  deckRank d deck + (groupDecks d).length * r.1

/-- The digit of position `p` on axis `a`. -/
def digitOf (g : Geo) (d : CollDesc) (p a : Nat) : Nat :=
  let w := (((levels g d).takeWhile (fun x => x != a)).map g.n).prod
  p / (groupDecks d).length / w % g.n a

/-! ### Pieces -/

/-- Elements (or bytes) in the unit that a level's data is cut in: one; for E5M2, on the wire or in memory, a whole block of 32,
which has one scale; a vote record stays whole. (DEDUCED, log entry 94.) -/
def unitElems (d : CollDesc) : Nat := if d.op = 6 then 16 else if d.rtype = 2 ∨ d.skim = 2 then 32 else 1

/-- COUNT in units. -/
def countUnits (d : CollDesc) : Nat := d.count / unitElems d

/-- A stretch of the accumulation space, in units, and the position it belongs to. -/
structure Stretch where
  off : Nat
  len : Nat
  tag : Nat := 0
deriving DecidableEq, Repr

/-- Part `k` of `m` of a stretch: equal parts, where the units divide; else extra units go to the lower parts. -/
def cutOf (x : Stretch) (m k : Nat) : Stretch :=
  let q := x.len / m
  let r := x.len % m
  { x with off := x.off + k * q + min k r, len := q + (if k < r then 1 else 0) }

/-- What one chunk stream of a port carries at one step. -/
structure PlanItem where
  port : Nat
  level : Nat
  dist : Bool
  step : Nat
  parts : List Stretch
deriving DecidableEq, Repr

/-- Sends and receives of a level, and the stretches that are the member's own after it. -/
structure LevelPlan where
  sends : List PlanItem
  recvs : List PlanItem
  backSends : List PlanItem
  backRecvs : List PlanItem
  own : List Stretch
deriving DecidableEq, Repr

/-- The stretches of digit `j` out of `n` on axis `a`: by digit for a scatter, by cutting otherwise. -/
def digitParts (g : Geo) (d : CollDesc) (a n j : Nat) (xs : List Stretch) : List Stretch :=
  if d.op = 2 then xs.filter (fun x => digitOf g d x.tag a == j) else xs.map (fun x => cutOf x n j)

/-- The T level of a reduction (R390). -/
def reduceT (g : Geo) (d : CollDesc) (xs : List Stretch) : LevelPlan :=
  let t := g.at_ 0
  let others := (List.range 4).filter (fun q => q != t)
  let port := fun q => (t ^^^ q) - 1
  let item := fun (dist : Bool) q (parts : List Stretch) => ({ port := port q, level := 1, dist := dist, step := 0, parts := parts } : PlanItem)
  let own := digitParts g d 0 4 t xs
  { sends := others.map (fun q => item false q (digitParts g d 0 4 q xs)), recvs := others.map (fun q => item false q own),
    backSends := others.map (fun q => item true q own), backRecvs := others.map (fun q => item true q (digitParts g d 0 4 q xs)),
    own := own }

/-- The ports of a ring axis: +, −. -/
def ringPorts (a : Nat) : Nat × Nat := (2 * a + 1, 2 * a + 2)

/-- The half of the stretches that travels in + (0) or − (1); an odd unit goes to the lower half. -/
def halfOf (k : Nat) (xs : List Stretch) : List Stretch := xs.map (fun x => cutOf x 2 k)

/-- Piece `j` of direction `k` on a ring (R391): in a scatter the piece that ends at coordinate `c` is piece `c + 1` in the
direction's own counting. -/
def ringPiece (g : Geo) (d : CollDesc) (a k j : Nat) (xs : List Stretch) : List Stretch :=
  let n := g.n a
  let hs := halfOf k xs
  if d.op = 2 then
    let c := (j + n - 1) % n
    hs.filter (fun x => digitOf g d x.tag a == (if k = 0 then c else (n - c) % n))
  else hs.map (fun x => cutOf x n j)

/-- A ring level of a reduction (R391). -/
def reduceRing (g : Geo) (d : CollDesc) (a : Nat) (xs : List Stretch) : LevelPlan :=
  let n := g.n a
  let at_ := fun k => if k = 0 then g.at_ a else (n - g.at_ a) % n
  let out := fun k => if k = 0 then (ringPorts a).1 else (ringPorts a).2
  let inn := fun k => if k = 0 then (ringPorts a).2 else (ringPorts a).1
  let piece := fun k (j : Int) => ringPiece g d a k (j % (n : Int)).toNat xs
  let steps := (List.range (n - 1)).flatMap (fun s => (List.range 2).map (fun k => (s, k)))
  let mk := fun (port : Nat) (dist : Bool) (s : Nat) (parts : List Stretch) =>
    ({ port := port, level := a + 1, dist := dist, step := s, parts := parts } : PlanItem)
  { sends := steps.map (fun x => mk (out x.2) false x.1 (piece x.2 ((at_ x.2 : Int) - x.1))),
    recvs := steps.map (fun x => mk (inn x.2) false x.1 (piece x.2 ((at_ x.2 : Int) - 1 - x.1))),
    backSends := steps.map (fun x => mk (out x.2) true x.1 (piece x.2 ((at_ x.2 : Int) + 1 - x.1))),
    backRecvs := steps.map (fun x => mk (inn x.2) true x.1 (piece x.2 ((at_ x.2 : Int) - x.1))),
    own := piece 0 (at_ 0 + 1) ++ piece 1 (at_ 1 + 1) }

/-- A level of a gather: every member's set goes to all others of the level, on a ring in halves (R388, R391). -/
def gatherLevel (g : Geo) (a : Nat) (sets : Nat → List Stretch) : List PlanItem × List PlanItem :=
  let n := g.n a
  let me := g.at_ a
  if a = 0 then
    let others := (List.range 4).filter (fun q => q != me)
    (others.map (fun q => { port := (me ^^^ q) - 1, level := 1, dist := false, step := 0, parts := sets me }),
     others.map (fun q => { port := (me ^^^ q) - 1, level := 1, dist := false, step := 0, parts := sets q }))
  else
    let steps := (List.range (n - 1)).flatMap (fun s => (List.range 2).map (fun k => (s, k)))
    let origin := fun (k s : Nat) => if k = 0 then (me + n * n - s) % n else (me + s) % n
    (steps.map (fun x =>
      { port := if x.2 = 0 then (ringPorts a).1 else (ringPorts a).2, level := a + 1, dist := false, step := x.1,
        parts := halfOf x.2 (sets (origin x.2 x.1)) }),
     steps.map (fun x =>
      { port := if x.2 = 0 then (ringPorts a).2 else (ringPorts a).1, level := a + 1, dist := false, step := x.1,
        parts := halfOf x.2 (sets (origin x.2 (x.1 + 1))) }))

/-- How many hops from `i` to `j` in the shorter direction, and which: 0 for +, which a tie takes (R391). -/
def ringWay (n i j : Nat) : Nat × Nat :=
  let f := (j + n - i) % n
  if f ≤ n - f then (f, 0) else (n - f, 1)

/-- A level of an exchange: blocks move toward their destination's digit, relayed hop by hop (R391). `held` gives the blocks
that a member with digit `o` holds for digit `q`. -/
def exchangeLevel (g : Geo) (a : Nat) (held : Nat → Nat → List Stretch) : List PlanItem × List PlanItem :=
  let n := g.n a
  let me := g.at_ a
  if a = 0 then
    let others := (List.range 4).filter (fun q => q != me)
    (others.map (fun q => { port := (me ^^^ q) - 1, level := 1, dist := false, step := 0, parts := held me q }),
     others.map (fun q => { port := (me ^^^ q) - 1, level := 1, dist := false, step := 0, parts := held q me }))
  else
    let steps := (List.range (n / 2)).flatMap (fun s => (List.range 2).map (fun k => (s, k)))
    let origin := fun (k s : Nat) => if k = 0 then (me + n * n - s) % n else (me + s) % n
    let moving := fun (k s o : Nat) => (List.range n).flatMap (fun q =>
      let w := ringWay n o q
      if w.2 = k ∧ s < w.1 then held o q else [])
    (steps.map (fun x =>
      { port := if x.2 = 0 then (ringPorts a).1 else (ringPorts a).2, level := a + 1, dist := false, step := x.1,
        parts := moving x.2 x.1 (origin x.2 x.1) }),
     steps.map (fun x =>
      { port := if x.2 = 0 then (ringPorts a).2 else (ringPorts a).1, level := a + 1, dist := false, step := x.1,
        parts := moving x.2 x.1 (origin x.2 (x.1 + 1)) }))

/-- The whole plan: sends and receives in order. -/
structure Plan where
  sends : List PlanItem
  recvs : List PlanItem
  /-- The stretches whose sum becomes final here, for a reduction. -/
  own : List Stretch
deriving DecidableEq, Repr

/-- Units of the accumulation space. -/
def totalUnits (g : Geo) (d : CollDesc) : Nat :=
  if d.op = 6 then 1
  else if d.op = 3 ∨ d.op = 7 then memberCount g d * countUnits d
  else if d.op = 5 then memberCount g d * memberCount g d * countUnits d
  else countUnits d

/-- The reduction's levels, outward. -/
def reduceLevels (g : Geo) (d : CollDesc) (as : List Nat) (xs : List Stretch) : List LevelPlan :=
  match as with
  | [] => []
  | a :: rest =>
    let l := if a = 0 then reduceT g d xs else reduceRing g d a xs
    l :: reduceLevels g d rest l.own

/-- The stretches a reduction starts with: one, or one per position for a scatter. -/
def firstStretches (g : Geo) (d : CollDesc) : List Stretch :=
  let b := totalUnits g d
  if d.op = 2 then
    let n := memberCount g d
    (List.range n).map (fun p => { off := p * (b / n), len := b / n, tag := p })
  else [{ off := 0, len := b }]

/-- The positions that agree with the own module on every level from `a` on, with digit `q` on `a`. -/
def gatheredSet (g : Geo) (d : CollDesc) (done : List Nat) (a q : Nat) : List Nat :=
  (List.range (memberCount g d)).filter (fun p =>
    (levels g d).all (fun b => done.contains b || digitOf g d p b == (if b = a then q else g.at_ b)))

/-- The plan of a gather: the sets grow level by level. -/
def gatherPlan (g : Geo) (d : CollDesc) (done as : List Nat) : List PlanItem × List PlanItem :=
  match as with
  | [] => ([], [])
  | a :: rest =>
    let u := countUnits d
    let sets := fun q => (gatheredSet g d done a q).map (fun p => ({ off := p * u, len := u, tag := p } : Stretch))
    let l := gatherLevel g a sets
    let r := gatherPlan g d (a :: done) rest
    (l.1 ++ r.1, l.2 ++ r.2)

/-- The plan of an exchange: after the levels `done`, a member holds the blocks whose destination agrees with it there. -/
def exchangePlan (g : Geo) (d : CollDesc) (done as : List Nat) : List PlanItem × List PlanItem :=
  match as with
  | [] => ([], [])
  | a :: rest =>
    let n := memberCount g d
    let u := countUnits d
    let held := fun o q => (List.range (n * n)).filterMap (fun x =>
      let src := x / n
      let dst := x % n
      let ok := (levels g d).all (fun b =>
        if b = a then digitOf g d src b == o && digitOf g d dst b == q
        else if done.contains b then digitOf g d dst b == g.at_ b
        else digitOf g d src b == g.at_ b)
      if ok then some ({ off := x * u, len := u, tag := x } : Stretch) else none)
    let l := exchangeLevel g a held
    let r := exchangePlan g d (a :: done) rest
    (l.1 ++ r.1, l.2 ++ r.2)

/-- Hops that + covers in a multicast on a ring of `n`; − covers the rest (R391). -/
def mcPlus (n : Nat) : Nat := n / 2

/-- The plan of a broadcast: level by level from the root; on a ring the packets are multicast, and other members only
receive (R376, R391). -/
def bcastPlan (g : Geo) (d : CollDesc) (as : List Nat) : List PlanItem × List PlanItem :=
  match as with
  | [] => ([], [])
  | a :: rest =>
    let n := g.n a
    let me := g.at_ a
    let r0 := digitOf g d d.root a
    -- the level concerns the modules that agree with the root on every later level
    let live := rest.all (fun b => digitOf g d d.root b == g.at_ b)
    let all : List Stretch := [{ off := 0, len := countUnits d }]
    let l : List PlanItem × List PlanItem :=
      if !live then ([], [])
      else if a = 0 then
        if me = r0 then
          (((List.range 4).filter (fun q => q != me)).map (fun q =>
            { port := (me ^^^ q) - 1, level := 1, dist := false, step := 0, parts := all }), [])
        else ([], [{ port := (me ^^^ r0) - 1, level := 1, dist := false, step := 0, parts := all }])
      else if me = r0 then
        ((if mcPlus n = 0 then [] else [{ port := (ringPorts a).1, level := a + 1, dist := false, step := 0, parts := all }]) ++
         (if n - 1 - mcPlus n = 0 then [] else
           [{ port := (ringPorts a).2, level := a + 1, dist := false, step := 0, parts := all }]), [])
      else
        let f := (me + n - r0) % n
        ([], [{ port := if f ≤ mcPlus n then (ringPorts a).2 else (ringPorts a).1, level := a + 1, dist := false, step := 0,
                parts := all }])
    let r := bcastPlan g d rest
    (l.1 ++ r.1, l.2 ++ r.2)

/-- The plan of a collective on this module: a function of the descriptor and the group alone, which fixes the order of
every sum (R387). -/
def planOf (g : Geo) (d : CollDesc) : Plan :=
  let as := levels g d
  if d.op = 1 ∨ d.op = 2 ∨ d.op = 6 then
    let ls := reduceLevels g d as (firstStretches g d)
    let own := (ls.getLast?.map (·.own)).getD (firstStretches g d)
    let back := d.op != 2
    { sends := ls.flatMap (·.sends) ++ (if back then ls.reverse.flatMap (·.backSends) else []),
      recvs := ls.flatMap (·.recvs) ++ (if back then ls.reverse.flatMap (·.backRecvs) else []), own := own }
  else
    let r := if d.op = 4 then bcastPlan g d as
      else if d.op = 5 then exchangePlan g d [] as
      else gatherPlan g d [] as
    { sends := r.1, recvs := r.2, own := [] }

/-! ### Chunks -/

/-- Wire types: RTYPE codes; 15 moves bytes. Partial sums of BF16 and E5M2 travel in FP32, so that they are rounded once
(R386); under SKIM the T level carries RTYPE (R392). (DEDUCED, log entry 84.) -/
def wireType (d : CollDesc) (i : PlanItem) : Nat :=
  if d.op = 6 then 15
  else if d.rtype = 15 ∨ d.rtype = 3 ∨ d.rtype = 4 then d.rtype
  else if d.skim ≠ 0 ∧ 2 ≤ i.level then d.skim
  else if i.dist then d.rtype
  else if d.rtype = 1 ∧ d.skim ≠ 0 ∧ i.level = 1 then 1
  else 0

/-- Elements a chunk carries (R397). -/
def chunkElems (d : CollDesc) (wt : Nat) : Nat :=
  let c := 2 ^ (12 + d.chunkLog) - 512
  match wt with
  | 0 => 32 * (c / 128)
  | 1 => 32 * (c / 64)
  | 2 => 32 * (c / 33)
  | 3 => 32 * (c / 128)
  | 4 => 32 * (c / 256)
  | _ => c

/-- The elements of an item, as stretches in elements. -/
def itemElems (d : CollDesc) (i : PlanItem) : Nat := (i.parts.map (·.len)).sum * unitElems d

/-- Chunks of an item. -/
def itemChunks (d : CollDesc) (i : PlanItem) : Nat :=
  let k := chunkElems d (wireType d i)
  (itemElems d i + k - 1) / k

/-- The item and the chunk in it that chunk `c` of a port stands for: the port's items in order (R81, log entry 32). -/
def locate (d : CollDesc) (is : List PlanItem) (c : Nat) : Option (PlanItem × Nat) :=
  match is with
  | [] => none
  | i :: rest => if c < itemChunks d i then some (i, c) else locate d rest (c - itemChunks d i)

/-- The items of a port. (DESIGN CHOICE, log entry 32.) -/
def portItems (is : List PlanItem) (p : Nat) : List PlanItem := is.filter (fun i => i.port == p)

/-- The chunks of a port. -/
def portChunks (d : CollDesc) (is : List PlanItem) (p : Nat) : Nat := ((portItems is p).map (itemChunks d)).sum

/-- The element indexes of stretches. -/
def stretchElems (d : CollDesc) (xs : List Stretch) : List Nat :=
  xs.flatMap (fun x => (List.range (x.len * unitElems d)).map (fun e => x.off * unitElems d + e))

/-- The element indexes that `n` elements from element `k` of an item cover. -/
def itemIndexes (d : CollDesc) (i : PlanItem) (k n : Nat) : List Nat := ((stretchElems d i.parts).drop k).take n

/-- The element indexes of chunk `c` of an item. -/
def chunkIndexes (d : CollDesc) (i : PlanItem) (c : Nat) : List Nat :=
  let k := chunkElems d (wireType d i)
  itemIndexes d i (k * c) k

/-- The order in which an item's data is worked: reductions outward, distributions back. -/
def itemOrder (i : PlanItem) : Nat := if i.dist then 10000000 - 100000 * i.level + i.step else 100000 * i.level + i.step

/-! ### Elements -/

/-- Bytes of an element in the accumulation space: FP32, INT32, INT64 or a byte. -/
def accWidth (d : CollDesc) : Nat :=
  if d.op = 6 ∨ d.rtype = 15 then 1 else if d.rtype = 4 then 8 else 4

def spaceGet (d : CollDesc) (acc : Cells) (e : Nat) : Nat := readNat acc (accWidth d * e) (accWidth d)
def spacePut (d : CollDesc) (acc : Cells) (e v : Nat) : Cells := writeNat acc (accWidth d * e) (accWidth d) v

/-- One E5M2 block in CURRENT mode from FP32 values: codes, scale, saturations, flushes (R213, R393). -/
def e5m2Block (vs : List Nat) : List Nat × Nat × Nat × Nat :=
  let q := quantBlock 1 false (vs.map (fun v => fdecode fmtFP32 v)) 0xFF 0
  (q.res.map (·.code), q.scale, q.res.countP (·.sat), q.res.countP (·.flush))

/-- Split a list into blocks of `w`; `n` bounds their number. -/
def blocksBy (w n : Nat) (vs : List Nat) : List (List Nat) :=
  match n with
  | 0 => []
  | k + 1 => if vs.isEmpty then [] else vs.take w :: blocksBy w k (vs.drop w)

/-- The wire bytes of accumulated values, and the saturations and flushes of the conversion. -/
def toWire (wt : Nat) (vs : List Nat) : List Byte × Nat × Nat :=
  match wt with
  | 1 =>
    let rs := vs.map (fun v => fencode fmtBF16 (fdecode fmtFP32 v))
    (rs.flatMap (fun r => natBytes 2 r.code), rs.countP (·.sat), rs.countP (·.flush))
  | 2 =>
    let bs := (blocksBy 32 vs.length vs).map e5m2Block
    (bs.flatMap (fun b => b.1.flatMap (natBytes 1)) ++ bs.flatMap (fun b => natBytes 1 b.2.1), (bs.map (·.2.2.1)).sum,
      (bs.map (·.2.2.2)).sum)
  | 4 => (vs.flatMap (natBytes 8), 0, 0)
  | 15 => (vs.flatMap (natBytes 1), 0, 0)
  | _ => (vs.flatMap (natBytes 4), 0, 0)

/-- The values that `n` elements on the wire stand for, widened to the accumulation space. -/
def fromWire (wt n : Nat) (m : Cells) : List Nat :=
  match wt with
  | 1 => (List.range n).map (fun i => (fencode fmtFP32 (fdecode fmtBF16 (readNat m (2 * i) 2))).code)
  | 2 => (List.range n).map (fun i =>
      let sc := readNat m (n + i / 32) 1
      if sc = 255 then 0x7FC00000
      else (fencode fmtFP32 (fvScale (fdecode fmtE5M2 (readNat m i 1)) ((sc : Int) - 127))).code)
  | 4 => (List.range n).map (fun i => readNat m (8 * i) 8)
  | 15 => (List.range n).map (fun i => readNat m i 1)
  | _ => (List.range n).map (fun i => readNat m (4 * i) 4)

/-- Add two accumulated elements (R386). -/
def addElem (d : CollDesc) (a b : Nat) : Nat :=
  if d.rtype = 3 then (a + b) % 2 ^ 32
  else if d.rtype = 4 then (a + b) % 2 ^ 64
  else (f32Add (BitVec.ofNat 32 a) (BitVec.ofNat 32 b)).toNat

/-- Combine two vote records (R411). -/
def addVote (a b : Nat) : Nat :=
  let bad := fun v => bits v 0 32
  let pos := fun v => bits v 64 32
  let low := if bad a = 0 then b else if bad b = 0 then a else if pos a ≤ pos b then a else b
  (bad a + bad b) % 2 ^ 32 + 2 ^ 32 * bits low 32 16 + 2 ^ 64 * bits low 64 32

/-- Round a final value: through the skim format where there is one, then to RTYPE (R386, R394). -/
def finalVals (d : CollDesc) (vs : List Nat) : List Nat × Nat × Nat :=
  let via := fun wt (r : List Nat × Nat × Nat) =>
    let w := toWire wt r.1
    (fromWire wt r.1.length (bytesCells w.1), r.2.1 + w.2.1, r.2.2 + w.2.2)
  let r0 := if d.skim ≠ 0 then via d.skim (vs, 0, 0) else (vs, 0, 0)
  if d.rtype = 1 ∨ d.rtype = 2 then
    let r1 := via d.rtype (r0.1, 0, 0)
    (r1.1, r0.2.1, r0.2.2)
  else r0

/-- The bytes of `n` elements in memory in RTYPE: for E5M2 the elements, then the scales padded to 32 (R386). -/
def memBytes (d : CollDesc) (n : Nat) : Nat :=
  match d.rtype with
  | 1 => 2 * n
  | 2 => n + (n / 32 + 31) / 32 * 32
  | 4 => 8 * n
  | 15 => n
  | _ => 4 * n

/-- Does an element stand in DST with the width that it has while it is summed? -/
def inPlace (d : CollDesc) : Bool := d.op != 6 && (d.rtype == 15 || d.rtype == 0 || d.rtype == 3 || d.rtype == 4)

/-- Elements in the 512 payload bytes of a packet of wire type `wt`. -/
def packetElems (wt : Nat) : Nat :=
  match wt with
  | 1 => 256
  | 2 => 512
  | 4 => 64
  | 15 => 512
  | _ => 128

/-- The place in DST, counted in elements, of an element of the accumulation space at the member of a deck; none where the
result there does not hold it. -/
def dstIndex (g : Geo) (d : CollDesc) (deck e : Nat) : Option Nat :=
  let n := memberCount g d
  let p := positionOf g d deck
  if d.op = 2 then (if e / (d.count / n) = p then some (e - p * (d.count / n)) else none)
  else if d.op = 5 then (if e / d.count % n = p then some (e / d.count / n * d.count + e % d.count) else none)
  else some e

/-- A number in front of runs of consecutive numbers, each by its first and its length. -/
def consRun (e : Nat) (rs : List (Nat × Nat)) : List (Nat × Nat) :=
  match rs with
  | [] => [(e, 1)]
  | (a, n) :: t => if e + 1 = a then (e, n + 1) :: t else (e, 1) :: rs

/-- The runs of consecutive numbers in a list. -/
def runsOf (es : List Nat) : List (Nat × Nat) := es.foldr consRun []

/-- Values as they stand in memory, and back. -/
def toMem (d : CollDesc) (vs : List Nat) : Cells := bytesCells (toWire d.rtype vs).1
def fromMem (d : CollDesc) (n : Nat) (m : Cells) : List Nat := fromWire d.rtype n m

/-- The 512-byte header packet of a chunk and its data (R397, R398). -/
def chunkBytes (digest : BitVec 32) (wt : Nat) (i : PlanItem) (srcpos tstep : Nat) (data : List Byte) : Cells :=
  let lv := i.level + 128 * boolNat i.dist
  let h := natBytes 4 digest.toNat ++ natBytes 4 (crc32c data).toNat ++ natBytes 3 data.length ++ natBytes 1 wt ++
    natBytes 1 lv ++ natBytes 1 i.step ++ natBytes 4 srcpos ++ natBytes 6 0 ++ natBytes 8 tstep
  writeBytes (bytesCells h) 512 data

/-- Packets of a chunk: the header packet and the data. (DEDUCED, log entry 34.) -/
def chunkPackets (m : Cells) : Nat := 1 + (readNat m 8 3 + 511) / 512

end Sys2Proof.Machine
end

