-- ==== Sys2Proof/Config.lean ====
section
/-! DEFINITION. What an implementation fixes and the spec leaves open: constants without a body, so that no proof can see
their values (log entry 5). -/
namespace Sys2Proof.Config

/-- A free value of width `w`: the `n`-th that the machine draws. -/
opaque freeBits (w n : Nat) : BitVec w

/-- The HTU's measured uncertainty in Locked, in 1/16 ns (R69). -/
opaque htuUncertainty (n : Nat) : Nat

/-- How far the HTU slews at one beacon, in 1/256 ns, before the bound of R58 or R72 is applied. -/
opaque slewChoice (n : Nat) : Int

/-- Places of the CMDP inbox for CONTROL packets (R365). -/
opaque inboxPlaces : Nat

/-- SHA-256, and the certificate and signature checks of steps 3 and 4 of R474. The spec names the algorithms and leaves their
computation to their standards. -/
opaque certAuth (rootKey cert : Cells) (image : Bool) : Bool
opaque signatureAuth (cert : Cells) (digest : BitVec 256) (signature : Cells) : Bool
/-- The hash of the root key in the boot ROM (R474). -/
opaque rootHash : BitVec 256
opaque sha256 (bytes : Cells) : BitVec 256
/-- The RSA-3072 signature of a digest by the identity key (R456). -/
opaque signature (digest : BitVec 256) : List Byte
/-- The module serial, which the certificate and the configuration record name (R469, R475). -/
opaque moduleSerial : BitVec 64
/-- The certificate chain in the record region (R469), at most 6 KiB. -/
opaque certChain : List Byte
/-- The boot ROM version block (R471). -/
opaque bootRom : List Byte

/-- The PDR of a handle, fixed for the firmware build (R460), and the identifiers of QueryDeviceIdentifiers. -/
opaque pdrRecord (build handle : Nat) : List Byte
opaque deviceIds : List Byte

end Sys2Proof.Config
end

