-- ==== Sys2Proof/Machine/TallyUnit.lean ====
section
/-! DEFINITION. Tallies: the scan of TLYACC, the counters of TLYCTR, the Tally unit's updates, clearing (R222 to R228). -/
namespace Sys2Proof.Machine
open Sys2Proof

/-- Add one to a count kept by key. -/
def bump (m : SMap Nat) (k : Nat) : SMap Nat := mapSet 0 m k (mapGet 0 m k + 1)

/-- The bin of an element: clamp(e + HBIAS, 0, 31), with e the unbiased exponent (R223). -/
def tallyBin (f : FFmt) (hbias : BitVec 8) (v : Nat) : Nat :=
  (min 31 (max 0 ((fexp f v : Int) - f.bias + hbias.toInt))).toNat

/-- The magnitude of a normal element as FP32 bits. -/
def magF32 (f : FFmt) (v : Nat) : BitVec 32 :=
  match fdecode f v with
  | .fin _ m e => BitVec.ofNat 32 (fencode fmtFP32 (.fin false m e)).code
  | _ => 0

/-- Classify one element (R223); no flush applies. -/
def tallyElem (f : FFmt) (hbias : BitVec 8) (u : TlyUpdate) (v : Nat) : TlyUpdate :=
  if isNanCode f v || isInfCode f v then { u with nonfinite := u.nonfinite + 1 }
  else if isSubnormal f v then { u with flushes := u.flushes + 1 }
  else if fexp f v = 0 then { u with zeros := u.zeros + 1 }
  else
    let m := magF32 f v
    { u with bins := bump u.bins (tallyBin f hbias v), amax := if u.amax.ult m then m else u.amax }

/-- Scan the rows of A from row `j`; none where a unit holds an uncorrectable error, and then no update is made (R125). -/
def tallyScan (e : VecEntry) (hbias : BitVec 8) (c : Core) (j n : Nat) (u : TlyUpdate) : Option TlyUpdate :=
  match n with
  | 0 => some u
  | k + 1 =>
    match readRow c e.a e.sfmt j with
    | none => none
    | some codes =>
      let u' := codes.foldl (tallyElem (ffmtOf (heldFmt e.a e.sfmt)) hbias) u
      tallyScan e hbias c (j + 1) k { u' with total := u'.total + 32 }

/-- A sum that saturates at the width, and whether it did. -/
def satSum {w : Nat} (v : BitVec w) (n : Nat) : BitVec w × Bool := (satAdd v n, decide (2 ^ w ≤ v.toNat + n))

/-- The Tally after an update, and whether a bin saturated (R225). -/
def tallyApply (t : Tally) (u : TlyUpdate) : Tally × Bool :=
  let r := u.bins.foldl (fun (a : SMap (BitVec 32) × Bool) p =>
    let s := satSum (mapGet 0 a.1 p.1) p.2
    (mapSet 0 a.1 p.1 s.1, a.2 || s.2)) (t.bins, false)
  ({ total := satAdd t.total u.total, zeros := satAdd t.zeros u.zeros, sats := satAdd t.sats u.sats,
     nonfinite := satAdd t.nonfinite u.nonfinite, flushes := satAdd t.flushes u.flushes,
     amax := if t.amax.ult u.amax then u.amax else t.amax, bins := r.1 }, r.2)

/-- The Tally instruction at the head of the queue has scanned its rows and sends its update (R223 to R225). -/
def sendTally (d : Deck) (i : Nat) (e : VecEntry) (rest : List VecEntry) : DeckRes :=
  let c := coreAt d i
  if c.tallySent then (d, [])
  else
    let tally := e.ext.extractLsb' 0 12
    let u0 : TlyUpdate := { core := i, tally := tally }
    if e.op = 0x91 then
      let u := { u0 with sats := c.satc.toNat, flushes := c.flsc.toNat }
      ({ setCore d i { c with satc := 0, flsc := 0, tallySent := true } with tlyQueue := d.tlyQueue ++ [u] }, [])
    else match tallyScan e (ctxAt d c.ctx.toNat).hbias c 0 e.n u0 with
      | some u => ({ setCore d i { c with tallySent := true } with tlyQueue := d.tlyQueue ++ [u] }, [])
      | none =>
        let q := spadFault (setCore d i { c with vq := rest }) i 1 e.pc
        (settleEnd q.1 i, q.2)

/-- TALLY_UPDATE_APPLY: the unit applies the oldest update as one whole and its instruction completes (R225). -/
def opTallyApply (d : Deck) : Deck :=
  match d.tlyQueue with
  | [] => d
  | u :: rest =>
    let r := tallyApply (mapGet {} d.tallies u.tally.toNat) u
    let d1 := { d with tallies := mapSet {} d.tallies u.tally.toNat r.1, tlyQueue := rest,
                       binSat := if r.2 then satInc d.binSat else d.binSat }
    let c := coreAt d1 u.core
    settleEnd (setCore d1 u.core { c with vq := c.vq.drop 1, tallySent := false }) u.core

/-- Zero the Tallies of context `c` (R226). -/
def clearTallies (d : Deck) (c : Nat) : Deck :=
  { d with tallies := d.tallies.filter (fun e => decide (e.1 / 256 ≠ c)) }

/-- ENGINE_INSTRUCTION_COMPLETE for the vector engine: the head of its queue, unless a FENCE.PASS holds it. -/
def completeVecHead (d : Deck) (i : Nat) : DeckRes :=
  let c := coreAt d i
  match c.vq with
  | [] => (d, [])
  | e :: rest =>
    if passHolds c 1 e.seq then (d, [])
    else if e.op = 0x90 ∨ e.op = 0x91 then sendTally d i e rest
    else completeVec d i e rest

end Sys2Proof.Machine
end

