-- ==== Sys2Proof/Machine/Matrix.lean ====
section
/-! DEFINITION. The matrix engine on one deck: the dot-product unit (R229 to R232), MLDS, MMUL and its pair mode, MDRN,
MZERO (R233 to R237, R247 to R252), starts and gangs (R239 to R244, R253). -/
namespace Sys2Proof.Machine
open Sys2Proof

/-! ### The dot-product unit -/

/-- A DPU's result before it meets the accumulator: NaN, an infinity, or a fixed-point sum `s·2^e` (R231). -/
inductive DotRes where
  | nan
  | inf (neg : Bool)
  | sum (s : Int) (e : Int)
deriving DecidableEq, Repr

/-- The adder of R229: least significant bit 2⁻³². -/
def exactSum (ps : List FVal) : Int :=
  (ps.map (fun p => match p with
    | .fin s m e => signedMan s (if e ≥ -32 then m * 2 ^ (e + 32).toNat else m / 2 ^ (-32 - e).toNat)
    | _ => 0)).sum

/-- The anchor E of R230: the largest floor(log₂ |p|) among the nonzero finite products. -/
def anchorOf (ps : List FVal) : Option Int :=
  ps.foldl (fun a p => match p with
    | .fin _ m e => match a with
      | none => some (floorLog m e)
      | some x => some (max x (floorLog m e))
    | _ => a) none

/-- The adder of R230: bits below 2^(E − 65) of a product are dropped towards zero. -/
def anchoredSum (ps : List FVal) (lsb : Int) : Int :=
  (ps.map (fun p => match p with
    | .fin s m e => signedMan s (if e ≥ lsb then m * 2 ^ (e - lsb).toNat else m / 2 ^ (lsb - e).toNat)
    | _ => 0)).sum

/-- The DPU result for two rows of 32 elements (R229 to R231). `bf` says BF16 operands; `scaleNan` a scale byte of 0xFF. -/
def dotRes (bf scaleNan : Bool) (ws xs : List FVal) : DotRes :=
  let ps := List.zipWith fvMul ws xs
  let pos := ps.any (· == .inf false)
  let neg := ps.any (· == .inf true)
  if scaleNan || ws.any (· == .nan) || xs.any (· == .nan) || ps.any (· == .nan) || (pos && neg) then .nan
  else if pos then .inf false
  else if neg then .inf true
  else if bf then
    match anchorOf ps with
    | none => .sum 0 0
    | some a => .sum (anchoredSum ps (a - 65)) (a - 65)
  else .sum (exactSum ps) (-32)

/-- v of R232: the sum with its block scales, 2^(e_w + e_x − 254) (R206, R208); BF16 has none. -/
def dotVal (r : DotRes) (scale : Int) : FVal :=
  match r with
  | .nan => .nan
  | .inf s => .inf s
  | .sum s e => ofSigned s (e + scale) false

/-- One accumulator element: round(a + v), and its flush (R232). -/
def accStep (accum : Bool) (old : W32) (v : FVal) : FRes :=
  fencode fmtFP32 (fvAdd (if accum then f32 old else .zero false) v)

/-! ### The slice -/

def accKey (acc row col : Nat) : Nat := 4096 * acc + 64 * row + col
def accGet (c : Core) (acc row col : Nat) : W32 := mapGet 0 c.acc (accKey acc row col)

/-- The format that stationary or streamed elements are decoded in: table-expanded integers are E4M3 (R205). -/
def elemFmt (fmt : BitVec 4) : BitVec 4 := if fmt = 5 ∨ fmt = 6 then 0 else fmt

/-- The codes of row `j` of a matrix operand, 32 elements a row (R170, R171). -/
def matRow (c : Core) (start : Nat) (stride : Int) (fmt : BitVec 4) (j : Nat) : Option (List Nat) :=
  let p := rowPlace start stride fmt 32 j
  (spadRead c p.1 p.2.1 p.2.2).map (rowCodes fmt 32)

/-- The stationary row of DPU `p` as values. -/
def statRow (c : Core) (fmt : BitVec 4) (p : Nat) : List FVal :=
  (List.range 32).map (fun e => codeVal (elemFmt fmt) (mapGet 0 c.stat (32 * p + e)).toNat)

/-- The scale byte of a row where its format has one, as a number. -/
def scaleOf (c : Core) (fmt : BitVec 4) (list j : Nat) : Option Nat :=
  if fmt = 3 then some 127 else (listByte c list j).map (·.toNat)

/-- Write one row of accumulator results for the columns that `res` gives; counts their flushes (R221). -/
def accRow (c : Core) (acc row : Nat) (res : List (Nat × FRes)) : Core :=
  let a := res.foldl (fun m p => mapSet 0 m (accKey acc row p.1) (BitVec.ofNat 32 p.2.code)) c.acc
  countOps { c with acc := a } 0 (flushCount (res.map (·.2)))

/-- One streamed row against the stationary rows: element [row][p] of `acc` for every DPU p (R234, R235). -/
def streamRow (accum : Bool) (acc row : Nat) (xfmt : BitVec 4) (codes : List Nat) (sx : Nat) (c : Core) : Core :=
  let sfmt := c.statFmt.getD 0
  let xs := codes.map (codeVal xfmt)
  let c1 := countOps c 0 (codes.countP (codeFlush xfmt))
  let res := (List.range 64).filterMap (fun p =>
    if c.active.getLsbD p then
      let sw := if sfmt = 3 then 127 else (cellGet c.statScale p).toNat
      let r := dotRes (decide (xfmt = 3)) (decide (sw = 255 ∨ sx = 255)) (statRow c sfmt p) xs
      some (p, accStep accum (accGet c acc row p) (dotVal r ((sw : Int) + sx - 254)))
    else if accum then none
    else some (p, { code := 0 }))
  accRow c1 acc row res

/-- Row `j` of an MMUL with PAIR = 0, from the core's own scratchpad or from the rows the lead core gave (R235, R242). -/
def rowMmul (e : MatEntry) (j : Nat) (c : Core) : Core × Bool :=
  let src := match e.lead with
    | some l => (l.1[j]?).bind (fun r => (l.2[j]?).map (fun s => (r, s)))
    | none => (matRow c e.x e.xStride e.fmt j).bind (fun r => (scaleOf c e.fmt e.s j).map (fun s => (r, s)))
  match src with
  | some p => (streamRow e.accum e.acc (e.arow + j) e.fmt p.1 p.2 c, false)
  | none => (c, true)

/-- Row `j` of an MLDS: the stationary row of DPU j, expanded and scaled (R205, R233). -/
def rowMlds (e : MatEntry) (j : Nat) (c : Core) : Core × Bool :=
  match matRow c e.x e.xStride e.fmt j, scaleOf c e.fmt e.s j,
        (if e.fmt = 5 ∨ e.fmt = 6 then spadRead c e.tb 0 16 else some []) with
  | some codes, some sc, some tb =>
    let codes' := if e.fmt = 5 ∨ e.fmt = 6 then codes.map (fun n => (tb[n]?.getD 0).toNat) else codes
    let st := codes'.zipIdx.foldl (fun m p => mapSet 0 m (32 * j + p.2) (BitVec.ofNat 16 p.1)) c.stat
    (countOps { c with stat := st, statScale := cellSet c.statScale j (BitVec.ofNat 8 sc),
                       active := setBit c.active j true } 0 (codes'.countP (codeFlush (elemFmt e.fmt))), false)
  | _, _, _ => (c, true)

/-- Row `j` of an MDRN (R209, R237): scaled, converted, written; then cleared with CLR. A row scale that is subnormal
counts once, with row 0 (R221). -/
def rowMdrn (e : MatEntry) (j : Nat) (c : Core) : Core × Bool :=
  let row := e.arow + j
  let scales := if e.sen then (spadRead c e.s 0 256).map (fun bs => (List.range 64).map (fun i =>
      BitVec.ofNat 32 (bytesNat ((bs.drop (4 * i)).take 4)))) else some []
  match scales with
  | none => (c, true)
  | some sc =>
    let flIn := (if e.sen ∧ j = 0 then (List.range 64).countP (fun p => isSubnormal fmtFP32 (sc[p]?.getD 0).toNat) else 0)
    let res := (List.range 64).map (fun p =>
      let a := f32 (accGet c e.acc row p)
      if e.sen then viaF32 e.dfmt (fvMul a (f32 (sc[p]?.getD 0))) else toFmt e.dfmt a)
    let place := rowPlace e.x e.xStride e.dfmt 64 j
    let r := spadWrite c place.1 place.2.1 (rowBytes e.dfmt (fun _ => true) (res.map (·.code)) [])
    if r.2 then r
    else
      let c1 := countOps r.1 0 (flIn + flushCount res)
      (if e.clr then
        { c1 with acc := (List.range 64).foldl (fun m p => mapSet 0 m (accKey e.acc row p) 0) c1.acc } else c1, false)

/-- Zero row `row` of an accumulator. -/
def zeroAccRow (c : Core) (acc row : Nat) : Core :=
  { c with acc := (List.range 64).foldl (fun m p => mapSet 0 m (accKey acc row p) 0) c.acc }

/-- Zero a whole accumulator. -/
def zeroAcc (c : Core) (acc : Nat) : Core := { c with acc := c.acc.filter (fun e => decide (e.1 / 4096 ≠ acc)) }

def rowMzero (e : MatEntry) (j : Nat) (c : Core) : Core × Bool := (zeroAccRow c e.acc (e.arow + j), false)

/-- The row width in units of a format's rows; packed formats share units (R170). -/
def unitsPerRow (fmt : BitVec 4) : Int := if elemBits fmt = 16 then 2 else 1

/-- The dY block of a pair MMUL and its scale (byte 64 of S), from the lead core where ganged (R248, R253). -/
def pairDy (e : MatEntry) (c : Core) : Option (List (List Nat) × Nat) :=
  match e.lead with
  | some l => if l.1.length = 32 then (l.2[0]?).map (fun s => (l.1, s)) else none
  | none =>
    ((List.range 32).mapM (fun j => matRow c e.x (unitsPerRow e.fmt) e.fmt j)).bind (fun rows =>
      (scaleOf c e.fmt e.s 64).map (fun s => (rows, s)))

/-- The dW product: Xᵀ row r streamed against column `p` of dY, into element [r][p] of acc2 (R250). -/
def pairDw (e : MatEntry) (sfmt : BitVec 4) (dy : List (List Nat)) (sy : Nat) (r : Nat) (c : Core) : Core × Bool :=
  let bx := rowUnit e.x e.xStride 1
  match matRow c bx (unitsPerRow sfmt) sfmt r, scaleOf c sfmt e.s r with
  | some codes, some sx =>
    let xs := codes.map (codeVal sfmt)
    let c1 := countOps c 0 (codes.countP (codeFlush sfmt))
    let res := (List.range 32).map (fun p =>
      let ws := dy.map (fun row => codeVal e.fmt (row[p]?.getD 0))
      let q := dotRes (decide (e.fmt = 3)) (decide (sy = 255 ∨ sx = 255)) ws xs
      (p, accStep e.accum (accGet c 2 r p) (dotVal q ((sy : Int) + sx - 254))))
    (accRow c1 2 r res, false)
  | _, _ => (c, true)

/-- A pair MMUL (R248 to R252). -/
def runPair (e : MatEntry) (c : Core) : Core × Bool :=
  let sfmt := c.statFmt.getD 0
  match pairDy e c with
  | none => (c, true)
  | some dy =>
    let c1 := (List.range 32).foldl (fun c j =>
      streamRow e.accum 0 (e.arow + j) e.fmt (dy.1[j]?.getD []) dy.2 c) c
    if e.frozen then (zeroAcc c1 1, false)
    else
      let r := runRows (pairDw e sfmt dy.1 dy.2) 0 64 c1
      if r.2 then r else (zeroAcc (zeroAcc r.1 1) 3, false)

/-- Carry out a matrix instruction. -/
def runMat (e : MatEntry) (c : Core) : Core × Bool :=
  match e.op.toNat with
  | 0xA0 =>
    let c0 := { c with stat := [], statScale := [], active := 0, statFmt := some e.fmt }
    runRows (rowMlds e) 0 e.n c0
  | 0xA1 => if e.pair then runPair e c else runRows (rowMmul e) 0 e.n c
  | 0xA2 => runRows (rowMdrn e) 0 e.n c
  | _ => runRows (rowMzero e) 0 e.n c

/-! ### Issue, start, completion -/

/-- A matrix instruction as it enters the queue (R111). -/
def matEntry (op : BitVec 8) (f : FmtM) (c : Core) : MatEntry :=
  { seq := c.seq, pc := c.pc, op := op,
    low := (f.res.setWidth 32 <<< 30) ||| (f.gang.setWidth 32 <<< 29) ||| (f.frozen.setWidth 32 <<< 28) |||
      (f.pair.setWidth 32 <<< 27) ||| (f.accum.setWidth 32 <<< 26) ||| (f.fmt.setWidth 32 <<< 22) |||
      (f.arow.setWidth 32 <<< 16) ||| (f.acc.setWidth 32 <<< 14) ||| (f.nm1.setWidth 32 <<< 8) ||| op.setWidth 32,
    n := matN f, acc := f.acc.toNat, arow := f.arow.toNat, fmt := f.fmt, accum := f.accum == 1, pair := f.pair == 1,
    frozen := f.frozen == 1, gang := f.gang == 1, x := matStart c f.x, xStride := matStride c f.x,
    s := matStart c f.s, tb := (f.tb.extractLsb' 0 13).toNat, dfmt := f.dfmt, sen := f.sen == 1, clr := f.clr == 1 }

/-- Does the launch of core `i` include all 16 cores of its pen (R240)? -/
def wholePen (d : Deck) (i : Nat) : Bool :=
  match (coreAt d i).launch.bind (launchAt d) with
  | none => false
  | some l => (List.range 16).all (fun k => l.cores.contains (i / 16 * 16 + k))

/-- Issue a matrix instruction (R240). -/
def opMat (d : Deck) (i : Nat) (op : BitVec 8) (wf : Bool) (f : FmtM) : Deck :=
  issueEngine d i .matrix wf false
    (fun _ => if f.gang = 1 ∧ wholePen d i = false then some stBadParam else none)
    (fun c => { c with mq := c.mq ++ [matEntry op f c] })

/-- Do a streamed format and the recorded stationary format pair (R184, R185, R247)? -/
def formatsPair (stat : Option (BitVec 4)) (e : MatEntry) : Bool :=
  match stat with
  | none => false
  | some s => (decide (e.fmt = 3) == decide (s = 3)) && !(e.pair && (s == 5 || s == 6))

/-- The check of R185 and R247 at the start of an MMUL. -/
def startOk (c : Core) (e : MatEntry) : Bool := e.op != 0xA1 || formatsPair c.statFmt e

/-- The head of the matrix queue where it can start: not started, held by no FENCE.PASS. -/
def startable (c : Core) : Option MatEntry :=
  match c.mq with
  | [] => none
  | e :: _ => if e.started || passHolds c 2 e.seq then none else some e

/-- Mark the head of the matrix queue started. -/
def markStarted (c : Core) (lead : Option (List (List Nat) × List Nat)) : Core :=
  match c.mq with
  | [] => c
  | e :: rest => { c with mq := { e with started := true, lead := lead } :: rest, matPc := e.pc }

/-- Take the head off the matrix queue of a core. -/
def dropMat (c : Core) : Core := { c with mq := c.mq.drop 1 }

/-- MATRIX_START: the head starts alone; a ganged instruction waits for its rendezvous. A failed start check faults the
core with ENGINE 2 and the instruction has no effect (R185, R193). (DEDUCED, log entry 15.) -/
def opMatStart (d : Deck) (i : Nat) : Deck :=
  let c := coreAt d i
  match startable c with
  | none => d
  | some e =>
    if e.gang then d
    else if startOk c e then setCore d i (markStarted c none)
    else settleEnd (coreFault (setCore d i (dropMat c)) i stBadParam 2 e.pc) i

/-- The rows and scale bytes that the lead core's scratchpad gives to a ganged MMUL; a row that meets an error ends the
list (R242, R253). -/
def leadRows (c : Core) (e : MatEntry) : List (List Nat) × List Nat :=
  if e.pair then
    let rows := (List.range 32).map (fun j => matRow c e.x (unitsPerRow e.fmt) e.fmt j)
    ((rows.takeWhile (·.isSome)).filterMap id, ((scaleOf c e.fmt e.s 64).map (fun s => [s])).getD [])
  else
    let rows := (List.range e.n).map (fun j => (matRow c e.x e.xStride e.fmt j).bind (fun r =>
      (scaleOf c e.fmt e.s j).map (fun s => (r, s))))
    let ok := (rows.takeWhile (·.isSome)).filterMap id
    (ok.map (·.1), ok.map (·.2))

/-- The cores of a pen. -/
def penCores (pen : Nat) : List Nat := (List.range 16).map (fun k => 16 * pen + k)

/-- GANG_RENDEZVOUS: all 16 cores hold a ganged instruction at the head; they start together, or all fault (R241 to
R243). The heads are taken before the first fault stops the launch. (DEDUCED, log entry 24.) -/
def opGang (d : Deck) (pen : Nat) : Deck :=
  let is := penCores pen
  let heads := is.map (fun i => (startable (coreAt d i)).filter (·.gang))
  if heads.all (·.isSome) then
    let es := heads.filterMap id
    let lead := (es[0]?)
    let same := es.all (fun e => some e.low == lead.map (·.low))
    let ok := same && is.all (fun i => match (coreAt d i).mq with
      | [] => false
      | e :: _ => startOk (coreAt d i) e)
    if ok then
      let rows := lead.map (leadRows (coreAt d (16 * pen)))
      is.foldl (fun d i => modCore d i (fun c => markStarted c
        (match c.mq with
          | [] => none
          | e :: _ => if e.op = 0xA1 then rows else none))) d
    else
      let d1 := is.foldl (fun d i => modCore d i dropMat) d
      (is.zip es).foldl (fun d p => settleEnd (coreFault d p.1 stBadParam 2 p.2.pc) p.1) d1
  else d

/-- Does the head of a core's matrix queue wait for a rendezvous: ganged and not started? -/
def gangHead (c : Core) : Bool :=
  match c.mq with
  | [] => false
  | e :: _ => e.gang && !e.started

/-- GANG_TIMEOUT: a ganged instruction that is ready to start has waited too long, and every core of the pen that holds a
ganged instruction at its head faults, one that a FENCE.PASS still holds included (R244). -/
def opGangTimeout (d : Deck) (pen : Nat) : Deck :=
  let is := penCores pen
  let held := is.filter (fun i => gangHead (coreAt d i))
  let ready := held.filter (fun i => (startable (coreAt d i)).isSome)
  if ready.isEmpty || ready.length = 16 then d
  else
    let pcs := held.filterMap (fun i => (coreAt d i).mq.head?.map (fun e => (i, e.pc)))
    let d1 := held.foldl (fun d i => modCore d i dropMat) d
    pcs.foldl (fun d p => settleEnd (coreFault d p.1 stBadParam 2 p.2) p.1) d1

/-- ENGINE_INSTRUCTION_COMPLETE for the matrix engine: the started head takes its effect (R113, R125). -/
def completeMatHead (d : Deck) (i : Nat) : DeckRes :=
  let c := coreAt d i
  match c.mq with
  | [] => (d, [])
  | e :: rest =>
    if !e.started then (d, [])
    else
      let r := runMat e { c with mq := rest }
      let d' := setCore d i r.1
      if r.2 then
        let q := spadFault d' i 2 e.pc
        (settleEnd q.1 i, q.2)
      else (settleEnd d' i, [])

end Sys2Proof.Machine
end

