-- ==== Sys2Proof/Machine/MemOps.lean ====
section
/-! DEFINITION. Stack memory of a deck: the address map (R296 to R298), poison (R299 to R303), failing rows, remapping and
retirement (R313, R328 to R333), block reads and writes, the memory-side adders (R311, R312). -/
namespace Sys2Proof.Machine
open Sys2Proof

/-- The end of a deck's stack memory: 384 GiB (R51). -/
def memEnd : Nat := 0x6000000000

/-- q of R297 for page `p`. -/
def pageQ (p : Nat) : Nat := (p % 64) ^^^ (p / 64 % 64) ^^^ (p / 4096 % 64)
/-- Stack of the deck, channel and row of page `p` (R297). -/
def pageStack (p : Nat) : Nat := pageQ p % 4
def pageChannel (p : Nat) : Nat := pageQ p / 4
def pageRow (p : Nat) : Nat := p / 64
/-- The page of a stack's channel and row: the inverse of R297. -/
def rowPage (stack channel row : Nat) : Nat :=
  64 * row + ((stack + 4 * channel) ^^^ (row % 64) ^^^ (row / 64 % 64))
/-- The key of a row in a stack's remap table. -/
def rowKey (channel row : Nat) : Nat := channel * 0x180000 + row

/-- Change stack `k` of a deck. -/
def modStack (d : Deck) (k : Nat) (f : Stack → Stack) : Deck := setStack d k (f (stackAt d k))

/-- An access to a docked deck's memory brings its stacks out of self-refresh (R319). -/
def touch (d : Deck) (a n : Nat) : Deck :=
  if d.power = .dock ∧ n ≠ 0 then
    (List.range (min 64 ((a + n - 1) / 4096 + 1 - a / 4096))).foldl (fun d i =>
      modStack d (pageStack (a / 4096 + i)) (fun s => { s with selfRefresh := false })) d
  else d

/-- Is a page in a retired row or a failed channel (R316, R330)? -/
def pageDead (d : Deck) (p : Nat) : Bool :=
  let s := stackAt d (pageStack p)
  s.chFailed.getLsbD (pageChannel p) || (mapGet {} s.remap (rowKey (pageChannel p) (pageRow p))).retired

/-- The pages of a range that are dead: retired ones, and those of failed channels. -/
def deadPages (d : Deck) (a n : Nat) : List Nat :=
  let inRange := fun p => decide (a / 4096 ≤ p) && decide (p * 4096 < a + n)
  let retired := (List.range 4).flatMap (fun k => (stackAt d k).remap.filterMap (fun e =>
    let p := rowPage k (e.1 / 0x180000) (e.1 % 0x180000)
    if e.2.retired && inRange p then some p else none))
  let anyFailed := (List.range 4).any (fun k => decide ((stackAt d k).chFailed ≠ 0))
  if anyFailed then
    retired ++ ((List.range ((n + 8191) / 4096)).map (fun k => a / 4096 + k)).filter (fun p => inRange p && pageDead d p)
  else retired

/-- Does a range hold no poisoned sector and no dead page (R301, R330)? -/
def memReadOk (d : Deck) (a n : Nat) : Bool :=
  d.memBad.all (fun e => decide (e.1 * 32 + 32 ≤ a) || decide (a + n ≤ e.1 * 32)) && (deadPages d a n).isEmpty

/-- Does an access to a page wait: its channel retrains, or its row is being copied to a spare (R315, R329)? -/
def pageHeld (d : Deck) (p : Nat) : Bool :=
  let s := stackAt d (pageStack p)
  s.chRetrain.getLsbD (pageChannel p) || s.copying.contains (rowKey (pageChannel p) (pageRow p))

/-- Does an access to a range wait (R315, R329)? -/
def rangeHeld (d : Deck) (a n : Nat) : Bool :=
  d.stks.any (fun e => e.2.chRetrain != 0 || !e.2.copying.isEmpty) && decide (n ≠ 0) &&
  (List.range ((a + n - 1) / 4096 + 1 - a / 4096)).any (fun i => pageHeld d (a / 4096 + i))

/-- The errors that stand outside the sectors which a write of a range covers whole. -/
def latentOutside (a n : Nat) (es : List SectorErr) : List SectorErr :=
  es.filter (fun e => decide (32 * e.sector < a) || decide (a + n < 32 * e.sector + 32))

/-- Replace `n` bytes at `a` by `src`, keys from 0; poisoned sectors written whole are cleared (R302), and with new check
bytes what stood wrong in them; writes to dead pages are discarded (R330). (DEDUCED, log entry 57.) -/
def memWrite (d : Deck) (a n : Nat) (src : Cells) : Deck :=
  let dead := deadPages d a n
  let m := mapSplice d.mem a n src
  let m := dead.foldl (fun m p => mapSplice m (4096 * p) 4096 (mapSlice d.mem (4096 * p) 4096)) m
  let bad := d.memBad.filter (fun e =>
    decide (e.1 * 32 < a) || decide (a + n < e.1 * 32 + 32) || dead.contains (e.1 / 128))
  touch { d with mem := m, memBad := bad, latent := latentOutside a n d.latent } a n

/-- A read of `n` bytes: none where the range meets poison (R301). -/
def memRead (d : Deck) (a n : Nat) : Option Cells := if memReadOk d a n then some (mapSlice d.mem a n) else none

/-- How a write completes: with MEM_POISON where it meets a retired row or a failed channel (R316, R330).
(DEDUCED, log entry 57.) -/
def memWriteSt (d : Deck) (a n : Nat) : Status := if (deadPages d a n).isEmpty then stGood else stMemPoison

/-- Mark a sector poisoned. -/
def poisonSector (d : Deck) (k : Nat) : Deck := { d with memBad := mapSet false d.memBad k true }

/-- The lowest free spare of a channel (R328); the manual leaves which one free. (DESIGN CHOICE, log entry 20.) -/
def freeSpare (s : Stack) (channel : Nat) : Option Nat :=
  (List.range 256).find? (fun k => !mapGet false s.spareUsed (256 * channel + k))

/-- A row fails (R313): remap, retire, or poison in place when the table is full (R328, R333). `now` is hall time; `sector`
a lost sector or the row's first. -/
def rowFail (now : Nat) (p sector : Nat) (d : Deck) : DeckRes :=
  let k := pageStack p
  let ch := pageChannel p
  let s := stackAt d k
  let key := rowKey ch (pageRow p)
  let e := mapGet {} s.remap key
  let retire := fun (spares : Bool) =>
    let e' := { e with fails := if e.fails = 3 then 3 else e.fails + 1, retired := true, prev := if e.fails = 0 then 0 else e.spare,
                       spare := 0, time := BitVec.ofNat 64 now }
    (setStack d k { s with remap := mapSet {} s.remap key e' },
      [DeckEff.memEvent 1] ++ (if spares then [DeckEff.memEvent 3] else []) ++
      [DeckEff.plog (32 * sector) k ch 1, DeckEff.poisonEvent p 0xFFFFFFFF])
  if e.retired then (d, [])
  else if s.remap.length ≥ 4096 then
    (d, [DeckEff.memEvent 2, DeckEff.plog (32 * sector) k ch 3])
  else if e.fails = 2 then retire false
  else match freeSpare s ch with
    | none => retire true
    | some sp =>
      let e' := { e with fails := e.fails + 1, spare := BitVec.ofNat 8 sp, prev := if e.fails = 0 then 0 else e.spare,
                         time := BitVec.ofNat 64 now }
      (setStack d k { s with remap := mapSet {} s.remap key e', spareUsed := mapSet false s.spareUsed (256 * ch + sp) true,
                             copying := s.copying ++ [key] }, [DeckEff.memEvent 0])

/-- One ECC finding (R299, R300, R303); `fail` says what the row's failure does (R313). -/
def eccFindingWith (fail : Deck → DeckRes) (x : SectorErr) (d : Deck) : DeckRes :=
  let p := x.sector / 128
  let k := pageStack p
  if decide (memEnd / 32 ≤ x.sector) || pageDead d p || mapGet false d.memBad x.sector then (d, [])
  else match x.kind with
    | .rereadOk => (modStack d k (fun s => { s with rereadOk := satInc s.rereadOk }), [])
    | .corrected persists =>
      let d' := modStack d k (fun s => { s with ce := satInc s.ce })
      if persists then fail d' else (d', [])
    | .lost =>
      let d' := poisonSector (modStack d k (fun s => { s with ue := satInc s.ue })) x.sector
      let r := fail d'
      (r.1, [DeckEff.plog (32 * x.sector) k (pageChannel p) 0, DeckEff.poisonEvent p (BitVec.ofNat 32 (x.sector % 128))] ++ r.2)

/-- One ECC finding of an access (R299, R300, R303, R313). -/
def eccFinding (now : Nat) (x : SectorErr) (d : Deck) : DeckRes := eccFindingWith (rowFail now (x.sector / 128) x.sector) x d

/-- Does an error lie in a range? -/
def errIn (a n : Nat) (x : SectorErr) : Bool := decide (a < 32 * x.sector + 32) && decide (32 * x.sector < a + n)

/-- Errors named now, and those that stood already in other sectors. -/
def standing (errs old : List SectorErr) : List SectorErr := errs ++ old.filter (fun e => !errs.any (fun x => x.sector == e.sector))

/-- A read of a range meets the errors in it, in order; those outside it stand until a read meets them. (DESIGN CHOICE, log
entry 97.) -/
def eccRange (now : Nat) (a n : Nat) (errs : List SectorErr) (d : Deck) : DeckRes :=
  let all := standing errs d.latent
  (all.filter (errIn a n)).foldl (fun r x =>
    let q := eccFinding now x r.1
    (q.1, r.2 ++ q.2)) (touch { d with latent := all.filter (fun x => !errIn a n x) } a n, [])

/-- The reads of a write that covers its first or last sector in part (R302). -/
def eccEdges (now : Nat) (a n : Nat) (errs : List SectorErr) (d : Deck) : DeckRes :=
  let first := decide (n ≠ 0) && (a % 32 != 0 || decide (n < 32))
  let last := decide (n ≠ 0) && (a + n) % 32 != 0 && (a + n) / 32 != a / 32
  let r := eccRange now (32 * (a / 32)) (if first then 32 else 0) errs d
  if last then
    let q := eccRange now (32 * ((a + n) / 32)) 32 [] r.1
    (q.1, r.2 ++ q.2)
  else r

/-- The copy of a failed row to its spare reads its 128 sectors: lost ones are written with the poison pattern, and the row does
not fail again (R329). -/
def copyRow (p : Nat) (d : Deck) : DeckRes :=
  (d.latent.filter (errIn (4096 * p) 4096)).foldl (fun r x =>
    let q := eccFindingWith (fun d => (d, [])) x r.1
    (q.1, r.2 ++ q.2)) ({ d with latent := d.latent.filter (fun x => !errIn (4096 * p) 4096 x) }, [])

/-- Priority-3 reads of a range, one to a burst of 128 bytes (R304, R308). -/
def notePrio3 (d : Deck) (a n : Nat) : Deck :=
  if n = 0 then d
  else (List.range ((a + n - 1) / 4096 + 1 - a / 4096)).foldl (fun d i =>
    let p := a / 4096 + i
    let lo := max a (4096 * p)
    let hi := min (a + n) (4096 * p + 4096)
    modStack d (pageStack p) (fun s => { s with p3Reads := s.p3Reads + ((hi - 1) / 128 + 1 - lo / 128) })) d

/-- A write by a host or by RDMA, which may cover part of a sector (R302): sectors written in part that are poisoned keep
the poison and are counted; `none` marks bytes not written. Gives whether a part was discarded. -/
def memWritePartial (d : Deck) (a : Nat) (bs : List Byte) : Deck × Bool :=
  let n := bs.length
  let firstPart := a % 32 != 0 || decide (n < 32)
  let lastPart := (a + n) % 32 != 0
  let s0 := a / 32
  let s1 := (a + n) / 32
  let bad0 := firstPart && decide (n ≠ 0) && mapGet false d.memBad s0
  let bad1 := lastPart && s1 != s0 && mapGet false d.memBad s1
  let lo := if bad0 then min n (32 * (s0 + 1) - a) else 0
  let hi := if bad1 then (a + n) % 32 else 0
  let body := (bs.drop lo).take (n - lo - hi)
  let d1 := memWrite d (a + lo) body.length (bytesCells body)
  let bump := fun d (b : Bool) (s : Nat) =>
    if b then modStack d (pageStack (s / 128)) (fun x => { x with partialDrop := satInc x.partialDrop }) else d
  (bump (bump d1 bad0 s0) bad1 s1, bad0 || bad1)

/-! ### The adders (R311, R312) -/

/-- One lane of an atomic add. -/
def adderLane (atype : Nat) (a b : Nat) : Nat :=
  match atype with
  | 0 => (fencode fmtFP32 (fvAdd (fdecode fmtFP32 a) (fdecode fmtFP32 b))).code
  | 1 => (fencode fmtBF16 (fvAdd (fdecode fmtBF16 a) (fdecode fmtBF16 b))).code
  | 2 => (a + b) % 2 ^ 32
  | _ => (a + b) % 2 ^ 64

/-- Bytes per lane by ATYPE. -/
def adderWidth (atype : Nat) : Nat :=
  match atype with
  | 0 => 4
  | 1 => 2
  | 2 => 4
  | _ => 8

/-- One 64-byte granule (R311): nothing changes where it meets poison (R312). -/
def adderGranule (atype : Nat) (src : Cells) (srcOff a : Nat) (d : Deck) : Deck × Bool :=
  if memReadOk d a 64 then
    let w := adderWidth atype
    let m := (List.range (64 / w)).foldl (fun m i =>
      writeNat m (a + w * i) w (adderLane atype (readNat d.mem (a + w * i) w) (readNat src (srcOff + w * i) w))) d.mem
    ({ d with mem := m }, false)
  else (d, true)

/-- `n` granules from `a`; the result says whether one met poison. -/
def adderRun (atype : Nat) (src : Cells) (a n : Nat) (d : Deck) : Deck × Bool :=
  (List.range n).foldl (fun r i =>
    let q := adderGranule atype src (64 * i) (a + 64 * i) r.1
    (q.1, r.2 || q.2)) (d, false)

/-- Is stack memory reachable: not during a deck full reset, at Shutdown or out of service (R32, R374)? -/
def memUp (d : Deck) : Bool := decide (d.reset ≠ .full) && decide (d.power ≠ .shutdown) && !d.outOfService

/-- Is the sync unit reachable: also not during a compute reset or in Dock (R32)? -/
def syncUp (d : Deck) : Bool := memUp d && decide (d.reset = .none) && decide (d.power ≠ .dock)

/-- Does a range of the deck's memory touch the closed master region of some context (R282)? -/
def gateRefuses (d : Deck) (a n : Nat) : Bool :=
  d.ctxs.any (fun e =>
    let h := e.2.hold
    h.gate == 0 && h.msize != 0 && decide (a < h.mbase.toNat + h.msize.toNat) && decide (h.mbase.toNat < a + n))

end Sys2Proof.Machine
end

