-- ==== Sys2Proof/Machine/Mover.lean ====
section
/-! DEFINITION. The movers on one deck: address checks (R3 to R6, R51, R52), issue checks (R130, R181, R182, R246, R282),
starting transfers with fences and windows (R112, R128, R131 to R134, R366, R367, R371), ending them (R135, R136), the hold
unit (R286 to R291) and local transfers (R245). -/
namespace Sys2Proof.Machine
open Sys2Proof

/-! ### Addresses -/

/-- Where a deck address range lies (R51). -/
inductive Place where
  | stack
  | spads
  | sync
  | window
  | bad
deriving DecidableEq, Repr

/-- The region of the `n` bytes at deck address `a`; a range that leaves its region meets a reserved one (R52). -/
def placeOf (env : CoreEnv) (a n : Nat) : Place :=
  if a + n ≤ 0x6000000000 then .stack
  else if 0x8000000000 ≤ a ∧ a + n ≤ 0x8032000000 then .spads
  else if 0xA000000000 ≤ a ∧ a + n ≤ 0xB000000000 then .sync
  else if 0xC000000000 ≤ a ∧ a + n ≤ 0xC000000000 + env.window then .window
  else .bad

/-- The fields of a hall address (R4). -/
def hallModule (a : W64) : BitVec 17 := a.extractLsb' 47 17
def hallDeck (a : W64) : BitVec 3 := a.extractLsb' 44 3
/-- The fields of a hall address; none of its spaces names a scratchpad (R54). -/
def hallSpace (a : W64) : BitVec 4 := a.extractLsb' 40 4
def hallOffset (a : W64) : BitVec 40 := a.extractLsb' 0 40

/-- Is a module number valid (R3)? -/
def moduleValid (rings : Option (Nat × Nat × Nat)) (m : BitVec 17) : Bool :=
  match rings with
  | none => m == 0x1FFFF
  | some r => decide ((m.extractLsb' 2 5).toNat < r.1) && decide ((m.extractLsb' 7 5).toNat < r.2.1) &&
      decide ((m.extractLsb' 12 5).toNat < r.2.2)

/-- Does the mover accept a hall address at issue (R6)? -/
def hallOk (env : CoreEnv) (a : W64) : Bool :=
  moduleValid env.rings (hallModule a) && decide ((hallSpace a).toNat ≤ 2) && (hallSpace a != 1 || hallDeck a == 0)

/-- An object word or group word by its offset in space 2 (R144). -/
inductive SyncWord where
  | set (o : Nat)
  | signal (o : Nat)
  | poison (o : Nat)
  | config (g : Nat)
  | timed (g : Nat)
  | poisoned (g : Nat)
  | reserved (g : Nat)
deriving DecidableEq, Repr

/-- The word at an offset of space 2; none beyond its extent or where no word starts. -/
def syncWordAt (off : Nat) : Option SyncWord :=
  if off % 8 ≠ 0 then none
  else if off < 0x8000 then some (.set (off / 8))
  else if 0x10000 ≤ off ∧ off < 0x18000 then some (.signal ((off - 0x10000) / 8))
  else if 0x20000 ≤ off ∧ off < 0x28000 then some (.poison ((off - 0x20000) / 8))
  else if 0x30000 ≤ off ∧ off < 0x30800 then
    let g := (off - 0x30000) / 32
    match off % 32 / 8 with
    | 0 => some (.config g)
    | 1 => some (.timed g)
    | 2 => some (.poisoned g)
    | _ => some (.reserved g)
  else none

/-- The object address of SIG and SYNCRD as a module, a deck and an offset in space 2; none where R130 refuses it. -/
def syncTarget (env : CoreEnv) (a : W64) : Option (BitVec 17 × Nat × Nat) :=
  if a.toNat < 2 ^ 40 then
    if 0xA000000000 ≤ a.toNat ∧ a.toNat < 0xB000000000 then some (env.module, env.deck, a.toNat - 0xA000000000) else none
  else if hallOk env a && hallSpace a == 2 then some (hallModule a, (hallDeck a).toNat, (hallOffset a).toNat)
  else none

/-- Does R130 accept the word that SIG or SYNCRD names: an object word or a group word? -/
def syncWordOk (t : BitVec 17 × Nat × Nat) : Bool :=
  match syncWordAt t.2.2 with
  | some (.reserved _) => false
  | some _ => true
  | none => false

/-! ### Issue checks -/

/-- The mover's opcodes. -/
abbrev opMOV : BitVec 8 := 0xB0
abbrev opMOVT : BitVec 8 := 0xB1
abbrev opPUT : BitVec 8 := 0xB2
abbrev opGET : BitVec 8 := 0xB3
abbrev opATOM : BitVec 8 := 0xB4
abbrev opSIG : BitVec 8 := 0xC0
abbrev opSYNCRD : BitVec 8 := 0xC1
abbrev opHPUSH : BitVec 8 := 0xD0
abbrev opHPOP : BitVec 8 := 0xD1

/-- The three registers a mover instruction reads at issue (R111, R181): destination, source, length. -/
structure MovArgs where
  dst : W64
  src : W64
  len : Nat
deriving DecidableEq, Repr

/-- Which register names what, by instruction (R181). -/
def movArgs (f : FmtX) (c : Core) : MovArgs :=
  { dst := sGet c f.rd, src := sGet c f.rs, len := (sGet c f.rl).toNat }

/-- A length is not 0 and at most 1 GiB (R130). -/
def lenOk (n : Nat) : Bool := decide (0 < n) && decide (n ≤ 2 ^ 30)

/-- A deck address of a data transfer: aligned, in stack memory, scratchpads or the window (R52, R130). -/
def dataPlaceOk (env : CoreEnv) (a : W64) (n al : Nat) : Bool :=
  a.toNat % al == 0 && (match placeOf env a.toNat n with
    | .stack => true
    | .spads => true
    | .window => true
    | _ => false)

/-- A hall address of a data transfer: aligned, in space 0 or 1 (R130). -/
def dataHallOk (env : CoreEnv) (a : W64) (al : Nat) : Bool :=
  (hallOffset a).toNat % al == 0 && hallOk env a && decide ((hallSpace a).toNat ≤ 1)

/-- Block size of MOVT by EFMT (R245). -/
def movtBlock (efmt : BitVec 4) : Nat := 128 * elemBits efmt

/-- The checks of R130 and R246 by instruction. -/
def movCheck (env : CoreEnv) (op : BitVec 8) (f : FmtX) (a : MovArgs) : Bool :=
  if op = opMOV then a.len % 32 == 0 && lenOk a.len && dataPlaceOk env a.dst a.len 32 && dataPlaceOk env a.src a.len 32
  else if op = opMOVT then
    let b := movtBlock f.efmt
    a.len % 32 == 0 && lenOk a.len && dataPlaceOk env a.dst a.len 32 && dataPlaceOk env a.src a.len 32 &&
    a.len % b == 0 && a.dst.toNat % b == 0 && a.src.toNat % b == 0 && decide (placeOf env a.dst.toNat a.len = .spads) &&
    decide (a.dst.toNat / 0x40000 = (a.dst.toNat + a.len - 1) / 0x40000)
  else if op = opPUT then a.len % 32 == 0 && lenOk a.len && dataHallOk env a.dst 32 && dataPlaceOk env a.src a.len 32
  else if op = opGET then a.len % 32 == 0 && lenOk a.len && dataPlaceOk env a.dst a.len 32 && dataHallOk env a.src 32
  else if op = opATOM then
    a.len % 64 == 0 && lenOk a.len && a.src.toNat % 64 == 0 && decide (placeOf env a.src.toNat a.len = .spads) &&
    (if f.hall = 1 then dataHallOk env a.dst 64 && hallSpace a.dst == 0
     else a.dst.toNat % 64 == 0 && decide (placeOf env a.dst.toNat a.len = .stack))
  else if op = opSIG then (match syncTarget env a.dst with
    | some t => syncWordOk t
    | none => false)
  else if op = opSYNCRD then (match syncTarget env a.src with
    | some t => syncWordOk t
    | none => false)
  else if op = opHPUSH then a.len % 32 == 0 && lenOk a.len && dataPlaceOk env a.src a.len 32
  else a.len % 32 == 0 && lenOk a.len && dataPlaceOk env a.dst a.len 32

/-- The issue checks in the order of R192: the completion object (R182), then R130. -/
def movIssue (env : CoreEnv) (d : Deck) (op : BitVec 8) (f : FmtX) (c : Core) : Option Status :=
  match (if f.cen = 1 then objRefused d c.ctx f.cobj else none) with
  | some st => some st
  | none => if movCheck env op f (movArgs f c) then none else some stBadParam

/-- The module an instruction targets; data moves by deck address target the issuing module. -/
def movTarget (env : CoreEnv) (op : BitVec 8) (f : FmtX) (a : MovArgs) : BitVec 17 :=
  if op = opPUT then hallModule a.dst
  else if op = opGET then hallModule a.src
  else if op = opATOM ∧ f.hall = 1 then hallModule a.dst
  else if op = opSIG then ((syncTarget env a.dst).map (·.1)).getD env.module
  else if op = opSYNCRD then ((syncTarget env a.src).map (·.1)).getD env.module
  else env.module

/-- A mover instruction as it enters the queue. -/
def movEntry (env : CoreEnv) (op : BitVec 8) (f : FmtX) (c : Core) : MovEntry :=
  let a := movArgs f c
  { seq := c.seq, pc := c.pc, op := op, f := f.f == 1, cobj := if f.cen = 1 then some f.cobj else none, amt := f.amt,
    prio := f.prio, atype := f.atype, efmt := f.efmt, hall := f.hall == 1, htag := f.htag, dst := a.dst, src := a.src,
    len := a.len, rd := f.rd, remote := movTarget env op f a != env.module, target := movTarget env op f a,
    -- SIG, SYNCRD, GET and HPOP have no local source (R128, FENCE.SOURCE)
    srcRead := op == opSIG || op == opSYNCRD || op == opGET || op == opHPOP }

/-- Does the closed master gate refuse the instruction's destination at issue: a range of the own deck's stack memory, by
deck address or by a hall address (R282)? (DEDUCED, log entry 31.) -/
def movGated (env : CoreEnv) (d : Deck) (op : BitVec 8) (f : FmtX) (a : MovArgs) : Bool :=
  if op == opMOV || op == opGET || op == opHPOP || (op == opATOM && f.hall == 0) then
    decide (placeOf env a.dst.toNat a.len = .stack) && gateRefuses d a.dst.toNat a.len
  else if op == opPUT || op == opATOM then
    hallModule a.dst == env.module && decide ((hallDeck a.dst).toNat = env.deck) && hallSpace a.dst == 0 &&
    gateRefuses d (hallOffset a.dst).toNat a.len
  else false

/-! ### Fence windows and packets (R366, R367) -/

/-- Is an outstanding packet of the core to a module not in any window? -/
def untracked (c : Core) (m : BitVec 17) : Bool :=
  c.txns.any (fun e => match e.2 with
    | some t => t.packet.dst == m && !t.packet.trk
    | none => false)

/-- Fenced packets to a module that await their reply. -/
def fencedOut (c : Core) (m : BitVec 17) : Nat :=
  c.txns.countP (fun e => match e.2 with
    | some t => t.packet.dst == m && t.packet.f
    | none => false)

def winAt (c : Core) (m : BitVec 17) : Option SendWin := mapGet none c.wins m.toNat
def setWin (c : Core) (m : BitVec 17) (w : Option SendWin) : Core := { c with wins := mapSet none c.wins m.toNat w }

/-- May a window be opened in a free slot now: one of 8 is free, and 128 core cycles have passed? -/
def winFree (env : CoreEnv) (c : Core) : Bool :=
  decide (c.wins.length < 8) && (match c.winOpened with
    | none => true
    | some t => decide (128 * 5 ≤ (env.clock - t) * 6))

/-- The fields of a packet without F, and the core that has sent it (R366). -/
def trackPlain (env : CoreEnv) (m : BitVec 17) (p : Packet) (c : Core) : Packet × Core :=
  match winAt c m with
  | some w => ({ p with trk := true, fepoch := w.epoch }, setWin c m (some { w with sent := w.sent + 1, last := env.clock }))
  | none =>
    if winFree env c then
      let e := c.winEpoch + 1
      ({ p with trk := true, fepoch := e },
        { setWin c m (some { epoch := e, sent := 1, pred := false, last := env.clock }) with winEpoch := e, winOpened := some env.clock })
    else (p, c)

/-- Has REQ_TIMEOUT_US passed since a reset cleared the core (R371)? -/
def resetOver (env : CoreEnv) (c : Core) : Bool :=
  let past := fun (t : Option Nat) => match t with
    | none => true
    | some x => decide (x + 1000 * env.reqTimeoutUs ≤ env.clock)
  past c.clearedAt && past env.cleared

/-- Can a fenced packet go out now (R367, R371)? `alone` says that no earlier instruction of the core to that module is
incomplete. -/
def fencedReady (env : CoreEnv) (m : BitVec 17) (alone : Bool) (c : Core) : Bool :=
  resetOver env c && decide (fencedOut c m < 4) &&
  (if (winAt c m).isSome && !untracked c m then true
   else alone && (winFree env c || (winAt c m).isSome))

/-- The fields of a fenced packet, and the core that has sent it (R367). -/
def trackFenced (env : CoreEnv) (m : BitVec 17) (p : Packet) (c : Core) : Packet × Core :=
  let e := c.winEpoch + 1
  let c' := { setWin c m (some { epoch := e, sent := 0, pred := true, last := env.clock }) with winEpoch := e }
  match (if untracked c m then none else winAt c m) with
  | some w =>
    ({ p with f := true, trk := true, fcount := BitVec.ofNat 32 (w.sent + boolNat w.pred), fepoch := w.epoch, nepoch := e },
      c')
  | none =>
    ({ p with f := true, trk := true, fcount := 0, fepoch := e, nepoch := e }, { c' with winOpened := some env.clock })

/-- The next TXN that no outstanding request uses. -/
def freeTxn (c : Core) : BitVec 16 :=
  match (List.range 65536).find? (fun k => mapGet none c.txns ((c.nextTxn + BitVec.ofNat 16 k).toNat) == none) with
  | some k => c.nextTxn + BitVec.ofNat 16 k
  | none => c.nextTxn

/-- Send one request packet of instruction `seq`: fence fields, TXN, the outstanding record. -/
def sendPacket (env : CoreEnv) (seq left : Nat) (fenced : Bool) (p : Packet) (c : Core) : Packet × Core :=
  let r := if fenced then trackFenced env p.dst p c else trackPlain env p.dst p c
  let t := freeTxn r.2
  let p' := { r.1 with txn := t }
  (p', { r.2 with nextTxn := t + 1, txns := mapSet none r.2.txns t.toNat (some { seq := seq, packet := p', left := left, sentAt := env.clock }) })

/-! ### Reading and writing by deck address -/

/-- The scratchpad bytes of a range of the scratchpad region, none where a unit holds an uncorrectable error. -/
def readSpads (d : Deck) (off n : Nat) : Option Cells :=
  let cores := (List.range ((off + n + 0x3FFFF) / 0x40000 - off / 0x40000)).map (fun k => off / 0x40000 + k)
  let ok := cores.all (fun i => (coreAt d i).spadBad.all (fun e =>
    let b := i * 0x40000 + 32 * e.1
    decide (b + 32 ≤ off) || decide (off + n ≤ b)))
  if ok then
    some (cores.flatMap (fun i =>
      ((coreAt d i).spad.map (fun e => (e.1 + i * 0x40000, e.2))).filterMap (fun e =>
        if off ≤ e.1 ∧ e.1 < off + n then some (e.1 - off, e.2) else none)))
  else none

/-- Write whole units of a range of the scratchpad region; they lose their errors (R125). -/
def writeSpads (d : Deck) (off n : Nat) (src : Cells) : Deck :=
  let cores := (List.range ((off + n + 0x3FFFF) / 0x40000 - off / 0x40000)).map (fun k => off / 0x40000 + k)
  cores.foldl (fun d i =>
    let lo := max off (i * 0x40000)
    let hi := min (off + n) ((i + 1) * 0x40000)
    modCore d i (fun c => { c with
      spad := mapSplice c.spad (lo - i * 0x40000) (hi - lo) (mapSlice src (lo - off) (hi - lo)),
      spadBad := c.spadBad.filter (fun e =>
        decide (i * 0x40000 + 32 * e.1 < lo) || decide (hi ≤ i * 0x40000 + 32 * e.1)) })) d

/-- What a read by deck address gives. -/
inductive ReadRes where
  | data (m : Cells)
  /-- MEM_POISON of stack memory. -/
  | poison
  /-- An uncorrectable scratchpad unit (R125). -/
  | spadError
  /-- The deck's hub link has failed (R29). -/
  | noHub
deriving DecidableEq, Repr

def readDeck (env : CoreEnv) (d : Deck) (a n : Nat) : ReadRes :=
  match placeOf env a n with
  | .stack => match memRead d a n with
    | some m => .data m
    | none => .poison
  | .spads => match readSpads d (a - 0x8000000000) n with
    | some m => .data m
    | none => .spadError
  | .window => if env.hubUp then .data (mapSlice env.hub (a - 0xC000000000) n) else .noHub
  | _ => .poison

/-- Write by deck address; the hub window is the hub's to write, over the deck's hub link (R28). -/
def writeDeck (env : CoreEnv) (d : Deck) (a n : Nat) (m : Cells) : DeckRes :=
  match placeOf env a n with
  | .stack => (memWrite d a n m, [])
  | .spads => (writeSpads d (a - 0x8000000000) n m, [])
  | .window => (d, if env.hubUp then [.hubWrite (a - 0xC000000000) n m] else [])
  | _ => (d, [])

/-- How a write by deck address completes; with ISOLATED where the hub link has failed. (DEDUCED, log entry 89.) -/
def writeSt (env : CoreEnv) (d : Deck) (a n : Nat) : Status :=
  match placeOf env a n with
  | .stack => memWriteSt d a n
  | .window => if env.hubUp then stGood else stIsolated
  | _ => stGood

/-! ### Ending a transfer (R135, R136) -/

/-- The entry `seq` of a core's mover. -/
def movAt (c : Core) (seq : Nat) : Option MovEntry := c.xq.find? (fun e => e.seq == seq)
/-- Change entry `seq`. -/
def movMod (c : Core) (seq : Nat) (f : MovEntry → MovEntry) : Core :=
  { c with xq := c.xq.map (fun e => if e.seq = seq then f e else e) }
/-- Take entry `seq` away, with its outstanding requests. -/
def movDrop (c : Core) (seq : Nat) : Core :=
  { c with xq := c.xq.filter (fun e => e.seq != seq),
           txns := c.txns.filter (fun e => match e.2 with
             | some t => t.seq != seq
             | none => false) }

/-- A transfer ends: without error its object is signalled, with one it is poisoned, and with no object named the core
faults (R135, R136). (DEDUCED, log entry 17.) -/
def endTransfer (d : Deck) (i : Nat) (e : MovEntry) (st : Status) : DeckRes :=
  let d1 := { modCore d i (fun c => movDrop c e.seq) with holdQ := d.holdQ.filter (fun q => q.2 != (i, e.seq)) }
  match e.cobj with
  | some o =>
    let r := if st = stGood then signalObj d1 o e.amt else poisonObj d1 o st
    (settleEnd r.1 i, r.2)
  | none => (settleEnd (if st = stGood then d1 else coreFault d1 i st 3 e.pc) i, [])

/-- A transfer that met an uncorrectable scratchpad unit: its object is poisoned and the core faults (R125, R135). -/
def endSpadError (d : Deck) (i : Nat) (e : MovEntry) : DeckRes :=
  let r := endTransfer d i e stMemPoison
  let q := spadFault r.1 i 3 e.pc
  (settleEnd q.1 i, r.2 ++ q.2)

/-! ### Starting transfers -/

/-- The common header of a request packet (R359, R360). -/
def reqHeader (env : CoreEnv) (i : Nat) (c : Core) (type : BitVec 4) (data : Bool) (m : BitVec 17) (deck : Nat)
    (space : BitVec 4) (off : Nat) : Packet :=
  { cls := .q, data := data, type := type, tag := c.tag, dst := m, dstDeck := BitVec.ofNat 3 deck, space := space,
    src := env.module, srcDeck := BitVec.ofNat 3 env.deck, offset := BitVec.ofNat 40 off, srcCore := BitVec.ofNat 12 i }

/-- Packets of a PUT or ATOM (R131). -/
def packetCount (e : MovEntry) : Nat := if e.op = opPUT ∨ e.op = opATOM then (e.len + 511) / 512 else 1

/-- Can the oldest unstarted instruction start (R112, R128, R133, R134)? -/
def canStart (env : CoreEnv) (c : Core) (e : MovEntry) : Bool :=
  let earlier := c.xq.filter (fun x => decide (x.seq < e.seq))
  decide ((c.xq.filter (·.started)).length < 8) && !passHolds c 3 e.seq &&
  (if !e.f then true
   else if e.remote then fencedReady env e.target (earlier.all (fun x => !(x.remote && x.target == e.target))) c
   else earlier.all (·.remote))

/-- An error of a running transfer is known: with no completion object the core faults at once (R136). -/
def errorKnown (d : Deck) (i : Nat) (e : MovEntry) (st : Status) : Deck :=
  if st = stGood ∨ e.cobj ≠ none then d else coreFault d i st 3 e.pc

/-- What the packets of a PUT or ATOM have come to so far: the deck, what it asks for, the packets, the first error. -/
structure SendAcc where
  deck : Deck
  effs : List DeckEff := []
  pkts : List Packet := []
  err : Status := 0
deriving DecidableEq, Repr

/-- A source read of a PUT or ATOM meets an error: its packet is not sent, and the error is known (R136, R301). -/
def SendAcc.lost (r : SendAcc) (i : Nat) (e : MovEntry) (st : Status) : SendAcc :=
  { r with deck := errorKnown r.deck i e st, err := if r.err = 0 then st else r.err }

/-- Packet `k` of the `n` of a PUT or ATOM, read from its source as it stands (R131, R300, R301). -/
def sendPiece (env : CoreEnv) (i : Nat) (e : MovEntry) (n : Nat) (r : SendAcc) (k : Nat) : SendAcc :=
  let a := e.src.toNat + 512 * k
  let len := min 512 (e.len - 512 * k)
  let x := if placeOf env a len = .stack then
    eccRange env.now a len [] (if e.prio = 3 then notePrio3 r.deck a len else r.deck) else (r.deck, [])
  let r := { r with deck := x.1, effs := r.effs ++ x.2 }
  match readDeck env r.deck a len with
  | .data m =>
    let c := coreAt r.deck i
    let h := reqHeader env i c (if e.op = opPUT then 0 else 2) true e.target (hallDeck e.dst).toNat (hallSpace e.dst)
      ((hallOffset e.dst).toNat + 512 * k)
    let q := sendPacket env e.seq 0 (e.f && k + 1 == n) { h with payload := m, len := len, atype := e.atype.setWidth 4 } c
    { r with deck := setCore r.deck i q.2, pkts := r.pkts ++ [q.1] }
  | .poison => r.lost i e stMemPoison
  | .noHub => r.lost i e stIsolated
  | .spadError =>
    let q := spadFault r.deck i 3 e.pc
    { r with deck := q.1, effs := r.effs ++ q.2, err := if r.err = 0 then stMemPoison else r.err }

/-- Packets wait in the deck's injection queue. -/
def queuePackets (env : CoreEnv) (d : Deck) (ps : List Packet) : Deck :=
  { d with txq := d.txq ++ ps.map (fun pk => { pk := pk, since := env.clock }) }

/-- Send every packet of a remote instruction; one whose every packet met an error ends at once (R131, R135). The last
packet carries the fence (R133). -/
def startRemote (env : CoreEnv) (d : Deck) (i : Nat) (e : MovEntry) : DeckRes :=
  let n := packetCount e
  if e.op = opPUT ∨ e.op = opATOM then
    let r := (List.range n).foldl (sendPiece env i e n) { deck := d, err := e.err }
    let d1 := modCore r.deck i (fun c => movMod c e.seq (fun x =>
      { x with started := true, srcRead := true, sent := n, rest := r.pkts.length, err := r.err }))
    if r.pkts.isEmpty then
      let q := endTransfer d1 i e r.err
      (q.1, r.effs ++ q.2)
    else (queuePackets env d1 r.pkts, r.effs)
  else
    let c := coreAt d i
    let h :=
      if e.op = opGET then
        { reqHeader env i c 1 false e.target (hallDeck e.src).toNat (hallSpace e.src) (hallOffset e.src).toNat with
          imm := BitVec.ofNat 32 e.len }
      else if e.op = opSIG then
        let t := (syncTarget env e.dst).getD (0, 0, 0)
        { reqHeader env i c 3 false e.target t.2.1 2 t.2.2 with imm := e.src.setWidth 32 }
      else
        let t := (syncTarget env e.src).getD (0, 0, 0)
        { reqHeader env i c 1 false e.target t.2.1 2 t.2.2 with imm := 8 }
    let q := sendPacket env e.seq (if e.op = opGET then (e.len + 511) / 512 else 1) e.f h c
    let d1 := modCore (setCore d i q.2) i (fun c => movMod c e.seq (fun x => { x with started := true, sent := 1, rest := 1 }))
    (queuePackets env d1 [q.1], [])

/-- Does the source of a remote PUT or ATOM wait for a channel or a row (R315, R329)? -/
def sourceHeld (env : CoreEnv) (d : Deck) (e : MovEntry) : Bool :=
  e.remote && (e.op == opPUT || e.op == opATOM) && placeOf env e.src.toNat e.len == .stack && rangeHeld d e.src.toNat e.len

/-- Start what can start on core `i`, in program order; at most `fuel` instructions. -/
def pumpFuel (env : CoreEnv) (fuel : Nat) (d : Deck) (i : Nat) : DeckRes :=
  match fuel with
  | 0 => (d, [])
  | k + 1 =>
    let c := coreAt d i
    match c.xq.find? (fun e => !e.started) with
    | none => (d, [])
    | some e =>
      if canStart env c e && !sourceHeld env d e then
        let r := if e.remote then startRemote env d i e
          else
            let d1 := modCore d i (fun c => movMod c e.seq (fun x => { x with started := true }))
            (if e.op = opHPUSH ∨ e.op = opHPOP then { d1 with holdQ := d1.holdQ ++ [(c.ctx, i, e.seq)] } else d1, [])
        let q := pumpFuel env k r.1 i
        (q.1, r.2 ++ q.2)
      else (d, [])

/-- Does an earlier mover instruction stand before entry `seq`? -/
def movBehind (c : Core) (seq : Nat) : Bool := c.xq.any (fun e => decide (e.seq < seq))

/-- A SYNCRD whose word has come gives it once every earlier mover instruction is complete (R115). -/
def deliverRead (d : Deck) (i : Nat) : Deck :=
  match (coreAt d i).xq with
  | [] => d
  | e :: _ => match e.value with
    | none => d
    | some v => settleEnd (giveResult (modCore d i (fun c => movDrop c e.seq)) i e.seq e.rd v) i

/-- Start what can start on core `i`: the queue holds at most 32. (DEDUCED, log entry 19.) (DEDUCED, log entry 31.) -/
def pump (env : CoreEnv) (d : Deck) (i : Nat) : DeckRes := pumpFuel env 32 (deliverRead d i) i

/-- Issue a mover instruction: the checks, then the gate (R282), then the queue; SYNCRD waits for its result (R115). -/
def opMovI (env : CoreEnv) (d : Deck) (i : Nat) (op : BitVec 8) (wf : Bool) (f : FmtX) : DeckRes :=
  let c := coreAt d i
  let gated := decide (c.run = .ready) && c.pc != 8191 && wideFits c && wf && !queueFull c .mover &&
    decide (movIssue env d op f c = none) && movGated env d op f (movArgs f c)
  if gated then
    if f.cen = 1 then
      let r := poisonObj (retireOn d i { c with seq := c.seq + 1 } (c.pc.toNat + 1)) f.cobj stVoteFailed
      (r.1, r.2)
    else (coreFault d i stVoteFailed 3 c.pc, [])
  else
    pump env (issueEngine d i .mover wf (op == opSYNCRD) (movIssue env d op f)
      (fun c => { c with xq := c.xq ++ [movEntry env op f c] })) i

/-! ### Local transfers -/

/-- 32 × 32 block transposition of `n` bytes (R245). -/
def transpose (efmt : BitVec 4) (n : Nat) (m : Cells) : Cells :=
  let sz := elemBits efmt / 8
  let b := movtBlock efmt
  (List.range n).foldl (fun out i =>
    let k := i / b
    let p := i % b / sz
    cellSet out i (cellGet m (k * b + ((p % 32) * 32 + p / 32) * sz + i % sz))) []

/-- The status of a write into the deck's memory as a destination of the fabric meets it. -/
def localMove (env : CoreEnv) (now : Nat) (d : Deck) (i : Nat) (e : MovEntry) (errs : List SectorErr) : DeckRes :=
  let r0 := if placeOf env e.src.toNat e.len = .stack then eccRange now e.src.toNat e.len errs d else (d, [])
  match readDeck env r0.1 e.src.toNat e.len with
  | .data m =>
    let w := writeDeck env r0.1 e.dst.toNat e.len (if e.op = opMOVT then transpose e.efmt e.len m else m)
    let q := endTransfer w.1 i e (writeSt env r0.1 e.dst.toNat e.len)
    (q.1, r0.2 ++ w.2 ++ q.2)
  | .poison =>
    let q := endTransfer r0.1 i e stMemPoison
    (q.1, r0.2 ++ q.2)
  | .noHub =>
    let q := endTransfer r0.1 i e stIsolated
    (q.1, r0.2 ++ q.2)
  | .spadError =>
    let q := endSpadError r0.1 i e
    (q.1, r0.2 ++ q.2)

/-- A local ATOM by deck address (R311, R312). -/
def localAtom (env : CoreEnv) (now : Nat) (d : Deck) (i : Nat) (e : MovEntry) (errs : List SectorErr) : DeckRes :=
  match readDeck env d e.src.toNat e.len with
  | .data m =>
    let r0 := eccRange now e.dst.toNat e.len errs d
    let r := adderRun e.atype.toNat m e.dst.toNat (e.len / 64) r0.1
    let q := endTransfer r.1 i e (if r.2 then stMemPoison else stGood)
    (q.1, r0.2 ++ q.2)
  | _ => endSpadError d i e

/-! ### Sync words -/

/-- The value of a word of space 2 as a read gives it. -/
def syncRead (d : Deck) (w : SyncWord) : W64 :=
  match w with
  | .set o => objWord d o
  | .signal o => objWord d o
  | .poison o => objWord d o
  | .config g => groupWord d g
  | .timed g => (groupAt d g).timed
  | .poisoned g => poisonedWord d g
  | .reserved _ => 0

/-- Is the object or group of a word allocated (R147)? R147 speaks of reads of objects; a read of a group word of an
unallocated group answers NO_SYNC in the same way. (DESIGN CHOICE, log entry 90.) -/
def wordAlloc (d : Deck) (w : SyncWord) : Bool :=
  match w with
  | .set o => objAlloc d o
  | .signal o => objAlloc d o
  | .poison o => objAlloc d o
  | .config g => (groupAt d g).alloc
  | .timed g => (groupAt d g).alloc
  | .poisoned g => (groupAt d g).alloc
  | .reserved _ => false

/-- The context that owns a word's group. -/
def wordCtx (d : Deck) (w : SyncWord) : BitVec 4 :=
  match w with
  | .set o => objCtx d o
  | .signal o => objCtx d o
  | .poison o => objCtx d o
  | .config g => (groupAt d g).ctx
  | .timed g => (groupAt d g).ctx
  | .poisoned g => (groupAt d g).ctx
  | .reserved g => (groupAt d g).ctx

/-- TIMEOUT of a group changes; a write of 0 ends the timeout of every wait of the group not yet reported (R155). -/
def setTimeout (d : Deck) (g : Nat) (v : BitVec 24) : Deck :=
  let d1 := setGroup d g { groupAt d g with timeout := v }
  if v = 0 then { d1 with waiters := d1.waiters.map (fun w =>
    if w.obj.toNat / 64 = g ∧ w.reported = false then { w with untimed := true } else w) }
  else d1

/-- An 8-byte write to a word of space 2 (R145 to R147). `ctx` is the local writer's context, none for a remote writer;
`cmdp` says the CMDP writes. Gives the status and what it releases. -/
def syncWrite (d : Deck) (w : SyncWord) (v : W64) (ctx : Option (BitVec 4)) (cmdp : Bool) : Status × DeckRes :=
  let owner := cmdp || ctx == some (wordCtx d w)
  let guarded := ctx.isNone && !cmdp
  match w with
  | .set o =>
    if guarded then (stBadParam, (d, []))
    else if !objAlloc d o then (stNoSync, (d, []))
    else if !owner then (stBadParam, (d, []))
    else (stGood, settle d [.set o (v.setWidth 32)])
  | .signal o => if objAlloc d o then (stGood, settle d [.signal o (v.setWidth 32)]) else (stNoSync, (d, []))
  | .poison o =>
    if !objAlloc d o then (stNoSync, (d, []))
    else if v.setWidth 16 = (0 : BitVec 16) then (stBadParam, (d, []))
    else (stGood, settle d [.poison o (v.setWidth 16) false])
  | .config g =>
    let x := groupAt d g
    if guarded then (stBadParam, (d, []))
    else if !x.alloc then (stNoSync, (d, []))
    else if !owner then (stBadParam, (d, []))
    else (stGood, (setTimeout d g (v.setWidth 24), []))
  | .timed g =>
    let x := groupAt d g
    if guarded then (stBadParam, (d, []))
    else if !x.alloc then (stNoSync, (d, []))
    else if !owner then (stBadParam, (d, []))
    else (stGood, (setGroup d g { x with timed := x.timed &&& ~~~v }, []))
  | .poisoned _ => (if guarded then stBadParam else stGood, (d, []))
  | .reserved _ => (stBadParam, (d, []))

/-- A SIG or SYNCRD of the core's own deck. A SYNCRD reads once every earlier mover instruction is complete (R115). NO_SYNC faults the core also where the SIG names a completion object, which is
poisoned too (R135, R146, R147). (DEDUCED, log entry 17.) -/
def localSync (env : CoreEnv) (d : Deck) (i : Nat) (e : MovEntry) : DeckRes :=
  let c := coreAt d i
  let off := ((syncTarget env (if e.op = opSIG then e.dst else e.src)).getD (0, 0, 0)).2.2
  let drop := fun (d : Deck) => modCore d i (fun c => movDrop c e.seq)
  match syncWordAt off with
  | none => endTransfer d i e stBadParam
  | some w =>
    if e.op = opSIG then
      let r := syncWrite d w e.src (some c.ctx) false
      if r.1 = stGood then
        let q := endTransfer r.2.1 i e stGood
        (q.1, r.2.2 ++ q.2)
      else
        let q := endTransfer d i e r.1
        if r.1 = stNoSync ∧ e.cobj ≠ none then (settleEnd (coreFault q.1 i stNoSync 3 e.pc) i, q.2) else q
    else if movBehind c e.seq then (d, [])
    else if wordAlloc d w then (settleEnd (giveResult (drop d) i e.seq e.rd (syncRead d w)) i, [])
    else (settleEnd (coreFault (drop d) i stNoSync 3 e.pc) i, [])

/-! ### The hold unit -/

/-- Record the first hold fault since VALID was cleared (R291). -/
def holdFault (h : Hold) (st : Status) (want found : BitVec 16) (core : Nat) : Hold :=
  if h.faultValid then h
  else { h with faultStatus := st, faultWant := want, faultFound := found, faultCore := BitVec.ofNat 12 core,
                faultValid := true }

/-- The stack area's bytes: everything below the fingerprint area (R286). -/
def holdArea (h : Hold) : Nat := h.size.toNat - 256 * h.fpSlots.toNat

/-- The trailer of a hold entry (R287). -/
def holdTrailer (h : Hold) (tag : BitVec 16) (core len : Nat) : Cells :=
  bytesCells (natBytes 8 (tag.toNat + 2 ^ 16 * (core % 4096) + 2 ^ 32 * len) ++
    natBytes 8 (h.attempt.toNat + 2 ^ 16 * h.step.toNat))

/-- HPUSH (R289). -/
def holdPush (env : CoreEnv) (now : Nat) (d : Deck) (i : Nat) (e : MovEntry) (errs : List SectorErr) : DeckRes :=
  let x := (coreAt d i).ctx.toNat
  let h := (ctxAt d x).hold
  if h.top.toNat + e.len + 32 > holdArea h then
    let d1 := setHold d x (holdFault h stHoldFull e.htag
      (if h.top = 0 then 0 else BitVec.ofNat 16 (readNat d.mem (h.base.toNat + h.top.toNat - 32) 2)) i)
    endTransfer d1 i e stHoldFull
  else
    let r0 := if placeOf env e.src.toNat e.len = .stack then eccRange now e.src.toNat e.len errs d else (d, [])
    match readDeck env r0.1 e.src.toNat e.len with
    | .data m =>
      let a := h.base.toNat + h.top.toNat
      if memWriteSt r0.1 a (e.len + 32) ≠ stGood then
        let q := endTransfer r0.1 i e stMemPoison
        (q.1, r0.2 ++ q.2)
      else
      let d1 := memWrite r0.1 a e.len m
      let d2 := memWrite d1 (a + e.len) 32 (holdTrailer h e.htag i e.len)
      let top := h.top + BitVec.ofNat 40 (e.len + 32)
      let d3 := setHold d2 x { h with top := top, entries := h.entries + 1, hwm := if h.hwm.ult top then top else h.hwm }
      let q := endTransfer d3 i e stGood
      (q.1, r0.2 ++ q.2)
    | .poison =>
      let q := endTransfer r0.1 i e stMemPoison
      (q.1, r0.2 ++ q.2)
    | .noHub =>
      let q := endTransfer r0.1 i e stIsolated
      (q.1, r0.2 ++ q.2)
    | .spadError =>
      let q := endSpadError r0.1 i e
      (q.1, r0.2 ++ q.2)

/-- HPOP (R290): the checks in order, the copy, the entry freed. -/
def holdPop (env : CoreEnv) (now : Nat) (d : Deck) (i : Nat) (e : MovEntry) (errs : List SectorErr) : DeckRes :=
  let x := (coreAt d i).ctx.toNat
  let h := (ctxAt d x).hold
  if h.top = 0 then endTransfer (setHold d x (holdFault h stHoldEmpty e.htag 0 i)) i e stHoldEmpty
  else
    let t := h.base.toNat + h.top.toNat - 32
    let r0 := eccRange now t 32 errs d
    match memRead r0.1 t 32 with
    | none =>
      let q := endTransfer r0.1 i e stMemPoison
      (q.1, r0.2 ++ q.2)
    | some tr =>
      let layer := BitVec.ofNat 16 (readNat tr 0 2)
      let core := readNat tr 2 2 % 4096
      let len := readNat tr 4 4
      if layer ≠ e.htag ∨ core ≠ i then
        let q := endTransfer (setHold r0.1 x (holdFault h stHoldTag e.htag layer i)) i e stHoldTag
        (q.1, r0.2 ++ q.2)
      else if len ≠ e.len ∨ len + 32 > h.top.toNat then
        let q := endTransfer (setHold r0.1 x (holdFault h stBadParam e.htag layer i)) i e stBadParam
        (q.1, r0.2 ++ q.2)
      else
        let r1 := eccRange now (t - len) len errs r0.1
        match memRead r1.1 (t - len) len with
        | none =>
          let q := endTransfer r1.1 i e stMemPoison
          (q.1, r0.2 ++ r1.2 ++ q.2)
        | some m =>
          let w := writeDeck env r1.1 e.dst.toNat e.len m
          if writeSt env r1.1 e.dst.toNat e.len ≠ stGood then
            let q := endTransfer w.1 i e (writeSt env r1.1 e.dst.toNat e.len)
            (q.1, r0.2 ++ r1.2 ++ w.2 ++ q.2)
          else
          let h' := (ctxAt w.1 x).hold
          let d1 := setHold w.1 x { h' with top := h'.top - BitVec.ofNat 40 (len + 32), entries := h'.entries - 1 }
          let q := endTransfer d1 i e stGood
          (q.1, r0.2 ++ r1.2 ++ w.2 ++ q.2)

end Sys2Proof.Machine
end

