-- ==== Sys2Proof/Machine/Dkc.lean ====
section
/-! DEFINITION. The deck controller: starting kernels (R116 to R119), stream entries (R435 to R438), scheduled launches and
START times (R100, R101), the end of launches (R156, R436), wait timeouts (R155), alarms (R107). -/
namespace Sys2Proof.Machine
open Sys2Proof

/-- May the DKC start work on the deck: in Run, not in reset, in service, not quiesced (R32, R100, R497)? -/
def deckRuns (d : Deck) : Bool :=
  decide (d.power = .run) && decide (d.reset = .none) && !d.outOfService && !d.quiesced

/-- Zero what R118 and R220 zero: data memory, scratchpad, v, k and acc, the per-operation counters. (DESIGN
CHOICE, log entry 23.) -/
def zeroCore (c : Core) : Core :=
  { c with dmem := [], spad := [], spadBad := [], v := [], k := [], acc := [], satc := 0, flsc := 0 }

/-- A core at kernel start (R116 to R119, R233): `image` by word, `args` the launch arguments. The live and latched loop
counts are cleared with LC0 to LC2. (DEDUCED, log entry 22.) (DESIGN CHOICE, log entries 23 and 92.) -/
def startCore (env : CoreEnv) (ctx : BitVec 4) (launch : Nat) (seq : BitVec 32) (image : SMap W64) (words : Nat)
    (args : SMap W64) (c : Core) : Core :=
  let c1 := if c.lastCtx = some ctx then c else zeroCore c
  { c1 with s := args, pc := 0, imem := mapSplice c1.imem 0 words image, ctx := ctx, tag := env.tag, launchSeq := seq,
            start := some env.core, t := [], lc := [], live := [], latched := [], loops := [], passes := [],
            run := .ready, launch := some launch, lastCtx := some ctx, stat := [], statScale := [], active := 0,
            statFmt := none }

/-- A KERNEL entry's fields (R435). -/
structure KernelEntry where
  image : Nat
  words : Nat
  penFirst : Nat
  penCount : Nat
  coreMask : Nat
  sched : Bool
deriving DecidableEq, Repr

def kernelEntry (d : Deck) (s : Stream) (slot : Nat) : KernelEntry :=
  let w := entryField d s slot 16 16
  { image := bits w 0 64, words := bits w 64 16, penFirst := bits w 80 16, penCount := bits w 96 16,
    coreMask := bits w 112 16, sched := bits (entryField d s slot 0 8) 4 1 == 1 }

/-- The cores a KERNEL entry names. -/
def kernelCores (k : KernelEntry) : List Nat :=
  (List.range k.penCount).flatMap (fun p =>
    ((List.range 16).filter (fun b => bits k.coreMask b 1 == 1)).map (fun b => 16 * (k.penFirst + p) + b))

/-- The check of a KERNEL entry (R435). -/
def kernelOk (k : KernelEntry) : Bool :=
  k.image % 32 == 0 && decide (1 ≤ k.words) && decide (k.words ≤ 8192) && decide (k.image + 8 * k.words ≤ memEnd) &&
  decide (1 ≤ k.penCount) && decide (k.penFirst + k.penCount ≤ 200) && k.coreMask != 0

/-- Is a core free of every kernel? -/
def coreFree (c : Core) : Bool := c.launch.isNone

/-- The check of an entry's own completion object (R437): an error names no object to poison. -/
def entryCheck (d : Deck) (s : Stream) (slot : Nat) : Option Status :=
  let w := entryField d s slot 0 8
  if bits w 28 1 = 1 then objRefused d s.ctx (BitVec.ofNat 12 (bits w 16 12)) else none

/-- AMT of an entry. -/
def entryAmt (d : Deck) (s : Stream) (slot : Nat) : BitVec 16 := BitVec.ofNat 16 (bits (entryField d s slot 0 8) 32 16)

/-- Does an earlier published KERNEL entry of another stream want one of these cores (R436)? -/
def earlierClaims (d : Deck) (n order : Nat) (cores : List Nat) : Bool :=
  d.streams.any (fun e => match e.2 with
    | none => false
    | some s => e.1 != n && s.pubs.any (fun p =>
        decide (p.order < order) && entryKind d s p.slot == 1 &&
        (kernelCores (kernelEntry d s p.slot)).any (fun i => cores.contains i)))

/-- End an entry and apply what that releases. -/
def finishEntry (d : Deck) (n : Nat) (st : Status) (own : Option (BitVec 12)) (amt : BitVec 16) (hdr : Option CmdHdr) :
    DeckRes :=
  let r := endEntry d n st own amt hdr
  let q := settle r.1 r.2.1
  (q.1, r.2.2 ++ q.2)

/-- Take the head entry off a stream's published list. -/
def popPub (s : Stream) : Stream := { s with pubs := s.pubs.drop 1 }

/-- The words of a kernel image. -/
def imageWords (m : Cells) (n : Nat) : SMap W64 :=
  (List.range n).foldl (fun w k => mapSet 0 w k (BitVec.ofNat 64 (readNat m (8 * k) 8))) []

/-- The launch arguments s1 to s8 (R116, R435). -/
def launchArgs (d : Deck) (s : Stream) (slot : Nat) : SMap W64 :=
  (List.range 8).foldl (fun w k => mapSet 0 w (k + 1) (BitVec.ofNat 64 (entryField d s slot (32 + 8 * k) 8))) []

/-- The DKC reads a kernel image, at priority 3 (R300, R308). -/
def readImage (now : Nat) (k : KernelEntry) (d : Deck) : DeckRes :=
  eccRange now k.image (8 * k.words) [] (notePrio3 d k.image (8 * k.words))

/-- The physical pen of a logical pen (R15). (DEDUCED, log entry 3.) -/
def physPen (k : Deck) (p : Nat) : Nat := mapGet p k.penMap p

/-- Does a kernel name a pen that is fenced after it was found faulty (R18)? -/
def fencedPen (d : Deck) (cores : List Nat) : Bool := cores.any (fun i => d.pensBad.contains (physPen d (i / 16)))

/-- Start the KERNEL entry `p`, the head of stream `n`; its cores are free, its checks have passed and its image has been
read. A kernel on a fenced pen ends with ISOLATED (R18; DESIGN CHOICE, log entry 99). (DESIGN CHOICE, log entry 81.) -/
def launchKernel (env : CoreEnv) (d : Deck) (n : Nat) (s : Stream) (p : PubEntry) (sched : Bool) : DeckRes :=
  let k := kernelEntry d s p.slot
  let cores := kernelCores k
  if fencedPen d cores then finishEntry (setStream d n (some (popPub s))) n stIsolated (entryCobj d s p.slot) 0 p.hdr
  else match memRead d k.image (8 * k.words) with
  | none =>
    finishEntry (setStream d n (some (popPub s))) n stMemPoison (entryCobj d s p.slot) 0 p.hdr
  | some m =>
    let id := d.nextLaunch
    let args := launchArgs d s p.slot
    let image := imageWords m k.words
    let d1 := cores.foldl (fun d i =>
      modCore d i (startCore env s.ctx id (BitVec.ofNat 32 id) image k.words args)) d
    let la : Launch := { stream := n, ctx := s.ctx, cores := cores, cobj := entryCobj d s p.slot, amt := entryAmt d s p.slot,
                         hdr := p.hdr, seq := BitVec.ofNat 32 id, late := p.late, sched := sched }
    let d2 := setLaunch { d1 with nextLaunch := id + 1 } id (some la)
    (setStream d2 n (some { popPub s with run := .kernel id }), [])

/-- Start a KERNEL entry: its image is read first. -/
def startKernel (env : CoreEnv) (d : Deck) (n : Nat) (s : Stream) (p : PubEntry) (sched : Bool) : DeckRes :=
  let r := readImage env.now (kernelEntry d s p.slot) d
  let q := launchKernel env r.1 n s p sched
  (q.1, r.2 ++ q.2)

/-- The head of stream `n` where it can be looked at: the stream is open and runs nothing. -/
def streamHead (d : Deck) (n : Nat) : Option (Stream × PubEntry) :=
  match streamAt d n with
  | none => none
  | some s => if s.run = .none then s.pubs.head?.map (fun p => (s, p)) else none

/-- End the head entry with an error of its check (R437). -/
def refuseHead (d : Deck) (n : Nat) (s : Stream) (p : PubEntry) (st : Status) : DeckRes :=
  let own := if entryCheck d s p.slot = none then entryCobj d s p.slot else none
  finishEntry (setStream d n (some (popPub s))) n st own 0 p.hdr

/-- Look at the head entry of stream `n` for the row of kind `kind`: the deck runs, the context is LIVE (R442), the kind is the row's (a reserved kind
falls to NOP's row and is refused), the entry can be read and its object may be used; then `go`. (DEDUCED,
log entry 21.) -/
def withHead (d : Deck) (n kind : Nat) (go : Stream → PubEntry → DeckRes) : DeckRes :=
  match streamHead d n with
  | none => (d, [])
  | some (s, p) =>
    let k := entryKind d s p.slot
    if !deckRuns d || decide ((ctxAt d s.ctx.toNat).life ≠ .live) || (k != kind && !(kind == 0 && decide (5 ≤ k))) then (d, [])
    else if !memReadOk d (entryAddr s p.slot) 128 then
      finishEntry (setStream d n (some (popPub s))) n stMemPoison none 0 p.hdr
    else if k ≥ 5 then refuseHead d n s p stBadParam
    else match entryCheck d s p.slot with
      | some st => refuseHead d n s p st
      | none => go s p

/-- STREAM_NOP. -/
def opStreamNop (d : Deck) (n : Nat) : DeckRes :=
  withHead d n 0 (fun s p =>
    finishEntry (setStream d n (some (popPub s))) n stGood (entryCobj d s p.slot) (entryAmt d s p.slot) p.hdr)

/-- Are a KERNEL entry's cores free, is its turn come (R436), and need the read of its image not wait (R315, R329)? -/
def kernelReady (d : Deck) (n : Nat) (s : Stream) (p : PubEntry) : Bool :=
  let cores := kernelCores (kernelEntry d s p.slot)
  cores.all (fun i => coreFree (coreAt d i)) && !earlierClaims d n p.order cores &&
  !rangeHeld d (kernelEntry d s p.slot).image (8 * (kernelEntry d s p.slot).words)

/-- The DKC reads the head entry of stream `n` (R300). -/
def headEcc (now n : Nat) (d : Deck) : DeckRes :=
  match streamHead d n with
  | none => (d, [])
  | some (s, p) => eccRange now (entryAddr s p.slot) 128 [] d

/-- Does the read of the head entry wait (R315, R329)? -/
def headHeld (d : Deck) (n : Nat) : Bool :=
  match streamHead d n with
  | none => false
  | some (s, p) => rangeHeld d (entryAddr s p.slot) 128

/-- Does a core hold the contents of another context than `ctx` (R118)? -/
def needsZero (ctx : BitVec 4) (c : Core) : Bool :=
  match c.lastCtx with
  | none => false
  | some x => x != ctx

/-- The DKC begins to zero the free cores of a list for context `ctx`: 512 core cycles (R118). (DESIGN CHOICE, log
entry 23.) -/
def beginZero (env : CoreEnv) (ctx : BitVec 4) (cores : List Nat) (d : Deck) : Deck :=
  cores.foldl (fun d i =>
    let c := coreAt d i
    if coreFree c && needsZero ctx c then setCore d i { zeroCore c with lastCtx := some ctx, zeroUntil := env.clock + 427 } else d) d

/-- Is every core of a list zeroed for context `ctx` (R118)? -/
def zeroDone (env : CoreEnv) (ctx : BitVec 4) (cores : List Nat) (d : Deck) : Bool :=
  cores.all (fun i => !needsZero ctx (coreAt d i) && decide ((coreAt d i).zeroUntil ≤ env.clock))

/-- STREAM_KERNEL (R436): SCHED entries wait for their LAUNCH record while their cores are zeroed (R118), entries with a
START for their time. -/
def opStreamKernel (env : CoreEnv) (d : Deck) (n : Nat) : DeckRes :=
  withHead d n 1 (fun s p =>
    let k := kernelEntry d s p.slot
    if !kernelOk k then refuseHead d n s p stBadParam
    else if (p.start != 0 && !p.due) || !kernelReady d n s p then (d, [])
    else if k.sched then (beginZero env s.ctx (kernelCores k) d, [])
    else startKernel env d n s p false)

/-- STREAM_WAIT (R150, R151, R436). -/
def opStreamWait (env : CoreEnv) (d : Deck) (n : Nat) : DeckRes :=
  withHead d n 2 (fun s p =>
    let w := entryField d s p.slot 16 8
    let o : BitVec 12 := BitVec.ofNat 12 (bits w 0 12)
    let target : W64 := BitVec.ofNat 64 (bits w 32 32)
    match objRefused d s.ctx o with
    | some st => refuseHead d n s p st
    | none =>
      match released (objAt d o.toNat) target with
      | some st =>
        finishEntry (setStream d n (some (popPub s))) n st (entryCobj d s p.slot) (entryAmt d s p.slot) p.hdr
      | none =>
        let s' := { popPub s with run := StreamRun.wait, waitCobj := entryCobj d s p.slot, waitAmt := entryAmt d s p.slot }
        let d' := setStream d n (some s')
        ({ d' with waiters := d'.waiters ++ [{ who := .stream n, sd := 0, obj := o, target := target, start := env.clock }] }, []))

/-- STREAM_SIGNAL (R145, R147, R436): any agent of the partition may signal. -/
def opStreamSignal (d : Deck) (n : Nat) : DeckRes :=
  withHead d n 3 (fun s p =>
    let w := entryField d s p.slot 16 8
    let o := bits w 0 12
    if objAlloc d o then
      let r := settle (setStream d n (some (popPub s))) [.signal o (BitVec.ofNat 32 (bits w 32 32))]
      let q := finishEntry r.1 n stGood (entryCobj d s p.slot) (entryAmt d s p.slot) p.hdr
      (q.1, r.2 ++ q.2)
    else refuseHead d n s p stNoSync)

/-- The check of a COLL entry before its handover: CEN is 0, and the descriptor's object may be used (R435, R437). -/
def collCheck (d : Deck) (s : Stream) (slot : Nat) : Option Status :=
  if bits (entryField d s slot 0 8) 28 1 = 1 then some stBadParam
  else objRefused d s.ctx (BitVec.ofNat 12 (bits (entryField d s slot 80 8) 48 12))

/-- STREAM_COLL: the entry completes at its handover to Churn (R383, R436); while the context runs MAX_ACTIVE collectives
the DKC holds it. An object that may not be used ends the entry in the DKC (R437), and Churn, which gets the descriptor all the
same, refuses it (R384). (DEDUCED, log entry 96.) -/
def opStreamColl (env : CoreEnv) (d : Deck) (n : Nat) : DeckRes :=
  withHead d n 4 (fun s p =>
    if (ctxAt d s.ctx.toNat).running.length ≥ env.maxActive then (d, [])
    else
      let r := finishEntry (setStream d n (some (popPub s))) n ((collCheck d s p.slot).getD stGood) none 0 p.hdr
      if bits (entryField d s p.slot 0 8) 28 1 = 1 then r
      else (r.1, r.2 ++ [.coll s.ctx (mapSlice d.mem (entryAddr s p.slot + 64) 64)]))

/-- A LAUNCH record is missed and counted (R100). -/
def missLaunch (d : Deck) : Deck := { d with missed := satInc d.missed }

/-- SCHED_LAUNCH, for the stream of a LAUNCH record: the head starts, or the event is missed and counted (R100), as it is
where a core is still to be zeroed (R118). R100 says that the record starts the head: it does so also where the head's SCHED
bit is 0 or its START has not come. (DESIGN CHOICE, log entry 91.) -/
def opSchedLaunch (env : CoreEnv) (d : Deck) (n : Nat) : DeckRes :=
  let miss : DeckRes := (missLaunch d, [])
  match streamHead d n with
  | none => miss
  | some (s, p) =>
    let k := kernelEntry d s p.slot
    if deckRuns d && decide ((ctxAt d s.ctx.toNat).life = .live) && entryKind d s p.slot == 1 && memReadOk d (entryAddr s p.slot) 128 && kernelOk k &&
        decide (entryCheck d s p.slot = none) && kernelReady d n s p then
      if zeroDone env s.ctx (kernelCores k) d then startKernel env d n s p true
      else (missLaunch (beginZero env s.ctx (kernelCores k) d), [])
    else miss

/-- LAUNCH_START_TIME: the START of the first entry of stream `n` that carries one has come; the kernel starts on the tick
boundary when it is at the head and its cores are free (R101, R438). -/
def opLaunchStart (env : CoreEnv) (d : Deck) (n : Nat) : DeckRes :=
  match streamAt d n with
  | none => (d, [])
  | some s =>
    match s.pubs.find? (fun p => p.start != 0 && !p.due) with
    | none => (d, [])
    | some q =>
      if q.start ≤ env.now then
        let s' := { s with pubs := s.pubs.map (fun p => if p.order = q.order then { p with due := true } else p) }
        opStreamKernel env (setStream d n (some s')) n
      else (d, [])

/-- A launch's cores go back to no kernel. -/
def freeCores (d : Deck) (cores : List Nat) : Deck :=
  cores.foldl (fun d i => modCore d i (fun c => { c with run := .idle, launch := none })) d

/-- KERNEL_COMPLETE: every core has ended its part, and the entry completes (R187, R436); the final reply of a LAUNCH with
a late START carries LATE (R101, R438). -/
def opKernelComplete (d : Deck) (id : Nat) : DeckRes :=
  match launchAt d id with
  | none => (d, [])
  | some l =>
    if l.faulted = none ∧ l.cores.all (fun i => decide ((coreAt d i).run = .ended)) then
      let r := finishEntry (setLaunch (freeCores d l.cores) id none) l.stream stGood l.cobj l.amt none
      (r.1, r.2 ++ (match l.hdr with
        | none => []
        | some h => [.reply h (if l.late then stLate else stGood) 0]))
    else (d, [])

/-- LAUNCH_STOP_COMPLETE: every engine of a faulted launch is idle, and its object is poisoned (R156, R437).
(DEDUCED, log entry 14.) -/
def opLaunchStop (d : Deck) (id : Nat) : DeckRes :=
  match launchAt d id with
  | none => (d, [])
  | some l =>
    match l.faulted with
    | none => (d, [])
    | some st =>
      if l.cores.all (fun i => enginesIdle (coreAt d i)) then
        finishEntry (setLaunch (freeCores d l.cores) id none) l.stream st l.cobj l.amt l.hdr
      else (d, [])

/-- Has a wait lasted longer than TIMEOUT of its group, unreported (R155)? -/
def waitOverdue (clock : Nat) (d : Deck) (x : Waiter) : Bool :=
  let g := groupAt d (x.obj.toNat / 64)
  !x.reported && !x.untimed && g.timeout != 0 && decide (x.start + 1000 * g.timeout.toNat < clock)

/-- SYNC_WAIT_TIMEOUT (R155): the timed-out bit, SYNC_TIMEOUT, detector 2; the waiter stays. -/
def opSyncTimeout (env : CoreEnv) (d : Deck) (w : Who) : DeckRes :=
  match d.waiters.find? (fun x => decide (x.who = w)) with
  | none => (d, [])
  | some x =>
    let g := groupAt d (x.obj.toNat / 64)
    if !waitOverdue env.clock d x then (d, [])
    else
      let d1 := setGroup d (x.obj.toNat / 64) { g with timed := setBit g.timed (x.obj.toNat % 64) true }
      let d2 := { d1 with waiters := d1.waiters.map (fun y => if y.who = w then { y with reported := true } else y) }
      let who := match w with
        | .core i => (0, i)
        | .stream n => (1, n)
      (d2, [.async stSyncTimeout (BitVec.ofNat 32 (x.obj.toNat + 4096 * who.1)) (BitVec.ofNat 64 who.2),
            .report { detector := 2, ctx := some (objCtx d x.obj.toNat), cores := match w with
              | .core i => [i]
              | .stream _ => [] }])

/-- ALARM_FIRE (R107, R147): an enabled alarm whose time has come signals its object by one; an object that is not
allocated, or belongs to another context, drops the signal and counts it. (DEDUCED, log entry 31.) (DESIGN CHOICE, log
entry 87.) -/
def opAlarm (env : CoreEnv) (d : Deck) (a : Nat) : DeckRes :=
  let x : Alarm := mapGet {} d.alarms a
  if x.enable && decide (x.time.toNat ≤ env.now) then
    let d1 := { d with alarms := mapSet {} d.alarms a { x with enable := false, fired := true } }
    if objAlloc d x.sync.toNat && objCtx d x.sync.toNat == x.ctx && syncUp d then settle d1 [.signal x.sync.toNat 1]
    else ({ d1 with alarmDrops := satInc d1.alarmDrops }, [])
  else (d, [])

/-- RETRY_RESEND: the packet of a request that met RETRY goes out again after 2 µs (R368). -/
def opRetryResend (env : CoreEnv) (d : Deck) (i : Nat) (t : Nat) : Deck :=
  let c := coreAt d i
  match mapGet none c.txns t with
  | none => d
  | some x =>
    if x.retry && decide (x.retryAt + 2000 ≤ env.clock) then
      let d1 := setCore d i { c with txns := mapSet none c.txns t (some { x with retry := false, sentAt := env.clock }) }
      queuePackets env d1 [x.packet]
    else d

/-- One outstanding request of a core ends with `st`; an error is known at once, and the transfer ends once nothing of it
is outstanding (R135, R136). -/
def endRequest (env : CoreEnv) (d : Deck) (i t : Nat) (st : Status) : DeckRes :=
  let c := coreAt d i
  match mapGet none c.txns t with
  | none => (d, [])
  | some x =>
    let c1 := { c with txns := mapSet none c.txns t none }
    let c2 := movMod c1 x.seq (fun e => { e with rest := e.rest - 1, err := if e.err = 0 then st else e.err })
    match movAt c2 x.seq with
    | none => (setCore d i c2, [])
    | some e =>
      let d1 := errorKnown (setCore d i c2) i e st
      let r := if e.rest = 0 ∧ e.op ≠ opSYNCRD then endTransfer d1 i e e.err
        else if e.rest = 0 ∧ e.err ≠ 0 then endTransfer d1 i e e.err
        else (d1, [])
      let q := pump env r.1 i
      (q.1, r.2 ++ q.2)

/-- REQUEST_TIMEOUT: no reply within REQ_TIMEOUT_US ends the request with LINK_LOST (R372). -/
def opRequestTimeout (env : CoreEnv) (d : Deck) (i t : Nat) : DeckRes :=
  match mapGet none (coreAt d i).txns t with
  | none => (d, [])
  | some x => if x.sentAt + 1000 * env.reqTimeoutUs ≤ env.clock then endRequest env d i t stLinkLost else (d, [])

/-- FENCE_WINDOW_ABANDON: a window without a send for 1 ms is abandoned (R366). -/
def opWindowAbandon (env : CoreEnv) (d : Deck) (i : Nat) (m : BitVec 17) : DeckRes :=
  match winAt (coreAt d i) m with
  | none => (d, [])
  | some w => if w.last + 1000000 ≤ env.clock then pump env (modCore d i (fun c => setWin c m none)) i else (d, [])

/-- FENCED_SEND_RELEASE: the wait of R371 or the spacing of R367 is over, and held fenced packets go. -/
def opFencedRelease (env : CoreEnv) (d : Deck) (i : Nat) : DeckRes := pump env d i

end Sys2Proof.Machine
end

