-- ==== Sys2Proof/Machine/ResetOps.lean ====
section
/-! DEFINITION. Resets within a deck (R148, R157, R279, R519 to R522, R527, R536, R558): what stops, what the wrappers
complete with ISOLATED, what is poisoned, what is cleared. Also Dock (R497) and the destruction of a context (R442). -/
namespace Sys2Proof.Machine
open Sys2Proof

/-- Run deck operations in turn, keeping what each asks of the module. -/
def eachDeck {α : Type} (f : α → Deck → DeckRes) (xs : List α) (d : Deck) : DeckRes :=
  match xs with
  | [] => (d, [])
  | x :: rest =>
    let r := f x d
    let q := eachDeck f rest r.1
    (q.1, r.2 ++ q.2)

/-- One deck operation after another. -/
def thenDeck (r : DeckRes) (f : Deck → DeckRes) : DeckRes :=
  let q := f r.1
  (q.1, r.2 ++ q.2)

/-- The DKC reads the head entry of stream `n` and acts on it; it waits while the read does (R300, R315, R329). -/
def readHead (now n : Nat) (f : Deck → DeckRes) (d : Deck) : DeckRes :=
  if headHeld d n then (d, []) else thenDeck (headEcc now n d) f

/-- The running transfers within the module, whose completion is still to come. -/
def runningLocal (c : Core) : List Nat := (c.xq.filter (fun e => e.started && !e.remote)).map (·.seq)

/-- The wrapper completes every transfer of a core with ISOLATED (R157), and its engines empty. -/
def isolateCore (i : Nat) (d : Deck) : DeckRes :=
  let late := runningLocal (coreAt d i)
  let r := eachDeck (fun e d => endTransfer d i e stIsolated) (coreAt d i).xq d
  (modCore r.1 i (fun c => { c with vq := [], mq := [], xq := [], txns := [], passes := [], isolated := c.isolated ++ late }), r.2)

/-- A core whose part of a launch a reset stops counts as faulted with ISOLATED (R558). -/
def isolateFault (i : Nat) (d : Deck) : Deck :=
  let c := coreAt d i
  if c.launch.isSome ∧ c.run ≠ .ended then coreFault d i stIsolated 0 c.pc else d

/-- Stop the cores of a list: launches whose cores have all ended complete, then faults, transfers, engines. -/
def stopByReset (is : List Nat) (d : Deck) : DeckRes :=
  let r := eachDeck (fun id d => opKernelComplete d id) (d.launches.map (·.1)) d
  thenDeck (is.foldl (fun d i => isolateFault i d) r.1, r.2) (eachDeck isolateCore is)

/-- End every faulted launch whose engines are idle (R156). -/
def endFaulted (d : Deck) : DeckRes :=
  eachDeck (fun id d => opLaunchStop d id) (d.launches.map (·.1)) d

/-- The cores whose contents belong to context `x`. -/
def ctxCores (d : Deck) (x : BitVec 4) : List Nat :=
  (d.cores.filter (fun e => e.2.lastCtx == some x)).map (·.1)

/-- The streams of a context. -/
def ctxStreams (d : Deck) (x : BitVec 4) : List Nat :=
  (d.streams.filter (fun e => match e.2 with
    | some s => s.ctx == x
    | none => false)).map (·.1)

/-- Discard what stream `n` has published and not started (R437, R521). -/
def discardStream (st : Status) (n : Nat) (d : Deck) : DeckRes :=
  match streamAt d n with
  | none => (d, [])
  | some s =>
    let r := discardPubs d n s st
    let q := settle r.1 r.2.1
    (q.1, r.2.2 ++ q.2)

/-- Release one waiter with ISOLATED (R148): a core's wait is dropped with the core, a stream's WAIT entry ends. -/
def releaseIsolated (w : Waiter) (d : Deck) : DeckRes :=
  let d' := { d with waiters := d.waiters.filter (fun x => x.who ≠ w.who) }
  match w.who with
  | .core i => (releaseCore d' i w.sd stIsolated, [])
  | .stream n =>
    finishEntry d' n stIsolated ((streamAt d' n).bind (·.waitCobj)) (((streamAt d' n).map (·.waitAmt)).getD 0) none

/-- The waiters on objects that `p` selects. -/
def waitersOn (p : Nat → Bool) (d : Deck) : List Waiter := d.waiters.filter (fun w => p w.obj.toNat)

/-- What a reset does to the hold of a context that it affects (R279, R283). (DEDUCED, log entry 27.) -/
def resetHold (h : Hold) : Hold :=
  let h' := if h.status = stGood then { h with status := stIsolated, origin := 2 } else h
  if h'.gate = 1 then { h' with gate := 2 } else h'

/-- K0 of a core (R117, R118, R220, chapter 03): all but CORE_FAULT and the source windows. -/
def clearCoreK0 (c : Core) : Core :=
  { fault := c.fault, seq := c.seq, wins := c.wins, winEpoch := c.winEpoch, winOpened := c.winOpened,
    clearedAt := c.clearedAt, nextTxn := c.nextTxn, isolated := c.isolated }

/-- K0 and K1 of a core. The numbers of its transfers and requests go on, so that what answers late meets nothing
(R157). -/
def clearCoreK1 (c : Core) : Core := { seq := c.seq, nextTxn := c.nextTxn, isolated := c.isolated }

/-- Context reset of context `x` (level 1). -/
def ctxReset (x : BitVec 4) (d : Deck) : DeckRes :=
  let cores := ctxCores d x
  let mine := fun o => objAlloc d o && objCtx d o == x
  let r1 := stopByReset cores d
  let r2 := thenDeck r1 (fun d => eachDeck (discardStream stIsolated) (ctxStreams d x) d)
  let r3 := thenDeck r2 (fun d => eachDeck releaseIsolated (waitersOn mine d) d)
  let r4 := thenDeck r3 endFaulted
  let d := r4.1
  let k := ctxAt d x.toNat
  let h := resetHold k.hold
  let d1 := setCtx d x.toNat { k with hold := { h with top := 0, entries := 0 } }
  let d2 := cores.foldl (fun d i => modCore d i clearCoreK0) d1
  ({ d2 with objs := d2.objs.filter (fun e => !mine e.1),
             groups := d2.groups.filterMap (fun e =>
               let g := if e.2.alloc ∧ e.2.ctx = x then { e.2 with timed := 0 } else e.2
               if g = {} then none else some (e.1, g)),
             alarms := d2.alarms.filter (fun e => e.2.ctx != x),
             tlyQueue := d2.tlyQueue.filter (fun u => !cores.contains u.core) }, r4.2)

/-- The pens that hold a running or awaiting ganged instruction of one of the cores (R522). -/
def gangedPens (d : Deck) (is : List Nat) : List Nat :=
  (is.filter (fun i => (coreAt d i).mq.any (·.gang))).map (fun i => i / 16)

/-- Discard the ganged instructions of a pen: each core outside `is` that held one faults with ISOLATED (R522). -/
def dropGang (is : List Nat) (pen : Nat) (d : Deck) : Deck :=
  (penCores pen).foldl (fun d i =>
    let c := coreAt d i
    if c.mq.any (·.gang) then
      let d' := setCore d i { c with mq := c.mq.filter (fun m => !m.gang) }
      if is.contains i then d' else coreFault d' i stIsolated 2 c.pc
    else d) d

/-- The contexts of cores. -/
def coresCtxs (d : Deck) (is : List Nat) : List (BitVec 4) := is.filterMap (fun i => (coreAt d i).lastCtx)

/-- Engine reset of the named cores (level 2); of the published entries it discards those of the named context's streams, and
those behind a launch that it stops (R437, R521). -/
def engineReset (x : BitVec 4) (is : List Nat) (d : Deck) : DeckRes :=
  let xs := coresCtxs d is
  let d0 := (gangedPens d is).foldl (fun d p => dropGang is p d) d
  let launches := is.filterMap (fun i => (coreAt d0 i).launch)
  let streams := launches.filterMap (fun l => (launchAt d0 l).map (·.stream))
  let r1 := stopByReset is d0
  let d1 := { r1.1 with waiters := r1.1.waiters.filter (fun w => match w.who with
      | .core i => !is.contains i
      | .stream _ => true) }
  let r2 := thenDeck (d1, r1.2) endFaulted
  let r3 := thenDeck r2 (fun d => eachDeck (discardStream stIsolated) (ctxStreams d x ++ streams) d)
  let d2 := xs.foldl (fun d x => setHold d x.toNat (resetHold (ctxAt d x.toNat).hold)) r3.1
  let d3 := is.foldl (fun d i => modCore d i (fun c => { clearCoreK1 c with launch := c.launch, run := if c.launch.isSome
    then .stopped else .idle })) d2
  ({ d3 with tlyQueue := d3.tlyQueue.filter (fun u => !is.contains u.core) }, r3.2)

/-- K2 and below of a context: TLY.CTL, HOLD.FAULT, TOP and ENTRIES (R228, R536). -/
def clearCtxK2 (k : Ctx) : Ctx :=
  { k with hold := { k.hold with top := 0, entries := 0, faultStatus := 0, faultWant := 0, faultFound := 0, faultCore := 0,
                                 faultValid := false },
           hbias := 0x14, clearing := false }

/-- A gate opening that waited for a copy which never ends happens when the copy fails: the GOOD vote has committed the step,
and what stops the apply then leaves the gate BROKEN (R283, R284). (DESIGN CHOICE, log entry 98.) -/
def openLost (h : Hold) : Hold := if h.opening then { h with gate := 1, defer := true, opening := false } else h

/-- A snapshot that a deck reset interrupts fails with ISOLATED (R295); its command's final reply says so. -/
def failSnap (st : Status) (k : Ctx) : Ctx × List DeckEff :=
  match k.snap with
  | none => (k, [])
  | some j => ({ k with snap := none, hold := { openLost k.hold with snapState := 4, snapStatus := st } },
      if k.hold.snapState = 1 then [.reply j.hdr st 0] else [])

/-- Rebuild the contexts of a deck, keeping what each asks for. -/
def mapCtxs (f : Ctx → Ctx × List DeckEff) (d : Deck) : DeckRes :=
  let rs := d.ctxs.map (fun e => (e.1, f e.2))
  ({ d with ctxs := rs.filterMap (fun e => if e.2.1 = {} then none else some (e.1, e.2.1)) }, rs.flatMap (·.2.2))

/-- What every whole-deck stop does first: transfers, launches, waits and published entries end with ISOLATED. -/
def stopDeck (d : Deck) : DeckRes :=
  let r1 := stopByReset (d.cores.map (·.1)) d
  let r2 := thenDeck r1 (fun d => eachDeck (discardStream stIsolated) (d.streams.map (·.1)) d)
  let r3 := thenDeck r2 (fun d => eachDeck releaseIsolated d.waiters d)
  thenDeck r3 endFaulted

/-- Clear K0 to K2 of the deck (R536): cores, sync unit, Tally unit, alarms, the contexts' K2 fields. -/
def clearDeckK2 (d : Deck) : Deck :=
  { d with cores := d.cores.map (fun e => (e.1, clearCoreK1 e.2)), objs := [], groups := [], waiters := [], tallies := [],
           tlyQueue := [], binSat := 0, launches := [], alarms := [], holdQ := [], txq := [],
           shadow := [], scrubUntil := d.scrubUntil, shadowUntil := 0 }

/-- The pen rows come up parked, after Dock or a full reset (R497, R501, R518). (DEDUCED, log entry 85.) -/
def parkRows (d : Deck) : Deck := { d with admitted := 0, rampRows := 0 }

/-- Deck compute reset (level 3): R279, R283, R295, R497, R521. -/
def computeReset (d : Deck) : DeckRes :=
  let r1 := stopDeck d
  let r2 := thenDeck r1 (mapCtxs (fun k =>
    let q := failSnap stIsolated k
    (clearCtxK2 { q.1 with hold := resetHold q.1.hold }, q.2)))
  ({ clearDeckK2 r2.1 with penMap := r2.1.penFlash, reset := .compute }, r2.2)

/-- K3 and below of a context: all but its life, its TLY bias returning to its Reset value (R414, R536). -/
def clearCtxK3 (k : Ctx) : Ctx := { life := k.life, destroyer := k.destroyer, retired := k.retired }

/-- K3 fields of a stack: MEM.STATUS (R335). -/
def clearStackK3 (s : Stack) : Stack :=
  { s with temp := 0, level := 0, grace := false, refresh2x := false, selfRefresh := false, sensorLost := false, chFailed := 0, chRetrain := 0,
           trainAgain := s.trainAgain ||| s.chFailed, retrainTimes := [], copying := [] }

/-- Deck full reset (level 4): also the memory and K3 (R318, R536); the deck comes up again (R518). -/
def fullReset (d : Deck) : DeckRes :=
  let r1 := stopDeck d
  let r2 := thenDeck r1 (mapCtxs (fun k =>
    let q := failSnap stIsolated k
    (clearCtxK3 q.1, q.2)))
  let d1 := parkRows (clearDeckK2 r2.1)
  ({ d1 with penMap := d1.penFlash, reset := .full, mem := [], memBad := [], latent := [], gateDrop := 0,
             stks := d1.stks.map (fun e => (e.1, clearStackK3 e.2)), power := .waking }, r2.2)

/-- Entry to Dock (R496, R497): as a compute reset for K0 to K2, no step status changes (R536). -/
def enterDock (d : Deck) : Deck :=
  let r := mapCtxs (fun k => (clearCtxK2 k, [])) d
  (List.range 4).foldl (fun d k => modStack d k (fun s => { s with selfRefresh := true }))
    { parkRows (clearDeckK2 r.1) with power := .dock }

/-- The wrapper's part of a context's teardown (R442, ISOLATING): as at a context reset; then streams closed, groups freed,
per-context CHN registers reset, the alarms and mailbox of the context cleared. -/
def destroyCtx (x : BitVec 4) (d : Deck) : DeckRes :=
  let old := (ctxCores d x).flatMap (fun i => (coreAt d i).txns.map (fun e => (i, e.1)))
  let r := ctxReset x d
  let closes := (ctxStreams r.1 x).filterMap (fun n => (streamAt r.1 n).bind (fun s => s.closing.map (fun h => DeckEff.reply h stGood 0)))
  let k := ctxAt r.1 x.toNat
  let k' : Ctx := { life := k.life, hold := k.hold, hbias := k.hbias, destroyer := k.destroyer, retired := old }
  let d1 := setCtx r.1 x.toNat k'
  ({ d1 with streams := d1.streams.filter (fun e => match e.2 with
               | some s => s.ctx != x
               | none => false),
             groups := d1.groups.filter (fun e => !(e.2.alloc && e.2.ctx == x)),
             objs := d1.objs.filter (fun e => !(objAlloc d1 e.1 && objCtx d1 e.1 == x)),
             mbxValid := d1.mbxValid && d1.mbxCtx != x }, r.2 ++ closes)

end Sys2Proof.Machine
end

