-- ==== Sys2Proof/Machine/StateOps.lean ====
section
/-! DEFINITION. The shared operations of the module: reaching its parts, hall time and the clock, numbers and rings from the
armed map, bindings, replies and event records (R425 to R427, R434), management events (R459), and applying what a deck
asks for. -/
namespace Sys2Proof.Machine
open Sys2Proof

/-! ### Parts -/

def deckAt (s : State) (d : Nat) : Deck := mapGet {} s.decks d
def setDeck (s : State) (d : Nat) (k : Deck) : State := { s with decks := mapSet {} s.decks d k }
def modDeck (s : State) (d : Nat) (f : Deck → Deck) : State := setDeck s d (f (deckAt s d))
def portAt (s : State) (p : Nat) : Port := mapGet {} s.ports p
def setPort (s : State) (p : Nat) (k : Port) : State := { s with ports := mapSet {} s.ports p k }
def modPort (s : State) (p : Nat) (f : Port → Port) : State := setPort s p (f (portAt s p))
/-- The key of an LD. -/
def ldKey (l : LdRef) : Nat := 16 * l.port.val + l.ld.val
def ldAt (s : State) (k : Nat) : Ld := mapGet {} s.host.lds k
def setLd (s : State) (k : Nat) (x : Ld) : State := { s with host := { s.host with lds := mapSet {} s.host.lds k x } }
def modLd (s : State) (k : Nat) (f : Ld → Ld) : State := setLd s k (f (ldAt s k))
def emit (s : State) (o : Output) : State := { s with out := o :: s.out }

/-- The LD of a key. -/
def keyLd (k : Nat) : LdRef :=
  { port := if k ≥ 16 then 1 else 0, ld := Fin.ofNat 9 (k % 16) }

/-! ### Time -/

/-- Hall time in ns, and the model's clock in ns. -/
def hallNs (s : State) : Nat := s.htu.t / 256
def clockNs (s : State) : Nat := 5 * s.clock

/-- Draw a free value (log entry 5). -/
def draw (w : Nat) (s : State) : BitVec w × State := (Config.freeBits w s.free, { s with free := s.free + 1 })

/-! ### The armed topology map (R3, R354) -/

/-- A field of the armed map's first 8 bytes. -/
def mapField (s : State) (lo w : Nat) : Nat := bits (readNat s.net.mapArmed 0 8) lo w

/-- Ring sizes, none while no map is armed. -/
def ringsOf (s : State) : Option (Nat × Nat × Nat) :=
  if s.net.armed then some (mapField s 16 5 + 1, mapField s 21 5 + 1, mapField s 26 5 + 1) else none

/-- A module number from its coordinates (R2). -/
def moduleNum (t x y z : Nat) : BitVec 17 := BitVec.ofNat 17 (t + 4 * x + 128 * y + 4096 * z)

/-- The module's own number: 0x1_FFFF while no map is armed (R3). -/
def ownModule (s : State) : BitVec 17 :=
  if s.net.armed then moduleNum (mapField s 47 2) (mapField s 32 5) (mapField s 37 5) (mapField s 42 5) else 0x1FFFF

/-! ### Bindings -/

/-- The decks that belong to a partition, those included that are being unbound from it. -/
def bindDecks (b : Binding) : BitVec 8 := b.decks ||| b.leaving

/-- Is deck `d` of an LD's partition? -/
def holdsDeck (x : Ld) (d : Nat) : Bool :=
  match x.bind with
  | some b => (bindDecks b).getLsbD d
  | none => false

/-- The binding of an LD that holds at least one deck. (DESIGN CHOICE, log entry 65.) -/
def heldBind (x : Ld) : Option Binding :=
  match x.bind with
  | some b => if b.decks = 0 then none else some b
  | none => none

/-- The LD that holds deck `d`. -/
def deckLd (s : State) (d : Nat) : Option Nat := (s.host.lds.find? (fun e => holdsDeck e.2 d)).map (·.1)

/-- The binding of deck `d`. -/
def deckBind (s : State) (d : Nat) : Option Binding := (deckLd s d).bind (fun k => (ldAt s k).bind)

/-- The bound LDs. -/
def boundLds (s : State) : List Nat := (s.host.lds.filter (fun e => (heldBind e.2).isSome)).map (·.1)

/-- Does the LD hold the timetable-owner right? -/
def isOwner (s : State) (k : Nat) : Bool :=
  match (ldAt s k).bind with
  | some b => b.owner
  | none => false

/-- The decks of a mask, in increasing order. -/
def maskDecks (m : BitVec 8) : List Nat := (List.range 8).filter (fun d => m.getLsbD d)

/-- The HDM offset of deck address `a` of deck `d` (R55). -/
def hdmOf (b : Binding) (d a : Nat) : Nat := ((maskDecks b.decks).takeWhile (fun x => x != d)).length * memEnd + a

/-- Deck and deck address of an HDM offset (R55). -/
def hdmAt (b : Binding) (h : Nat) : Option (Nat × Nat) := ((maskDecks b.decks)[h / memEnd]?).map (fun d => (d, h % memEnd))

/-- What a core of deck `d` sees of the module. -/
def coreEnv (s : State) (d : Nat) : CoreEnv :=
  let b := deckBind s d
  { deck := d, module := ownModule s, now := hallNs s, clock := clockNs s, core := s.htu.core,
    window := (b.map (fun x => x.window * 0x100000)).getD 0, bound := b.isSome, tag := (b.map (·.tag)).getD 0,
    maxActive := if s.churn.maxActive = 0 then 1 else min 16 s.churn.maxActive.toNat, hub := (b.map (·.mem)).getD [],
    rings := ringsOf s, hubUp := !(deckAt s d).hubLinkFailed, reqTimeoutUs := s.net.reqTimeoutUs.toNat,
    cleared := (deckAt s d).clearedAt }

/-! ### Replies and event records -/

def ringAt (s : State) (k r : Nat) : Ring := mapGet {} (ldAt s k).rings r
def setRing (s : State) (k r : Nat) (x : Ring) : State := modLd s k (fun l => { l with rings := mapSet {} l.rings r x })

/-- Is this the taken command of a header? -/
def sameCmd (h : CmdHdr) (t : TakenCmd) : Bool := decide (t.hdr = h)

/-- May a command post no reply, its LD having been unbound since it was taken (R421)?
(DEDUCED, log entry 11.) -/
def muted (s : State) (h : CmdHdr) : Bool :=
  match (ringAt s (ldKey h.ld) h.ring.val).taken.find? (sameCmd h) with
  | some t => t.mute
  | none => false

/-- Write one status reply (R425) and raise its vector for a final one (R426). -/
def writeReply (s : State) (h : CmdHdr) (st : Status) (res : Nat) (final : Bool) : State :=
  let k := ldKey h.ld
  let q := ringAt s k h.ring.val
  let off := 0x20000 + 0x2000 * h.ring.val + 16 * (q.srTail.toNat % 512)
  let word := st.toNat + 2 ^ 16 * h.opcode.toNat + 2 ^ 32 * h.seq.toNat + 2 ^ 64 * h.tag.toNat + 2 ^ 96 * (res % 2 ^ 32)
  let taken := if final then q.taken.eraseP (sameCmd h)
    else q.taken.map (fun t => if sameCmd h t then { t with pending := true, started := true } else t)
  if muted s h then setRing s k h.ring.val { q with taken := q.taken.eraseP (sameCmd h) }
  else
  let s1 := modLd s k (fun l => { l with
    mem := writeNat l.mem off 16 word, rings := mapSet {} l.rings h.ring.val { q with srTail := q.srTail + 1, taken := taken } })
  if final && h.irq then emit s1 (.msix h.ld h.ring.val) else s1

/-- A command answers at once. -/
def replyNow (s : State) (h : CmdHdr) (st : Status) (res : Nat) : State := writeReply s h st res true

/-- A command that goes on posts PENDING; its final reply is owed. -/
def replyPending (s : State) (h : CmdHdr) : State := writeReply s h stPending 0 false

/-- A command whose one reply comes later. -/
def replyLater (s : State) (h : CmdHdr) : State :=
  let k := ldKey h.ld
  let q := ringAt s k h.ring.val
  let taken := if muted s h then q.taken.eraseP (sameCmd h)
    else q.taken.map (fun t => if sameCmd h t then { t with started := true } else t)
  setRing s k h.ring.val { q with taken := taken }

/-- The reply that a running command owes; none where its LD was cleared or the CMDP restarted meanwhile (R421, R526). -/
def replyFinal (s : State) (h : CmdHdr) (st : Status) (res : Nat) : State :=
  if (ringAt s (ldKey h.ld) h.ring.val).taken.any (sameCmd h) then writeReply s h st res true else s

/-- Bytes 16 to 255 of the slot of the command just taken (R425). -/
def slotWrite (s : State) (h : CmdHdr) (off : Nat) (bs : List Byte) : State :=
  let k := ldKey h.ld
  let q := ringAt s k h.ring.val
  modLd s k (fun l => { l with
    mem := writeBytes l.mem (0x10000 * h.ring.val + 256 * ((q.crHead - 1).toNat % 256) + off) bs })

/-- Write one event record of an LD (R434). -/
def postEvent (s : State) (k : Nat) (st : Status) (deck : Nat) (a0 : Nat) (a1 : Nat) : State :=
  let l := ldAt s k
  if 256 ≤ (l.evTail - l.evHead).toNat then modLd s k (fun l => { l with evLost := satInc l.evLost })
  else
    let word := st.toNat + 2 ^ 16 * deck + 2 ^ 32 * (a0 % 2 ^ 32) + 2 ^ 64 * (a1 % 2 ^ 64)
    let s1 := setLd s k { l with mem := writeNat l.mem (0x24000 + 16 * (l.evTail.toNat % 256)) 16 word, evTail := l.evTail + 1 }
    if l.evIrq then emit s1 (.msix (keyLd k) 2) else s1

/-- An asynchronous status for every bound LD. -/
def postAll (s : State) (st : Status) (a0 a1 : Nat) : State :=
  (boundLds s).foldl (fun s k => postEvent s k st 0xFF a0 a1) s

/-- An asynchronous status for a deck's LD. -/
def postDeck (s : State) (d : Nat) (st : Status) (a0 a1 : Nat) : State :=
  match deckLd s d with
  | none => s
  | some k => postEvent s k st d a0 a1

/-- Queue a PLDM event (R459): status codes stand for themselves, 0x1000 + c for safety function c, 0x2000 + b for bit b
of MGT.EVENTS, 0x3000 + LD key for a paused ring, 0x4000 for a stuck option loading. The oldest of 64 gives
way. (DESIGN CHOICE, log entry 47.) -/
def pldmEvent (s : State) (e : Nat) : State :=
  let q := s.mgmt.pldm ++ [e]
  emit { s with mgmt := { s.mgmt with pldm := if q.length > 64 then q.drop 1 else q } } .ibi

/-- A violation of an LD (R449): counted, and 64 within 1 s pause its rings. -/
def violation (s : State) (k : Nat) : State :=
  let l := ldAt s k
  let now := clockNs s
  let ts := now :: l.violTimes.filter (fun t => decide (now < t + 1000000000))
  let s1 := setLd s k { l with viol := satInc l.viol, violTimes := ts.take 64 }
  if 64 ≤ ts.length ∧ l.paused = false then
    pldmEvent (modLd s1 k (fun l => { l with paused := true, pausedAt := now, violTimes := [] })) (0x3000 + k)
  else s1

/-- A register access that ends with Unsupported Request (R449 counts it for a host). -/
def unsupported (s : State) (a : Agent) : State :=
  match a with
  | .host l => violation (emit s (.unsupported a)) (ldKey l)
  | _ => emit s (.unsupported a)

/-! ### What a deck asks for -/

/-- Set bits of MEM.EVENTS. -/
def memEvent (s : State) (n : Nat) : State := { s with mem := { s.mem with events := setBit s.mem.events n true } }

/-- Write a poison log entry (R303). -/
def plogWrite (s : State) (d addr stack channel cause : Nat) : State :=
  let m := s.mem
  let i := m.plogCnt.toNat % 64
  let lo := BitVec.ofNat 64 (addr % 2 ^ 40 + 2 ^ 40 * d + 2 ^ 43 * (4 * d + stack) + 2 ^ 48 * channel + 2 ^ 52 * cause)
  let ovf := mapGet false m.plogUnread i
  { s with mem := { m with
    plogCnt := satInc m.plogCnt, plogLo := mapSet 0 m.plogLo i lo, plogHi := mapSet 0 m.plogHi i (BitVec.ofNat 64 (hallNs s)),
    plogUnread := mapSet false m.plogUnread i true, events := if ovf then setBit m.events 11 true else m.events } }

/-- Apply one request of deck `d`, but for detector reports and collectives, which their own operations take. -/
def applyEff (d : Nat) (s : State) (e : DeckEff) : State :=
  match e with
  | .report _ => s
  | .coll _ _ => s
  | .reply h st res => replyFinal s h st res.toNat
  | .async st a0 a1 => postDeck s d st a0.toNat a1.toNat
  | .memEvent n => memEvent s n
  | .plog addr stack channel cause => plogWrite s d addr stack channel cause
  | .poisonEvent page sector =>
    match deckBind s d with
    | none => s
    | some b => if b.decks.getLsbD d then postDeck s d stMemPoison sector.toNat (hdmOf b d (4096 * page)) else s
  | .hot stack => pldmEvent (postDeck s d stThermalLimit (4 * d + stack) 0) stThermalLimit.toNat
  | .hubWrite off n src =>
    match deckLd s d with
    | none => s
    | some k => modLd s k (fun l => { l with bind := l.bind.map (fun b => { b with mem := mapSplice b.mem off n src }) })

/-- The reports among a deck's requests. -/
def reportsOf (es : List DeckEff) : List Report :=
  es.filterMap (fun e => match e with
    | .report r => some r
    | _ => none)

/-- Put a deck's new state in place and apply its requests but the reports. -/
def putDeck (s : State) (d : Nat) (r : DeckRes) : State := r.2.foldl (applyEff d) (setDeck s d r.1)

/-- The next state, as a command answers it. -/
abbrev Res := Host.Outcome State Fault Refusal
def done (s : State) : Res := .next s

end Sys2Proof.Machine
end

