-- ==== Sys2Proof/Machine/HallTime.lean ====
section
/-! DEFINITION. The hall-time unit (R56 to R73, R349 to R351, R557, R559): qualification and choice of a source, steering,
state changes, time exchanges, the external input. -/
namespace Sys2Proof.Machine
open Sys2Proof

def setHtu (s : State) (h : Htu) : State := { s with htu := h }
def linkAt (h : Htu) (k : Nat) : LinkTime := mapGet {} h.links k
def setLink (h : Htu) (k : Nat) (l : LinkTime) : Htu := { h with links := mapSet {} h.links k l }
/-- The HTU has been released (R56, step 3 of R529). -/
def htuUp (s : State) : Bool := s.power.moduleState != 2 && (s.rst.phase == 0 || decide (3 < s.rst.phase.toNat))
def htuEvent (h : Htu) (n : Nat) : Htu := { h with events := setBit h.events n true }

/-- May the port carry beacons and TIME frames: trained (R351, R355)? -/
def portTrained (q : Port) : Bool := q.state == 2 || q.state == 3 || q.state == 4

/-- Does link `k` qualify as a time source (R59, R61, R68)? -/
def linkQualifies (s : State) (k : Nat) : Bool :=
  let h := s.htu
  let q := portAt s k
  let l := linkAt h k
  (q.state == 2 || q.state == 3) && decide (4 ≤ l.exchanges) && h.cfgSrcMask.getLsbD k && q.fibreId.isSome && !l.removed &&
  (match l.beacon with
   | none => false
   | some b => b.state == 2 &&
      !((h.state == 2 || h.state == 3) && b.gmModule == h.gmModule && b.gmPrio == h.gmPrio && decide (h.hops.toNat ≤ b.hops.toNat)))

/-- Is the module's own external input offered (R63, R64)? Removed as a minority (R68), it qualifies again when it has been
invalid and is valid anew. (DESIGN CHOICE, log entry 39.) -/
def extQualifies (h : Htu) : Bool := h.ppsValid && h.refValid && h.cfgGmEn && h.announced && !(linkAt h 9).removed

/-- What a source offers: priority, hops from here, index (R62); a link's peer is one hop away from what it reports. -/
def sourceKey (s : State) (k : Nat) : Nat × Nat × Nat :=
  if k = 9 then (s.htu.cfgGmPrio.toNat, 0, 9)
  else match (linkAt s.htu k).beacon with
    | none => (8, 257, k)
    | some b => (b.gmPrio.toNat, b.hops.toNat + 1, k)

/-- The order of R62. -/
def keyLess (a b : Nat × Nat × Nat) : Bool :=
  decide (a.1 < b.1) || (a.1 == b.1 && (decide (a.2.1 < b.2.1) || (a.2.1 == b.2.1 && decide (a.2.2 < b.2.2))))

/-- The qualified sources. -/
def qualified (s : State) : List Nat :=
  (List.range 9).filter (linkQualifies s) ++ (if extQualifies s.htu then [9] else [])

/-- The source that R62 selects. -/
def bestSource (s : State) : Option Nat :=
  (qualified s).foldl (fun r k => match r with
    | none => some k
    | some j => if keyLess (sourceKey s k) (sourceKey s j) then some k else some j) none

/-- ERR_EST now: it grows by 1/16 ns in 62,500 ns in Holdover and Adrift (R69, R559). -/
def errNow (s : State) : Nat :=
  let h := s.htu
  if h.state = 2 then h.errEst.toNat
  else if h.state = 3 ∨ h.state = 4 then min 255 (h.errEst.toNat + (clockNs s - h.errSince) / 62500)
  else 255

/-- Follow source `k` in Locked: HOPS, the grand master and ERR_EST (R69, R559). -/
def followLocked (s : State) (k : Nat) : State :=
  let h := s.htu
  let hops : BitVec 8 := if k = 9 then 0 else match (linkAt h k).beacon with
    | some b => satInc b.hops
    | none => h.hops
  let gm := if k = 9 then (h.cfgGmPrio, ownModule s) else match (linkAt h k).beacon with
    | some b => (b.gmPrio, b.gmModule)
    | none => (h.gmPrio, h.gmModule)
  let err := min 255 (Config.htuUncertainty s.free + 4 * hops.toNat)
  let h1 := { h with source := BitVec.ofNat 4 k, hops := hops, gmPrio := gm.1, gmModule := gm.2, errEst := BitVec.ofNat 8 err,
                     errSince := clockNs s, heldHops := hops, heldPrio := gm.1, heldModule := gm.2 }
  { setHtu s h1 with free := s.free + 1 }

/-- In Holdover, no peer is followed and no source selected any more: HOPS and grand master as last held in Locked (R559). -/
def unfollow (h : Htu) : Htu :=
  { h with source := 0xF, hops := h.heldHops, gmPrio := h.heldPrio, gmModule := h.heldModule, good := 0 }

/-- A map armed while the module serves as grand master gives it a number to offer (R3, R559). -/
def renumber (s : State) : State :=
  if s.htu.state = 2 ∧ s.htu.source = 9 then
    setHtu s { s.htu with gmModule := ownModule s, heldModule := ownModule s }
  else s

/-- Enter Acquiring on source `k` (R71, R559). -/
def enterAcquiring (s : State) (k : Nat) : State :=
  setHtu s { s.htu with state := 1, source := BitVec.ofNat 4 k, hops := 0xFF, errEst := 0xFF, gmPrio := 7, gmModule := 0,
                        acqSince := clockNs s, good := 0, slew := 0 }

/-- Enter Free. -/
def enterFree (s : State) : State :=
  setHtu s { s.htu with state := 0, source := 0xF, hops := 0xFF, errEst := 0xFF, gmPrio := 7, gmModule := 0, good := 0, slew := 0 }

/-- The core clock meets hall time: its next cycle boundary moves onto the tick boundary (R57). -/
def alignCore (h : Htu) : Nat := h.core + (h.t % 1280 + 1280 - h.core % 1280) % 1280

/-- Enter Locked (R71): HT.EVENTS.LOCKED; scheduled sending resumes later under R96. -/
def enterLocked (s : State) (k : Nat) : State :=
  let s1 := followLocked (setHtu s { htuEvent s.htu 5 with state := 2, good := 0, core := alignCore s.htu }) k
  setHtu s1 { s1.htu with lockedAt := if s1.htu.schedOn then none else some (hallNs s1) }

/-- Enter Holdover (R69, R71). -/
def enterHoldover (s : State) : State :=
  setHtu s { htuEvent s.htu 3 with state := 3, source := 0xF, errEst := BitVec.ofNat 8 (errNow s), errSince := clockNs s,
                                   good := 0, slew := 0 }

/-- Every running collective learns ADRIFT (R95). -/
def adriftColls (q : Churn) : Churn :=
  { q with colls := q.colls.map (fun c => if c.done then c else { c with learned := c.learned ++ [stAdrift] }) }

/-- Enter Adrift (R71, R73, R94, R95): ADRIFT to every bound LD and the MGC; scheduled sending off. -/
def enterAdrift (s : State) (err : Nat) : State :=
  let s0 := { s with churn := adriftColls s.churn }
  let h := htuEvent s.htu 4
  let s1 := setHtu s0 { h with state := 4, source := 0xF, hops := 0xFF, errEst := BitVec.ofNat 8 err, errSince := clockNs s,
                               gmPrio := 7, gmModule := 0, good := 0, schedOn := false, slew := 0 }
  pldmEvent (postAll s1 stAdrift 0 (hallNs s)) stAdrift.toNat

/-- The selected source is lost (R66): in Locked another one is followed, else Holdover entered (R67, R71); in Acquiring and
Holdover another one is taken up, else none. R67 gives SOURCE_CHANGE for Locked; it is set wherever another source takes
over. (DESIGN CHOICE, log entry 39.) -/
def sourceLost (s : State) : State :=
  let s1 := setHtu s (htuEvent s.htu 0)
  match bestSource s1 with
  | some k =>
    let s2 := setHtu s1 (htuEvent s1.htu 1)
    if s.htu.state = 2 then followLocked s2 k
    else setHtu s2 { (if s.htu.state = 3 then unfollow s2.htu else s2.htu) with source := BitVec.ofNat 4 k, good := 0 }
  | none =>
    if s.htu.state = 2 then enterHoldover s1
    else setHtu s1 { (if s.htu.state = 3 then unfollow s1.htu else s1.htu) with source := 0xF, good := 0 }

/-- Choose again (R62, R71, R72): a source appears in Free, Adrift or Holdover, or a better one in Locked.
(DESIGN CHOICE, log entry 39.) -/
def reselect (s : State) : State :=
  match bestSource s with
  | none => s
  | some k =>
    let h := s.htu
    if h.state = 0 ∨ h.state = 4 then enterAcquiring s k
    else if h.state = 2 then
      if h.source = BitVec.ofNat 4 k then s else followLocked (setHtu s (htuEvent h 1)) k
    else if h.source = BitVec.ofNat 4 k then s
    else setHtu s { (if h.state = 3 then unfollow h else h) with source := BitVec.ofNat 4 k, good := 0 }

/-- A correction toward `off`: how much of it the HTU takes up is a free value. (DESIGN CHOICE, log entry 39.) -/
def slewToward (n : Nat) (off : Int) : Int :=
  let m := min (Config.slewChoice n).natAbs off.natAbs
  if off < 0 then -(m : Int) else (m : Int)

/-- A sample from the selected source (R58, R71, R72): a step in Acquiring beyond 1 ms, else a correction that the ticks
slew. -/
def steer (s : State) (off : Int) : State :=
  let h := s.htu
  let good := if off.natAbs ≤ 256 then h.good + 1 else 0
  if h.state = 1 ∧ off.natAbs > 256000000 then
    setHtu s { htuEvent h 6 with t := ((h.t : Int) + off).toNat, good := 0, slew := 0 }
  else
    let s1 := { setHtu s { h with good := good, slew := slewToward s.free off } with free := s.free + 1 }
    if h.state = 1 ∧ good ≥ 64 ∧ clockNs s ≥ h.acqSince + 200000000 ∧ (qualified s1).contains h.source.toNat then
      enterLocked s1 h.source.toNat
    else if h.state = 3 ∧ good ≥ 64 ∧ (qualified s1).contains h.source.toNat then enterLocked s1 h.source.toNat
    else s1

/-- How far one tick slews (R58, R72): 1/256 ns every tick in Acquiring, every eighth tick in Locked and Holdover. -/
def slewStep (h : Htu) (clock : Nat) : Int :=
  if h.state = 1 ∨ ((h.state = 2 ∨ h.state = 3) ∧ clock % 8 = 0) then
    (if h.slew > 0 then 1 else if h.slew < 0 then -1 else 0)
  else 0

/-- One tick of the model's clock: 5 ns of hall time and the slewing that falls in it, once the HTU is released (R56); the
core clock follows hall time in Locked and Holdover (R57). (DESIGN CHOICE, log entry 39.) -/
def tick (s : State) : State :=
  let c := slewStep s.htu s.clock
  let h := s.htu
  let up := { h with t := ((h.t : Int) + 1280 + c).toNat, slew := h.slew - c,
                     core := ((h.core : Int) + 1280 + (if h.state = 2 ∨ h.state = 3 then c else 0)).toNat }
  { s with clock := s.clock + 1, htu := if htuUp s then up else h }

/-- Is an offset too large to close in Holdover before ERR_EST reaches 5 ns (R72)? 100 ns close in 1 ms. -/
def cannotClose (s : State) (off : Int) : Bool := decide (off.natAbs > 256 + (80 - errNow s) * 1600)

/-- A beacon of link `p` after its fields are stored (R60, R66, R70 to R72); `was` says that the link qualified before it. A
selected link that stops qualifying is lost. (DESIGN CHOICE, log entry 39.) -/
def useBeacon (s : State) (p : Nat) (b : Beacon) (off : Int) (calibrated was : Bool) : State :=
  let h := s.htu
  let mine := decide (h.source = BitVec.ofNat 4 p)
  if h.state = 2 ∧ mine then
    if !linkQualifies s p then sourceLost s
    else reselect (followLocked (steer s off) p)
  else if h.state = 1 ∧ mine then (if linkQualifies s p then steer s off else sourceLost s)
  else if h.state = 3 then
    if linkQualifies s p then
      let s1 := reselect s
      if s1.htu.source = BitVec.ofNat 4 p then
        if cannotClose s1 off then reselect (enterAdrift s1 (errNow s1)) else steer s1 off
      else s1
    else if (qualified s).isEmpty ∧ b.state = 3 ∧ b.errEst.toNat < errNow s ∧ calibrated then
      let s1 := steer s off
      setHtu s1 { s1.htu with source := BitVec.ofNat 4 p, hops := satInc b.hops, gmPrio := b.gmPrio, gmModule := b.gmModule,
                              errEst := satAdd b.errEst 4, errSince := clockNs s, good := 0 }
    else if mine then (if was then sourceLost s else reselect (setHtu s (unfollow h)))
    else s
  else reselect s

/-- A link leaves the sources: its beacons stop, or the port is lost (R66). -/
def dropLink (s : State) (p : Nat) : State :=
  let l := linkAt s.htu p
  let was := linkQualifies s p
  let s1 := setHtu s (setLink s.htu p { l with beacon := none, missed := 0 })
  if s.htu.source = BitVec.ofNat 4 p then
    if s.htu.state = 3 ∧ !was then reselect (setHtu s1 (unfollow s1.htu))
    else if s.htu.state = 1 ∨ s.htu.state = 2 ∨ s.htu.state = 3 then sourceLost s1
    else s1
  else s1

/-- A beacon that fails its CRC is discarded and counts as missing; the fourth in a row drops the link (R66, R349). -/
def badBeacon (s : State) (p : Nat) : State :=
  let s1 := modPort s p (fun q => { q with crcErr := satInc q.crcErr })
  let l := linkAt s1.htu p
  if 4 ≤ l.missed + 1 then dropLink s1 p else setHtu s1 (setLink s1.htu p { l with missed := l.missed + 1 })

/-- BEACON_RECEIVE. -/
def opBeaconReceive (s : State) (p : Nat) (crcOk : Bool) (b : Beacon) : State :=
  let q := portAt s p
  if !portTrained q then s
  else if !crcOk then badBeacon s p
  else
    let l : LinkTime := { linkAt s.htu p with missed := 0 }
    let was := linkQualifies s p
    let calibrated := decide (4 ≤ l.exchanges)
    let off : Int := (b.ns.toNat * 256 + b.frac.toNat + l.delay.toNat : Nat) - (s.htu.t : Int)
    let l' := if calibrated then { l with beacon := some b, offset := some off, winSum := l.winSum + off, winCount := l.winCount + 1 }
      else { l with beacon := some b }
    useBeacon (setHtu s (setLink s.htu p l')) p b off calibrated was

/-- The external input becomes invalid (R65, R66): `n` is its event. -/
def dropExternal (s : State) (n : Nat) (h : Htu) : State :=
  let s1 := setHtu s (htuEvent (setLink h 9 { linkAt h 9 with removed := false }) n)
  if s.htu.source = 9 ∧ (s.htu.state = 1 ∨ s.htu.state = 2 ∨ s.htu.state = 3) then sourceLost s1 else s1

/-- ACQUIRE_NO_SOURCE (R71). -/
def opAcquireNoSource (s : State) : State :=
  if s.htu.state = 1 ∧ (bestSource s).isNone then enterFree s else s

/-- HOLDOVER_EXPIRE (R71, R73, R94): ERR_EST has reached 5 ns. -/
def opHoldoverExpire (s : State) : State := if s.htu.state = 3 ∧ 80 ≤ errNow s then enterAdrift s (errNow s) else s

/-- PPS_EDGE (R63, R64, R71, R72). -/
def opPpsEdge (s : State) (falling : Bool) (cycles : Nat) (refOk : Bool) : State :=
  let h := s.htu
  if !htuUp s || falling != h.cfgPpsEdge then s
  else if !h.announced then setHtu s (htuEvent h 7)
  else
    let h1 := { h with gmNextSec := h.gmNextSec + 1 }
    let valid := decide (24999999 ≤ cycles) && decide (cycles ≤ 25000001)
    if !refOk then dropExternal s 8 { h1 with refValid := false }
    else if !valid then dropExternal s 7 { h1 with ppsValid := false, refValid := true }
    else
      let off : Int := (h.gmNextSec.toNat * 256000000000 : Nat) - (h.t : Int)
      let l := linkAt h1 9
      let s1 := setHtu s (setLink { h1 with ppsValid := true, refValid := true } 9
        { l with offset := some off, winSum := l.winSum + off, winCount := l.winCount + 1 })
      let s2 := reselect s1
      if s2.htu.source = 9 ∧ s2.htu.state ≠ 0 ∧ s2.htu.state ≠ 4 then
        if s2.htu.state = 3 ∧ cannotClose s2 off then reselect (enterAdrift s2 (errNow s2))
        else steer s2 off
      else s2

/-- PPS_OVERDUE and REF25_INVALID (R63 to R67). -/
def opPpsOverdue (s : State) : State := dropExternal s 7 { s.htu with ppsValid := false }
def opRefInvalid (s : State) : State := dropExternal s 8 { s.htu with refValid := false }

/-- GM_SECOND_ELAPSE: while the input is invalid, each whole second of the own hall time counts (R64). -/
def opGmSecond (s : State) : State :=
  let h := s.htu
  if h.announced ∧ !(h.ppsValid && h.refValid) then setHtu s { h with gmNextSec := h.gmNextSec + 1 } else s

/-- The averages of the qualified links over the window, in 1/256 ns; one without a sample in the window stands with its
last sample. (DESIGN CHOICE, log entry 39.) -/
def windowMeans (s : State) : List (Nat × Int) :=
  (qualified s).filterMap (fun k =>
    let l := linkAt s.htu k
    if 0 < l.winCount then some (k, l.winSum / (l.winCount : Int)) else l.offset.map (fun x => (k, x)))

/-- Do two averages agree within 5 ns (R68)? -/
def agrees (a b : Int) : Bool := decide ((a - b).natAbs ≤ 1280)

/-- The first pair of a list that differs: where several do, HT.DISAGREE holds the first in port order. (DESIGN CHOICE, log
entry 39.) -/
def firstPair (ms : List (Nat × Int)) : Option (Nat × Nat × Int) :=
  match ms with
  | [] => none
  | m :: rest =>
    match rest.find? (fun x => !agrees m.2 x.2) with
    | some x => some (m.1, x.1, m.2 - x.2)
    | none => firstPair rest

/-- DIFF: 1/16 ns, signed, saturating. -/
def diffWord (x : Int) : BitVec 16 := BitVec.ofInt 16 (max (-32768) (min 32767 (x / 16)))

/-- Start the next window. -/
def clearWindows (h : Htu) : Htu :=
  { h with links := h.links.filterMap (fun e =>
      let l := { e.2 with winSum := 0, winCount := 0 }
      if l = {} then none else some (e.1, l)) }

/-- DISAGREE_WINDOW_END but for the safety event (R68): the state, and whether two links alone disagreed. Links that differ
from at least half of the others are the minority; an even split has none. (DESIGN CHOICE, log entry 39.) -/
def opDisagree (s : State) : State × Bool :=
  let ms := windowMeans s
  let s0 := setHtu s (clearWindows s.htu)
  match firstPair ms with
  | none => (s0, false)
  | some (a, b, diff) =>
    let h := htuEvent s0.htu 2
    let s1 := setHtu s0 { h with disA := BitVec.ofNat 4 a, disB := BitVec.ofNat 4 b, disDiff := diffWord diff }
    if 3 ≤ ms.length then
      let bad := (ms.filter (fun m => decide (2 * ms.countP (fun x => agrees m.2 x.2) < ms.length))).map (·.1)
      let h2 := bad.foldl (fun h k => setLink h k { linkAt h k with removed := true }) s1.htu
      let s2 := setHtu s1 h2
      (if bad.contains s.htu.source.toNat ∧ (s.htu.state = 1 ∨ s.htu.state = 2 ∨ s.htu.state = 3) then sourceLost s2 else s2,
        false)
    else if s.htu.state = 2 then (enterHoldover s1, true)
    else (s1, true)

/-! ### TIME exchanges (R59, R351, R464) -/

/-- The current stamp. -/
def stampNow (s : State) : Stamp := { ns := BitVec.ofNat 64 (hallNs s), frac := BitVec.ofNat 8 (s.htu.t % 256) }
def stampVal (x : Stamp) : Nat := x.ns.toNat * 256 + x.frac.toNat

/-- OPT_CAL of a port from the configuration record (R475). -/
def optCal (s : State) (p : Nat) : Int := (BitVec.ofNat 16 (readNat s.mgmt.record (72 + 2 * p) 2)).toInt

/-- The asymmetry of a link (R59). -/
def linkAsym (s : State) (p : Nat) : Int := (((portAt s p).fibreId.map (·.asym)).getD 0) + optCal s p

/-- TIME_EXCHANGE_START. -/
def opTimeStart (s : State) (p : Nat) : State :=
  if portTrained (portAt s p) then
    let l := linkAt s.htu p
    emit (setHtu s (setLink s.htu p { l with t1 := some s.htu.t })) (.timeReq p (stampNow s))
  else s

/-- A TIME frame that fails its CRC is discarded and voids its exchange (R349). -/
def timeCrcError (s : State) (p : Nat) : State :=
  let l := linkAt s.htu p
  modPort (setHtu s (setLink s.htu p { l with t1 := none })) p (fun q => { q with crcErr := satInc q.crcErr })

/-- TIME_REQ_RECEIVE: the peer's request is answered in the next control slot. -/
def opTimeReq (s : State) (p : Nat) (crcOk : Bool) (t1 : Stamp) : State :=
  if !portTrained (portAt s p) then s
  else if !crcOk then modPort s p (fun q => { q with crcErr := satInc q.crcErr })
  else emit s (.timeResp p t1 (stampNow s) (stampNow s))

/-- TIME_RESP_RECEIVE: the delay of the incoming direction, the mean less half the asymmetry. -/
def opTimeResp (s : State) (p : Nat) (crcOk : Bool) (t1 t2 t3 : Stamp) : State :=
  if !portTrained (portAt s p) then s
  else if !crcOk then timeCrcError s p
  else
    let l := linkAt s.htu p
    if l.t1 = some (stampVal t1) then
      let mean : Int := (((s.htu.t : Int) - stampVal t1) - ((stampVal t3 : Int) - stampVal t2)) / 2
      let a := linkAsym s p
      reselect (setHtu s (setLink s.htu p { l with
        t1 := none, delay := BitVec.ofInt 32 (max 0 (mean - a / 2)), asym := BitVec.ofInt 16 a, exchanges := l.exchanges + 1 }))
    else s

/-- The fields of an outgoing beacon (R350). -/
def ownBeacon (s : State) : Beacon :=
  let h := s.htu
  { ns := BitVec.ofNat 64 (hallNs s), frac := BitVec.ofNat 8 (h.t % 256), state := h.state, errEst := BitVec.ofNat 8 (errNow s),
    hops := h.hops, gmPrio := h.gmPrio, gmModule := h.gmModule }

/-- BEACON_SEND. -/
def opBeaconSend (s : State) (p : Nat) : State :=
  if portTrained (portAt s p) then emit s (.beacon p (ownBeacon s)) else s

/-! ### HT registers -/

/-- May the agent write HT.CFG, HT.GM_NEXT_SEC and HT.EVENTS (R557)? Also LNK.CFG, LNK.CTLp and CHN.CFG. -/
def ownerWrite (s : State) (a : Agent) : Bool :=
  match a with
  | .fw => true
  | .mgc => false
  | .host l => isOwner s (ldKey l)

/-- May the agent read the registers that every bound LD may read? -/
def mayRead (s : State) (a : Agent) : Bool :=
  match a with
  | .fw => true
  | .mgc => true
  | .host l => (heldBind (ldAt s (ldKey l))).isSome

/-- HT_GM_NEXT_SEC_WRITE (R64). -/
def opGmWrite (s : State) (a : Agent) (v : W64) : State :=
  if ownerWrite s a then reselect (setHtu s { s.htu with gmNextSec := v, announced := true }) else unsupported s a

/-- A grand master offers the GM_PRIO that it holds now (R62, R559). -/
def ownPrio (s : State) : State :=
  if s.htu.state = 2 ∧ s.htu.source = 9 then
    setHtu s { s.htu with gmPrio := s.htu.cfgGmPrio, heldPrio := s.htu.cfgGmPrio }
  else s

/-- HT_CFG_WRITE (R61 to R64): GM_EN written 0 clears ANNOUNCED. -/
def opHtCfg (s : State) (a : Agent) (v : W64) : State :=
  if ownerWrite s a then
    let en := v.getLsbD 0
    let s1 := setHtu s { s.htu with cfgGmEn := en, cfgGmPrio := v.extractLsb' 1 3, cfgPpsEdge := v.getLsbD 4,
                                    cfgSrcMask := v.extractLsb' 8 9, announced := s.htu.announced && en }
    if (s1.htu.state = 1 ∨ s1.htu.state = 2) ∧ s1.htu.source ≠ 0xF ∧ !(qualified s1).contains s1.htu.source.toNat then sourceLost s1
    else ownPrio (reselect s1)
  else unsupported s a

/-- HT_NOW_READ: a read latches FRAC. -/
def opHtNow (s : State) (a : Agent) : State :=
  if mayRead s a then
    emit (setHtu s { s.htu with nowFrac := BitVec.ofNat 8 (s.htu.t % 256) }) (.value a (BitVec.ofNat 64 (hallNs s)))
  else unsupported s a

end Sys2Proof.Machine
end

