-- ==== Sys2Proof/Machine/NetOps.lean ====
section
/-! DEFINITION. The tensor network's plain operations: lanes and widths (R336 to R339), frames and replay (R346 to R348),
packets that the hub sends, routing (R363, R364), the router's queues (R365), the fence tracker (R366 to R370). -/
namespace Sys2Proof.Machine
open Sys2Proof

def setNet (s : State) (n : Net) : State := { s with net := n }
def modNet (s : State) (f : Net → Net) : State := { s with net := f s.net }
def portEvent (q : Port) (n : Nat) : Port := { q with events := setBit q.events n true }

/-! ### Lanes (R336) -/

/-- Active lanes of a port at full width. -/
def activeLanes (p : Nat) : Nat := if p < 3 then 32 else if p < 7 then 16 else 8
/-- Packet capacity per tick at full width (R76). -/
def portRate (p : Nat) : Nat := if p < 3 then 4000 else if p < 7 then 2000 else 1000
/-- Fibre group of a port: 0 T, 1 X or Y, 2 Z (R462). -/
def portGroup (p : Nat) : Nat := if p < 3 then 0 else if p < 7 then 1 else 2
/-- Lanes of a width code: 0 full, 1 3/4, 2 1/2, 3 1/4. -/
def widthLanes (p : Nat) (w : Nat) : Nat := activeLanes p * (4 - w) / 4
/-- Failed lanes of a mask among the first `n`. -/
def laneCount (m : BitVec 34) (n : Nat) : Nat := (List.range n).countP (fun l => m.getLsbD l)

/-- Lanes that work, spares in use, and the widest width code that the working lanes fill; none below a quarter (R338,
R339, R341). -/
def workingLanes (p : Nat) (m : BitVec 34) : Nat := activeLanes p + 2 - laneCount m (activeLanes p + 2)
def sparesUsed (p : Nat) (m : BitVec 34) : Nat :=
  min (laneCount m (activeLanes p)) (2 - (laneCount m (activeLanes p + 2) - laneCount m (activeLanes p)))
def widthFor (p : Nat) (m : BitVec 34) : Option Nat := (List.range 4).find? (fun w => decide (widthLanes p w ≤ workingLanes p m))

/-! ### Frames -/

/-- Send one PKT frame: it takes the next SEQ and stands in the replay buffer (R347, R348). ACK is the last SEQ received in
order (log entry 33). -/
def sendFrame (s : State) (p : Nat) (pks : List Packet) : State :=
  let q := portAt s p
  if 8192 ≤ q.replayBuf.length then s
  else
    emit (setPort s p { q with txSeq := q.txSeq + 1, replayBuf := q.replayBuf ++ [{ seq := q.txSeq, pkts := pks }] })
      (.frame p q.txSeq (q.rxSeq - 1) pks)

/-- Is the replay buffer able to take a frame? (DESIGN CHOICE, log entry 43.) -/
def canSend (s : State) (p : Nat) : Bool := decide ((portAt s p).replayBuf.length < 8192)

/-- The frames that an ACK of `ack` leaves in the replay buffer: those after it. -/
def ackFrames (q : Port) (ack : BitVec 16) : Port :=
  if q.replayBuf.any (fun f => f.seq == ack) then
    { q with replayBuf := (q.replayBuf.dropWhile (fun f => f.seq != ack)).drop 1 }
  else q

/-- A packet at the end of a transit queue, or of the hub's own at key 9. -/
def enqueue (s : State) (key : Nat) (pk : Packet) : State :=
  modNet s (fun n => { n with queues := mapMod [] n.queues key (· ++ [{ pk := pk, since := clockNs s }]) })

/-- A packet that the hub itself sends waits in its injection queue; it carries the partition's tag (R46). -/
def hubSend (s : State) (pk : Packet) : State := enqueue s 9 pk

/-- A reply to a request packet (R360, R361): ACK, or RETRY. -/
def replyTo (s : State) (pk : Packet) (st : Status) (retry : Bool) : State :=
  hubSend s { cls := .p, type := 0, tag := pk.tag, dst := pk.src, dstDeck := pk.srcDeck, src := ownModule s,
              srcDeck := pk.dstDeck, srcCore := pk.srcCore, txn := pk.txn, status := st, retry := retry }

/-- Is the port able to carry packets of every class? -/
def portUp (s : State) (p : Nat) : Bool := (portAt s p).state == 3

/-! ### Routing -/

/-- Own coordinates and those of a module number, T, X, Y, Z. -/
def coordsOf (m : BitVec 17) : List Nat :=
  [(m.extractLsb' 0 2).toNat, (m.extractLsb' 2 5).toNat, (m.extractLsb' 7 5).toNat, (m.extractLsb' 12 5).toNat]

/-- Ring size of an axis, 4 for T. -/
def axisSize (s : State) (a : Nat) : Nat :=
  match ringsOf s with
  | none => 1
  | some r => if a = 0 then 4 else if a = 1 then r.1 else if a = 2 then r.2.1 else r.2.2

/-- The axis of a port. -/
def portAxis (p : Nat) : Nat := if p < 3 then 0 else (p - 1) / 2

/-- The IDENTIFIED port that carries a CONTROL packet to the neighbour that it names (R358). -/
def controlPort (s : State) (pk : Packet) : Option Nat :=
  if pk.cls = .m ∧ pk.type = 1 then
    (List.range 9).find? (fun p => (portAt s p).state == 2 && (portAt s p).peerModule == pk.dst)
  else none

/-- The next hop of a packet by its coordinates, at input `inp` (none for local injection): the port and the VC, or none where
the packet is discarded, with the port that was down (R363, R364). `credits` are the free credits that the + and the − output
hold, which decide between equal distances. (DESIGN CHOICE, log entry 43.) -/
def routeHop (s : State) (inp : Option Nat) (pk : Packet) (credits : Nat × Nat) : Nat × Option Bool :=
  let here := coordsOf (ownModule s)
  let there := coordsOf pk.dst
  let c := fun (l : List Nat) a => l[a]?.getD 0
  if c here 0 ≠ c there 0 then
    let k := (c here 0 ^^^ c there 0) - 1
    let second := match inp with
      | some p => decide (p < 3)
      | none => false
    if portUp s k then (k, some second)
    else if second then (k, none)
    else match (List.range 3).find? (portUp s) with
      | some j => (j, some false)
      | none => (k, none)
  else match [1, 2, 3].find? (fun a => c here a != c there a) with
    | none => (0, none)
    | some a =>
      let n := axisSize s a
      let plus := 2 * a + 1
      let minus := 2 * a + 2
      let moving := match inp with
        | some p => decide (portAxis p = a)
        | none => false
      let f := (c there a + n - c here a) % n
      let want := if moving then (if inp = some minus then plus else minus)
        else if f < n - f then plus else if n - f < f then minus else if credits.1 < credits.2 then minus else plus
      let out := if moving then want else if portUp s want then want else if want = plus then minus else plus
      let cross := (out == plus && c here a == n - 1) || (out == minus && c here a == 0)
      if portUp s out then (out, some ((moving && pk.vc) || cross)) else (out, none)

/-- The next hop of a packet: the neighbour itself over an IDENTIFIED port, or as its coordinates say. -/
def nextHop (s : State) (inp : Option Nat) (pk : Packet) (credits : Nat × Nat) : Nat × Option Bool :=
  match controlPort s pk with
  | some p => (p, some false)
  | none => routeHop s inp pk credits

/-- The queue of a router input, oldest first. -/
def inputQueue (s : State) (r : RouteIn) : List Queued :=
  match r with
  | .port p => mapGet [] s.net.queues p.val
  | .deck d => (deckAt s d.val).txq
  | .hub => mapGet [] s.net.queues 9

def setInputQueue (s : State) (r : RouteIn) (l : List Queued) : State :=
  match r with
  | .port p => modNet s (fun n => { n with queues := mapSet [] n.queues p.val l })
  | .deck d => modDeck s d.val (fun k => { k with txq := l })
  | .hub => modNet s (fun n => { n with queues := mapSet [] n.queues 9 l })

/-- The port that a router input belongs to. -/
def inputPort (r : RouteIn) : Option Nat :=
  match r with
  | .port p => some p.val
  | .deck _ => none
  | .hub => none

/-- The class and VC of a packet, which share a buffer (R365). -/
def bufferOf (pk : Packet) : PClass × Bool := (pk.cls, pk.vc)

/-- The places in a queue of the packets that stand at the head of their class and VC (R365). -/
def laneHeads (q : List Queued) : List Nat :=
  (List.range q.length).filter (fun i => match q[i]? with
    | none => false
    | some x => (q.take i).all (fun y => bufferOf y.pk != bufferOf x.pk))

/-- A packet leaves by a port, or is discarded there and counted where the port runs at LPL 3 and the tag is not 0; a request
is then answered (R50). -/
def sendOut (s : State) (p : Nat) (pk : Packet) : State :=
  if (portAt s p).lpl = 3 ∧ pk.tag ≠ 0 then
    let s1 := modPort s p (fun q => { q with tagDiscard := satInc q.tagDiscard })
    if pk.cls = .q then replyTo s1 pk stNotBound false else s1
  else sendFrame s p [pk]

/-- Take the first copy of a packet out of what has arrived. (DESIGN CHOICE, log entry 80.) -/
def takeArrived (s : State) (pk : Packet) : State := modNet s (fun n => { n with arrived := n.arrived.erase pk })

/-! ### The fence tracker (R366 to R370) -/

/-- Is an entry the one of source core and window? -/
def fenceKey (pk : Packet) (ep : BitVec 16) (e : FenceEntry) : Bool :=
  e.src == pk.src && e.deck == pk.srcDeck && e.core == pk.srcCore && e.epoch == ep

def fenceFind (n : Net) (pk : Packet) (ep : BitVec 16) : Option FenceEntry := n.tracker.find? (fenceKey pk ep)

/-- Allocate an entry where none exists. -/
def fenceAlloc (now : Nat) (n : Net) (pk : Packet) (ep : BitVec 16) : Net :=
  if (fenceFind n pk ep).isSome then n
  else { n with tracker := n.tracker ++ [{ src := pk.src, deck := pk.srcDeck, core := pk.srcCore, epoch := ep, last := now }] }

/-- The entries a packet needs and does not find. -/
def fenceNeeds (n : Net) (pk : Packet) : Nat :=
  let need := fun ep => if (fenceFind n pk ep).isSome then 0 else 1
  if !pk.trk then 0 else if pk.f ∧ pk.nepoch ≠ pk.fepoch then need pk.fepoch + need pk.nepoch else need pk.fepoch

/-- Can the entries of a packet be had (R368, steps 1 and 2)? -/
def fenceFits (n : Net) (pk : Packet) : Bool := decide (n.tracker.length + fenceNeeds n pk ≤ 16384)

/-- Change the entry of a window. -/
def fenceMod (n : Net) (pk : Packet) (ep : BitVec 16) (f : FenceEntry → FenceEntry) : Net :=
  { n with tracker := n.tracker.map (fun e => if fenceKey pk ep e then f e else e) }

/-- Free the entry of a window. -/
def fenceFree (n : Net) (pk : Packet) (ep : BitVec 16) : Net :=
  { n with tracker := n.tracker.filter (fun e => !fenceKey pk ep e) }

/-- Is a refusal of R368 step 3? -/
def fenceRefusal (st : Status) : Bool :=
  st == stBadParam || st == stNotBound || st == stNoSync || st == stMemPoison || st == stVoteFailed || st == stIsolated

/-- Count a finished packet in a window, recording a refusal. -/
def fenceCount (now : Nat) (n : Net) (pk : Packet) (ep : BitVec 16) (st : Status) : Net :=
  fenceMod n pk ep (fun e => { e with count := e.count + 1, last := now, status := if e.status = 0 then st else e.status })

end Sys2Proof.Machine
end

