-- ==== Sys2Proof/Machine/Churn.lean ====
section
/-! DEFINITION. Churn (chapter 10): accepting and binding collectives (R384, R401), buffers and the local level (R389, R396),
chunks ready and landed (R390 to R400), how a collective ends (R404 to R413), the vote (R280, R281), fingerprints (R271 to
R275), abort notices (R408). -/
namespace Sys2Proof.Machine
open Sys2Proof

/-! ### Sailing and landing records (R78, R84, R85) -/

/-- A sailing record. -/
structure Sailing where
  start : Nat
  len : Nat
  kind : Nat
  tag : Nat
  slot : Nat
  landing : Nat
  standby : Bool
  final : Bool
  chunkBase : Nat
  reservedOk : Bool
deriving DecidableEq, Repr

def sailingAt (m : Cells) (i : Nat) : Sailing :=
  let v := readNat m (16 * i) 16
  { start := bits v 0 32, len := bits v 32 24, kind := bits v 56 2, tag := bits v 58 3, slot := bits v 64 16,
    landing := bits v 80 12, standby := bits v 92 1 == 1, final := bits v 93 1 == 1, chunkBase := bits v 96 32,
    reservedOk := bits v 61 3 == 0 && bits v 94 2 == 0 }

/-- Base and count of the range of a port's variant and direction. -/
def ttRange (q : PortTt) (v r : Nat) : Nat × Nat :=
  ((mapGet 0 q.base (2 * v + r)).toNat, (mapGet 0 q.count (2 * v + r)).toNat)

/-- The records of a port's variant and direction, in order. -/
def ttRecords (q : PortTt) (v r : Nat) : List Sailing :=
  (List.range (ttRange q v r).2).map (fun i => sailingAt q.mem ((ttRange q v r).1 + i))

/-- The records of the active variant. -/
def activeRecords (s : State) (p r : Nat) : List Sailing := ttRecords (portAt s p).tt s.tt.activeVar.toNat r

/-- The COLL records of a slot. -/
def slotRecords (s : State) (p r : Nat) (slot : BitVec 16) : List Sailing :=
  (activeRecords s p r).filter (fun x => x.kind == 1 && x.slot == slot.toNat)

/-- All COLL records of a slot on the module. -/
def allSlotRecords (s : State) (slot : BitVec 16) : List Sailing :=
  (List.range 9).flatMap (fun p => slotRecords s p 0 slot ++ slotRecords s p 1 slot)

/-- The primary record that carries a chunk: the one with the greatest CHUNK_BASE at or below it (R81). -/
def primaryOf (rs : List Sailing) (chunk : Nat) : Option Sailing :=
  (rs.filter (fun x => !x.standby && decide (x.chunkBase ≤ chunk))).foldl (fun b x => match b with
    | none => some x
    | some y => if y.chunkBase < x.chunkBase then some x else some y) none

/-- A landing entry: offset and size in bytes, tag; none where it is not valid. -/
def landingAt (q : PortTt) (v id : Nat) : Option (Nat × Nat × Nat) :=
  let w := readNat q.land (32768 * v + 8 * id) 8
  if bits w 27 1 = 1 then some (32 * bits w 0 24, 32 * bits w 32 24, bits w 24 3) else none

/-- The partition that holds a tag. -/
def tagLd (s : State) (tag : BitVec 3) : Option Nat :=
  (s.host.lds.find? (fun e => match e.2.bind with
    | some b => b.tag == tag
    | none => false)).map (·.1)

/-- The hub window of a partition. -/
def winMem (s : State) (k : Nat) : Cells := ((ldAt s k).bind.map (·.mem)).getD []
def setWinMem (s : State) (k : Nat) (m : Cells) : State :=
  modLd s k (fun l => { l with bind := l.bind.map (fun b => { b with mem := m }) })

/-! ### Running collectives -/

def setChurn (s : State) (c : Churn) : State := { s with churn := c }
def modChurn (s : State) (f : Churn → Churn) : State := { s with churn := f s.churn }

def isColl (deck : Nat) (slot : BitVec 16) (tstep : Nat) (c : Coll) : Bool :=
  c.deck == deck && c.desc.slot == slot && c.tstep == tstep

def collAt (s : State) (k : CollRef) : Option Coll := s.churn.colls.find? (isColl k.deck.val k.slot k.tstep.toNat)

/-- Replace the entry of a collective. -/
def putColl (s : State) (c : Coll) : State :=
  modChurn s (fun x => { x with colls := x.colls.map (fun e => if isColl c.deck c.desc.slot c.tstep e then c else e) })

def dropColl (s : State) (c : Coll) : State :=
  modChurn s (fun x => { x with colls := x.colls.filter (fun e => !isColl c.deck c.desc.slot c.tstep e) })

/-- Own geometry from the armed map. -/
def geoOf (s : State) (deck : Nat) : Geo :=
  { coord := coordsOf (ownModule s), size := (List.range 4).map (axisSize s), deck := deck }

def collPlan (s : State) (c : Coll) : Plan := planOf (geoOf s c.deck) c.desc

/-- The key of a chunk on a port. -/
def chunkKey (p c : Nat) : Nat := 2 ^ 32 * p + c

/-- Hall time of step epoch `n`, in ns. -/
def epochNs (t : Timetable) (n : Nat) : Nat := t.e0.toNat + 5 * (n * t.p.toNat)

/-- The deadline of a slot occurrence: the end of its latest FINAL record (R405), in ns of hall time. -/
def deadlineNs (s : State) (slot : BitVec 16) (tstep : Nat) : Nat :=
  let last := ((allSlotRecords s slot).filter (·.final)).foldl (fun m x => max m (x.start + x.len)) 0
  s.tt.e0.toNat + 5 * (tstep * s.tt.p.toNat + last)

/-! ### Abort notices (R408) -/

/-- The modules adjacent to the own in a collective's group: T partners, and the neighbours on each ring (R23, R408). -/
def adjacent (s : State) (axes : BitVec 4) : List (BitVec 17) :=
  let here := coordsOf (ownModule s)
  let at_ := fun (a : Nat) => (here[a]?).getD 0
  let put := fun a v => (here.zipIdx.map (fun x => if x.2 = a then v else x.1))
  let num := fun (l : List Nat) => moduleNum (l[0]?.getD 0) (l[1]?.getD 0) (l[2]?.getD 0) (l[3]?.getD 0)
  let ts := if axes.getLsbD 0 then ((List.range 4).filter (fun q => q != at_ 0)).map (fun q => num (put 0 q)) else []
  let rs := ([1, 2, 3].filter (fun a => axes.getLsbD a && decide (1 < axisSize s a))).flatMap (fun a =>
    let n := axisSize s a
    [num (put a ((at_ a + 1) % n)), num (put a ((at_ a + n - 1) % n))])
  (ts ++ rs).eraseDups.filter (fun m => m != ownModule s)

/-- The payload of a Churn notice. -/
def noticeBytes (kind : Nat) (n : Notice) : Cells :=
  bytesCells (natBytes 2 kind ++ natBytes 2 n.slot.toNat ++ natBytes 2 n.status.toNat ++ natBytes 2 0 ++
    natBytes 4 n.digest.toNat ++ natBytes 4 n.chunk.toNat ++ natBytes 8 n.tstep.toNat ++
    natBytes 3 (n.originModule.toNat + 2 ^ 17 * n.originDeck.toNat))

/-- Send a notice to a module as an M-class CONTROL packet. -/
def sendNotice (s : State) (kind : Nat) (n : Notice) (tag : BitVec 3) (m : BitVec 17) : State :=
  hubSend s { cls := .m, data := true, type := 1, tag := tag, dst := m, src := ownModule s, srcCore := 0xFFF,
              payload := noticeBytes kind n }

/-- Send ABORT to every adjacent module but one, once per occurrence. -/
def flood (s : State) (axes : BitVec 4) (n : Notice) (tag : BitVec 3) (but : Option (BitVec 17)) : State :=
  if s.churn.aborted.contains (n.slot, n.tstep.toNat) then s
  else
    let ms := (adjacent s axes).filter (fun m => some m != but)
    let s1 := modChurn s (fun c => { c with aborted := (n.slot, n.tstep.toNat) :: c.aborted,
                                            abortSent := satAdd c.abortSent ms.length })
    ms.foldl (fun s m => sendNotice s 0x0101 n tag m) s1

/-- Does learning this status send an abort notice? -/
def floods (st : Status) : Bool :=
  !(st == stAdrift || st == stLate || st == stHoldTag || st == stShardChanged || st == stFencedMember)

/-- The notice of a member. -/
def abortNotice (s : State) (c : Coll) (st : Status) : Notice :=
  { slot := c.desc.slot, status := st, digest := c.digest, tstep := BitVec.ofNat 64 c.tstep, originModule := ownModule s,
    originDeck := BitVec.ofNat 3 c.deck }

/-- Chunks that a collective receives. -/
def recvChunks (d : CollDesc) (p : Plan) : Nat := (p.recvs.map (itemChunks d)).sum

/-- Does a VOTE's member hold the final record (R413)? -/
def holdsFinal (s : State) (c : Coll) : Bool :=
  c.desc.op == 6 && c.granted && c.learned.isEmpty && c.used.length == recvChunks c.desc (collPlan s c)

/-- A status that a notice brings to a member (R406); a member that holds the final record of a VOTE goes on (R413). -/
def noteMember (s : State) (c : Coll) (st : Status) : State :=
  if c.done || c.silent || c.learned.contains st || holdsFinal s c then s else putColl s { c with learned := c.learned ++ [st] }

/-- The members of a collective on the module's other decks learn what one member has learned, as the notice tells other
modules (R409). -/
def tellLocal (s : State) (c : Coll) (st : Status) : State :=
  (s.churn.colls.filter (fun e => e.desc.slot == c.desc.slot && e.tstep == c.tstep && e.deck != c.deck)).foldl
    (fun s e => noteMember s e st) s

/-- A member learns an error status (R406), other than through a notice. (DEDUCED, log entry 38.) -/
def learn (s : State) (c : Coll) (st : Status) : State :=
  if c.done then s
  else
    let s1 := putColl s { c with learned := c.learned ++ [st] }
    if floods st then
      flood (tellLocal s1 c st) c.desc.axes (abortNotice s c st) (((deckBind s c.deck).map (·.tag)).getD 0) none
    else s1

/-! ### Ends (R404 to R407, R281, R412) -/

/-- The order of R407. -/
def statusOrder : List Status :=
  [stStaleShard, stBadParam, stNoSync, stAdrift, stMismatch, stMemPoison, stIsolated, stVoteFailed, stPeerReset, stLinkLost,
   stCheckFailed, stNotBound, stLate, stHoldTag, stShardChanged, stFencedMember]

/-- The status a member ends with. -/
def finalStatus (l : List Status) : Status := (statusOrder.find? (fun x => l.contains x)).getD stLate

/-- Record the end of a collective in its context's CHN registers. -/
def recordEnd (s : State) (c : Coll) (st : Status) : State :=
  modDeck s c.deck (fun d =>
    let k := ctxAt d c.ctx.toNat
    setCtx d c.ctx.toNat { k with running := k.running.erase c.desc.slot, lastStatus := st, lastSlot := c.desc.slot,
                                  lastSeq := c.desc.seq })

/-- Apply object updates on a deck. -/
def settleAt (s : State) (d : Nat) (ups : List ObjUpd) : State := putDeck s d (settle (deckAt s d) ups)

/-- Change a context's hold registers. -/
def modHold (s : State) (d x : Nat) (f : Hold → Hold) : State :=
  modDeck s d (fun k => setHold k x (f (ctxAt k x).hold))

/-- The failure branch of R281 but for its object (R412). -/
def voteFailed (s : State) (c : Coll) (coll : Status) : State :=
  let s1 := modHold s c.deck c.ctx.toNat (fun h => { h with attempt := h.attempt + 1 })
  modDeck s1 c.deck (fun d =>
    let k := ctxAt d c.ctx.toNat
    setCtx d c.ctx.toNat { k with voteColl := coll })

/-- The failure branch of R281. -/
def voteFails (s : State) (c : Coll) (coll : Status) : State :=
  settleAt (voteFailed s c coll) c.deck [.poison c.desc.cobj.toNat stVoteFailed true]

/-- A collective ends with an error at its deadline: COBJ is poisoned (R405, R406, R412). -/
def endColl (s : State) (c : Coll) (st : Status) : State :=
  let s1 := dropColl s c
  if c.silent then s1
  else
    let s2 := recordEnd s1 c st
    let s3 := ((collPlan s c).sends.map (·.port)).eraseDups.foldl (fun s p =>
      modPort s p (fun q => { q with tt := { q.tt with slotEnded := satInc q.tt.slotEnded } })) s2
    if c.desc.op = 6 then voteFails s3 c st
    else settleAt s3 c.deck [.poison c.desc.cobj.toNat st false]

/-! ### Reading and writing a deck's bytes for Churn -/

/-- Read bytes of a deck by deck address: stack memory, with what ECC finds there, or the partition's hub window (R300, R384,
R409). -/
def churnRead (s : State) (d a n : Nat) : Status × Cells × State :=
  if a + n ≤ memEnd then
    if !memUp (deckAt s d) then (stIsolated, [], s)
    else
      let s1 := putDeck s d (eccRange (hallNs s) a n [] (deckAt s d))
      match memRead (deckAt s1 d) a n with
      | some m => (stGood, m, s1)
      | none => (stMemPoison, [], s1)
  else match deckLd s d with
    | some l => (stGood, mapSlice (winMem s l) (a - 0xC000000000) n, s)
    | none => (stNotBound, [], s)

/-- The first error of two. -/
def firstError (a b : Status) : Status := if a = stGood then b else a

/-- Write the bytes of one packet, in runs: the state of the deck may refuse them; where one of them lies in a closed master
region, the packet is discarded and counted (R282, R409). -/
def churnWrite (s : State) (d : Nat) (runs : List (Nat × Nat × Cells)) : Status × State :=
  let k := deckAt s d
  if runs.any (fun x => decide (x.1 + x.2.1 ≤ memEnd)) && memUp k && runs.any (fun x => gateRefuses k x.1 x.2.1) then
    (stVoteFailed, setDeck s d { k with gateDrop := satInc k.gateDrop })
  else runs.foldl (fun r x =>
    if x.1 + x.2.1 ≤ memEnd then
      let k := deckAt r.2 d
      if !memUp k then (firstError r.1 stIsolated, r.2)
      else (firstError r.1 (memWriteSt k x.1 x.2.1), setDeck r.2 d (memWrite k x.1 x.2.1 x.2.2))
    else match deckLd r.2 d with
      | some l => (r.1, setWinMem r.2 l (mapSplice (winMem r.2 l) (x.1 - 0xC000000000) x.2.1 x.2.2))
      | none => (firstError r.1 stNotBound, r.2)) (stGood, s)

/-- The elements of one packet go to DST as they stand in the accumulation space. -/
def storePacket (s : State) (c : Coll) (es : List Nat) : Status × State :=
  let g := geoOf s c.deck
  let w := accWidth c.desc
  let ps := es.filterMap (fun e => (dstIndex g c.desc c.deck e).map (fun i => (i, e)))
  let image := ps.foldl (fun m x => writeNat m (w * x.1) w (spaceGet c.desc c.acc x.2)) []
  churnWrite s c.deck ((runsOf (ps.map (·.1))).map (fun r => (c.desc.dst + w * r.1, w * r.2, mapSlice image (w * r.1) (w * r.2))))

/-- Elements go to DST packet by packet, `n` elements in each (R282, R388). -/
def storeElems (s : State) (c : Coll) (n : Nat) (es : List Nat) : Status × State :=
  (blocksBy n es.length es).foldl (fun r b =>
    let q := storePacket r.2 c b
    (firstError r.1 q.1, q.2)) (stGood, s)

/-- Bytes go to DST in packets of 512. -/
def storeBytes (s : State) (c : Coll) (n : Nat) (m : Cells) : Status × State :=
  (List.range ((n + 511) / 512)).foldl (fun r i =>
    let k := min 512 (n - 512 * i)
    let q := churnWrite r.2 c.deck [(c.desc.dst + 512 * i, k, mapSlice m (512 * i) k)]
    (firstError r.1 q.1, q.2)) (stGood, s)

/-! ### Acceptance (R384) -/

/-- Does RTYPE, COUNT and the group suit the operation (R385, R392)? -/
def opSuits (g : Geo) (d : CollDesc) (deck : Nat) : Bool :=
  let n := memberCount g d
  let ringAxis := d.axes.getLsbD 1 || d.axes.getLsbD 2 || d.axes.getLsbD 3
  (match d.op with
   | 1 => decide (d.rtype ≤ 4) && d.count % 32 == 0
   | 2 => decide (d.rtype ≤ 4) && d.count % (32 * n) == 0
   | 3 => d.rtype == 15 && d.count % 32 == 0
   | 4 => d.rtype == 15 && d.count % 32 == 0 && decide (d.root < n)
   | 5 => d.rtype == 15 && d.count % 32 == 0
   | 6 => d.rtype == 15 && d.count == 0 && d.src == 0 && d.dst == 0
   | 7 => d.rtype == 15 && d.count % 32 == 0 && d.axes == 8 && d.dmask == BitVec.ofNat 8 (2 ^ deck)
   | _ => false) &&
  (d.skim == 0 || ((d.op == 1 || d.op == 2) && decide (d.rtype ≤ 1) && d.axes.getLsbD 0 && ringAxis))

/-- Bytes at SRC and at DST. -/
def srcBytes (g : Geo) (d : CollDesc) : Nat :=
  if d.op = 6 then 0 else if d.op = 5 then memberCount g d * d.count else memBytes d d.count
def dstBytes (g : Geo) (d : CollDesc) : Nat :=
  let n := memberCount g d
  if d.op = 6 then 0
  else if d.op = 2 then memBytes d (d.count / n)
  else if d.op = 3 ∨ d.op = 5 ∨ d.op = 7 then n * d.count
  else memBytes d d.count

/-- Is a buffer aligned, in stack memory or the window, and at most 64 GiB? -/
def bufferOk (window a n : Nat) : Bool :=
  a % 32 == 0 && decide (n ≤ 2 ^ 36) &&
  (decide (a + n ≤ memEnd) || (decide (0xC000000000 ≤ a) && decide (a + n ≤ 0xC000000000 + window)))

/-- Send directions of a collective: three for T, two for each ring axis (R396). -/
def sendDirs (g : Geo) (d : CollDesc) : Nat := ((levels g d).map (fun a => if a = 0 then 3 else 2)).sum
/-- Bytes of its send buffers: 2 × 4 chunks in each direction. -/
def sendBytes (g : Geo) (d : CollDesc) : Nat := 8 * sendDirs g d * 2 ^ (12 + d.chunkLog)

/-- The ports that a slot uses. -/
def slotPorts (s : State) (slot : BitVec 16) : List Nat :=
  (List.range 9).filter (fun p => !(slotRecords s p 0 slot).isEmpty || !(slotRecords s p 1 slot).isEmpty)

/-- The refusals of R384. -/
def collRefused (s : State) (deck : Nat) (x : BitVec 4) (m : Cells) : Option Status :=
  let d := collDesc m
  let g := geoOf s deck
  let k := ctxAt (deckAt s deck) x.toNat
  let env := coreEnv s deck
  let recs := allSlotRecords s d.slot
  let decks := ((deckBind s deck).map (·.decks)).getD 0
  let bad := !descReserved m d || !opSuits g d deck || !d.dmask.getLsbD deck || d.dmask &&& decks != d.dmask ||
    (d.op != 6 && !(bufferOk env.window d.src (srcBytes g d) && bufferOk env.window d.dst (dstBytes g d))) ||
    !s.tt.armed || recs.isEmpty || recs.any (fun r => r.tag != env.tag.toNat) ||
    (d.skim != 0 && (slotPorts s d.slot).any (fun p => (portAt s p).lpl == 3)) ||
    decide ((k.pailSize.toNat - k.recv.toNat) * 0x10000 < sendBytes g d)
  match objRefused (deckAt s deck) x d.cobj with
  | some st => some st
  | none => if bad then some stBadParam else none

/-- The first occurrence from step `n` on that the deck has not bound; `fuel` bounds the search. -/
def unboundStep (s : State) (deck : Nat) (slot : BitVec 16) (fuel n : Nat) : Nat :=
  match fuel with
  | 0 => n
  | k + 1 => if s.churn.colls.any (isColl deck slot n) then unboundStep s deck slot k (n + 1) else n

/-- The occurrence a collective binds to (R401): this step's when its deadline lies at least 4,000 ticks ahead, else the next
step's; where the deck has bound that one, a following one. -/
def bindStep (s : State) (deck : Nat) (slot : BitVec 16) : Nat :=
  let n := s.tt.step.toNat
  unboundStep s deck slot (s.churn.colls.length + 1) (if deadlineNs s slot n < hallNs s + 20000 then n + 1 else n)

/-- The contribution to a vote (R280): the step status at entry, and the hold as entry leaves it. (DEDUCED, log entry 27.) -/
def voteEntry (h : Hold) : Status × Hold :=
  let h1 := if h.top ≠ 0 ∧ h.status = stGood then { h with status := stHoldTag, origin := 3 } else h
  let h2 := if h1.gate ≠ 0 ∧ h1.status = stGood then { h1 with status := stLate, origin := 3 } else h1
  (h2.status, { h2 with status := stGood, origin := 0, top := 0, entries := 0 })

/-- Note what a notice says of an occurrence, for members that accept it later; occurrences past their deadline leave. -/
def noteEarly (s : State) (e : EarlyNote) : State :=
  modChurn s (fun q => { q with
    early := q.early.filter (fun x => decide (hallNs s < deadlineNs s x.slot x.tstep)) ++ [e] })

/-- A new member learns what notices have said of its occurrence; an abort notice is then forwarded (R406, R408).
(DEDUCED, log entry 83.) -/
def learnEarly (s : State) (c : Coll) : State :=
  (s.churn.early.filter (fun e => e.slot == c.desc.slot && e.tstep == c.tstep)).foldl (fun s e =>
    match s.churn.colls.find? (isColl c.deck c.desc.slot c.tstep) with
    | none => s
    | some x =>
      match e.notice with
      | none => learn s x e.status
      | some n => flood (putColl s { x with learned := x.learned ++ [e.status] }) x.desc.axes n.1
          (((deckBind s x.deck).map (·.tag)).getD 0) (some n.2)) s

/-! ### Landings (R84 to R86, R362, R376) -/

/-- The key of a chunk of a slot on a port. -/
def landKey (p : Nat) (slot : BitVec 16) (chunk : Nat) : Nat := 2 ^ 32 * (2 ^ 16 * p + slot.toNat) + chunk

def landedAt (s : State) (p : Nat) (slot : BitVec 16) (chunk : Nat) : Landed := mapGet {} s.churn.landed (landKey p slot chunk)

/-- Change what has landed of a chunk. -/
def modLanded (s : State) (p : Nat) (slot : BitVec 16) (chunk : Nat) (f : Landed → Landed) : State :=
  modChurn s (fun c => { c with landed := mapMod {} c.landed (landKey p slot chunk) f })

/-- Has a chunk wholly landed, and is it delivered here? -/
def Landed.whole (l : Landed) : Bool := l.len != 0 && l.got % 2 ^ l.len + 1 == 2 ^ l.len && l.delivered

/-- What has landed of a slot is discarded (R402). -/
def dropLanded (s : State) (slot : BitVec 16) : State :=
  modChurn s (fun c => { c with landed := c.landed.filter (fun e => e.1 / 2 ^ 32 % 2 ^ 16 != slot.toNat),
                                unplaced := c.unplaced.filter (fun e => e.2.1.slot != slot) })

/-- The packet `pkt` of a chunk has landed; the header packet says how many there are (R397, R398). -/
def markLanded (s : State) (p : Nat) (slot : BitVec 16) (chunk pkt : Nat) (payload : Cells) : State :=
  modLanded s p slot chunk (fun l =>
    { l with len := if pkt = 0 then chunkPackets payload else l.len, got := l.got ||| 2 ^ pkt })

/-- A header packet that comes begins its chunk anew. -/
def beginChunk (s : State) (p : Nat) (pk : Packet) : State :=
  if pk.pkt = 0 then modLanded s p pk.slot pk.chunk.toNat (fun _ => { len := chunkPackets pk.payload }) else s

/-- The place of a packet in a landing: the LD whose window holds it and the offset there; none where R86 discards it. `size` is
the chunk size, which the first chunk of a landing does not need. -/
def landPlace (s : State) (p : Nat) (pk : Packet) (size : Nat) : Option (Nat × Nat) :=
  match primaryOf (slotRecords s p 1 pk.slot) pk.chunk.toNat with
  | none => none
  | some r =>
    match landingAt (portAt s p).tt s.tt.activeVar.toNat r.landing with
    | none => none
    | some (off, len, tag) =>
      let at_ := (pk.chunk.toNat - r.chunkBase) * size + 512 * pk.pkt.toNat
      if tag ≠ pk.tag.toNat ∨ len < at_ + 512 then none else (tagLd s pk.tag).map (fun l => (l, off + at_))

/-- Is a packet's chunk the first of its landing? -/
def firstChunk (s : State) (p : Nat) (pk : Packet) : Bool :=
  match primaryOf (slotRecords s p 1 pk.slot) pk.chunk.toNat with
  | none => true
  | some r => decide (pk.chunk.toNat = r.chunkBase)

/-- Land a packet, or discard and count it (R86). -/
def landPacket (s : State) (p : Nat) (pk : Packet) (size : Nat) : State :=
  match landPlace s p pk size with
  | none => modPort s p (fun q => { q with tt := { q.tt with tagDrop := satInc q.tt.tagDrop } })
  | some (l, off) =>
    markLanded (setWinMem s l (mapSplice (winMem s l) off 512 pk.payload)) p pk.slot pk.chunk.toNat pk.pkt.toNat pk.payload

/-- The packets of a slot that waited for its chunk size land (R402). -/
def placeWaiting (s : State) (slot : BitVec 16) (size : Nat) : State :=
  let here := s.churn.unplaced.filter (fun e => e.2.1.slot == slot && decide (hallNs s < e.2.2))
  here.foldl (fun s e => landPacket s e.1 e.2.1 size)
    (modChurn s (fun c => { c with unplaced := c.unplaced.filter (fun e => e.2.1.slot != slot) }))

/-- COLL_ACCEPT: Churn takes a descriptor of context `x` of deck `deck` (R384, R400, R401). -/
def acceptColl (s : State) (deck : Nat) (x : BitVec 4) (m : Cells) : State :=
  let d := collDesc m
  let h := (ctxAt (deckAt s deck) x.toNat).hold
  let dig := collDigest d (h.step.toNat * 65536 + h.attempt.toNat)
  let n := bindStep s deck d.slot
  let c : Coll := { deck := deck, ctx := x, desc := d, tstep := n, digest := dig }
  match collRefused s deck x m with
  | some st =>
    let s1 := recordEnd s c st
    let s2 := if !s.tt.armed || (allSlotRecords s d.slot).isEmpty then s1
      else flood s1 d.axes (abortNotice s c st) (((deckBind s deck).map (·.tag)).getD 0) none
    if objRefused (deckAt s deck) x d.cobj = none then
      if d.op = 6 then voteFails s2 c st else settleAt s2 deck [.poison d.cobj.toNat st false]
    else if d.op = 6 then voteFailed s2 c st
    else s2
  | none =>
    let v := voteEntry h
    let pos := positionOf (geoOf s deck) d deck
    let c1 := if d.op = 6 then
        { c with vote := if v.1 = 0 then 0 else 1 + 2 ^ 32 * v.1.toNat + 2 ^ 64 * pos }
      else c
    let s1 := if d.op = 6 then modHold s deck x.toNat (fun _ => v.2) else s
    let s2 := modDeck s1 deck (fun k =>
      let y := ctxAt k x.toNat
      setCtx k x.toNat { y with running := y.running ++ [d.slot] })
    let c2 := if s.htu.state = 4 then { c1 with learned := [stAdrift] } else c1
    let s3 := modChurn s2 (fun q => { q with
      colls := q.colls ++ [c2], slotSource := mapSet 0 q.slotSource d.slot.toNat (16 * deck + x.toNat + 1) })
    learnEarly (placeWaiting s3 d.slot (2 ^ (12 + d.chunkLog))) c2

/-! ### Buffers and the local level (R389, R396, R271) -/

/-- The members of the group on this module that have accepted the same occurrence. -/
def localMembers (s : State) (c : Coll) : List Coll :=
  (groupDecks c.desc).filterMap (fun k => s.churn.colls.find? (isColl k c.desc.slot c.tstep))

/-- The check of a shard header (R268) against the tag and the layer (R271); STALE_SHARD comes first (R275). -/
def shardStatus (h : Hold) (layer : BitVec 16) (hdr : Nat) : Status :=
  let tag := h.step.toNat * 65536 + h.attempt.toNat
  if bits hdr 84 1 = 0 ∨ bits hdr 0 64 ≠ tag ∨ bits hdr 64 16 ≠ layer.toNat then stStaleShard
  else if bits hdr 85 11 ≠ 0 ∨ bits hdr 128 128 ≠ 0 ∨ 4 ≤ bits hdr 80 4 then stBadParam
  else stGood

/-- The check at a GATHER_JIT source, of the header that was read with the shard (R270), against HOLD.STEP as it stands. -/
def shardCheck (s : State) (c : Coll) : Status :=
  if c.desc.op ≠ 7 then stGood
  else shardStatus (ctxAt (deckAt s c.deck) c.ctx.toNat).hold c.desc.layer
    (readNat c.acc (positionOf (geoOf s c.deck) c.desc c.deck * c.desc.count) 32)

/-- What the local level gives: the accumulation space, or the first error. -/
def localLevel (s : State) (c : Coll) (ms : List Coll) : Status × Cells × State :=
  let g := geoOf s c.deck
  let d := c.desc
  let n := memberCount g d
  ms.foldl (fun (r : Status × Cells × State) e =>
    if r.1 ≠ stGood then r
    else if d.op = 6 then (stGood, writeNat [] 0 16 (addVote (readNat r.2.1 0 16) e.vote), r.2.2)
    else
      let p := positionOf g d e.deck
      if d.op = 4 ∧ p ≠ d.root then r
      else
        let q := churnRead r.2.2 e.deck e.desc.src (srcBytes g d)
        if q.1 ≠ stGood then q
        else if d.op = 1 ∨ d.op = 2 then
          let vs := fromMem d d.count q.2.1
          (stGood, vs.zipIdx.foldl (fun a x => spacePut d a x.2 (if e.deck = (ms.head?.map (·.deck)).getD 0 then x.1
            else addElem d (spaceGet d a x.2) x.1)) r.2.1, q.2.2)
        else if d.op = 5 then (stGood, mapSplice r.2.1 (p * n * d.count) (n * d.count) q.2.1, q.2.2)
        else if d.op = 4 then (stGood, q.2.1, q.2.2)
        else (stGood, mapSplice r.2.1 (p * d.count) d.count q.2.1, q.2.2)) (stGood, [], s)

/-- The elements of the accumulation space that the local level has filled. -/
def localElems (g : Geo) (d : CollDesc) (ms : List Coll) : List Nat :=
  let n := memberCount g d
  if d.op = 1 ∨ d.op = 2 then List.range d.count
  else ms.flatMap (fun e =>
    let p := positionOf g d e.deck
    if d.op = 5 then (List.range (n * d.count)).map (fun i => p * n * d.count + i)
    else if d.op = 4 then (if p = d.root then List.range d.count else [])
    else (List.range d.count).map (fun i => p * d.count + i))

/-- Is the sum final: every reduce chunk used? -/
def reduceDone (d : CollDesc) (p : Plan) (c : Coll) : Bool :=
  let want := ((List.range 9).map (fun q => ((portItems p.recvs q).filter (fun i => !i.dist)).map (itemChunks d) |>.sum))
  (List.range 9).all (fun q => (List.range (want[q]?.getD 0)).all (fun k => mapGet false c.used (chunkKey q k)))

/-- Add to a context's skim counters (R395). -/
def countSkim (s : State) (c : Coll) (sat fl : Nat) : State :=
  modDeck s c.deck (fun d =>
    let k := ctxAt d c.ctx.toNat
    setCtx d c.ctx.toNat { k with skimSat := satAdd k.skimSat sat, skimFlush := satAdd k.skimFlush fl })

/-- Round the own stretches once their sum is final (R386, R394): the collective after it, and the saturations and flushes of
a skim format. -/
def finalize (s : State) (c : Coll) : Coll × Nat × Nat :=
  let p := collPlan s c
  if c.isFinal || !reduceDone c.desc p c then (c, 0, 0)
  else if c.desc.op = 1 ∨ c.desc.op = 2 then
    let es := stretchElems c.desc p.own
    let r := finalVals c.desc (es.map (spaceGet c.desc c.acc))
    ({ c with isFinal := true, acc := (es.zip r.1).foldl (fun a x => spacePut c.desc a x.1 x.2) c.acc }, r.2.1, r.2.2)
  else ({ c with isFinal := true }, 0, 0)

/-- A collective goes on with new values of the elements `es`, which came in packets of `n`: its own stretches become final when
nothing more is to be added, and DST holds the accumulation space where the widths agree (R388).
(DESIGN CHOICE, log entry 35.) -/
def advance (s : State) (c : Coll) (n : Nat) (es : List Nat) : State :=
  let f := finalize s c
  let s1 := putColl s f.1
  let s2 := if f.2.1 + f.2.2 = 0 then s1 else countSkim s1 c f.2.1 f.2.2
  if inPlace c.desc then
    let own := if f.1.isFinal && !c.isFinal && (c.desc.op == 1 || c.desc.op == 2) then stretchElems c.desc (collPlan s c).own else []
    let r := storeElems s2 f.1 n (es ++ own)
    if r.1 = stGood then r.2 else learn r.2 f.1 r.1
  else s2

/-- Bytes of send buffers that a context's granted collectives hold until they end. -/
def heldBuffers (s : State) (c : Coll) : Nat :=
  ((s.churn.colls.filter (fun e => e.deck == c.deck && e.ctx == c.ctx && e.granted && !e.done && !e.silent)).map (fun e =>
    sendBytes (geoOf s e.deck) e.desc)).sum

/-- COLL_BUFFERS_GRANTED: buffers are free and every local member has accepted; with the first member of the group that starts,
the local level runs for all of them. -/
def opBuffersGranted (s : State) (k : CollRef) : State :=
  match collAt s k with
  | none => s
  | some c =>
    let ms := localMembers s c
    let x := ctxAt (deckAt s c.deck) c.ctx.toNat
    if c.granted ∨ !c.learned.isEmpty ∨ c.silent ∨ ms.length ≠ (groupDecks c.desc).length ∨
        (x.pailSize.toNat - x.recv.toNat) * 0x10000 < heldBuffers s c + sendBytes (geoOf s c.deck) c.desc then s
    else if ms.any (fun e => e.digest != c.digest) then learn s c stMismatch
    else
      let es := localElems (geoOf s c.deck) c.desc ms
      if c.summed then advance s { c with granted := true } 512 es
      else
        let r := localLevel s c ms
        if r.1 ≠ stGood then learn r.2.2 { c with granted := true } r.1
        else
          let s1 := ms.foldl (fun s e => putColl s { e with acc := r.2.1, summed := true }) r.2.2
          advance s1 { c with granted := true, summed := true, acc := r.2.1 } 512 es

/-! ### Chunks -/

/-- Has a chunk wholly left, whether or not its buffer has gone to another (R396)? -/
def chunkGone (c : Coll) (key : Nat) : Bool :=
  mapGet false c.left key || (!(mapGet [] c.ready key).isEmpty && decide (chunkPackets (mapGet [] c.ready key) ≤ mapGet 0 c.sent key))

/-- A chunk takes one of the eight send buffers of its direction: a free one, or that of the oldest chunk that has wholly left;
none where all are in use (R396, R399). -/
def bufferChunk (c : Coll) (key : Nat) (m : Cells) : Option Coll :=
  let mine := c.buffered.filter (fun k => k / 2 ^ 32 == key / 2 ^ 32)
  let put := fun (c : Coll) => { c with ready := mapSet [] c.ready key m, buffered := c.buffered ++ [key] }
  if mine.length < 8 then some (put c)
  else (mine.find? (chunkGone c)).map (fun o =>
    put { c with ready := mapSet [] c.ready o [], buffered := c.buffered.erase o, left := mapSet false c.left o true })

/-- Are all receives that come before an item used? -/
def earlierUsed (d : CollDesc) (p : Plan) (c : Coll) (i : PlanItem) : Bool :=
  (List.range 9).all (fun q =>
    let r := (portItems p.recvs q).foldl (fun (r : Nat × Bool) x =>
      let n := itemChunks d x
      (r.1 + n, r.2 && (decide (itemOrder i ≤ itemOrder x) ||
        (List.range n).all (fun k => mapGet false c.used (chunkKey q (r.1 + k)))))) (0, true)
    r.2)

/-- CHUNK_READY: Churn prepares a chunk for its sailing in a free buffer. Only the lowest deck of a group sends (R388, R393,
R396, R399). (DEDUCED, log entry 37.) (DEDUCED, log entry 64.) -/
def opChunkReady (s : State) (k : CollRef) (p : Nat) (chunk : Nat) : State :=
  match collAt s k with
  | none => s
  | some c =>
    let pl := collPlan s c
    match locate c.desc (portItems pl.sends p) chunk with
    | none => s
    | some (i, n) =>
      if !c.granted || !c.learned.isEmpty || c.silent || (groupDecks c.desc).head? != some c.deck ||
          !earlierUsed c.desc pl c i || chunkGone c (chunkKey p chunk) || c.buffered.contains (chunkKey p chunk) then s
      else
        let wt := wireType c.desc i
        let w := toWire wt ((chunkIndexes c.desc i n).map (spaceGet c.desc c.acc))
        let m := chunkBytes c.digest wt i (positionOf (geoOf s c.deck) c.desc c.deck) c.tstep w.1
        match bufferChunk c (chunkKey p chunk) m with
        | none => s
        | some c1 =>
          let s1 := putColl s c1
          if wt ≠ 15 ∧ c.desc.skim ≠ 0 ∧ 2 ≤ i.level then countSkim s1 c w.2.1 w.2.2 else s1

/-- Where a chunk of a slot lands on a port: the LD whose window holds it and the offset there (R362). -/
def landingOf (s : State) (p : Nat) (slot : BitVec 16) (chunk size : Nat) : Option (Nat × Nat × Nat) :=
  match primaryOf (slotRecords s p 1 slot) chunk with
  | none => none
  | some r =>
    match landingAt (portAt s p).tt s.tt.activeVar.toNat r.landing with
    | none => none
    | some (off, len, tag) =>
      match tagLd s (BitVec.ofNat 3 tag) with
      | none => none
      | some k => some (k, off + (chunk - r.chunkBase) * size, len - (chunk - r.chunkBase) * size)

/-- Is data of an item added, and not copied? -/
def reduces (d : CollDesc) (i : PlanItem) : Bool := (d.op == 1 || d.op == 2 || d.op == 6) && !i.dist

/-- Use the values of a landed chunk: add on reduction, copy otherwise (R390, R391). -/
def useChunk (s : State) (c : Coll) (p chunk : Nat) (i : PlanItem) (n : Nat) (data : Cells) : State :=
  let d := c.desc
  let es := chunkIndexes d i n
  let vals := fromWire (wireType d i) es.length data
  let key := chunkKey p chunk
  let put := fun (acc : Cells) (vs : List Nat) => (es.zip vs).foldl (fun a x => spacePut d a x.1 x.2) acc
  let k := packetElems (wireType d i)
  if !reduces d i then advance s { c with acc := put c.acc vals, used := mapSet false c.used key true } k es
  else if d.op = 6 then
    advance s { c with acc := writeNat [] 0 16 (addVote (readNat c.acc 0 16) (readNat data 0 16)),
                       used := mapSet false c.used key true } k es
  else if i.level = 1 then
    let waiting := mapSet [] c.waiting key (bytesCells (vals.flatMap (natBytes (accWidth d))))
    let t := (coordsOf (ownModule s))[0]?.getD 0
    let ports := (List.range 3)
    let used := mapSet false c.used key true
    if ports.all (fun q => mapGet false used (chunkKey q chunk)) then
      let part := fun q => if q = t then es.map (spaceGet d c.acc)
        else (List.range es.length).map (fun e => spaceGet d (mapGet [] waiting (chunkKey ((t ^^^ q) - 1) chunk)) e)
      let sum := (((part 0).zipWith (addElem d) (part 1)).zipWith (addElem d) (part 2)).zipWith (addElem d) (part 3)
      advance s { c with acc := put c.acc sum, used := used,
                         waiting := ports.foldl (fun m q => mapSet [] m (chunkKey q chunk) []) waiting } k es
    else putColl s { c with used := used, waiting := waiting }
  else
    advance s { c with acc := put c.acc (vals.zipWith (addElem d) (es.map (spaceGet d c.acc))),
                       used := mapSet false c.used key true } k es

/-- The module beyond a port, as trained. -/
def neighbour (s : State) (p : Nat) : BitVec 17 := (portAt s p).peerModule

/-- CHUNK_LANDED: a chunk has wholly landed for a member (R399, R400, R402). A chunk that is added waits in its landing until the
sums before it are formed, so that the order of R390 and R391 holds (R387). -/
def opChunkLanded (s : State) (k : CollRef) (p chunk : Nat) : State :=
  match collAt s k with
  | none => s
  | some c =>
    let size := 2 ^ (12 + c.desc.chunkLog)
    match landingOf s p c.desc.slot chunk size, locate c.desc (portItems (collPlan s c).recvs p) chunk with
    | some (ld, off, _), some (i, n) =>
      if !c.granted || !c.learned.isEmpty || c.silent || c.done || mapGet false c.used (chunkKey p chunk) ||
          !(landedAt s p c.desc.slot chunk).whole || (reduces c.desc i && !earlierUsed c.desc (collPlan s c) c i) then s
      else
        let h := mapSlice (winMem s ld) off 32
        let len := readNat h 8 3
        let data := mapSlice (winMem s ld) (off + 512) len
        if readNat h 24 8 ≠ c.tstep then
          modChurn (modLanded s p c.desc.slot chunk (fun _ => {})) (fun q => { q with stepDrop := satInc q.stepDrop })
        else if readNat h 0 4 ≠ c.digest.toNat then
          learn (modChurn s (fun q => { q with digestDrop := satInc q.digestDrop })) c stMismatch
        else if (crc32c (readBytes data 0 len)).toNat ≠ readNat h 4 4 then
          if s.churn.resendEn ∧ mapGet false c.asked (chunkKey p chunk) = false then
            let s1 := putColl (modLanded s p c.desc.slot chunk (fun _ => {})) { c with asked := mapSet false c.asked (chunkKey p chunk) true }
            let s2 := modChurn s1 (fun q => { q with requested := satInc q.requested })
            sendNotice s2 0x0102 { abortNotice s c 0 with chunk := BitVec.ofNat 32 chunk }
              (((deckBind s c.deck).map (·.tag)).getD 0) (neighbour s p)
          else learn s c stCheckFailed
        else
          let s1 := if mapGet false c.asked (chunkKey p chunk) then
              modChurn s (fun q => { q with recovered := satInc q.recovered })
            else s
          useChunk s1 c p chunk i n data
    | _, _ => s

/-- CHURN_RESEND_REQ: the neighbour asks for a chunk again; it goes out while it is still in a buffer (R399). The packets
name SLOT in TXN, CHUNK in IMM and the offset in the chunk in OFFSET (log entry 34). -/
def opResendReq (s : State) (p : Nat) (n : Notice) : State :=
  match s.churn.colls.find? (fun c => c.desc.slot == n.slot && c.tstep == n.tstep.toNat &&
      !(mapGet [] c.ready (chunkKey p n.chunk.toNat)).isEmpty) with
  | none => s
  | some c =>
    if !c.learned.isEmpty || c.silent || c.done then s
    else
      let m := mapGet [] c.ready (chunkKey p n.chunk.toNat)
      (List.range (chunkPackets m)).foldl (fun s j =>
        hubSend s { cls := .q, data := true, type := 4, tag := ((deckBind s c.deck).map (·.tag)).getD 0, dst := neighbour s p,
                    space := 1, src := ownModule s, srcDeck := BitVec.ofNat 3 c.deck, srcCore := 0xFFF, txn := n.slot,
                    imm := n.chunk, offset := BitVec.ofNat 40 (512 * j), payload := mapSlice m (512 * j) 512 }) s

/-- CHURN_ABORT: a notice arrives (R406, R408, R413). -/
def opAbort (s : State) (p : Nat) (n : Notice) : State :=
  let note := fun s => noteEarly s { slot := n.slot, tstep := n.tstep.toNat, status := n.status, notice := some (n, neighbour s p) }
  match s.churn.colls.filter (fun c => c.desc.slot == n.slot && c.tstep == n.tstep.toNat) with
  | [] =>
    if hallNs s < deadlineNs s n.slot n.tstep.toNat then note s
    else modChurn s (fun q => { q with abortLate := satInc q.abortLate })
  | cs =>
    if cs.all (·.done) then modChurn s (fun q => { q with abortLate := satInc q.abortLate })
    else
      let s1 := cs.foldl (fun s c => noteMember s c n.status) (note s)
      match cs.head? with
      | none => s1
      | some c => flood s1 c.desc.axes n (((deckBind s c.deck).map (·.tag)).getD 0) (some (neighbour s p))

/-! ### Completion -/

/-- The fingerprint of a shard as delivered (R269). -/
def fingerprint (m : Cells) : BitVec 32 :=
  let fmt := BitVec.ofNat 4 (bits (readNat m 0 16) 80 4)
  let blocks := readNat m 12 4
  let n := blocks * (32 * elemBits fmt / 8)
  let sc := if fmt = 3 then 0 else blocks
  crc32c (readBytes m 32 (n + sc))

/-- The fingerprint entry of a layer after a gather, and the gather's outcome (R272 to R274). -/
def fingerprintStep (s : State) (c : Coll) (n : Nat) : Status × State :=
  let h := (ctxAt (deckAt s c.deck) c.ctx.toNat).hold
  let layer := c.desc.layer.toNat
  if h.fpSlots.toNat ≤ layer then (stBadParam, s)
  else
    let a := h.base.toNat + h.size.toNat - 256 * h.fpSlots.toNat + 256 * layer
    let s := putDeck s c.deck (eccRange (hallNs s) a 256 [] (deckAt s c.deck))
    match memRead (deckAt s c.deck) a 256 with
    | none => (stMemPoison, s)
    | some e =>
    let fps := (List.range n).map (fun z => (fingerprint (mapSlice c.acc (z * c.desc.count) c.desc.count)).toNat)
    let tag := h.step.toNat * 65536 + h.attempt.toNat
    let fresh := readNat e 128 8 ≠ tag
    let valid := fun z => bits (readNat e 136 4) z 1 == 1
    let same := fun z => readNat e (4 * z) 4 == (fps[z]?.getD 0)
    if c.desc.dir then
      if fresh ∨ (List.range n).any (fun z => !valid z) then (stHoldTag, s)
      else if (List.range n).any (fun z => !same z) then (stShardChanged, s)
      else (stGood, s)
    else if !fresh ∧ (List.range n).any (fun z => valid z && !same z) then (stShardChanged, s)
    else
      let e0 := if fresh then [] else e
      let e1 := fps.zipIdx.foldl (fun m x => writeNat m (4 * x.2) 4 x.1) e0
      let mask := (if fresh then 0 else readNat e 136 4) ||| (2 ^ n - 1)
      let e2 := writeNat (writeNat e1 128 8 tag) 136 4 mask
      (stGood, modDeck s c.deck (fun d => memWrite d a 256 e2))

/-- The bytes of the result at DST. (DESIGN CHOICE, log entry 35.) -/
def resultBytes (g : Geo) (c : Coll) : Cells :=
  let d := c.desc
  let n := memberCount g d
  let p := positionOf g d c.deck
  if d.op = 1 then toMem d ((List.range d.count).map (spaceGet d c.acc))
  else if d.op = 2 then
    let k := d.count / n
    toMem d ((List.range k).map (fun e => spaceGet d c.acc (p * k + e)))
  else if d.op = 5 then
    (List.range n).foldl (fun m q => mapSplice m (q * d.count) d.count (mapSlice c.acc ((q * n + p) * d.count) d.count)) []
  else c.acc

/-- A member completes GOOD: its object is signalled; it stays until its deadline for the sailings that remain (R404). -/
def completeGood (s : State) (c : Coll) : State :=
  let s1 := recordEnd (putColl s { c with done := true }) c stGood
  settleAt s1 c.deck [.signal c.desc.cobj.toNat (c.desc.amt.setWidth 32)]

/-- A VOTE completes with its final record (R281, R284, R412). -/
def completeVote (s : State) (c : Coll) : State :=
  let v := readNat c.acc 0 16
  let s1 := recordEnd (putColl s { c with done := true }) c stGood
  let s2 := modDeck s1 c.deck (fun d =>
    let k := ctxAt d c.ctx.toNat
    setCtx d c.ctx.toNat { k with voteNbad := BitVec.ofNat 32 (bits v 0 32), voteStatus := BitVec.ofNat 16 (bits v 32 16),
                                  voteMember := BitVec.ofNat 32 (bits v 64 32), voteColl := 0 })
  if bits v 0 32 = 0 then
    let s3 := modHold s2 c.deck c.ctx.toNat (fun h =>
      let h1 := { h with step := h.step + 1, attempt := 0 }
      if h.snapState = 1 then { h1 with opening := true } else { h1 with gate := 1 })
    settleAt s3 c.deck [.signal c.desc.cobj.toNat (c.desc.amt.setWidth 32)]
  else voteFails s2 c 0

/-- The delivery reports that a BCAST root waits for: one for each chunk and ring direction (R377, R404). -/
def reportsDue (s : State) (c : Coll) : List Nat :=
  if c.desc.op = 4 ∧ positionOf (geoOf s c.deck) c.desc c.deck = c.desc.root then
    (((collPlan s c).sends.filter (fun i => decide (2 ≤ i.level))).map (·.port)).eraseDups.flatMap (fun p =>
      (List.range (portChunks c.desc (collPlan s c).sends p)).map (chunkKey p))
  else []

/-- COLL_COMPLETE: every chunk is used and every result byte is written (R404, R409, R410, R412). -/
def opCollComplete (s : State) (k : CollRef) : State :=
  match collAt s k with
  | none => s
  | some c =>
    let g := geoOf s c.deck
    if c.done || c.silent || !c.granted || !c.learned.isEmpty || c.used.length != recvChunks c.desc (collPlan s c) ||
        !(reportsDue s c).all (fun r => mapGet false c.reports r) ||
        decide (deadlineNs s c.desc.slot c.tstep < hallNs s) then s
    else if c.desc.op = 6 then completeVote s c
    else if !c.checked ∧ shardCheck s c ≠ stGood then learn s c (shardCheck s c)
    else
      let w := if inPlace c.desc then (stGood, s) else storeBytes s c (dstBytes g c.desc) (resultBytes g c)
      if w.1 ≠ stGood then learn w.2 c w.1
      else if c.undel ≠ 0 then learn w.2 c stFencedMember
      else if c.desc.op = 7 then
        let r := fingerprintStep w.2 c (memberCount g c.desc)
        if r.1 = stGood then completeGood r.2 c else learn r.2 c r.1
      else completeGood w.2 c

/-- Does a member wait for a chunk that it has asked for again (R399)? -/
def awaitsResend (c : Coll) : Bool := c.asked.any (fun e => e.2 && !mapGet false c.used e.1)

/-- At the deadline a re-send that has not come makes a member learn CHECK_FAILED (R399). -/
def learnLate (s : State) (c : Coll) : State := if awaitsResend c && !c.silent then learn s c stCheckFailed else s

/-- COLL_DEADLINE: hall time has reached the end of the latest FINAL record (R83, R95, R402, R405 to R407); a completed member
leaves. -/
def opCollDeadline (s0 : State) (k : CollRef) : State :=
  match collAt s0 k with
  | none => s0
  | some c0 =>
    if hallNs s0 < deadlineNs s0 c0.desc.slot c0.tstep then s0
    else if c0.done then dropColl (dropLanded s0 c0.desc.slot) c0
    else
      let s := dropLanded (learnLate s0 c0) c0.desc.slot
      let c := (collAt s k).getD c0
      let st := finalStatus c.learned
      let s1 := if st = stFencedMember then modDeck s c.deck (fun d =>
          let x := ctxAt d c.ctx.toNat
          setCtx d c.ctx.toNat { x with undel := c.undel, undelAxis := c.undelAxis })
        else s
      endColl s1 c st

/-- A reset, a teardown or Shutdown ends the members that `p` selects on a deck with no status of their own; the hub sends
ABORT PEER_RESET (R406, R409). -/
def resetColls (s : State) (d : Nat) (p : BitVec 4 → Bool) : State :=
  (s.churn.colls.filter (fun c => c.deck == d && p c.ctx && !c.silent)).foldl (fun s c =>
    let s1 := putColl s { c with silent := true }
    let s2 := modDeck s1 d (fun k =>
      let x := ctxAt k c.ctx.toNat
      setCtx k c.ctx.toNat { x with running := x.running.erase c.desc.slot })
    if c.done then s2
    else flood (tellLocal s2 c stPeerReset) c.desc.axes (abortNotice s c stPeerReset) (((deckBind s d).map (·.tag)).getD 0) none) s

/-- A port is lost: every collective with sailings on it learns LINK_LOST (R342, R409). -/
def portLostColls (s : State) (p : Nat) : State :=
  (s.churn.colls.filter (fun c => !c.done && !c.silent && (slotPorts s c.desc.slot).contains p)).foldl (fun s c =>
    match s.churn.colls.find? (isColl c.deck c.desc.slot c.tstep) with
    | none => s
    | some x => learn s x stLinkLost) s

/-- Is a collective of a context bound (R498)? -/
def deckColls (s : State) (d : Nat) : Bool := s.churn.colls.any (fun c => c.deck == d && !c.done && !c.silent)

end Sys2Proof.Machine
end

