-- ==== Sys2Proof/Machine/Recovery.lean ====
section
/-! DEFINITION. The fault and reset controller (chapter 14) and the safety functions (R510 to R512): cause words, samples,
resets of every scope and how they meet, module resets by Keep level, detectors and escalation, Shutdown and the module
safe state; applying a deck operation with the faults it reports. -/
namespace Sys2Proof.Machine
open Sys2Proof

def setRst (s : State) (r : Rst) : State := { s with rst := r }
def modRst (s : State) (f : Rst → Rst) : State := { s with rst := f s.rst }
def rstEvent (s : State) (n : Nat) : State := modRst s (fun r => { r with events := setBit r.events n true })

/-! ### Scopes (R519, R528) -/

/-- The level of a scope; a CMDP restart is 0. -/
def scopeLevel (x : Scope) : Nat :=
  match x with
  | .ctx _ _ => 1
  | .engine _ _ _ => 2
  | .compute _ => 3
  | .full _ => 4
  | .module => 5
  | .cmdp => 0

/-- The deck of a scope. -/
def scopeDeck (x : Scope) : Option Nat :=
  match x with
  | .ctx d _ => some d.val
  | .engine d _ _ => some d.val
  | .compute d => some d.val
  | .full d => some d.val
  | .module => none
  | .cmdp => none

/-- The context that a scope names. -/
def scopeCtx (x : Scope) : BitVec 4 :=
  match x with
  | .ctx _ c => c
  | .engine _ c _ => c
  | .compute _ => 0
  | .full _ => 0
  | .module => 0
  | .cmdp => 0

/-- Does scope `a` contain scope `b`? -/
def scopeCovers (a b : Scope) : Bool :=
  match a with
  | .ctx d c => decide (b = .ctx d c) ||
      (match b with
       | .engine d' c' _ => d == d' && c == c'
       | _ => false)
  | .engine d c k => decide (b = .engine d c k) ||
      (match b with
       | .engine d' c' _ => d == d' && c == c' && k == 0xFFF
       | _ => false)
  | .compute d => scopeDeck b == some d.val && decide (scopeLevel b ≤ 3)
  | .full d => scopeDeck b == some d.val
  | .module => true
  | .cmdp => decide (b = .cmdp)

/-- Is a reset of equal or higher level running on a scope that contains `x`? -/
def resetRuns (s : State) (x : Scope) : Bool :=
  s.rst.running.any (fun r => scopeCovers r.scope x && decide (scopeLevel x ≤ scopeLevel r.scope))

/-- Does a fault action of the controller run on a deck, or on a context of it (R36)? (DEDUCED, log entry 41.) -/
def faultRuns (s : State) (d : Nat) (c : Option (BitVec 4)) : Bool :=
  s.rst.running.any (fun r => r.detector != 0 &&
    (decide (r.scope = .module) ||
     (scopeDeck r.scope == some d &&
      (decide (3 ≤ scopeLevel r.scope) || (match c with
        | some x => scopeCtx r.scope == x
        | none => false)))))

/-! ### Cause words and samples (R533, R534) -/

/-- The number of the next reset. -/
def nextReset (s : State) : Nat := (mapGet 0 s.rst.bkp 1).toNat % 2 ^ 32 + 1

/-- A cause word. -/
def causeWord (level source detector deck ctx : Nat) (esc : Bool) (seq : Nat) : Nat :=
  level % 8 + 2 ^ 3 * (source % 16) + 2 ^ 7 * (detector % 16) + 2 ^ 11 * (deck % 8) + 2 ^ 14 * (ctx % 16) +
  2 ^ 18 * boolNat esc + 2 ^ 24 * (seq % 256)

/-- Write a cause word to BKP0 and RST.LAST and count the reset in BKP1 (R533, R535). -/
def recordCause (s : State) (w : Nat) : State :=
  let r := s.rst
  let old := (mapGet 0 r.bkp 0).toNat
  let n := (mapGet 0 r.bkp 1).toNat
  let resets := (n + 1) % 2 ^ 32
  let cold := if w % 8 = 7 then (n / 2 ^ 32 + 1) % 2 ^ 32 else n / 2 ^ 32
  let b0 := mapSet 0 r.bkp 0 (BitVec.ofNat 64 (w + 2 ^ 32 * (old % 2 ^ 32)))
  setRst s { r with bkp := mapSet 0 b0 1 (BitVec.ofNat 64 (resets + 2 ^ 32 * cold)), last := BitVec.ofNat 32 w }

/-- The cores of a scope on its deck. -/
def scopeCores (k : Deck) (x : Scope) (cores : List Nat) : List Nat :=
  match x with
  | .ctx _ c => ctxCores k c
  | .engine _ c core => if core = 0xFFF then ctxCores k c else cores
  | .compute _ => []
  | .full _ => []
  | .module => []
  | .cmdp => []

/-- Is pen `p` of deck `d` inside a scope? -/
def penInScope (k : Deck) (x : Scope) (cores : List Nat) (d p : Nat) : Bool :=
  if x = .module then true
  else scopeDeck x == some d && (decide (3 ≤ scopeLevel x) || (scopeCores k x cores).any (fun i => i / 16 == p))

/-- The 512 bytes that a sample keeps of a core: scratchpad units 0 to 7, then row 0 of acc0. -/
def sampleCore (c : Core) : Cells :=
  (List.range 64).foldl (fun m p => writeNat m (256 + 4 * p) 4 (mapGet 0 c.acc (accKey 0 0 p)).toNat) (mapSlice c.spad 0 256)

/-- Write a sample to retained memory, while no LD is bound (R534). -/
def takeSample (s : State) (x : Scope) (cores : List Nat) (w : Nat) : State :=
  if !(boundLds s).isEmpty ∨ x = .cmdp then s
  else
    let r := s.rst
    let d := match r.sampleAuto, cores.head?, scopeDeck x with
      | true, some _, some d => d
      | _, _, _ => r.sampleDeck.toNat
    let first := match r.sampleAuto, cores.head? with
      | true, some i => i / 16
      | _, _ => r.samplePen.toNat
    let k := deckAt s d
    let pens := ((List.range r.sampleCount.toNat).map (fun j => first + j)).filter (fun p =>
      decide (p < 200) && penInScope k x cores d p)
    let now := if s.htu.state.toNat < 2 then 0 else hallNs s
    let head := writeNat (writeNat (writeNat [] 0 8 (w + 2 ^ 63)) 8 8 now) 16 8 (d + 2 ^ 8 * first + 2 ^ 16 * pens.length)
    let body := (pens.flatMap (fun p => (List.range 16).map (fun j => 16 * p + j))).zipIdx.foldl (fun m e =>
      mapSplice m (0x100 + 512 * e.2) 512 (sampleCore (coreAt k e.1))) head
    setRst s { r with retained := mapSplice r.retained 0 0xE100 body }

/-! ### Resets of a deck or a part of it -/

/-- Mark a reset in the RST.SWRST registers, as the CMDP does (R523). -/
def markReset (r : Rst) (x : Scope) : Rst :=
  let field := fun (d : Nat) (bit : Nat) (c : BitVec 4) (core : BitVec 12) =>
    let old := mapGet 0 r.swDeck d
    let v : BitVec 20 := setBit (old &&& 0xF) bit true ||| (c.setWidth 20 <<< 4) ||| (core.setWidth 20 <<< 8)
    { r with swDeck := mapSet 0 r.swDeck d v }
  let keep := fun (d : Nat) (bit : Nat) =>
    { r with swDeck := mapSet 0 r.swDeck d (setBit (mapGet 0 r.swDeck d) bit true) }
  match x with
  | .ctx d c => field d 0 c ((mapGet 0 r.swDeck d.val).extractLsb' 8 12)
  | .engine d c core => field d 1 c (core.setWidth 12)
  | .compute d => keep d 2
  | .full d => keep d 3
  | .module => { r with swHub := setBit r.swHub 3 true }
  | .cmdp => { r with swHub := setBit r.swHub 0 true }

/-- The deck's part of a reset. -/
def resetOnDeck (x : Scope) (cores : List Nat) (k : Deck) : DeckRes :=
  match x with
  | .ctx _ c => ctxReset c k
  | .engine _ c _ => engineReset c (scopeCores k x cores) k
  | .compute _ => computeReset k
  | .full _ => fullReset k
  | .module => (k, [])
  | .cmdp => (k, [])

/-- The members of collectives that a reset of level 1, 3 or 4 ends (R409). -/
def resetMembers (s : State) (d : Nat) (x : Scope) : State :=
  match x with
  | .ctx _ c => resetColls s d (fun y => y == c)
  | .engine _ _ _ => s
  | _ => resetColls s d (fun _ => true)

/-! ### Hard post-package repair (R334) -/

/-- Repair the rows of a stack that `w` names by their places in the remap table: each maps to itself again, its entry goes,
its spares stay consumed; a retired row stays retired. -/
def repairStack (w : Nat) (x : Stack) : Stack :=
  { x with remap := (x.remap.zipIdx.filter (fun e => e.1.2.retired || !w.testBit e.2)).map (·.1) }

/-- Repair the stacks of deck `d`, as far as the die's resources reach: a free value says which rows. -/
def repairDeck (s : State) (d : Nat) : State :=
  (List.range 4).foldl (fun s k =>
    let r := draw (stackAt (deckAt s d) k).remap.length s
    modDeck r.2 d (fun x => modStack x k (repairStack r.1.toNat))) s

/-- Does the configuration record in force enable the repair (PPR_EN, R475)? -/
def pprEn (s : State) : Bool := (cellGet s.mgmt.record 12).getLsbD 0

/-- The repair option of a reset on the decks given; whether the reset requests it is a free value, since the manual names
no field that does. (DESIGN CHOICE, log entry 74.) -/
def repairRows (s : State) (ds : List Nat) : State :=
  if pprEn s then
    let r := draw 1 s
    if r.1 = 1 then ds.foldl repairDeck r.2 else r.2
  else s

/-- A deck in full reset takes no notice: those queued for it are discarded and counted in DOWN_ERR (R454). -/
def dropNotices (s : State) (d : Nat) : State :=
  let b : Mailbox := mapGet {} s.host.mbx d
  let c : Mailbox := { b with queue := [], downErr := satAdd b.downErr b.queue.length }
  { s with host := { s.host with mbx := mapSet {} s.host.mbx d c } }

/-- From when the wait of R371 runs: a reset that clears every core of a deck, or the cores of a list. -/
def stampCleared (now : Nat) (x : Scope) (cores : List Nat) (k : Deck) : Deck :=
  match x with
  | .engine _ _ _ => cores.foldl (fun k i => modCore k i (fun c => { c with clearedAt := some now })) k
  | .compute _ => { k with clearedAt := some now }
  | .full _ => { k with clearedAt := some now }
  | .ctx _ _ => k
  | .module => k
  | .cmdp => k

/-- Apply a reset of levels 1 to 4: wrapper, sample, clearing, cause word, the ISOLATED record (R434, R527, R528). Ports,
LNK registers, fence tracker and timetable stand as they are, and the fabric domain passes traffic (R30, R108, R379). -/
def deckReset (s : State) (x : Scope) (cores : List Nat) (src det : Nat) (esc : Bool) (hdr : Option CmdHdr) : State :=
  match scopeDeck x with
  | none => s
  | some d =>
    let w := causeWord (scopeLevel x) src (if src = 3 then det else 0) d (if scopeLevel x = 1 then (scopeCtx x).toNat else 0) esc
      (nextReset s)
    if resetRuns s x then recordCause s w
    else
      let s1 := takeSample (recordCause s w) x cores w
      let stamp := stampCleared (clockNs s) x (scopeCores (deckAt s1 d) x cores)
      let s2 := modDeck (resetMembers (putDeck s1 d (resetOnDeck x cores (deckAt s1 d))) d x) d stamp
      let s3 := postDeck (if scopeLevel x = 4 then dropNotices (repairRows s2 [d]) d else s2) d stIsolated (scopeLevel x + 16 * (scopeCtx x).toNat) 0
      modRst s3 (fun r =>
        let run := r.running.filter (fun e => !scopeCovers x e.scope) ++ [{ scope := x, detector := det, hdr := hdr, since := clockNs s }]
        { markReset r x with running := run })

/-! ### CMDP restart (R526) -/

/-- Every command taken and not finally answered ends with BUSY_RESET. -/
def busyAll (s : State) : State :=
  s.host.lds.foldl (fun s e => e.2.rings.foldl (fun s q => q.2.taken.foldl (fun s t => replyFinal s t.hdr stBusyReset 0) s) s) s

/-! ### Module resets (R520, R536, R540, R541) -/

/-- The numbers of a core's transfers and requests go on over a module reset, so that what answers late meets nothing
(R157). -/
def coresKept (m : SMap Core) : SMap Core :=
  m.filterMap (fun e =>
    let c : Core := { seq := e.2.seq, nextTxn := e.2.nextTxn }
    if c = {} then none else some (e.1, c))

/-- A deck's registers that a module reset keeps (K7): the pen map, which it applies (R17, R521), the remap tables; the physical
faults. A Slack-water reset keeps the stacks but for what boot firmware overwrites, and a deck that was leaving an LD is still
cleared (R43, R540). (DEDUCED, log entry 53.) (DEDUCED, log entry 55.) -/
def deckKept (now : Nat) (slack leaving : Bool) (k : Deck) : Deck :=
  { clearedAt := some now, unboundAt := now, cores := coresKept k.cores, penMap := k.penFlash, penFlash := k.penFlash,
    penOlder := k.penOlder, pensBad := k.pensBad, outOfService := k.outOfService, maint := k.maint, hubLinkFailed := k.hubLinkFailed,
    clearing := slack && leaving, latent := if slack then k.latent.filter (fun e => decide (0x800000 ≤ e.sector)) else [],
    scrubRun := k.scrubRun, scrubStart := k.scrubStart, scrubPos := k.scrubPos,
    mem := if slack then k.mem.filter (fun e => decide (0x10000000 ≤ e.1)) else [],
    memBad := if slack then k.memBad.filter (fun e => decide (0x800000 ≤ e.1)) else [],
    stks := k.stks.filterMap (fun e =>
      let x : Stack := { remap := e.2.remap, remapFlash := e.2.remapFlash, remapOlder := e.2.remapOlder, spareUsed := e.2.spareUsed,
                         trainAgain := e.2.trainAgain ||| e.2.chFailed }
      if x = {} then none else some (e.1, x)),
    reset := .full, power := .waking }

/-- A port after a module reset: only what is plugged in stays. -/
def portKept (q : Port) : Port := { plugged := q.plugged, fibreId := q.fibreId }

/-- An interrupted flash write of an image leaves the region invalid with the marker set (R481). (DEDUCED, log entry 54.) -/
def flashTorn (m : Mgmt) : Mgmt :=
  if m.stageState = 4 ∧ m.stageKind = false then { m with writeMarker := true, flashImage := [] } else m

/-- MGT after a module reset: staging (K4) is lost; at a cold one also K5. -/
def mgmtKept (cold : Bool) (m0 : Mgmt) : Mgmt :=
  let m := flashTorn m0
  let m1 := { m with stageBytes := 0, stageState := 0, stageOwner := 0, stageKind := false, stageStatus := 0, stageMem := [],
                     stageLd := none, stageCmd := none, updComp := 0, updSize := 0 }
  if cold then { m1 with build := 0, svn := 0, recovery := false, fwPending := false, measured := [], verified := false } else m1

/-- PWR after a module reset (K4 cleared). -/
def powerKept (p : Power) : Power :=
  { p with duty := 16, overCnt := 0, changes := 0, calm := 10, parkUs := 500, dockIdleMs := 1000, waitRows := [],
           moduleState := if p.moduleState = 1 then 0 else p.moduleState }

/-- RST after a module reset: K4 cleared, at a cold one K5 too; the release order starts at step 2 or 3. HOLD and PWRCYC_REQ
end only as R530 and R532 say. (DEDUCED, log entry 50.) -/
def rstKept (cold slack : Bool) (phase : BitVec 4) (r : Rst) : Rst :=
  let base : Rst := { phase := phase, restarts := r.restarts, restartTimes := r.restartTimes, events := r.events, bkp := r.bkp,
                      retained := r.retained, shutdownTimes := r.shutdownTimes, mrstLow := r.mrstLow, slack := slack, hold := r.hold,
                      pwrcycReq := r.pwrcycReq, pwrcycAt := r.pwrcycAt }
  if cold then base
  else { base with maxAuto := r.maxAuto, escWindowMs := r.escWindowMs, pwrcycEn := r.pwrcycEn, pwrcycWaitMs := r.pwrcycWaitMs,
                   action := r.action, wdogLog2 := r.wdogLog2, collSlackUs := r.collSlackUs, sampleDeck := r.sampleDeck,
                   sampleAuto := r.sampleAuto, sampleCount := r.sampleCount, samplePen := r.samplePen, past := r.past,
                   cmdpTimes := r.cmdpTimes }

/-- What a Slack-water reset keeps of an LD (R541); an unbinding under way goes on with its clearing (R43). -/
def ldSlack (l : Ld) : Ld :=
  match l.bind with
  | some b => { bind := some b, committed := l.committed, decoderIw := l.decoderIw, decoderErr := l.decoderErr }
  | none => {}

/-- Is deck `d` leaving an LD (R43)? -/
def deckLeaves (s : State) (d : Nat) : Bool :=
  s.host.lds.any (fun e => match e.2.bind with
    | some b => b.leaving.getLsbD d
    | none => false)

/-- The host side after a module reset. -/
def hostKept (slack : Bool) (h : HostSide) : HostSide :=
  if slack then
    { lds := h.lds.filterMap (fun e => if ldSlack e.2 = {} then none else some (e.1, ldSlack e.2)),
      cxlUp := h.cxlUp, cxlWidth := h.cxlWidth, cxlRate := h.cxlRate }
  else {}

/-- Clear the module by Keep level (R9 to R11, R537): the ports drop, the armed map and every collective are gone. -/
def clearModule (cold slack : Bool) (phase : BitVec 4) (s : State) : State :=
  { s with
    decks := (List.range 8).foldl (fun m d => mapSet {} m d (deckKept (clockNs s) slack (deckLeaves s d) (deckAt s d))) [],
    htu := {}, tt := {}, net := {}, churn := {}, mem := {},
    ports := s.ports.filterMap (fun e => if portKept e.2 = {} then none else some (e.1, portKept e.2)),
    host := hostKept slack s.host, mgmt := mgmtKept cold s.mgmt, power := powerKept s.power,
    rst := rstKept cold slack phase s.rst }

/-- Option loading restarts when a reset arrives during it (R530): counted, and 16 within 1 s hold the module. -/
def optionRestart (s : State) : State :=
  if s.rst.phase ≠ 2 then s
  else
    let now := clockNs s
    let ts := now :: s.rst.restartTimes.filter (fun t => decide (now < t + 1000000000))
    modRst s (fun r => { r with restarts := satInc r.restarts, restartTimes := ts.take 16 })

/-- The hold of R530, once option loading has restarted 16 times within 1 s. -/
def optionHold (s : State) : State :=
  if 16 ≤ s.rst.restartTimes.length ∧ s.rst.phase = 2 ∧ s.rst.hold = false then
    pldmEvent (rstEvent (modRst s (fun r => { r with hold := true })) 0) 0x4000
  else s

/-- A module reset (levels 5 and 7, and the Slack-water reset); a cold one is never absorbed. (DEDUCED, log entry 86.) -/
def moduleReset (s : State) (cold slack : Bool) (src det : Nat) (esc : Bool) : State :=
  if s.rst.hold ∨ s.power.moduleState = 2 then s
  else
    let w := causeWord (if cold then 7 else 5) src (if src = 3 then det else 0) 0 0 esc (nextReset s)
    let s0 := optionRestart s
    if !cold ∧ resetRuns s .module then optionHold (recordCause s0 w)
    else
      let s1 := takeSample s0 .module [] w
      let s2 := modRst (clearModule cold slack (if cold then 2 else 3) s1) (fun r =>
        { r with running := [{ scope := .module, detector := det, since := clockNs s }] })
      optionHold (recordCause (if cold then repairRows s2 (List.range 8) else s2) w)

/-! ### Power cycle (R532), CMDP restart, and a step up the ladder (R531) -/

/-- Action 6: PWRCYC_REQ where it is enabled, else a warm module reset. (DEDUCED, log entry 50.) -/
def powerCycle (s : State) (src det : Nat) (esc : Bool) : State :=
  if s.rst.pwrcycEn then
    modRst (recordCause s (causeWord 6 src (if src = 3 then det else 0) 0 0 esc (nextReset s))) (fun r => { r with pwrcycReq := true, pwrcycAt := clockNs s })
  else moduleReset s false false src det esc

/-- A CMDP restart; the third within 60 s becomes a warm module reset (R526). (DEDUCED, log entry 52.) -/
def cmdpRestart (s : State) (src det : Nat) : State :=
  let now := clockNs s
  let ts := now :: s.rst.cmdpTimes.filter (fun t => decide (now < t + 60000000000))
  let w := causeWord 0 src (if src = 3 then det else 0) 0 0 false (nextReset s)
  if resetRuns s .cmdp then recordCause s w
  else if 3 ≤ ts.length then
    rstEvent (moduleReset (modRst s (fun r => { r with cmdpTimes := [] })) false false 7 det true) 1
  else
    let s1 := busyAll (recordCause s w)
    modRst s1 (fun r =>
      let run := r.running ++ [{ scope := .cmdp, detector := det, since := clockNs s }]
      { markReset r .cmdp with cmdpTimes := ts, cmdpRestart := true, cmdpStopped := true, running := run })

/-- The scope one level up. -/
def scopeUp (x : Scope) : Option Scope :=
  match x with
  | .ctx d c => some (.engine d c 0xFFF)
  | .engine d _ _ => some (.compute d)
  | .compute d => some (.full d)
  | .full _ => some .module
  | .module => none
  | .cmdp => some .module

/-- Apply a reset of any scope. -/
def applyReset (s : State) (x : Scope) (cores : List Nat) (src det : Nat) (esc : Bool) (hdr : Option CmdHdr) : State :=
  match x with
  | .module => moduleReset s false false src det esc
  | .cmdp => cmdpRestart s src det
  | _ => deckReset s x cores src det esc hdr

/-- A reset of scope `x` failed: the next level up, unless it lies above MAX_AUTO. -/
def escalate (s : State) (x : Scope) (det : Nat) : State :=
  if s.rst.maxAuto.toNat < scopeLevel x + 1 then rstEvent s 2
  else match scopeUp x with
    | some y => rstEvent (applyReset s y [] 7 det true none) 1
    | none => rstEvent (powerCycle s 7 det true) 1

/-! ### Detectors (R531) -/

/-- The action of a detector. -/
def actionOf (s : State) (n : Nat) : Nat := bits s.rst.action.toNat (4 * n) 4

/-- The scope at which an action of level 1 to 5 applies to a fault. (DEDUCED, log entry 51.) -/
def faultScope (a : Nat) (d : Option Nat) (c : Option (BitVec 4)) (cores : List Nat) : Option Scope :=
  match a, d, c, cores with
  | 1, some d, some c, _ => some (.ctx (Fin.ofNat 8 d) c)
  | 2, some d, c, i :: _ => some (.engine (Fin.ofNat 8 d) (c.getD 0) (BitVec.ofNat 16 i))
  | 3, some d, _, _ => some (.compute (Fin.ofNat 8 d))
  | 4, some d, _, _ => some (.full (Fin.ofNat 8 d))
  | 5, _, _, _ => some .module
  | _, _, _, _ => none

/-- The reset that a detector caused on a scope around `x` and that completed within the window, the strongest.
(DEDUCED, log entry 51.) -/
def recentReset (s : State) (n : Nat) (x : Scope) : Option Scope :=
  let now := clockNs s
  let window := 1000000 * s.rst.escWindowMs.toNat
  ((s.rst.past.filter (fun e => e.1 == n && scopeCovers e.2.1 x && decide (now < e.2.2 + window))).map (·.2.1)).foldl
    (fun b y => match b with
      | none => some y
      | some z => if scopeLevel z < scopeLevel y then some y else some z) none

/-- A detector fires: counted, and its action applied (R531). (DEDUCED, log entry 51.) -/
def fireDetector (s : State) (n : Nat) (d : Option Nat) (c : Option (BitVec 4)) (cores : List Nat) : State :=
  let a := actionOf s n
  let s1 := modRst s (fun r => { r with detCount := mapMod 0 r.detCount n satInc,
                                        detLast := mapSet 0 r.detLast n (BitVec.ofNat 3 a) })
  if n = 12 then s1
  else if a = 7 then cmdpRestart s1 (if n = 10 then 10 else 3) n
  else if a = 6 then powerCycle s1 3 n false
  else match faultScope a d c cores with
    | none => s1
    | some x =>
      match recentReset s1 n x with
      | some y => escalate s1 y n
      | none => applyReset s1 x cores 3 n false none

/-- Fire the detectors that a deck's operation reports. -/
def fireReports (s : State) (d : Nat) (rs : List Report) : State :=
  rs.foldl (fun s r => fireDetector s r.detector (some d) r.ctx r.cores) s

/-- The collectives that a deck hands over. -/
def collsOf (es : List DeckEff) : List (BitVec 4 × Cells) :=
  es.filterMap (fun e => match e with
    | .coll x m => some (x, m)
    | _ => none)

/-- Put a deck's result in place: its requests, its collectives, its fault reports. -/
def applyRes (s : State) (d : Nat) (r : DeckRes) : State :=
  let s1 := (collsOf r.2).foldl (fun s c => acceptColl s d c.1 c.2) (putDeck s d r)
  fireReports s1 d (reportsOf r.2)

/-- Run an operation of deck `d`. -/
def onDeck (s : State) (d : Nat) (f : Deck → DeckRes) : State := applyRes s d (f (deckAt s d))

/-- The bits of SWRSTd that stay: those of the resets that still run on deck `d` (R523). -/
def swBits (rs : List RunningReset) (d : Nat) (v : BitVec 20) : BitVec 20 :=
  let at' := fun (n : Nat) => rs.any (fun r => scopeDeck r.scope == some d && scopeLevel r.scope == n)
  setBit (setBit (setBit (setBit v 0 (at' 1)) 1 (at' 2)) 2 (at' 3)) 3 (at' 4)

/-- A deck's failed channels are trained again when it comes up; whether the training succeeds is a free value, and where it
fails the deck goes out of service (R316). (DESIGN CHOICE, log entry 82.) -/
def trainChannels (s : State) (d : Nat) : State :=
  if (deckAt s d).stks.all (fun e => e.2.trainAgain == 0) then s
  else
    let r := draw 1 s
    modDeck r.2 d (fun k =>
      if r.1 = 1 then (List.range 4).foldl (fun k i => modStack k i (fun x => { x with trainAgain := 0 })) k
      else { k with outOfService := true })

/-- A reset's scope is ready: its wrapper opens and its bit clears, with those of the resets it took over (R523, R527). -/
def finishReset (s : State) (x : Scope) : State :=
  match s.rst.running.find? (fun r => decide (r.scope = x)) with
  | none => s
  | some e =>
    let now := clockNs s
    let s1 := modRst s (fun r =>
      let past := if e.detector = 0 then r.past else ((e.detector, x, now) :: r.past).take 256
      let rest := r.running.filter (fun e => decide (e.scope ≠ x))
      let sw := match scopeDeck x with
        | some d => mapMod 0 r.swDeck d (swBits rest d)
        | none => r.swDeck
      { r with running := rest, past := past, swDeck := sw })
    match x with
    | .ctx _ _ => s1
    | .engine _ _ _ => s1
    | .compute d => modDeck s1 d (fun k => { k with reset := .none })
    | .full d => modDeck (trainChannels s1 d) d (fun k => { k with reset := .none, power := if k.power = .waking then .run else k.power })
    | .module => s1
    | .cmdp => modRst s1 (fun r => { r with swHub := setBit r.swHub 0 false, cmdpRestart := false, cmdpStopped := false })

/-! ### Safety functions (R510 to R513) -/

/-- A safety function acts: recorded and reported to the management plane. -/
def safetyAct (s : State) (c : Nat) : State :=
  pldmEvent { s with safety := { s.safety with events := setBit s.safety.events c true } } (0x1000 + c)

/-- Main conversion goes off (R489, R511): K0 to K5 are lost, the module is Off. -/
def goOff (s : State) : State :=
  let s1 := clearModule true false 0 s
  { s1 with power := { s1.power with moduleState := 2, activeFeed := 0, duty := 16 }, rst := { s1.rst with running := [] },
            decks := s1.decks }

/-- The module safe state (R511), entered by safety function `c`. The first cause stays. (DESIGN CHOICE, log entry 49.) -/
def safeState (s : State) (c : Nat) : State :=
  let f := s.safety
  let f1 := if f.latched then f else { f with latched := true, cause := BitVec.ofNat 4 c, time := BitVec.ofNat 64 (hallNs s) }
  let s1 := fireDetector { s with safety := { f1 with safeN := true } } 12 none none []
  let l := draw 3 s1
  goOff (recordCause l.2 (causeWord l.1.toNat 4 0 0 0 false (nextReset l.2)))

/-- A deck enters Shutdown (R326, R508): its work ends as at a deck reset, its stacks lose their contents; a third Shutdown
within one hour puts it out of service (R531). (DESIGN CHOICE, log entry 49.) -/
def deckShutdown (s : State) (d : Nat) : State :=
  let now := clockNs s
  let ts := now :: (mapGet [] s.rst.shutdownTimes d).filter (fun t => decide (now < t + 3600000000000))
  let l := draw 3 s
  let s1 := recordCause l.2 (causeWord l.1.toNat 4 0 d 0 false (nextReset l.2))
  let s2 := resetColls (putDeck s1 d (stopDeck (deckAt s1 d))) d (fun _ => true)
  let out := fun (k : Deck) => k.outOfService || decide (3 ≤ ts.length)
  let s3 := modDeck s2 d (fun k => { k with power := .shutdown, mem := [], memBad := [], latent := [], hotAt := now, outOfService := out k })
  let s4 := modRst s3 (fun r => { r with shutdownTimes := mapSet [] r.shutdownTimes d (ts.take 3) })
  let s5 := postDeck s4 d stIsolated l.1.toNat 0
  if 3 ≤ ts.length then rstEvent s5 5 else s5

end Sys2Proof.Machine
end

