-- ==== Sys2Proof/Machine/Packets.lean ====
section
/-! DEFINITION. Packets at their destination (chapter 09): serving requests (R7, R32, R47, R49, R131, R145, R146, R282, R311,
R374, R375), the fence (R368 to R370), replies (R135, R372, R443), class S (R86, R362, R376, R377), notices (R82, R365); and
transfers of a core within its own module (R8, R53), which the same rules serve. -/
namespace Sys2Proof.Machine
open Sys2Proof

/-! ### Serving a request -/

/-- Why the deck or partition that a request names does not take it (R47, R49, R374, R375). -/
def destRefusal (s : State) (pk : Packet) : Option Status :=
  let d := pk.dstDeck.toNat
  let k := deckAt s d
  if pk.space = 1 then (if (tagLd s pk.tag).isSome then none else some stNotBound)
  else if !(if pk.space = 2 then syncUp k else memUp k) then some stIsolated
  else match deckBind s d with
    | none => some stNotBound
    | some b => if b.tag = pk.tag then none else some stNotBound

/-- The bytes of a partition's hub window. -/
def windowSize (s : State) (k : Nat) : Nat := (((ldAt s k).bind.map (·.window)).getD 0) * 0x100000

/-- A WRITE. -/
def serveWrite (s : State) (pk : Packet) : Status × State :=
  let d := pk.dstDeck.toNat
  let k := deckAt s d
  let a := pk.offset.toNat
  match destRefusal s pk with
  | some st => (st, s)
  | none =>
    if pk.space = 0 then
      if memEnd < a + pk.len then (stBadParam, s)
      else if gateRefuses k a pk.len then (stVoteFailed, setDeck s d { k with gateDrop := satInc k.gateDrop })
      else (memWriteSt k a pk.len, setDeck s d (memWrite k a pk.len pk.payload))
    else if pk.space = 1 then
      match tagLd s pk.tag with
      | none => (stNotBound, s)
      | some l =>
        if windowSize s l < a + pk.len then (stBadParam, s)
        else (stGood, setWinMem s l (mapSplice (winMem s l) a pk.len pk.payload))
    else (stBadParam, s)

/-- An ATOM: the adders of the destination deck apply its granules (R311). -/
def serveAtom (s : State) (pk : Packet) : Status × State :=
  let d := pk.dstDeck.toNat
  let k := deckAt s d
  let a := pk.offset.toNat
  match destRefusal s pk with
  | some st => (st, s)
  | none =>
    if pk.space ≠ 0 ∨ memEnd < a + pk.len then (stBadParam, s)
    else if gateRefuses k a pk.len then (stVoteFailed, setDeck s d { k with gateDrop := satInc k.gateDrop })
    else
      let s1 := onDeck s d (eccRange (hallNs s) a pk.len [])
      let r := adderRun pk.atype.toNat pk.payload a (pk.len / 64) (deckAt s1 d)
      (if r.2 then stMemPoison else stGood, setDeck s1 d r.1)

/-- A SIG: an 8-byte write to a word of space 2 by a remote agent (R145 to R147). -/
def serveSig (s : State) (pk : Packet) : Status × State :=
  let d := pk.dstDeck.toNat
  match destRefusal s pk with
  | some st => (st, s)
  | none =>
    if pk.space ≠ 2 then (stBadParam, s)
    else match syncWordAt pk.offset.toNat with
      | none => (stBadParam, s)
      | some w =>
        let r := syncWrite (deckAt s d) w (pk.imm.setWidth 64) none false
        (r.1, applyRes s d r.2)

/-- A READ of `n` bytes; in space 2, of one word (R131, R147). -/
def serveRead (s : State) (pk : Packet) (errs : List SectorErr) : Status × Cells × State :=
  let d := pk.dstDeck.toNat
  let a := pk.offset.toNat
  let n := pk.imm.toNat
  match destRefusal s pk with
  | some st => (st, [], s)
  | none =>
    if pk.space = 0 then
      if memEnd < a + n then (stBadParam, [], s)
      else
        let s1 := onDeck s d (eccRange (hallNs s) a n errs)
        match memRead (deckAt s1 d) a n with
        | none => (stMemPoison, [], s1)
        | some m => (stGood, m, s1)
    else if pk.space = 1 then
      match tagLd s pk.tag with
      | none => (stNotBound, [], s)
      | some l => if windowSize s l < a + n then (stBadParam, [], s) else (stGood, mapSlice (winMem s l) a n, s)
    else if pk.space = 2 then
      match syncWordAt a with
      | none => (stBadParam, [], s)
      | some (.reserved _) => (stBadParam, [], s)
      | some w =>
        if wordAlloc (deckAt s d) w then (stGood, bytesCells (natBytes 8 (syncRead (deckAt s d) w).toNat), s)
        else (stNoSync, [], s)
    else (stBadParam, [], s)

/-- The landing of a re-sent chunk (R399): the port that leads to its sender, and its place there; a chunk that no member here
has asked for is refused. -/
def serveResend (s : State) (pk : Packet) : Status × State :=
  match (List.range 9).find? (fun p => (portAt s p).peerModule == pk.src && portUp s p) with
  | none => (stBadParam, s)
  | some p =>
    match s.churn.colls.find? (fun c => c.desc.slot == pk.txn && mapGet false c.asked (chunkKey p pk.imm.toNat)) with
    | none => (stBadParam, s)
    | some c =>
      match landingOf s p pk.txn pk.imm.toNat (2 ^ (12 + c.desc.chunkLog)) with
      | none => (stNotBound, s)
      | some (l, off, left) =>
        if tagLd s pk.tag ≠ some l then (stNotBound, s)
        else if left < pk.offset.toNat + 512 then (stBadParam, s)
        else (stGood, markLanded (setWinMem s l (mapSplice (winMem s l) (off + pk.offset.toNat) 512 pk.payload)) p pk.txn
          pk.imm.toNat (pk.offset.toNat / 512) pk.payload)

/-! ### The fence at the destination (R368 to R370) -/

/-- Count a packet that the destination has finished with; a fenced one closes its window (R368 steps 3 to 5). -/
def countDone (now : Nat) (n : Net) (pk : Packet) (st : Status) : Net :=
  if !pk.trk then n
  else if pk.f then
    fenceCount now (if pk.nepoch = pk.fepoch then n else fenceFree n pk pk.fepoch) pk pk.nepoch st
  else fenceCount now n pk pk.fepoch st

/-- The status that a refusal records. -/
def recorded (st : Status) : Status := if fenceRefusal st then st else 0

/-- The DATA packets of a READ (R131). -/
def replyData (s : State) (pk : Packet) (n : Nat) (m : Cells) : State :=
  (List.range ((n + 511) / 512)).foldl (fun s j =>
    hubSend s { cls := .p, data := true, type := 1, tag := pk.tag, dst := pk.src, dstDeck := pk.srcDeck, src := ownModule s,
                srcDeck := pk.dstDeck, offset := BitVec.ofNat 40 (512 * j), srcCore := pk.srcCore, txn := pk.txn,
                len := min 512 (n - 512 * j), payload := mapSlice m (512 * j) (min 512 (n - 512 * j)) }) s

/-- Does an access of a request to stack memory wait (R315, R329)? -/
def reqHeld (s : State) (pk : Packet) : Bool :=
  pk.space == 0 && memUp (deckAt s pk.dstDeck.toNat) &&
  rangeHeld (deckAt s pk.dstDeck.toNat) pk.offset.toNat (if pk.type = 1 then pk.imm.toNat else pk.len)

/-- Serve a request by its type, count it, reply. -/
def deliver (s : State) (pk : Packet) (errs : List SectorErr) : State :=
  let close := fun (s : State) st => modNet s (fun n =>
    countDone (clockNs s) (if st = stNotBound then { n with notBound := satInc n.notBound } else n) pk (recorded st))
  if pk.type = 1 then
    let r := serveRead s pk errs
    let s1 := close r.2.2 r.1
    if r.1 = stGood then replyData s1 pk (if pk.space = 2 then 8 else pk.imm.toNat) r.2.1 else replyTo s1 pk r.1 false
  else
    let r := if pk.type = 0 then serveWrite s pk else if pk.type = 2 then serveAtom s pk
      else if pk.type = 3 then serveSig s pk else serveResend s pk
    replyTo (close r.2 r.1) pk r.1 false

/-- Poison the object that a discarded SIG names (R137, R369, R370). -/
def poisonNamed (s : State) (pk : Packet) (st : Status) : State :=
  let d := pk.dstDeck.toNat
  if pk.type ≠ 3 ∨ pk.space ≠ 2 ∨ destRefusal s pk ≠ none then s
  else
    let go := fun o => if objAlloc (deckAt s d) o then applyRes s d (settle (deckAt s d) [.poison o st false]) else s
    match syncWordAt pk.offset.toNat with
    | some (.set o) => go o
    | some (.signal o) => go o
    | some (.poison o) => go o
    | _ => s

/-- Discard a fenced packet with a status. -/
def discardFenced (s : State) (pk : Packet) (st : Status) : State :=
  replyTo (poisonNamed (modNet s (fun n => countDone (clockNs s) n pk st)) pk st) pk st false

/-- The entry's count and recorded status for a fenced packet. -/
def fenceState (n : Net) (pk : Packet) : Nat × Status :=
  match fenceFind n pk pk.fepoch with
  | none => (0, 0)
  | some e => (e.count, e.status)

/-- FENCED_PACKET_DELIVER: a fenced packet whose count is reached (R369). -/
def deliverFenced (s : State) (pk : Packet) (errs : List SectorErr) : State :=
  let e := fenceState s.net pk
  if e.2 = 0 then deliver s pk errs else discardFenced s pk e.2

def fenceReady (n : Net) (pk : Packet) : Bool := decide (pk.fcount.toNat ≤ (fenceState n pk).1)

/-- Deliver the held packets whose count is reached, in order. -/
def releaseHeld (fuel : Nat) (s : State) : State :=
  match fuel with
  | 0 => s
  | k + 1 =>
    match s.net.fenceHold.find? (fun x => fenceReady s.net x.pk && !reqHeld s x.pk) with
    | none => s
    | some x =>
      releaseHeld k (deliverFenced (modNet s (fun n => { n with fenceHold := n.fenceHold.erase x })) x.pk [])

/-- A request that has arrived ends with ISOLATED, a fabric flit of its transfer being lost (R31). -/
def isolateRequest (s : State) (pk : Packet) : State :=
  if s.net.arrived.contains pk then
    let s1 := takeArrived s pk
    replyTo (modNet s1 (fun n => countDone (clockNs s) n pk (recorded stIsolated))) pk stIsolated false
  else s

/-- A request packet arrives (R368, R369); where its access has to wait, so does the packet (R315, R329). (DEDUCED, log
entry 34.) -/
def opRequest (s : State) (pk : Packet) (errs : List SectorErr) : State :=
  if reqHeld s pk then s
  else
  let s0 := takeArrived s pk
  let fenced := pk.f && pk.trk
  let full := fenced && !fenceReady s0.net pk && decide (2048 ≤ s0.net.fenceHold.length)
  if !fenceFits s0.net pk || full then
    replyTo (modNet s0 (fun n => { n with refused := satInc n.refused })) pk stPending true
  else
    let s1 := if pk.trk then modNet s0 (fun n =>
        let n1 := fenceAlloc (clockNs s0) n pk pk.fepoch
        if pk.f then fenceAlloc (clockNs s0) n1 pk pk.nepoch else n1)
      else s0
    let s2 := if !fenced then deliver s1 pk errs
      else if fenceReady s1.net pk then deliverFenced s1 pk errs
      else modNet s1 (fun n => { n with fenceHold := n.fenceHold ++ [{ pk := pk, since := clockNs s0 }] })
    releaseHeld s2.net.fenceHold.length s2

/-- FENCE_WAIT_EXPIRE: a held packet has waited FENCE_WAIT_US (R370). -/
def opFenceWaitExpire (s : State) (i : Nat) : State :=
  match s.net.fenceHold[i]? with
  | none => s
  | some x =>
    if clockNs s < x.since + 1000 * s.net.fenceWaitUs.toNat then s
    else
      let s1 := modNet s (fun n => { n with fenceHold := n.fenceHold.eraseIdx i, fenceDiscard := satInc n.fenceDiscard })
      let s2 := discardFenced s1 x.pk stLinkLost
      releaseHeld s2.net.fenceHold.length s2

/-- FENCE_ENTRY_EXPIRE: an entry is freed 4 ms after its last delivery, or after its allocation where there was none (R368 step
5). -/
def opFenceEntryExpire (s : State) (i : Nat) : State :=
  match s.net.tracker[i]? with
  | none => s
  | some e => if clockNs s < e.last + 4000000 then s else modNet s (fun n => { n with tracker := n.tracker.eraseIdx i })

/-! ### Replies (R135, R372, R375, R443) -/

/-- Count a reply that no request awaits (R157, R372): also in CTX_DROP while its transaction belonged to a context in
quarantine (R443). -/
def lateReply (s : State) (pk : Packet) : State :=
  let d := pk.dstDeck.toNat
  let s1 := modNet s (fun n => { n with lateReply := satInc n.lateReply })
  let k := deckAt s1 d
  if k.ctxs.any (fun e => decide (e.2.life = .quarantine) && e.2.retired.contains (pk.srcCore.toNat, pk.txn.toNat)) then
    setDeck s1 d { k with ctxDrop := satInc k.ctxDrop }
  else s1

/-- A completion of a transfer within the module that the wrapper has completed is discarded and counted (R157). -/
def lateDone (s : State) : State := modNet s (fun n => { n with lateReply := satInc n.lateReply })

/-- Is a reply for a deck that holds its tag? Else nothing of it is consumed (R47). -/
def replyBound (s : State) (pk : Packet) : Bool :=
  match deckBind s pk.dstDeck.toNat with
  | some b => b.tag == pk.tag
  | none => false

/-- A packet of which nothing is consumed (R47). (DEDUCED, log entry 58.) -/
def refuseReply (s : State) : State := modNet s (fun n => { n with notBound := satInc n.notBound })

/-- PKT_ACK. (DEDUCED, log entry 46.) -/
def opAck (s0 : State) (pk : Packet) : State :=
  let s := takeArrived s0 pk
  let d := pk.dstDeck.toNat
  let i := pk.srcCore.toNat
  if pk.srcCore = 0xFFF then s
  else if !memUp (deckAt s d) then modNet s (fun n => { n with lateReply := satInc n.lateReply })
  else if !replyBound s pk then refuseReply s
  else match mapGet none (coreAt (deckAt s d) i).txns pk.txn.toNat with
    | none => lateReply s pk
    | some x =>
      if pk.retry then
        modDeck s d (fun k => modCore k i (fun c => { c with txns := mapSet none c.txns pk.txn.toNat (some { x with retry := true, retryAt := clockNs s }) }))
      else onDeck s d (fun k => endRequest (coreEnv s d) k i pk.txn.toNat pk.status)

/-- Store a DATA packet of a GET at the requester (R131). -/
def storeData (env : CoreEnv) (e : MovEntry) (pk : Packet) (i : Nat) (k : Deck) : DeckRes :=
  let a := e.dst.toNat + pk.offset.toNat
  let st := writeSt env k a pk.len
  let r := writeDeck env k a pk.len pk.payload
  if st = stGood then r
  else (modCore r.1 i (fun c => movMod c e.seq (fun x => { x with err := if x.err = 0 then st else x.err })), r.2)

/-- PKT_DATA: the bytes are written at the requester, or the word is its result. -/
def opData (s0 : State) (pk : Packet) : State :=
  let s := takeArrived s0 pk
  let d := pk.dstDeck.toNat
  let i := pk.srcCore.toNat
  let t := pk.txn.toNat
  if !memUp (deckAt s d) then modNet s (fun n => { n with lateReply := satInc n.lateReply })
  else if !replyBound s pk then refuseReply s
  else match mapGet none (coreAt (deckAt s d) i).txns t with
    | none => lateReply s pk
    | some x =>
      match movAt (coreAt (deckAt s d) i) x.seq with
      | none => lateReply s pk
      | some e =>
        if pk.status ≠ stGood then onDeck s d (fun k => endRequest (coreEnv s d) k i t pk.status)
        else if e.op = opSYNCRD then
          onDeck s d (fun k => pump (coreEnv s d) (modCore k i (fun c =>
            movMod { c with txns := mapSet none c.txns t none } e.seq (fun x =>
              { x with value := some (BitVec.ofNat 64 (readNat pk.payload 0 8)), rest := 0 }))) i)
        else
          onDeck s d (fun k => thenDeck (storeData (coreEnv s d) e pk i k) (fun k =>
            if x.left ≤ 1 then endRequest (coreEnv s d) k i t stGood
            else
              let rest := some { x with left := x.left - 1 }
              (modCore k i (fun c => { c with txns := mapSet none c.txns t rest }), [])))

/-! ### Class S (R86, R362, R376, R377, R443) -/

/-- The chunk size of a slot: that of its collective here (R362). (DEDUCED, log entry 56.) -/
def slotChunk (s : State) (slot : BitVec 16) : Option Nat :=
  (s.churn.colls.find? (fun c => c.desc.slot == slot && c.tstep == s.tt.step.toNat)).map (fun c => 2 ^ (12 + c.desc.chunkLog))

/-- Is a slot bound only to contexts in quarantine (R443)? The deck that counts. -/
def retiredSlot (s : State) (slot : BitVec 16) : Option Nat :=
  let cs := s.churn.colls.filter (fun c => c.desc.slot == slot)
  if cs.any (fun c => !c.silent) then none
  else (cs.find? (fun c => decide ((ctxAt (deckAt s c.deck) c.ctx.toNat).life = .quarantine))).map (·.deck)

/-- The port opposite a ring port. -/
def opposite (p : Nat) : Nat := if p % 2 = 1 then p + 1 else p - 1

/-- Does a packet of the slot arrive in a COLL sailing of it, as the receive timetable expects the peer's sailings, one link delay
after the own hall time (R84)? -/
def inSailing (s : State) (p : Nat) (slot : BitVec 16) : Bool :=
  let arrival := hallNs s - (linkAt s.htu p).delay.toNat / 256
  let e := epochNs s.tt s.tt.step.toNat
  s.tt.armed && s.tt.begun && (slotRecords s p 1 slot).any (fun x =>
    decide (e + 5 * x.start ≤ arrival) && decide (arrival ≤ e + 5 * (x.start + x.len)))

/-- The union of UNDEL over the packets of a chunk that have come, and whether `pkt` is the chunk's last (R377). -/
def lastOf (s : State) (p : Nat) (pk : Packet) : Bool := (landedAt s p pk.slot pk.chunk.toNat).len == pk.pkt.toNat + 1

/-- Is the copy for this module deliverable: is the destination deck not fenced, and is the tag its binding's (R377)? -/
def mcDeliverable (s : State) (pk : Packet) : Bool :=
  syncUp (deckAt s pk.dstDeck.toNat) && (match deckBind s pk.dstDeck.toNat with
    | some b => b.tag == pk.tag
    | none => false)

/-- A multicast packet that has come (R376, R377): its copy is delivered, dropped, or not for this module; it goes on in the same
direction while members remain; the last module reports the union of UNDEL with a chunk's last packet. `landed` says whether
its landing took it. -/
def multicast (s : State) (p : Nat) (pk : Packet) (landed : Bool) : State :=
  let k := (coordsOf (ownModule s))[portAxis p]?.getD 0
  let mine := pk.mcmask.getLsbD k
  let dropped := mine && !(landed && mcDeliverable s pk)
  let mask := setBit pk.mcmask k false
  let undel := if dropped then setBit pk.undel k true else pk.undel
  let s1 := if dropped then modPort s p (fun q => { q with mcFenced := satInc q.mcFenced }) else s
  let s2 := modLanded s1 p pk.slot pk.chunk.toNat (fun l =>
    { l with undel := l.undel ||| undel, delivered := l.delivered && mine && !dropped })
  if mask ≠ 0 then
    modChurn s2 (fun c => { c with forward := c.forward ++ [(opposite p, { pk with mcmask := mask, undel := undel })] })
  else if lastOf s2 p pk then
    hubSend s2 { cls := .m, type := 2, tag := pk.tag, dst := pk.src, dstDeck := pk.srcDeck, src := ownModule s, srcCore := 0xFFF,
                 slot := pk.slot, chunk := pk.chunk, undel := (landedAt s2 p pk.slot pk.chunk.toNat).undel }
  else s2

/-- Land a packet and, where it is a multicast one, send it on. -/
def landMulticast (s : State) (p : Nat) (pk : Packet) (size : Nat) : State :=
  let s1 := landPacket s p pk size
  if pk.mc then multicast s1 p pk (landPlace s p pk size).isSome else s1

/-- PKT_CHUNK: outside a COLL sailing of its slot a packet is unexpected; for contexts in quarantine alone it is dropped; the
place of one whose chunk size no accepted collective tells waits (R84, R86, R362, R376, R402, R443). -/
def opChunk (s0 : State) (p : Nat) (pk : Packet) : State :=
  let s := takeArrived s0 pk
  if !inSailing s p pk.slot then
    modPort s p (fun q => { q with tt := { q.tt with unexpected := satInc q.tt.unexpected } })
  else
    let s1 := beginChunk s p pk
    match retiredSlot s pk.slot with
    | some d =>
      let s2 := modDeck s1 d (fun k => { k with ctxDrop := satInc k.ctxDrop })
      if pk.mc then multicast s2 p pk false else s2
    | none =>
      match slotChunk s pk.slot with
      | some size => landMulticast s1 p pk size
      | none =>
        if firstChunk s p pk then landMulticast s1 p pk 0
        else
          let s2 := modChurn s1 (fun c => { c with
            unplaced := c.unplaced ++ [(p, pk, deadlineNs s pk.slot s.tt.step.toNat)] })
          if pk.mc then multicast s2 p pk true else s2

/-! ### Notices (R82, R365, R377) -/

/-- What a vacancy notice's reason brings to the members of the slot (R82, R406). -/
def vacancyStatus (reason : BitVec 4) : Option Status :=
  if reason = 0 ∨ reason = 4 then none
  else if reason = 1 then some stPeerReset
  else if reason = 3 then some stNotBound
  else some stLate

/-- PKT_VACANCY: the receiver counts the notice; of a slot that its receive timetable holds on the port it learns what the
reason says (R82, R84, R406). -/
def opVacancy (s0 : State) (p : Nat) (pk : Packet) : State :=
  let s := modPort (takeArrived s0 pk) p (fun q => { q with tt := { q.tt with vacantRecv := satInc q.tt.vacantRecv } })
  match vacancyStatus pk.reason with
  | none => s
  | some st =>
    if (slotRecords s p 1 pk.slot).isEmpty then s
    else
      let s1 := if hallNs s < deadlineNs s pk.slot pk.step.toNat then
          noteEarly s { slot := pk.slot, tstep := pk.step.toNat, status := st }
        else s
      (s.churn.colls.filter (fun c => c.desc.slot == pk.slot && c.tstep == pk.step.toNat && !c.silent)).foldl
        (fun s c => match s.churn.colls.find? (isColl c.deck c.desc.slot c.tstep) with
          | none => s
          | some x => if x.learned.contains st then s else learn s x st) s1

/-- PKT_CONTROL: into the CMDP inbox, or discarded when it is full. -/
def opControl (s0 : State) (pk : Packet) : State :=
  modNet (takeArrived s0 pk) (fun n =>
    if n.inbox.length < Config.inboxPlaces then { n with inbox := n.inbox ++ [pk] } else { n with inboxDrop := satInc n.inboxDrop })

/-- The CMDP takes a Churn notice out of its inbox. -/
def takeNotice (s : State) (kind : Nat) (slot : BitVec 16) : State :=
  modNet s (fun n => { n with inbox := n.inbox.eraseP (fun pk =>
    readNat pk.payload 0 2 == kind && readNat pk.payload 2 2 == slot.toNat) })

/-- The port on which a broadcast reaches a module of the own ring: + up to the hops that + covers (R391). -/
def reportPort (s : State) (m : BitVec 17) : Option Nat :=
  let here := coordsOf (ownModule s)
  let there := coordsOf m
  match [1, 2, 3].find? (fun a => here[a]? != there[a]?) with
  | none => none
  | some a =>
    let n := axisSize s a
    let f := ((there[a]?).getD 0 + n - (here[a]?).getD 0) % n
    some (if f ≤ mcPlus n then (ringPorts a).1 else (ringPorts a).2)

/-- A BCAST root notes a report: the chunk is reported, with the members that it did not reach (R404, R410). -/
def noteReport (p : Nat) (pk : Packet) (s : State) (c : Coll) : State :=
  let key := chunkKey p pk.chunk.toNat
  if (reportsDue s c).contains key && !mapGet false c.reports key then
    putColl s { c with reports := mapSet false c.reports key true, undel := c.undel ||| pk.undel,
                       undelAxis := if pk.undel = 0 then c.undelAxis else BitVec.ofNat 2 (portAxis p) }
  else s

/-- PKT_MC_REPORT: whichever deck of this module is the root's, it notes the undelivered members of a chunk (R377, R410).
(DEDUCED, log entry 36.) -/
def opMcReport (s0 : State) (pk : Packet) : State :=
  let s := takeArrived s0 pk
  match reportPort s pk.src with
  | none => s
  | some p =>
    (s.churn.colls.filter (fun c => c.desc.slot == pk.slot && c.desc.op == 4 && !c.done)).foldl (noteReport p pk) s

/-! ### Transfers of a core within the module (R8, R53) -/

/-- The request that an instruction makes of its own module, over the fabric. -/
def fabricReq (s : State) (d i : Nat) (e : MovEntry) (type : BitVec 4) (a : W64) (off len : Nat) (m : Cells) : Packet :=
  let c := coreAt (deckAt s d) i
  { cls := .q, data := true, type := type, tag := c.tag, dst := ownModule s, dstDeck := hallDeck a, space := hallSpace a,
    src := ownModule s, srcDeck := BitVec.ofNat 3 d, offset := BitVec.ofNat 40 off, srcCore := BitVec.ofNat 12 i,
    imm := BitVec.ofNat 32 len, atype := e.atype.setWidth 4, len := len, payload := m }

/-- Can a deck reach what a request names: the hub window only over its own hub link (R28, R29)? -/
def hubReach (s : State) (d : Nat) (pk : Packet) : Bool := pk.space != 1 || !(deckAt s d).hubLinkFailed

/-- The pieces of 512 bytes of a PUT or ATOM, each served in turn; the first error stays. -/
def fabricPieces (s : State) (d i : Nat) (e : MovEntry) (m : Cells) : Status × State :=
  (List.range ((e.len + 511) / 512)).foldl (fun (r : Status × State) k =>
    let n := min 512 (e.len - 512 * k)
    let pk := fabricReq r.2 d i e (if e.op = opPUT then 0 else 2) e.dst ((hallOffset e.dst).toNat + 512 * k) n
      (mapSlice m (512 * k) n)
    let q := if !hubReach r.2 d pk then (stIsolated, r.2) else if e.op = opPUT then serveWrite r.2 pk else serveAtom r.2 pk
    (if r.1 = 0 then q.1 else r.1, q.2)) (stGood, s)

/-- A transfer ends, and what waits behind it starts. -/
def endLocal (s : State) (d i : Nat) (e : MovEntry) (st : Status) : State :=
  onDeck s d (fun k => thenDeck (endTransfer k i e st) (fun k => pump (coreEnv s d) k i))

/-- A PUT or ATOM whose hall address names the own module. -/
def fabricSend (s : State) (d i : Nat) (e : MovEntry) (errs : List SectorErr) : State :=
  let env := coreEnv s d
  let s0 := if placeOf env e.src.toNat e.len = .stack then onDeck s d (eccRange (hallNs s) e.src.toNat e.len errs) else s
  match readDeck env (deckAt s0 d) e.src.toNat e.len with
  | .data m =>
    let r := fabricPieces s0 d i e m
    endLocal r.2 d i e r.1
  | .poison => endLocal s0 d i e stMemPoison
  | .noHub => endLocal s0 d i e stIsolated
  | .spadError => onDeck s0 d (fun k => thenDeck (endSpadError k i e) (fun k => pump env k i))

/-- A GET whose hall address names the own module. -/
def fabricGet (s : State) (d i : Nat) (e : MovEntry) (errs : List SectorErr) : State :=
  let pk := fabricReq s d i e 1 e.src (hallOffset e.src).toNat e.len []
  let r := if hubReach s d pk then serveRead s pk errs else (stIsolated, [], s)
  if r.1 ≠ stGood then endLocal r.2.2 d i e r.1
  else
    let env := coreEnv r.2.2 d
    let st := writeSt env (deckAt r.2.2 d) e.dst.toNat e.len
    endLocal (onDeck r.2.2 d (fun k => writeDeck env k e.dst.toNat e.len r.2.1)) d i e st

/-- A SIG or SYNCRD of another deck of the module: a remote access (R146). -/
def fabricSync (s : State) (d i : Nat) (e : MovEntry) (t : BitVec 17 × Nat × Nat) : State :=
  let pk := { fabricReq s d i e 3 0 t.2.2 8 [] with dstDeck := BitVec.ofNat 3 t.2.1, space := 2 }
  if e.op = opSIG then
    let r := serveSig s { pk with imm := e.src.setWidth 32 }
    endLocal r.2 d i e r.1
  else if movBehind (coreAt (deckAt s d) i) e.seq then s
  else
    let r := serveRead s pk []
    if r.1 ≠ stGood then endLocal r.2.2 d i e r.1
    else
      let v := BitVec.ofNat 64 (readNat r.2.1 0 8)
      onDeck r.2.2 d (fun k =>
        pump (coreEnv s d) (settleEnd (giveResult (modCore k i (fun c => movDrop c e.seq)) i e.seq e.rd v) i) i)

/-- Is a started hold instruction the oldest of its context (R288)? -/
def holdTurn (k : Deck) (i : Nat) (e : MovEntry) : Bool :=
  match k.holdQ.find? (fun q => q.1 == (coreAt k i).ctx) with
  | some q => q.2 == (i, e.seq)
  | none => false

/-- Does a running transfer wait for a channel or a row of the deck, or of another deck of the module (R315, R329)? -/
def movHeld (s : State) (d i : Nat) (e : MovEntry) : Bool :=
  let k := deckAt s d
  let env := coreEnv s d
  let here := fun (a : W64) n => placeOf env a.toNat n == .stack && rangeHeld k a.toNat n
  let there := fun (a : W64) => hallSpace a == 0 && rangeHeld (deckAt s (hallDeck a).toNat) (hallOffset a).toNat e.len
  let h := (ctxAt k (coreAt k i).ctx.toNat).hold
  let top := h.base.toNat + h.top.toNat
  if e.op = opMOV ∨ e.op = opMOVT then here e.src e.len || here e.dst e.len
  else if e.op = opATOM ∧ e.hall = false then here e.src e.len || rangeHeld k e.dst.toNat e.len
  else if e.op = opHPUSH then here e.src e.len || rangeHeld k top (e.len + 32)
  else if e.op = opHPOP then here e.dst e.len || rangeHeld k (top - e.len - 32) (e.len + 32)
  else if e.op = opGET then here e.dst e.len || there e.src
  else if e.op = opSIG ∨ e.op = opSYNCRD then false
  else here e.src e.len || there e.dst

/-- The priority-3 reads of a transfer's source (R308). -/
def movPrio3 (s : State) (d : Nat) (e : MovEntry) : State :=
  if e.prio = 3 ∧ placeOf (coreEnv s d) e.src.toNat e.len = .stack ∧ (e.op = opMOV ∨ e.op = opMOVT ∨ e.op = opPUT) then
    modDeck s d (fun k => notePrio3 k e.src.toNat e.len)
  else s

/-- MOVER_TRANSFER_COMPLETE: a started transfer of a core to or from its own module ends (R112, R135, R245, R288,
R311). (DEDUCED, log entry 17.) -/
def endMove (s : State) (d i : Nat) (e : MovEntry) (errs : List SectorErr) : State :=
  let k := deckAt s d
  let env := coreEnv s d
  let next := fun (r : Deck → DeckRes) => onDeck s d (fun k => thenDeck (r k) (fun k => pump env k i))
  if e.op = opMOV ∨ e.op = opMOVT then next (fun k => localMove env env.now k i e errs)
  else if e.op = opATOM ∧ !e.hall then next (fun k => localAtom env env.now k i e errs)
  else if e.op = opHPUSH then (if holdTurn k i e then next (fun k => holdPush env env.now k i e errs) else s)
  else if e.op = opHPOP then (if holdTurn k i e then next (fun k => holdPop env env.now k i e errs) else s)
  else if e.op = opGET then fabricGet s d i e errs
  else if e.op = opSIG ∨ e.op = opSYNCRD then
    match syncTarget env (if e.op = opSIG then e.dst else e.src) with
    | none => next (fun k => endTransfer k i e stBadParam)
    | some t => if t.2.1 = d then next (fun k => localSync env k i e) else fabricSync s d i e t
  else fabricSend s d i e errs

/-- MOVER_TRANSFER_COMPLETE for the transfer with number `seq`: one that waits for a channel or a row goes on later (R315,
R329), one that the wrapper has completed is late (R157). -/
def opTransferComplete (s : State) (d i seq : Nat) (errs : List SectorErr) : State :=
  let k := deckAt s d
  match movAt (coreAt k i) seq with
  | none =>
    if (coreAt k i).isolated.contains seq then
      lateDone (modDeck s d (fun k => modCore k i (fun c => { c with isolated := c.isolated.erase seq })))
    else s
  | some e =>
    if !e.started || e.remote || movHeld s d i e then s else endMove (movPrio3 s d e) d i e errs

end Sys2Proof.Machine
end

