-- ==== Sys2Proof/Machine/ExecCore.lean ====
section
/-! DEFINITION. The commands of the cores (chapters 03 to 06): a core instruction carries its fields, and what an
engine, the Tally unit, a gang or the DKC does later has a command of its own. -/
namespace Sys2Proof.Machine
open Sys2Proof

/-- Issue a scalar instruction on a core. -/
def scalarOp (s : State) (c : CoreRef) (wf : Bool) (body : Core → CoreStep) : Res :=
  done (onDeck s c.deck (fun k => (issueScalar k c.core wf body, [])))

/-- A queued instruction of an engine completes (R113): the oldest of the vector or the matrix queue. A mover instruction
completes through MOVER_TRANSFER_COMPLETE, and scalar instructions queue nowhere. -/
def opEngineDone (d : Deck) (i : Nat) (e : Engine) : DeckRes :=
  match e with
  | .scalar => (d, [])
  | .vector => completeVecHead d i
  | .matrix => completeMatHead d i
  | .mover => (d, [])

/-- The opcodes of chapter 04's tables; every other code is reserved (R190). -/
def opDefined (op : Nat) : Bool :=
  decide (op ≤ 0x07) || (decide (0x10 ≤ op) && decide (op ≤ 0x29)) || (decide (0x30 ≤ op) && decide (op ≤ 0x36)) ||
  (decide (0x38 ≤ op) && decide (op ≤ 0x3D)) || (decide (0x40 ≤ op) && decide (op ≤ 0x4A)) ||
  (decide (0x50 ≤ op) && decide (op ≤ 0x57)) || (decide (0x80 ≤ op) && decide (op ≤ 0x8C)) || op == 0x90 || op == 0x91 ||
  (decide (0xA0 ≤ op) && decide (op ≤ 0xA3)) || (decide (0xB0 ≤ op) && decide (op ≤ 0xB4)) || op == 0xC0 || op == 0xC1 ||
  op == 0xD0 || op == 0xD1

/-- A word with a reserved opcode is issued: the core faults with BAD_OPCODE (R190, R192). -/
def opBadOpcode (d : Deck) (i : Nat) (w : W64) : Deck :=
  let c := coreAt d i
  if c.run ≠ .ready || opDefined (w.toNat % 256) then d else coreFault d i stBadOpcode 0 c.pc

/-- NOP (R186). -/
def execNop (c : CoreRef) (f : FmtC) (s : State) : Res := scalarOp s c (wfNone f) (bodyNop)

/-- END (R187). -/
def execEndKernel (c : CoreRef) (f : FmtC) (s : State) : Res := done (onDeck s c.deck (fun k => (opEnd k c.core f, [])))

/-- CSRR (R188). -/
def execCsrr (c : CoreRef) (f : FmtC) (s : State) : Res := scalarOp s c (wfCsrr f) (bodyCsrr (coreEnv s c.deck) c.core f)

/-- CSRW (R188). -/
def execCsrw (c : CoreRef) (f : FmtC) (s : State) : Res := scalarOp s c (wfCsrw f) (bodyCsrw f)

/-- LOOP (R138). -/
def execLoop (c : CoreRef) (f : FmtC) (s : State) : Res := done (onDeck s c.deck (fun k => (opLoop k c.core f, [])))

/-- FENCE (R128). -/
def execFence (c : CoreRef) (f : FmtC) (s : State) : Res := done (onDeck s c.deck (fun k => (opFence k c.core f, [])))

/-- FENCE_RELEASE (R128). -/
def execFenceRelease (c : CoreRef) (s : State) : Res := done (onDeck s c.deck (fun k => (opFenceRelease k c.core, [])))

/-- WAIT (R150). -/
def execWaitObj (c : CoreRef) (f : FmtC) (s : State) : Res := done (onDeck s c.deck (fun k => (opWait (coreEnv s c.deck) k c.core f, [])))

/-- WAITT (R152). -/
def execWaitt (c : CoreRef) (f : FmtC) (s : State) : Res :=
  done (onDeck s c.deck (fun k => (opWaitt (coreEnv s c.deck) k c.core f, [])))

/-- WAITT_EXPIRE (R152). -/
def execWaittExpire (c : CoreRef) (s : State) : Res :=
  done (onDeck s c.deck (fun k => (opWaittExpire (coreEnv s c.deck) k c.core, [])))

/-- ADD (R186). -/
def execAdd (c : CoreRef) (f : FmtR) (s : State) : Res := scalarOp s c (wfR2 f) (bodyRR (· + ·) f)

/-- SUB (R186). -/
def execSub (c : CoreRef) (f : FmtR) (s : State) : Res := scalarOp s c (wfR2 f) (bodyRR (· - ·) f)

/-- AND (R186). -/
def execAndOp (c : CoreRef) (f : FmtR) (s : State) : Res := scalarOp s c (wfR2 f) (bodyRR (· &&& ·) f)

/-- OR (R186). -/
def execOrOp (c : CoreRef) (f : FmtR) (s : State) : Res := scalarOp s c (wfR2 f) (bodyRR (· ||| ·) f)

/-- XOR (R186). -/
def execXor (c : CoreRef) (f : FmtR) (s : State) : Res := scalarOp s c (wfR2 f) (bodyRR (· ^^^ ·) f)

/-- SLL (R186). -/
def execSll (c : CoreRef) (f : FmtR) (s : State) : Res := scalarOp s c (wfR2 f) (bodyRR aluSll f)

/-- SRL (R186). -/
def execSrl (c : CoreRef) (f : FmtR) (s : State) : Res := scalarOp s c (wfR2 f) (bodyRR aluSrl f)

/-- SRA (R186). -/
def execSra (c : CoreRef) (f : FmtR) (s : State) : Res := scalarOp s c (wfR2 f) (bodyRR aluSra f)

/-- SLT (R186). -/
def execSlt (c : CoreRef) (f : FmtR) (s : State) : Res := scalarOp s c (wfR2 f) (bodyRR aluSlt f)

/-- SLTU (R186). -/
def execSltu (c : CoreRef) (f : FmtR) (s : State) : Res := scalarOp s c (wfR2 f) (bodyRR aluSltu f)

/-- MUL (R186). -/
def execMul (c : CoreRef) (f : FmtR) (s : State) : Res := scalarOp s c (wfR2 f) (bodyRR (· * ·) f)

/-- MULHU (R186). -/
def execMulhu (c : CoreRef) (f : FmtR) (s : State) : Res := scalarOp s c (wfR2 f) (bodyRR aluMulhu f)

/-- DIV (R121). -/
def execDiv (c : CoreRef) (f : FmtR) (s : State) : Res := scalarOp s c (wfR2 f) (bodyRR divSigned f)

/-- DIVU (R121). -/
def execDivu (c : CoreRef) (f : FmtR) (s : State) : Res := scalarOp s c (wfR2 f) (bodyRR divUnsigned f)

/-- REM (R121). -/
def execRem (c : CoreRef) (f : FmtR) (s : State) : Res := scalarOp s c (wfR2 f) (bodyRR remSigned f)

/-- REMU (R121). -/
def execRemu (c : CoreRef) (f : FmtR) (s : State) : Res := scalarOp s c (wfR2 f) (bodyRR remUnsigned f)

/-- ADDI (R186). -/
def execAddi (c : CoreRef) (f : FmtI) (s : State) : Res := scalarOp s c (wfI f) (bodyRI (· + ·) f)

/-- ANDI (R186). -/
def execAndi (c : CoreRef) (f : FmtI) (s : State) : Res := scalarOp s c (wfI f) (bodyRI (· &&& ·) f)

/-- ORI (R186). -/
def execOri (c : CoreRef) (f : FmtI) (s : State) : Res := scalarOp s c (wfI f) (bodyRI (· ||| ·) f)

/-- XORI (R186). -/
def execXori (c : CoreRef) (f : FmtI) (s : State) : Res := scalarOp s c (wfI f) (bodyRI (· ^^^ ·) f)

/-- SLLI (R186). -/
def execSlli (c : CoreRef) (f : FmtI) (s : State) : Res := scalarOp s c (wfIShift f) (bodyRI aluSll f)

/-- SRLI (R186). -/
def execSrli (c : CoreRef) (f : FmtI) (s : State) : Res := scalarOp s c (wfIShift f) (bodyRI aluSrl f)

/-- SRAI (R186). -/
def execSrai (c : CoreRef) (f : FmtI) (s : State) : Res := scalarOp s c (wfIShift f) (bodyRI aluSra f)

/-- SLTI (R186). -/
def execSlti (c : CoreRef) (f : FmtI) (s : State) : Res := scalarOp s c (wfI f) (bodyRI aluSlt f)

/-- SLTIU (R186). -/
def execSltiu (c : CoreRef) (f : FmtI) (s : State) : Res := scalarOp s c (wfI f) (bodyRI aluSltu f)

/-- LIH (R186). -/
def execLih (c : CoreRef) (f : FmtI) (s : State) : Res := scalarOp s c (wfI f) (bodyLih f)

/-- LDB (R120). -/
def execLdb (c : CoreRef) (f : FmtI) (s : State) : Res := scalarOp s c (wfI f) (bodyLoad 1 false f)

/-- LDH (R120). -/
def execLdh (c : CoreRef) (f : FmtI) (s : State) : Res := scalarOp s c (wfI f) (bodyLoad 2 false f)

/-- LDW (R120). -/
def execLdw (c : CoreRef) (f : FmtI) (s : State) : Res := scalarOp s c (wfI f) (bodyLoad 4 false f)

/-- LDD (R120). -/
def execLdd (c : CoreRef) (f : FmtI) (s : State) : Res := scalarOp s c (wfI f) (bodyLoad 8 false f)

/-- LDBS (R120). -/
def execLdbs (c : CoreRef) (f : FmtI) (s : State) : Res := scalarOp s c (wfI f) (bodyLoad 1 true f)

/-- LDHS (R120). -/
def execLdhs (c : CoreRef) (f : FmtI) (s : State) : Res := scalarOp s c (wfI f) (bodyLoad 2 true f)

/-- LDWS (R120). -/
def execLdws (c : CoreRef) (f : FmtI) (s : State) : Res := scalarOp s c (wfI f) (bodyLoad 4 true f)

/-- STB (R120). -/
def execStb (c : CoreRef) (f : FmtI) (s : State) : Res := scalarOp s c (wfIStore f) (bodyStore 1 f)

/-- STH (R120). -/
def execSth (c : CoreRef) (f : FmtI) (s : State) : Res := scalarOp s c (wfIStore f) (bodyStore 2 f)

/-- STW (R120). -/
def execStw (c : CoreRef) (f : FmtI) (s : State) : Res := scalarOp s c (wfIStore f) (bodyStore 4 f)

/-- STD (R120). -/
def execStd (c : CoreRef) (f : FmtI) (s : State) : Res := scalarOp s c (wfIStore f) (bodyStore 8 f)

/-- LDS (R120). -/
def execLds (c : CoreRef) (f : FmtI) (s : State) : Res :=
  done (onDeck s c.deck (fun k => opSpadScalar k c.core (wfI f) (bodyLds f)))

/-- STS (R125). -/
def execSts (c : CoreRef) (f : FmtI) (s : State) : Res :=
  done (onDeck s c.deck (fun k => opSpadScalar k c.core (wfIStore f) (bodySts f)))

/-- FADD (R203). -/
def execFadd (c : CoreRef) (f : FmtR) (s : State) : Res := scalarOp s c (wfR2 f) (bodyF2 f32Add f)

/-- FSUB (R203). -/
def execFsub (c : CoreRef) (f : FmtR) (s : State) : Res := scalarOp s c (wfR2 f) (bodyF2 f32Sub f)

/-- FMUL (R203). -/
def execFmul (c : CoreRef) (f : FmtR) (s : State) : Res := scalarOp s c (wfR2 f) (bodyF2 f32Mul f)

/-- FFMA (R203). -/
def execFfma (c : CoreRef) (f : FmtR) (s : State) : Res := scalarOp s c (wfR3 f) (bodyF3 f32Fma f)

/-- FMIN (R204). -/
def execFmin (c : CoreRef) (f : FmtR) (s : State) : Res := scalarOp s c (wfR2 f) (bodyF2 f32Min f)

/-- FMAX (R204). -/
def execFmax (c : CoreRef) (f : FmtR) (s : State) : Res := scalarOp s c (wfR2 f) (bodyF2 f32Max f)

/-- FLT (R204). -/
def execFlt (c : CoreRef) (f : FmtR) (s : State) : Res := scalarOp s c (wfR2 f) (bodyFcmp fvLtC f)

/-- FLE (R204). -/
def execFle (c : CoreRef) (f : FmtR) (s : State) : Res := scalarOp s c (wfR2 f) (bodyFcmp fvLe f)

/-- FEQ (R204). -/
def execFeq (c : CoreRef) (f : FmtR) (s : State) : Res := scalarOp s c (wfR2 f) (bodyFcmp fvEq f)

/-- FCVT_S_L (R186). -/
def execFcvtSL (c : CoreRef) (f : FmtR) (s : State) : Res := scalarOp s c (wfR1 f) (bodyFcvtSL f)

/-- FCVT_L_S (R186). -/
def execFcvtLS (c : CoreRef) (f : FmtR) (s : State) : Res := scalarOp s c (wfR1 f) (bodyFcvtLS f)

/-- BEQ (R186). -/
def execBeq (c : CoreRef) (f : FmtI) (s : State) : Res := scalarOp s c (wfIStore f) (bodyBranch (fun a b => a == b) f)

/-- BNE (R186). -/
def execBne (c : CoreRef) (f : FmtI) (s : State) : Res := scalarOp s c (wfIStore f) (bodyBranch (fun a b => a != b) f)

/-- BLT (R186). -/
def execBlt (c : CoreRef) (f : FmtI) (s : State) : Res := scalarOp s c (wfIStore f) (bodyBranch BitVec.slt f)

/-- BGE (R186). -/
def execBge (c : CoreRef) (f : FmtI) (s : State) : Res := scalarOp s c (wfIStore f) (bodyBranch (fun a b => !a.slt b) f)

/-- BLTU (R186). -/
def execBltu (c : CoreRef) (f : FmtI) (s : State) : Res := scalarOp s c (wfIStore f) (bodyBranch BitVec.ult f)

/-- BGEU (R186). -/
def execBgeu (c : CoreRef) (f : FmtI) (s : State) : Res := scalarOp s c (wfIStore f) (bodyBranch (fun a b => !a.ult b) f)

/-- JAL (R186). -/
def execJal (c : CoreRef) (f : FmtI) (s : State) : Res := scalarOp s c (wfJal f) (bodyJal f)

/-- JALR (R186). -/
def execJalr (c : CoreRef) (f : FmtI) (s : State) : Res := scalarOp s c (wfI f) (bodyJalr f)

/-- VADD (R186). -/
def execVadd (c : CoreRef) (f : FmtV) (s : State) : Res :=
  done (onDeck s c.deck (fun k => (opVec k c.core 0x80 (wfV2 f) false f, [])))

/-- VSUB (R186). -/
def execVsub (c : CoreRef) (f : FmtV) (s : State) : Res :=
  done (onDeck s c.deck (fun k => (opVec k c.core 0x81 (wfV2 f) false f, [])))

/-- VMUL (R186). -/
def execVmul (c : CoreRef) (f : FmtV) (s : State) : Res :=
  done (onDeck s c.deck (fun k => (opVec k c.core 0x82 (wfV2 f) false f, [])))

/-- VFMA (R186). -/
def execVfma (c : CoreRef) (f : FmtV) (s : State) : Res :=
  done (onDeck s c.deck (fun k => (opVec k c.core 0x83 (wfV3 f) false f, [])))

/-- VMIN (R204). -/
def execVmin (c : CoreRef) (f : FmtV) (s : State) : Res :=
  done (onDeck s c.deck (fun k => (opVec k c.core 0x84 (wfV2 f) false f, [])))

/-- VMAX (R204). -/
def execVmax (c : CoreRef) (f : FmtV) (s : State) : Res :=
  done (onDeck s c.deck (fun k => (opVec k c.core 0x85 (wfV2 f) false f, [])))

/-- VCMP (R186). -/
def execVcmp (c : CoreRef) (f : FmtV) (s : State) : Res :=
  done (onDeck s c.deck (fun k => (opVec k c.core 0x86 (wfVcmp f) false f, [])))

/-- VSEL (R186). -/
def execVsel (c : CoreRef) (f : FmtV) (s : State) : Res :=
  done (onDeck s c.deck (fun k => (opVec k c.core 0x87 (wfVsel f) false f, [])))

/-- VCVT (R202). -/
def execVcvt (c : CoreRef) (f : FmtV) (s : State) : Res :=
  done (onDeck s c.deck (fun k => (opVec k c.core 0x88 (wfVcvt f) false f, [])))

/-- VQNT (R214). -/
def execVqnt (c : CoreRef) (f : FmtV) (s : State) : Res :=
  done (onDeck s c.deck (fun k => (opVec k c.core 0x89 (wfVqnt f) false f, [])))

/-- VRSQS (R255). -/
def execVrsqs (c : CoreRef) (f : FmtV) (s : State) : Res :=
  done (onDeck s c.deck (fun k => (opVec k c.core 0x8A (wfVrsqs f) false f, [])))

/-- VBCST (R556). -/
def execVbcst (c : CoreRef) (f : FmtV) (s : State) : Res :=
  done (onDeck s c.deck (fun k => (opVec k c.core 0x8B (wfVbcst f) false f, [])))

/-- VEXT (R189). -/
def execVext (c : CoreRef) (f : FmtV) (s : State) : Res :=
  done (onDeck s c.deck (fun k => (opVec k c.core 0x8C (wfVext f) true f, [])))

/-- TLYACC (R223). -/
def execTlyacc (c : CoreRef) (f : FmtV) (s : State) : Res :=
  done (onDeck s c.deck (fun k => (opTly k c.core 0x90 (wfTlyacc f) f, [])))

/-- TLYCTR (R224). -/
def execTlyctr (c : CoreRef) (f : FmtV) (s : State) : Res :=
  done (onDeck s c.deck (fun k => (opTly k c.core 0x91 (wfTlyctr f) f, [])))

/-- TALLY_UPDATE_APPLY (R225). -/
def execTallyUpdateApply (d : Fin 8) (s : State) : Res := done (modDeck s d opTallyApply)

/-- MLDS (R233). -/
def execMlds (c : CoreRef) (f : FmtM) (s : State) : Res :=
  done (onDeck s c.deck (fun k => (opMat k c.core 0xA0 (wfMlds f) f, [])))

/-- MMUL (R235). -/
def execMmul (c : CoreRef) (f : FmtM) (s : State) : Res :=
  done (onDeck s c.deck (fun k => (opMat k c.core 0xA1 (wfMmul f) f, [])))

/-- MDRN (R237). -/
def execMdrn (c : CoreRef) (f : FmtM) (s : State) : Res :=
  done (onDeck s c.deck (fun k => (opMat k c.core 0xA2 (wfMdrn f) f, [])))

/-- MZERO (R236). -/
def execMzero (c : CoreRef) (f : FmtM) (s : State) : Res :=
  done (onDeck s c.deck (fun k => (opMat k c.core 0xA3 (wfMzero f) f, [])))

/-- MATRIX_START (R239). -/
def execMatrixStart (c : CoreRef) (s : State) : Res := done (onDeck s c.deck (fun k => (opMatStart k c.core, [])))

/-- GANG_RENDEZVOUS (R241). -/
def execGangRendezvous (d : Fin 8) (pen : Fin 200) (s : State) : Res := done (modDeck s d (fun k => opGang k pen))

/-- GANG_TIMEOUT (R244). -/
def execGangTimeout (d : Fin 8) (pen : Fin 200) (s : State) : Res := done (modDeck s d (fun k => opGangTimeout k pen))

/-- MOV (R130). -/
def execMov (c : CoreRef) (f : FmtX) (s : State) : Res :=
  done (onDeck s c.deck (fun k => opMovI (coreEnv s c.deck) k c.core opMOV (wfMove f) f))

/-- MOVT (R245). -/
def execMovt (c : CoreRef) (f : FmtX) (s : State) : Res :=
  done (onDeck s c.deck (fun k => opMovI (coreEnv s c.deck) k c.core opMOVT (wfMovt f) f))

/-- PUT (R131). -/
def execPut (c : CoreRef) (f : FmtX) (s : State) : Res :=
  done (onDeck s c.deck (fun k => opMovI (coreEnv s c.deck) k c.core opPUT (wfMove f) f))

/-- GET (R131). -/
def execGet (c : CoreRef) (f : FmtX) (s : State) : Res :=
  done (onDeck s c.deck (fun k => opMovI (coreEnv s c.deck) k c.core opGET (wfMove f) f))

/-- ATOM (R311). -/
def execAtom (c : CoreRef) (f : FmtX) (s : State) : Res :=
  done (onDeck s c.deck (fun k => opMovI (coreEnv s c.deck) k c.core opATOM (wfAtom f) f))

/-- SIG (R145). -/
def execSig (c : CoreRef) (f : FmtX) (s : State) : Res :=
  done (onDeck s c.deck (fun k => opMovI (coreEnv s c.deck) k c.core opSIG (wfSig f) f))

/-- SYNCRD (R131). -/
def execSyncrd (c : CoreRef) (f : FmtX) (s : State) : Res :=
  done (onDeck s c.deck (fun k => opMovI (coreEnv s c.deck) k c.core opSYNCRD (wfSyncrd f) f))

/-- HPUSH (R289). -/
def execHpush (c : CoreRef) (f : FmtX) (s : State) : Res :=
  done (onDeck s c.deck (fun k => opMovI (coreEnv s c.deck) k c.core opHPUSH (wfHpush f) f))

/-- HPOP (R290). -/
def execHpop (c : CoreRef) (f : FmtX) (s : State) : Res :=
  done (onDeck s c.deck (fun k => opMovI (coreEnv s c.deck) k c.core opHPOP (wfHpop f) f))

/-- MOVER_TRANSFER_COMPLETE (R135). -/
def execMoverTransferComplete (c : CoreRef) (id : Nat) (errs : List SectorErr) (s : State) : Res :=
  done (opTransferComplete s c.deck c.core id errs)

/-- LAUNCH_STOP_COMPLETE (R156). -/
def execLaunchStopComplete (d : Fin 8) (id : Nat) (s : State) : Res := done (onDeck s d (fun k => opLaunchStop k id))

/-- SYNC_WAIT_TIMEOUT (R155). -/
def execSyncWaitTimeout (d : Fin 8) (w : Who) (s : State) : Res := done (onDeck s d (fun k => opSyncTimeout (coreEnv s d) k w))

/-- ENGINE_INSTRUCTION_COMPLETE (R113). -/
def execEngineInstructionComplete (c : CoreRef) (e : Engine) (s : State) : Res :=
  done (onDeck s c.deck (fun k => opEngineDone k c.core e))

/-- BAD_OPCODE_ISSUE (R190). -/
def execBadOpcodeIssue (c : CoreRef) (w : BitVec 64) (s : State) : Res :=
  done (onDeck s c.deck (fun k => (opBadOpcode k c.core w, [])))

end Sys2Proof.Machine
end

