-- ==== Sys2Proof/Machine/Ports.lean ====
section
/-! DEFINITION. Tensor ports: training and identities (R353 to R358), lanes and width (R336 to R341), port loss (R342),
frames, replay and violations (R347, R348, R352), lasers and fibre (R24, R25, R344, R345, R462 to R465), fabric and hub-link
faults (R29, R31). -/
namespace Sys2Proof.Machine
open Sys2Proof

/-! ### Management events and identity records -/

/-- Set a bit of MGT.EVENTS and report it (R459). -/
def mgtEvent (s : State) (n : Nat) : State :=
  pldmEvent { s with mgmt := { s.mgmt with events := setBit s.mgmt.events n true } } (0x2000 + n)

/-- Is an identity record valid for a socket of kind `kind` (R462, R463)? -/
def recordValid (kind : Nat) (rec : List Byte) : Bool :=
  let m := bytesCells rec
  rec.length == 64 && readNat m 60 4 == (crc32c (rec.take 60)).toNat && readNat m 0 2 == 1 && readNat m 2 1 == kind &&
  readNat m 4 8 != 0 && (readBytes m 22 38).all (· == 0) &&
  (kind != 1 || ((readNat m 3 1 == 0 && readNat m 20 1 == 68) || (readNat m 3 1 == 1 && readNat m 20 1 == 36) ||
    (readNat m 3 1 == 2 && readNat m 20 1 == 20)))

/-- The identity of a fibre assembly (R462, R464). -/
def fibreOf (rec : List Byte) : Option FibreId :=
  if recordValid 1 rec then
    let m := bytesCells rec
    let a := (BitVec.ofNat 32 (readNat m 16 4)).toInt
    some { group := BitVec.ofNat 8 (readNat m 3 1), serial := BitVec.ofNat 64 (readNat m 4 8),
           asym := if readNat m 21 1 = 1 then -a else a }
  else none

/-! ### TRAIN frames (R353, R357) -/

/-- The digest of a port's timetable of a variant and direction: CRC-32C of its records. -/
def ttDigest (s : State) (p v r : Nat) : BitVec 32 :=
  let q := (portAt s p).tt
  crc32c (readBytes q.mem (16 * (ttRange q v r).1) (16 * (ttRange q v r).2))

def ownTrain (s : State) (p : Nat) : TrainFrame :=
  { module := ownModule s, port := BitVec.ofNat 4 p, build := s.mgmt.build, lpl := 4,
    digests := (List.range 4).map (fun v => ttDigest s p v 0) }

def sendTrain (s : State) (p : Nat) : State := emit s (.train p (ownTrain s p))

/-- The router and links have been released (R529, step 6); the recovery loader keeps the ports DOWN (R484). -/
def linksReleased (s : State) : Bool :=
  !s.mgmt.recovery && s.power.moduleState != 2 && (s.rst.phase == 0 || decide (6 < s.rst.phase.toNat))

/-- The ports that a pair of ELS supplies, and the pair that supplies a port (R24). -/
def pairPorts (pair : Nat) : List Nat := if pair = 0 then [0, 1, 3, 5, 7] else [2, 4, 6, 8]
def portPair (p : Nat) : Nat := if (pairPorts 0).contains p then 0 else 1

/-- Can an ELS supply its pair: its record is valid, its channels cover the engines, it has not failed? -/
def elsUsable (m : Mgmt) (n : Nat) : Bool :=
  m.elsValid.getLsbD n && !m.elsFailed.getLsbD n && decide ((pairPorts (n / 2)).length ≤ mapGet 0 m.elsChannels n)

/-- Does an engine emit: is an ELS of its pair usable (R25)? -/
def portLit (s : State) (p : Nat) : Bool := elsUsable s.mgmt (2 * portPair p) || elsUsable s.mgmt (2 * portPair p + 1)

/-- A port starts to train: full width, no failed lanes, fresh sequence numbers, the fibre's identity read, the link's
time measurement begun anew (R59, R61, R68, R337, R340, R345). Without light it stays DOWN (R25). -/
def startTraining (s : State) (p : Nat) : State :=
  if !linksReleased s || !portLit s p then modPort s p (fun q => { q with state := 0, since := clockNs s })
  else
  let l := linkAt s.htu p
  let s1 := setHtu s (setLink s.htu p { l with exchanges := 0, removed := false, t1 := none, beacon := none })
  sendTrain (modPort s1 p (fun q =>
    let q1 := { q with state := 1, widthTx := 0, widthRx := 0, lpl := 0, sparesTx := 0, sparesRx := 0, schedWait := false,
                       failedTx := 0, failedRx := 0, txSeq := 0, rxSeq := 0, replayBuf := [], sail := none,
                       since := clockNs s, fibre := (q.fibreId.map (·.serial)).getD 0 }
    if q.fibreId.isNone then portEvent q1 8 else q1)) p

/-! ### Port loss (R342) -/

/-- Every input of the router. -/
def routerInputs : List RouteIn := (List.finRange 9).map .port ++ (List.finRange 8).map .deck ++ [.hub]

/-- Does a queued packet wait for port `p`? -/
def waitsFor (s : State) (inp : Option Nat) (p : Nat) (pk : Packet) : Bool :=
  pk.dst != ownModule s && (match nextHop s inp pk (0, 0) with
    | (q, some _) => q == p
    | (_, none) => false)

/-- Discard and count what waits for port `p`. -/
def dropQueued (s : State) (p : Nat) : State :=
  routerInputs.foldl (fun t r =>
    let q := inputQueue t r
    let keep := q.filter (fun x => !waitsFor s (inputPort r) p x.pk)
    if keep.length = q.length then t
    else modPort (setInputQueue t r keep) p (fun x => { x with downDrop := satAdd x.downDrop (q.length - keep.length) })) s

/-- A port that carried packets stops: what was in flight or queued is gone, its collectives learn LINK_LOST, the HTU loses
the link; it goes to state `dest`, with event `ev`. -/
def leavePort (s : State) (p : Nat) (dest : BitVec 3) (ev : Option Nat) : State :=
  let s1 := modPort (dropQueued s p) p (fun q =>
    let q1 := match ev with
      | some n => portEvent q n
      | none => q
    { q1 with state := dest, replayBuf := [], txSeq := 0, rxSeq := 0, schedWait := false, sail := none, since := clockNs s })
  let s2 := modChurn s1 (fun c => { c with forward := c.forward.filter (fun e => e.1 != p) })
  portLostColls (dropLink s2 p) p

/-- May a port suffer a loss: is it training or trained? -/
def portLive (q : Port) : Bool := q.state == 1 || q.state == 2 || q.state == 3 || q.state == 4 || q.state == 5

/-- PORT_LOSS (R341, R342). -/
def opPortLoss (s : State) (p : Nat) : State := if portLive (portAt s p) then leavePort s p 0 (some 1) else s

/-! ### Identities (R353, R355, R356) -/

/-- Raise MISWIRED or INCOMPATIBLE_PEER to every bound LD and to the MGC. -/
def portAlarm (s : State) (p : Nat) (st : Status) : State :=
  pldmEvent (postAll s st p (portAt s p).peerModule.toNat) st.toNat

/-- The port enters INCOMPATIBLE. -/
def incompatible (s : State) (p : Nat) : State :=
  let s1 := if (portAt s p).state = 3 then leavePort s p 5 (some 5) else modPort s p (fun q => { portEvent q 5 with state := 5 })
  portAlarm s1 p stIncompatiblePeer

/-- The port enters MISWIRED. -/
def miswired (s : State) (p : Nat) : State :=
  let s1 := if (portAt s p).state = 3 then leavePort s p 4 (some 4) else modPort s p (fun q => { portEvent q 4 with state := 4 })
  portAlarm s1 p stMiswired

/-- FIBRE of the armed map for a port. -/
def expFibre (s : State) (p : Nat) : Nat := readNat s.net.mapArmed (32 + 16 * p + 4) 8

/-- Do the identities, the fibre and the group pass R355? -/
def identityOk (s : State) (p : Nat) : Bool :=
  let q := portAt s p
  q.peerModule == q.expModule && q.peerPort == q.expPort && (expFibre s p == 0 || q.fibre.toNat == expFibre s p) &&
  (match q.fibreId with
   | none => true
   | some f => f.group.toNat == portGroup p)

/-- The comparison of R355, of an IDENTIFIED or UP port: that of the identities waits for the peer's number, that of the level does
not (R358). -/
def comparePort (s : State) (p : Nat) : State :=
  let q := portAt s p
  if q.peerModule = 0x1FFFF then (if q.lpl.toNat < q.expLpl.toNat then incompatible s p else s)
  else if !identityOk s p then miswired s p
  else if q.lpl.toNat < q.expLpl.toNat then incompatible s p
  else if q.state = 3 then s
  else modPort s p (fun q => { portEvent q 0 with state := 3, schedWait := s.tt.armed, upAt := hallNs s })

/-- TRAIN_FRAME_RECEIVE. -/
def opTrainFrame (s : State) (p : Nat) (f : TrainFrame) : State :=
  let q := portAt s p
  if !portLive q then s
  else if !f.crcOk then setPort s p { q with crcErr := satInc q.crcErr }
  else
    let s1 := setPort s p { q with peerModule := f.module, peerPort := f.port, peerLpl := f.lpl, peerBuild := f.build,
                                   peerDigests := f.digests }
    if q.state = 1 then
      let l : BitVec 3 := if f.lpl.toNat < 4 then f.lpl else 4
      if l.toNat < 3 ∨ (s.net.armed ∧ l.toNat < q.expLpl.toNat) then incompatible (modPort s1 p (fun q => { q with lpl := l })) p
      else
        let s2 := modPort s1 p (fun q => { q with lpl := l, state := 2 })
        if s.net.armed then comparePort s2 p else s2
    else if q.state = 2 ∧ s.net.armed then comparePort s1 p
    else s1

/-- Arm the map on one port (R354 to R356): the expected identities; then DISABLED, training, or the comparison. -/
def armPort (s : State) (p : Nat) : State :=
  let e := readNat s.net.mapArmed (32 + 16 * p) 16
  let en := mapField s (49 + p) 1 == 1
  let s1 := modPort s p (fun q => { q with expModule := BitVec.ofNat 17 (bits e 0 17), expPort := BitVec.ofNat 4 (bits e 17 4),
                                           expLpl := BitVec.ofNat 3 (bits e 21 3), enabled := en })
  let q := portAt s1 p
  if !en then
    if q.state = 7 then s1 else if portLive q then leavePort s1 p 7 none else modPort s1 p (fun q => { q with state := 7 })
  else if q.state = 7 then (if q.disable then s1 else startTraining s1 p)
  else if q.state = 4 ∨ q.state = 5 then startTraining s1 p
  else if q.state = 2 ∨ q.state = 3 then comparePort s1 p
  else s1

/-- Arm the loaded map: every port, then a fresh TRAIN frame on every trained one (R353, R355). -/
def armMap (s : State) : State :=
  let s1 := modNet s (fun n => { n with armed := true, mapArmed := n.mapLoaded })
  let s2 := (List.range 9).foldl armPort s1
  ((List.range 9).filter (fun p => portTrained (portAt s2 p))).foldl sendTrain s2

/-- Has a port been `ms` milliseconds in its state? -/
def portSince (s : State) (p ms : Nat) : Bool := decide ((portAt s p).since + 1000000 * ms ≤ clockNs s)

/-- TRAINING_TIMEOUT after 100 ms, PORT_RETRY once a second, LANE_SIGNAL at once, QUARANTINE_EXPIRE after 10 s (R343, R352,
R358). -/
def opTrainingTimeout (s : State) (p : Nat) : State :=
  if (portAt s p).state = 1 ∧ portSince s p 100 then modPort s p (fun q => { q with state := 0, since := clockNs s }) else s
def opPortRetry (s : State) (p : Nat) : State := if (portAt s p).state = 0 ∧ portSince s p 1000 then startTraining s p else s
def opLaneSignal (s : State) (p : Nat) : State := if (portAt s p).state = 0 then startTraining s p else s
def opQuarantineExpire (s : State) (p : Nat) : State :=
  if (portAt s p).state = 6 ∧ portSince s p 10000 then startTraining s p else s

/-- May an agent write LNK.CFG and LNK.CTLp: the owner LD, or CMDP firmware? -/
def lnkWriter (s : State) (a : Agent) : Bool :=
  match a with
  | .fw => true
  | .mgc => false
  | .host l => isOwner s (ldKey l)

/-- LNK_RETRAIN: a port loss, then training (R340, R341). -/
def opRetrain (s : State) (a : Agent) (p : Nat) : State :=
  if !lnkWriter s a then unsupported s a
  else if portLive (portAt s p) then startTraining (leavePort s p 0 (some 1)) p
  else opLaneSignal s p

/-- LNK_DISABLE: 1 holds the port DISABLED, 0 lets it train unless the armed map leaves it out (R341, R356, R358). -/
def opDisable (s : State) (a : Agent) (p : Nat) (v : Bool) : State :=
  if !lnkWriter s a then unsupported s a
  else
    let s1 := modPort s p (fun q => { q with disable := v })
    let q := portAt s p
    if v then (if portLive q then leavePort s1 p 7 (some 1) else modPort s1 p (fun q => { q with state := 7 }))
    else if q.state = 7 ∧ q.disable ∧ (s.net.armed = false ∨ q.enabled) then startTraining s1 p
    else s1

/-! ### Lanes (R337 to R341) -/

/-- Did lane `l` carry traffic, or stand in as a spare, before it failed? Spares serve lowest first (log entry 20). -/
def laneInUse (p : Nat) (m : BitVec 34) (l : Nat) : Bool :=
  let good := ((List.range 2).map (fun i => activeLanes p + i)).filter (fun x => !m.getLsbD x)
  decide (l < activeLanes p) || (good.take (sparesUsed p m)).contains l

/-- LANE_FAIL of the transmit (0) or receive (1) direction; the receiver tells the sender (R337). A width that falls during a
sailing holds for the rest of it (R77). -/
def opLaneFail (s0 : State) (p dir lane : Nat) : State :=
  let q := portAt s0 p
  let m := if dir = 0 then q.failedTx else q.failedRx
  let w := if dir = 0 then q.widthTx else q.widthRx
  if !portTrained q ∨ activeLanes p + 2 ≤ lane ∨ m.getLsbD lane then s0
  else
    let s := if dir = 0 then s0 else emit s0 (.laneFailed p lane)
    let m' := setBit m lane true
    let put := fun (q : Port) (w : BitVec 2) =>
      if dir = 0 then { q with failedTx := m', widthTx := w, sparesTx := BitVec.ofNat 2 (sparesUsed p m') }
      else { q with failedRx := m', widthRx := w, sparesRx := BitVec.ofNat 2 (sparesUsed p m') }
    match widthFor p m' with
    | none => leavePort (setPort s p (put q w)) p 0 (some 1)
    | some n =>
      if w.toNat < n then setPort s p (portEvent (put q (BitVec.ofNat 2 n)) 3)
      else if n = 0 ∧ laneInUse p m lane then setPort s p (portEvent (put q w) 2)
      else setPort s p (put q w)

/-! ### Frames (R347, R348, R352) -/

/-- Does a packet carry no reserved encoding (R4, R311, R359 to R361)? -/
def packetForm (pk : Packet) : Bool :=
  let t := pk.type.toNat
  decide (pk.space.toNat ≤ 2) && decide (pk.atype.toNat ≤ 3) && (match pk.cls with
   | .s => t == 0 && pk.data && !pk.f && !pk.vc
   | .q => decide (t ≤ 4) && pk.data == (t == 0 || t == 2 || t == 4) && !pk.mc
   | .p => decide (t ≤ 1) && pk.data == (t == 1) && !pk.f && !pk.mc
   | .m => decide (t ≤ 2) && pk.data == (t == 1) && !pk.f && !pk.mc)

/-- Are the header of a PKT frame and its packets as R347 has them: one data packet, or 1 to 17 control packets? -/
def frameForm (f : PktFrame) : Bool :=
  f.formOk && f.pkts.all packetForm &&
  (if f.npkt = 0 then f.pkts.length == 1 && f.pkts.all (·.data)
   else decide (f.npkt.toNat ≤ 17) && f.pkts.length == f.npkt.toNat && f.pkts.all (fun pk => !pk.data))

/-- A violation by the peer: counted; beyond the limit within 1 s an UP port is quarantined. -/
def portViolation (s : State) (p : Nat) : State :=
  let now := clockNs s
  let q := portAt s p
  let ts := now :: q.violTimes.filter (fun t => decide (now < t + 1000000000))
  let s1 := setPort s p { q with violation := satInc q.violation, violTimes := ts.take 65536 }
  if s.net.violLimit.toNat < ts.length ∧ q.state = 3 then leavePort s1 p 6 (some 6) else s1

/-- May a port take a packet in its state: in IDENTIFIED only CONTROL for this module (R358)? -/
def portTakes (s : State) (p : Nat) (pk : Packet) : Bool :=
  (portAt s p).state == 3 || ((portAt s p).state == 2 && pk.cls == .m && pk.type == 1 && pk.dst == ownModule s)

/-- Where an accepted packet goes: here, or into the transit buffer. S packets never go further by themselves. -/
def acceptPacket (p : Nat) (s : State) (pk : Packet) : State :=
  if !portTakes s p pk then s
  else if pk.dst = ownModule s ∨ pk.cls = .s then modNet s (fun n => { n with arrived := n.arrived ++ [pk] })
  else enqueue s p pk

/-- PKT_FRAME_RECEIVE: a frame that fails its CRC is discarded, and so is a violation, which is NAKed only where it was sequenced; a
PKT frame in order is accepted and acknowledged (R347 to R349, R352). (DEDUCED, log entry 33.) -/
def opPktFrame (s : State) (p : Nat) (f : PktFrame) : State :=
  let q := portAt s p
  if !(q.state == 2 || q.state == 3) then s
  else if !f.crcOk then emit (setPort s p { q with crcErr := satInc q.crcErr }) (.nak p q.rxSeq)
  else if f.ftype ≠ 0 then (if f.formOk && decide (f.ftype.toNat ≤ 4) then s else portViolation s p)
  else if !frameForm f then emit (portViolation s p) (.nak p q.rxSeq)
  else if f.seq ≠ q.rxSeq then emit s (.nak p q.rxSeq)
  else emit (f.pkts.foldl (acceptPacket p) (setPort s p { ackFrames q f.ack with rxSeq := q.rxSeq + 1 })) (.idle p f.seq)

/-- IDLE_FRAME_RECEIVE: frees what it acknowledges. -/
def opIdleFrame (s : State) (p : Nat) (ack : BitVec 16) : State :=
  if portTrained (portAt s p) then modPort s p (fun q => ackFrames q ack) else s

/-- The capacity of a sailing in progress that `n` replayed frames take (R77, R348). -/
def replayCost (q : Port) (n : Nat) : Port :=
  match q.sail with
  | none => q
  | some x => { q with sail := some { x with credit := x.credit - 2176 * n } }

/-- NAK_RECEIVE: replay from the named frame, ahead of new frames; the port goes down when it has been replayed eight times. -/
def opNak (s : State) (p : Nat) (seq : BitVec 16) : State :=
  let q := portAt s p
  let fs := q.replayBuf.dropWhile (fun f => f.seq != seq)
  match fs with
  | [] => s
  | f :: _ =>
    if 8 ≤ f.tries then opPortLoss s p
    else
      let s1 := setPort s p (replayCost
        { q with replay := satInc q.replay, replayBuf := fs.map (fun f => { f with tries := f.tries + 1 }) } fs.length)
      fs.foldl (fun s f => emit s (.frame p f.seq (q.rxSeq - 1) f.pkts)) s1

/-! ### Lasers (R24, R25, R344, R465) and fibre (R345, R358) -/

/-- The ELS that supplies a pair. -/
def elsActive (m : Mgmt) (pair : Nat) : Nat := 2 * pair + boolNat (m.elsOdd.getLsbD pair)

/-- ELS_FAIL: an ELS fails or is withdrawn (whether it is still in its socket is a free value); where it supplied its pair,
the engines move onto a usable partner. -/
def opElsFail (s0 : State) (n : Nat) : State :=
  let f := draw 1 s0
  let m0 := f.2.mgmt
  let gone := f.1 == 1
  let m := { m0 with elsFailed := setBit m0.elsFailed n true,
                     elsPresent := if gone then setBit m0.elsPresent n false else m0.elsPresent,
                     elsValid := if gone then setBit m0.elsValid n false else m0.elsValid,
                     elsSerial := if gone then mapSet 0 m0.elsSerial n 0 else m0.elsSerial }
  let partner := 2 * (n / 2) + (1 - n % 2)
  let s := { f.2 with mgmt := m }
  if elsActive m0 (n / 2) = n ∧ elsUsable m partner then
    (pairPorts (n / 2)).foldl (fun s p => modPort s p (fun q => portEvent q 7))
      { s with mgmt := { m with elsOdd := setBit m.elsOdd (n / 2) (partner % 2 == 1) } }
  else s

/-- ELS_PAIR_LOST: with neither ELS usable, the ports of the pair go down. -/
def opPairLost (s : State) (pair : Nat) : State :=
  if elsUsable s.mgmt (2 * pair) ∨ elsUsable s.mgmt (2 * pair + 1) then s else (pairPorts pair).foldl opPortLoss s

/-- Take an ELS record (R465). (DESIGN CHOICE, log entry 78.) -/
def readEls (s : State) (n : Nat) (rec : List Byte) : State :=
  let c := bytesCells rec
  let ok := recordValid 2 rec
  let m0 := s.mgmt
  let m := { m0 with elsPresent := setBit m0.elsPresent n true, elsValid := setBit m0.elsValid n ok,
                     elsFailed := setBit m0.elsFailed n false, elsChannels := mapSet 0 m0.elsChannels n (readNat c 3 1),
                     elsSerial := mapSet 0 m0.elsSerial n (if ok then BitVec.ofNat 64 (readNat c 4 8) else 0) }
  let m1 := if elsUsable m n ∧ elsUsable m (elsActive m (n / 2)) = false then
      { m with elsOdd := setBit m.elsOdd (n / 2) (n % 2 == 1) }
    else m
  let s1 := { s with mgmt := m1 }
  if elsUsable m n then s1 else mgtEvent s1 4

/-- FIBRE_CONNECTOR_INSERT: the identity memory is read. -/
def opFibreInsert (s : State) (p : Nat) (rec : List Byte) : State :=
  let f := fibreOf rec
  let s1 := modPort s p (fun q =>
    let q1 := { q with plugged := true, fibreId := f, fibre := (f.map (·.serial)).getD 0 }
    if f.isNone then portEvent q1 8 else q1)
  { s1 with mgmt := { s1.mgmt with fibreValid := setBit s1.mgmt.fibreValid p f.isSome } }

/-- FIBRE_CONNECTOR_REMOVE: a MISWIRED or INCOMPATIBLE port trains again. -/
def opFibreRemove (s : State) (p : Nat) : State :=
  let q := portAt s p
  let s1 := modPort s p (fun q => { q with plugged := false, fibreId := none })
  let s2 := { s1 with mgmt := { s1.mgmt with fibreValid := setBit s1.mgmt.fibreValid p false } }
  if q.state = 4 ∨ q.state = 5 then startTraining s2 p else s2

/-! ### The fabric and the hub links (R29, R31) -/

/-- FABRIC_FLIT_UE: the flit is discarded and reported, and the transfer it belonged to completes with ISOLATED. -/
def opFlitUe (s : State) (d : Nat) (v : FabricVictim) : State :=
  let s1 := fireDetector s 9 (some d) none []
  match v with
  | .request pk => isolateRequest s1 pk
  | .snapshot x => applyRes s1 d (setCtx (deckAt s1 d) x.toNat (failSnap stIsolated (ctxAt (deckAt s1 d) x.toNat)).1,
      (failSnap stIsolated (ctxAt (deckAt s1 d) x.toNat)).2)
  | .stream n => onDeck s1 d (fun k =>
      match streamHead k n.toNat with
      | none => (k, [])
      | some (x, p) => refuseHead k n.toNat x p stIsolated)
  | .mover c id => onDeck s1 c.deck.val (fun k =>
      match movAt (coreAt k c.core.val) id with
      | none => (k, [])
      | some e => if e.started then endTransfer k c.core.val e stIsolated else (k, []))
  | .coll k =>
    match collAt s1 k with
    | none => s1
    | some c => if c.silent then s1 else learn s1 c stIsolated

/-- DECK_HUB_LINK_FAIL: the deck goes out of service. -/
def opHubLinkFail (s : State) (d : Nat) : State :=
  modDeck s d (fun k => { k with hubLinkFailed := true, outOfService := true })

end Sys2Proof.Machine
end

