-- ==== Sys2Proof/Machine/Timetable.lean ====
section
/-! DEFINITION. The timetable: loading and checking it (R84 to R91, R354, R431), arming, disarming and selecting (R88 to
R92), step epochs (R74, R88, R92, R96, R343), sailings (R75 to R82, R93, R94) and deck schedule events (R99 to R106). -/
namespace Sys2Proof.Machine
open Sys2Proof

def setTt (s : State) (t : Timetable) : State := { s with tt := t }

/-! ### Reading a partition's memory by HDM offset (R55) -/

/-- The pieces of a range of HDM offsets: deck, deck address, offset in the range, length. -/
def hdmPieces (b : Binding) (off n : Nat) : List (Nat × Nat × Nat × Nat) :=
  (maskDecks b.decks).zipIdx.filterMap (fun e =>
    let lo := max off (e.2 * memEnd)
    let hi := min (off + n) ((e.2 + 1) * memEnd)
    if lo < hi then some (e.1, lo - e.2 * memEnd, lo - off, hi - lo) else none)

/-- Does a range of HDM offsets lie inside the LD's range? -/
def hdmFits (b : Binding) (off n : Nat) : Bool := decide (off + n ≤ (maskDecks b.decks).length * memEnd)

/-- Read bytes of an LD by HDM offset. -/
def hdmRead (s : State) (k off n : Nat) : Status × Cells :=
  match heldBind (ldAt s k) with
  | none => (stNotBound, [])
  | some b =>
    if !hdmFits b off n then (stBadParam, [])
    else (hdmPieces b off n).foldl (fun r x =>
      if r.1 ≠ stGood then r
      else if !memUp (deckAt s x.1) then (stIsolated, [])
      else match memRead (deckAt s x.1) x.2.1 x.2.2.2 with
        | none => (stMemPoison, [])
        | some m => (stGood, mapSplice r.2 x.2.2.1 x.2.2.2 m)) (stGood, [])

/-- The sectors of an LD's range that errors name, as a deck's sectors. -/
def hdmErrs (b : Binding) (d : Nat) (errs : List SectorErr) : List SectorErr :=
  errs.filterMap (fun e => match hdmAt b (32 * e.sector) with
    | some (d', a) => if d' = d then some { e with sector := a / 32 } else none
    | none => none)

/-- The ECC findings of a read of an LD's range. -/
def hdmEcc (s : State) (b : Binding) (off n : Nat) (errs : List SectorErr) : State :=
  (hdmPieces b off n).foldl (fun s x =>
    if memUp (deckAt s x.1) then onDeck s x.1 (eccRange (hallNs s) x.2.1 x.2.2.2 (hdmErrs b x.1 errs)) else s) s

/-- Does an access to a range of an LD wait (R315, R329)? -/
def hdmHeld (s : State) (b : Binding) (off n : Nat) : Bool :=
  (hdmPieces b off n).any (fun x => memUp (deckAt s x.1) && rangeHeld (deckAt s x.1) x.2.1 x.2.2.2)

/-- Does a command's access to a range of its LD wait? -/
def cmdHeld (s : State) (k off n : Nat) : Bool :=
  match heldBind (ldAt s k) with
  | none => false
  | some b => hdmFits b off n && hdmHeld s b off n

/-- A command reads a range of its LD. -/
def cmdRead (s : State) (k off n : Nat) : (Status × Cells) × State :=
  match heldBind (ldAt s k) with
  | none => ((stNotBound, []), s)
  | some b =>
    let s1 := if hdmFits b off n then hdmEcc s b off n [] else s
    (hdmRead s1 k off n, s1)

/-! ### Deck schedule records (R99) -/

/-- A deck schedule record; `reservedOk` judges its reserved fields and its ARG and LENGTH for its kind. -/
structure SchedRec where
  start : Nat
  len : Nat
  kind : Nat
  arg : Nat
  reservedOk : Bool
deriving DecidableEq, Repr

def schedAt (m : Cells) (i : Nat) : SchedRec :=
  let v := readNat m (16 * i) 16
  let k := bits v 56 4
  let a := bits v 64 16
  let form := (k == 1 && decide (a < 2 ^ 13) && bits v 32 24 == 0) || (k == 2 && decide (a < 2 ^ 4)) || (k == 3 && a == 0) ||
    (k == 4 && decide (a < 2 ^ 13))
  { start := bits v 0 32, len := bits v 32 24, kind := k, arg := a,
    reservedOk := form && bits v 60 4 == 0 && bits v 80 48 == 0 }

/-- Base and count of a deck's schedule of a variant, and its records. -/
def schedRange (k : Deck) (v : Nat) : Nat × Nat := ((mapGet 0 k.dschedBase v).toNat, (mapGet 0 k.dschedCount v).toNat)
def schedRecords (k : Deck) (v : Nat) : List SchedRec :=
  (List.range (schedRange k v).2).map (fun i => schedAt k.sched ((schedRange k v).1 + i))

/-- Is a variant loaded (R84)? -/
def variantLoaded (s : State) (v : Nat) : Bool :=
  (List.range 9).any (fun p => (ttRange (portAt s p).tt v 0).2 != 0 || (ttRange (portAt s p).tt v 1).2 != 0) ||
  (List.range 8).any (fun d => (schedRange (deckAt s d) v).2 != 0)

/-! ### The checks (R90, R91) -/

/-- What a check finds: nothing, a failing record, or a failure of the direction or schedule as a whole. -/
inductive CheckResult where
  | pass
  | record (i : Nat)
  | whole
deriving DecidableEq, Repr

/-- The first record that fails a test of its own. -/
def firstBad {α : Type} (xs : List α) (bad : α → Bool) : CheckResult :=
  match xs.findIdx? bad with
  | some i => .record i
  | none => .pass

/-- The first record that fails against its predecessor. -/
def firstPairBad {α : Type} (xs : List α) (bad : α → α → Bool) : CheckResult :=
  match (xs.zip (xs.drop 1)).findIdx? (fun e => bad e.1 e.2) with
  | some i => .record (i + 1)
  | none => .pass

def orElse (a b : CheckResult) : CheckResult := if a = .pass then b else a

def sailEnd (x : Sailing) : Nat := x.start + x.len

/-- TIME_GAP: starts at most 200,000 ticks apart, across the boundary too; each at least 4 ticks long. -/
def timeGap (xs : List Sailing) (p : Nat) : CheckResult :=
  let ts := xs.zipIdx.filter (fun e => e.1.kind == 3)
  match ts with
  | [] => .whole
  | f :: _ =>
    let short := ts.find? (fun e => decide (e.1.len < 4))
    let gap := (ts.zip (ts.drop 1)).find? (fun e => decide (200000 < e.2.1.start - e.1.1.start))
    let last := (ts.getLast?.map (·.1.start)).getD 0
    let bad := (short.map (·.2)).toList ++ (gap.map (·.2.2)).toList ++
      (if 200000 < f.1.start + p - last then [f.2] else [])
    match bad.foldl (fun (m : Option Nat) i => some (match m with
      | none => i
      | some j => min i j)) none with
    | none => .pass
    | some i => .record i

/-- The slots of a direction fail SLOT_FORM: the first record of the first slot that does. -/
def slotForm (xs : List Sailing) : CheckResult :=
  let cs := xs.filter (·.kind == 1)
  let ok := fun (sl : Nat) =>
    let rs := cs.filter (fun x => x.slot == sl)
    let fin := rs.filter (·.final)
    let lastEnd := rs.foldl (fun m x => max m (sailEnd x)) 0
    let prims := (rs.filter (fun x => !x.standby)).foldl (fun m x => max m (x.start + 1)) 0
    fin.length == 1 && fin.all (fun x => sailEnd x == lastEnd) && (rs.filter (·.standby)).all (fun x => decide (prims ≤ x.start))
  firstBad xs (fun x => x.kind == 1 && !ok x.slot)

/-- STANDBY_MAX: the seventeenth standby record of a slot. -/
def standbyMax (xs : List Sailing) : CheckResult :=
  firstBad xs.zipIdx (fun e => e.1.kind == 1 && e.1.standby &&
    decide (16 ≤ ((xs.take e.2).filter (fun y => y.kind == 1 && y.standby && y.slot == e.1.slot)).length))

/-- KIND is consistent with the fields of R78. -/
def sailingForm (x : Sailing) : Bool :=
  x.reservedOk &&
  (if x.kind = 1 then !x.standby || (x.landing == 0 && x.chunkBase == 0)
   else x.tag == 0 && x.slot == 0 && x.landing == 0 && !x.standby && !x.final && x.chunkBase == 0)

/-- Are the reserved bits of a landing entry zero (R85)? -/
def landingForm (q : PortTt) (v id : Nat) : Bool :=
  let w := readNat q.land (32768 * v + 8 * id) 8
  bits w 28 4 == 0 && bits w 56 8 == 0

/-- Check `c` of R91 on a port direction; `en` is PORT_EN of the map, which assigns a mirror to the ports that it wires.
(DEDUCED, log entry 59.) -/
def dirCheck (s : State) (en v p r period c : Nat) : CheckResult :=
  let q := portAt s p
  let xs := ttRecords q.tt v r
  match c with
  | 1 => orElse (firstPairBad xs (fun a b => decide (b.start < sailEnd a) || decide (b.start ≤ a.start)))
      (match xs.getLast? with
       | some x => if period < sailEnd x then .record (xs.length - 1) else .pass
       | none => .pass)
  | 2 => firstBad xs (fun x => decide (x.len < 3))
  | 3 => firstBad xs (fun x => x.kind != 2 && decide (200000 < x.len))
  | 4 => if ((xs.filter (·.kind == 2)).map (·.len)).sum < (period + 19) / 20 then .whole else .pass
  | 5 => timeGap xs period
  | 6 => slotForm xs
  | 7 => standbyMax xs
  | 8 => if r = 0 then .pass
      else firstBad xs (fun x => x.kind == 1 && !x.standby &&
        (match landingAt q.tt v x.landing with
         | none => true
         | some (_, _, t) => t != x.tag))
  | 9 => firstBad xs (fun x => x.kind == 1 && q.lpl == 3 && x.tag != 0)
  | 10 => firstBad xs (fun x => !sailingForm x || (r == 1 && x.kind == 1 && !x.standby && !landingForm q.tt v x.landing))
  | 13 => if r = 1 ∧ bits en p 1 = 1 ∧ q.peerDigests[v]? ≠ some (ttDigest s p v 1) then .whole else .pass
  | _ => .pass

/-- Check `c` of R91 on a deck schedule. -/
def deckCheck (s : State) (v d period c : Nat) : CheckResult :=
  let xs := schedRecords (deckAt s d) v
  match c with
  | 10 => firstBad xs (fun x => !x.reservedOk)
  | 11 => if (List.range 4).all (fun k => decide ((period + 9999) / 10000 ≤
        ((xs.filter (fun x => x.kind == 2 && bits x.arg k 1 == 1)).map (·.len)).sum)) then .pass else .whole
  | 12 =>
    let ts := (xs.zipIdx.filter (fun e => e.1.kind == 3)).insertionSort (fun a b => a.1.start ≤ b.1.start)
    match ts with
    | [] => .whole
    | f :: _ =>
      let last := (ts.getLast?.map (·.1.start)).getD 0
      match (ts.zip (ts.drop 1)).find? (fun e => decide (200000 < e.2.1.start - e.1.1.start)) with
      | some e => .record e.2.2
      | none => if 200000 < f.1.start + period - last then .record f.2 else .pass
  | _ => .pass

/-- A failure of R91: check, port (0xF for a deck schedule), direction, record, deck. -/
structure ArmErr where
  check : Nat
  port : Nat
  dir : Nat
  record : Option Nat
  deck : Nat
deriving DecidableEq, Repr

/-- The first failing check of a list, on a place. -/
def firstFail (cs : List Nat) (f : Nat → CheckResult) (port dir deck : Nat) : Option ArmErr :=
  cs.findSome? (fun c => match f c with
    | .pass => none
    | .record i => some { check := c, port := port, dir := dir, record := some i, deck := deck }
    | .whole => some { check := c, port := port, dir := dir, record := none, deck := deck })

/-- The first failure of a variant in the order of R90: every port, wired or not. -/
def variantFail (s : State) (en period v : Nat) : Option ArmErr :=
  match (List.range 9).findSome? (fun p => [0, 1].findSome? (fun r =>
      firstFail [1, 2, 3, 4, 5, 6, 7, 8, 9, 10, 13] (dirCheck s en v p r period) p r 0)) with
  | some e => some e
  | none => (List.range 8).findSome? (fun d => firstFail [10, 11, 12] (deckCheck s v d period) 15 0 d)

/-! ### The topology map (R354) -/

/-- A field of a map's first 8 bytes, and a port's entry. -/
def mapBits (m : Cells) (lo w : Nat) : Nat := bits (readNat m 0 8) lo w
def mapEntry (m : Cells) (p : Nat) : Nat := readNat m (32 + 16 * p) 16

/-- Module and port that R22 and R23 give beyond port `p`. -/
def wiredTo (m : Cells) (p : Nat) : BitVec 17 × Nat :=
  let t := mapBits m 47 2
  let c := [mapBits m 32 5, mapBits m 37 5, mapBits m 42 5]
  let n := [mapBits m 16 5 + 1, mapBits m 21 5 + 1, mapBits m 26 5 + 1]
  let at_ := fun (l : List Nat) (a : Nat) => l[a]?.getD 0
  if p < 3 then (moduleNum (t ^^^ (p + 1)) (at_ c 0) (at_ c 1) (at_ c 2), p)
  else
    let a := (p - 3) / 2
    let k := at_ n a
    let v := if p % 2 = 1 then (at_ c a + 1) % k else (at_ c a + k - 1) % k
    let w := fun b => if b = a then v else at_ c b
    (moduleNum t (w 0) (w 1) (w 2), if p % 2 = 1 then p + 1 else p - 1)

/-- The refusal code of a map, 0 where it is accepted; the lowest code that applies. -/
def mapRefusal (s : State) (m : Cells) : Nat :=
  let en := fun p => mapBits m (49 + p) 1 == 1
  let ports := (List.range 9).filter en
  let size := fun a => mapBits m (16 + 5 * a) 5 + 1
  let resOk := mapBits m 31 1 == 0 && mapBits m 58 6 == 0 && readNat m 8 24 == 0 && readNat m 176 80 == 0 &&
    (List.range 9).all (fun p => bits (mapEntry m p) 24 8 == 0 && bits (mapEntry m p) 96 32 == 0)
  if mapBits m 0 16 ≠ 1 ∨ !resOk then 1
  else if !s.mgmt.trayValid ∨ mapBits m 47 2 ≠ s.mgmt.bay.toNat then 2
  else if !((List.range 3).all (fun a => decide (mapBits m (32 + 5 * a) 5 < size a))) then 3
  else if !(ports.all (fun p => bits (mapEntry m p) 0 17 == (wiredTo m p).1.toNat && bits (mapEntry m p) 17 4 == (wiredTo m p).2)) ∨
      !((List.range 3).all (fun a => (size a != 1 || (!en (2 * a + 3) && !en (2 * a + 4))) &&
        (decide (size a < 3) || en (2 * a + 3) == en (2 * a + 4)))) then 4
  else if !(ports.all (fun p => bits (mapEntry m p) 21 3 == 3 || bits (mapEntry m p) 21 3 == 4)) then 5
  else 0

/-! ### TT_LOAD (R84 to R87, R357, R431) -/

/-- Unit, size of a record, number of records and units of a kind. -/
def ttShape (kind : Nat) : Nat × Nat × Nat := if kind = 0 then (16, 65536, 9) else if kind = 1 then (8, 4096, 9) else (16, 8192, 8)

/-- Do two nonempty ranges overlap? -/
def overlaps (b c b' c' : Nat) : Bool := c != 0 && c' != 0 && decide (b < b' + c') && decide (b' < b + c)

/-- The variants that R87 protects while armed: the active one and a pending one. -/
def protectedVars (t : Timetable) : List Nat :=
  if t.armed then t.activeVar.toNat :: (if t.pendingValid then [t.pendingVar.toNat] else []) else []

/-- Load timetable records: the range, and what it displaces. -/
def loadPort (q : PortTt) (v r base count : Nat) (m : Cells) : PortTt :=
  let keep := (List.range 8).foldl (fun (x : SMap (BitVec 17)) i =>
    if i ≠ 2 * v + r ∧ overlaps base count (mapGet 0 q.base i).toNat (mapGet 0 q.count i).toNat then mapSet 0 x i 0 else x) q.count
  { q with mem := mapSplice q.mem (16 * base) (16 * count) m, base := mapSet 0 q.base (2 * v + r) (BitVec.ofNat 16 base),
           count := mapSet 0 keep (2 * v + r) (BitVec.ofNat 17 count) }

/-- Load deck schedule records. -/
def loadSched (k : Deck) (v base count : Nat) (m : Cells) : Deck :=
  let keep := (List.range 4).foldl (fun (x : SMap (BitVec 14)) i =>
    if i ≠ v ∧ overlaps base count (mapGet 0 k.dschedBase i).toNat (mapGet 0 k.dschedCount i).toNat then mapSet 0 x i 0 else x)
    k.dschedCount
  { k with sched := mapSplice k.sched (16 * base) (16 * count) m, dschedBase := mapSet 0 k.dschedBase v (BitVec.ofNat 13 base),
           dschedCount := mapSet 0 keep v (BitVec.ofNat 14 count) }

/-- The state after loading the bytes, before the checks. -/
def loaded (s : State) (q : TtLoadP) (m : Cells) : State :=
  let v := q.variant.toNat
  let u := q.portOrDeck.toNat
  let base := q.base.toNat
  let count := q.count.toNat
  if q.kind = 0 then modPort s u (fun x => { x with tt := loadPort x.tt v q.dir.toNat base count m })
  else if q.kind = 1 then
    modPort s u (fun x => { x with tt := { x.tt with land := mapSplice x.tt.land (32768 * v + 8 * base) (8 * count) m } })
  else modDeck s u (fun k => loadSched k v base count m)

/-- Would the load hit a range of a protected variant (R87)? -/
def hitsProtected (s : State) (q : TtLoadP) : Bool :=
  let u := q.portOrDeck.toNat
  let base := q.base.toNat
  let count := q.count.toNat
  (protectedVars s.tt).any (fun v => v == q.variant.toNat ||
    (q.kind == 0 && [0, 1].any (fun r => overlaps base count (ttRange (portAt s u).tt v r).1 (ttRange (portAt s u).tt v r).2)) ||
    (q.kind == 2 && overlaps base count (schedRange (deckAt s u) v).1 (schedRange (deckAt s u) v).2))

/-- Has a variant lost or changed a range between two states? -/
def rangesDiffer (a b : State) (v : Nat) : Bool :=
  (List.range 9).any (fun p => [0, 1].any (fun r => ttRange (portAt a p).tt v r != ttRange (portAt b p).tt v r)) ||
  (List.range 8).any (fun d => schedRange (deckAt a d) v != schedRange (deckAt b d) v)

/-- Do the variants that a load touches pass the checks, while armed (R87)? -/
def loadPasses (s s' : State) (v0 : Nat) : Bool :=
  !s.tt.armed || (List.range 4).all (fun v =>
    (v != v0 && !rangesDiffer s s' v) || !variantLoaded s' v ||
    (variantFail s' (mapField s 49 9) s.tt.p.toNat v).isNone)

/-- Does a port exchange TRAIN frames: is it training or trained (R353, R357)? -/
def tellsPeer (q : Port) : Bool := q.state == 1 || portTrained q

/-- The bytes that a TT_LOAD reads. -/
def ttBytes (q : TtLoadP) : Nat := if q.kind = 3 then 256 else (ttShape q.kind.toNat).1 * q.count.toNat

/-- TT_LOAD of the LD with key `k`: the status, and the state. -/
def ttLoad (s : State) (k : Nat) (q : TtLoadP) : Status × State :=
  let count := q.count.toNat
  if q.kind = 3 then
    if q.variant ≠ 0 ∨ q.portOrDeck ≠ 0 ∨ q.dir ≠ 0 ∨ q.base ≠ 0 ∨ q.count ≠ 1 then (stBadParam, s)
    else
      let r := cmdRead s k q.source.toNat 256
      if r.1.1 ≠ stGood then (r.1.1, r.2) else (stGood, modNet r.2 (fun n => { n with mapLoaded := r.1.2 }))
  else
    let sh := ttShape q.kind.toNat
    if 3 < q.kind.toNat ∨ 4 ≤ q.variant.toNat ∨ sh.2.2 ≤ q.portOrDeck.toNat ∨ sh.2.1 < q.base.toNat + count ∨
        (q.kind = 0 ∧ 1 < q.dir.toNat) ∨ hitsProtected s q then (stBadParam, s)
    else
      let r := cmdRead s k q.source.toNat (sh.1 * count)
      if r.1.1 ≠ stGood then (r.1.1, r.2)
      else
        let s' := loaded r.2 q r.1.2
        if !loadPasses r.2 s' q.variant.toNat then (stBadParam, r.2)
        else if q.kind ≠ 2 ∧ tellsPeer (portAt s' q.portOrDeck.toNat) then (stGood, sendTrain s' q.portOrDeck.toNat)
        else (stGood, s')

/-! ### TT_ARM and TT_SELECT_VARIANT (R88 to R92) -/

/-- The first failure over all loaded variants. -/
def armFail (s : State) (en period : Nat) : Option (Nat × ArmErr) :=
  ((List.range 4).filter (variantLoaded s)).findSome? (fun v => (variantFail s en period v).map (fun e => (v, e)))

/-- Record a check in TT.ARM_ERR; the record of a failure that names none is a free value. (DEDUCED, log entry 59.) -/
def recordArmErr (s : State) (e : Option (Nat × ArmErr)) : State :=
  match e with
  | none => setTt s { s.tt with errCheck := 0, errPort := 0, errDir := 0, errVariant := 0, errRecord := 0, errDeck := 0 }
  | some (v, x) =>
    let f := draw 16 s
    let rec_ : BitVec 16 := match x.record with
      | some i => BitVec.ofNat 16 i
      | none => f.1
    let s1 := if x.record.isSome then s else f.2
    setTt s1 { s1.tt with errCheck := BitVec.ofNat 8 x.check, errPort := BitVec.ofNat 4 x.port, errDir := BitVec.ofNat 1 x.dir,
                          errVariant := BitVec.ofNat 2 v, errRecord := rec_, errDeck := BitVec.ofNat 3 x.deck }

/-- The step at whose epoch a disarm takes effect: the first that lies at least 4,000 ticks ahead. -/
def disarmAt (s : State) : Nat :=
  let t := hallNs s + 20000
  if t ≤ s.tt.e0.toNat then 0 else (t - s.tt.e0.toNat + 5 * s.tt.p.toNat - 1) / (5 * s.tt.p.toNat)

/-- TT_ARM. The checks are searched and their finding recorded whatever else refuses the command, but for a timetable that is
armed already: then TT.ARM_ERR keeps what it holds. (DESIGN CHOICE, log entry 95.) -/
def ttArm (s : State) (q : TtArmP) : Status × State :=
  if q.disarm then
    if !s.tt.armed then (stBadParam, s)
    else if s.tt.disarmPending then (stGood, s)
    else (stGood, setTt s { s.tt with disarmPending := true, disarmStep := disarmAt s })
  else if s.htu.state ≠ 2 then (stAdrift, s)
  else
    let m := s.net.mapLoaded
    let code := mapRefusal s m
    let fail := armFail s (mapBits m 49 9) q.p.toNat
    let s0 := if code ≠ 0 then modNet s (fun n => { n with mapErr := BitVec.ofNat 3 code }) else s
    let s1 := recordArmErr s0 fail
    if s.tt.armed ∨ q.e0.toNat % 5 ≠ 0 ∨ q.e0.toNat < hallNs s + 1000000 ∨ q.p = 0 ∨ 4 ≤ q.variant.toNat ∨
        !variantLoaded s q.variant.toNat ∨ code ≠ 0 ∨ fail.isSome then
      (stBadParam, if s.tt.armed then s else s1)
    else
      let s2 := renumber (armMap s1)
      (stGood, setTt s2 { s2.tt with armed := true, begun := false, e0 := q.e0, p := q.p, step := 0,
                                     activeVar := BitVec.ofNat 2 q.variant.toNat, pendingValid := false, disarmPending := false })

/-- TT_SELECT_VARIANT. -/
def ttSelect (s : State) (q : TtSelectP) : Status × State :=
  if !s.tt.armed ∨ 4 ≤ q.variant.toNat ∨ !variantLoaded s q.variant.toNat ∨ epochNs s.tt q.step.toNat < hallNs s + 20000 then
    (stBadParam, s)
  else (stGood, setTt s { s.tt with pendingVar := BitVec.ofNat 2 q.variant.toNat, pendingValid := true, pendingStep := q.step })

/-! ### Step epochs -/

/-- The number of the step that begins next. -/
def nextStep (t : Timetable) : Nat := if t.begun then t.step.toNat + 1 else 0

/-- Detector 3 for the kernels of the past step's LAUNCH records that still run; each is reported once. -/
def stepDeadlines (s : State) (d : Nat) : State :=
  let k := deckAt s d
  let late := k.launches.filterMap (fun e => match e.2 with
    | some l => if l.sched then some (e.1, l) else none
    | none => none)
  let s1 := modDeck s d (fun k => late.foldl (fun k e => setLaunch k e.1 (some { e.2 with sched := false })) k)
  late.foldl (fun s e => fireDetector s 3 (some d) (some e.2.ctx) e.2.cores) s1

/-- STEP_EPOCH: a pending variant becomes active whatever the time state is (R97), and scheduled sending follows R93 to R96. At the
epoch of a disarm SCHED_ON becomes 0, and 1 again at the first epoch of the next timetable. (DESIGN CHOICE, log entry 95.) -/
def opStepEpoch (s : State) : State :=
  let t := s.tt
  let n := nextStep t
  let e := epochNs t n
  if !t.armed ∨ hallNs s < e then s
  else
    let t1 := { t with begun := true, step := BitVec.ofNat 64 n }
    if t.disarmPending ∧ t.disarmStep ≤ n then
      let h := { s.htu with schedOn := false }
      let s1 := { s with tt := { t1 with armed := false, begun := false, disarmPending := false, pendingValid := false }, htu := h }
      (List.range 8).foldl stepDeadlines s1
    else
      let t2 := if t.pendingValid ∧ t.pendingStep.toNat ≤ n then { t1 with activeVar := t.pendingVar, pendingValid := false } else t1
      let on := !s.htu.schedOn && (s.htu.state == 2 || s.htu.state == 3) && (match s.htu.lockedAt with
        | none => true
        | some x => decide (x + 1000000 ≤ e))
      let h := if on then { s.htu with schedOn := true, lockedAt := none } else s.htu
      let ps := (List.range 9).foldl (fun m p =>
        let q := mapGet ({} : Port) m p
        if q.schedWait ∧ q.upAt + 1000000 ≤ e then mapSet {} m p { q with schedWait := false } else m) s.ports
      (List.range 8).foldl stepDeadlines { s with tt := t2, htu := h, ports := ps }

/-! ### Sailings -/

/-- Ticks since the current step's epoch; none before the first epoch or while none is armed, and after a backward step of hall
time until it has reached the epoch again. (DESIGN CHOICE, log entry 95.) -/
def stepPos (s : State) : Option Nat :=
  if s.tt.armed ∧ s.tt.begun ∧ epochNs s.tt s.tt.step.toNat ≤ hallNs s then
    some ((hallNs s - epochNs s.tt s.tt.step.toNat) / 5)
  else none

/-- Does an event that starts at `start` and lasts `len` run now? -/
def runsNow (s : State) (start len : Nat) : Bool :=
  match stepPos s with
  | none => false
  | some x => decide (start ≤ x) && decide (x < start + max 1 len)

/-- May the port send scheduled traffic (R93, R94, R343)? -/
def sendsSched (s : State) (p : Nat) : Bool :=
  (s.htu.state == 2 || s.htu.state == 3) && s.htu.schedOn && portUp s p && !(portAt s p).schedWait

/-- Packets that a sailing carries at most, at the width it departs with (R76). -/
def sailingRoom (q : Port) (p len : Nat) : Nat := (len - 2) * portRate p * (4 - q.widthTx.toNat) / (4 * 544)

/-- The collectives of this step's occurrence of a slot. -/
def slotColls (s : State) (slot : Nat) : List Coll :=
  s.churn.colls.filter (fun c => c.desc.slot.toNat == slot && c.tstep == s.tt.step.toNat)

/-- The one that sends on port `p` in sailings of tag `tag`, which its partition must carry (R48, R382). -/
def slotSender (s : State) (p slot tag : Nat) : Option Coll :=
  (slotColls s slot).find? (fun c => (groupDecks c.desc).head? == some c.deck &&
    ((deckBind s c.deck).map (·.tag.toNat)) == some tag &&
    (collPlan s c).sends.any (fun i => i.port == p))

/-- The chunk and packet numbers that still have to leave, for the chunks of a list. -/
def chunkQueue (c : Coll) (p : Nat) (chunks : List Nat) : List (Nat × Nat) :=
  chunks.flatMap (fun n =>
    let m := mapGet [] c.ready (chunkKey p n)
    let sent := mapGet 0 c.sent (chunkKey p n)
    (List.range (chunkPackets m - sent)).map (fun i => (n, sent + i)))

/-- The packets a record takes: a primary one from CHUNK_BASE up to the first chunk that is not ready, a standby one every
ready chunk, in order (R81). -/
def sailingQueue (s : State) (c : Coll) (p : Nat) (x : Sailing) : List (Nat × Nat) :=
  let ready := fun n => !(mapGet [] c.ready (chunkKey p n)).isEmpty
  let all := List.range (portChunks c.desc (collPlan s c).sends p)
  chunkQueue c p (if x.standby then all.filter ready
    else (all.drop x.chunkBase).takeWhile (fun n => ready n || chunkGone c (chunkKey p n)))

/-- Have all packets of the slot left on this port? -/
def allSent (s : State) (c : Coll) (p : Nat) : Bool :=
  (List.range (portChunks c.desc (collPlan s c).sends p)).all (fun n => chunkGone c (chunkKey p n))

/-- The first chunk that has not wholly left. -/
def firstUnsent (s : State) (c : Coll) (p : Nat) : Nat :=
  ((List.range (portChunks c.desc (collPlan s c).sends p)).find? (fun n => !chunkGone c (chunkKey p n))).getD 0

/-- The ring coordinates that a broadcast's multicast on port `p` serves (R376). -/
def mcTargets (s : State) (p : Nat) : BitVec 32 :=
  let a := portAxis p
  let n := axisSize s a
  let me := (coordsOf (ownModule s))[a]?.getD 0
  let hops := if p % 2 = 1 then mcPlus n else n - 1 - mcPlus n
  (List.range hops).foldl (fun m j => setBit m (if p % 2 = 1 then (me + j + 1) % n else (me + n - (j + 1)) % n) true) 0

/-- An S packet of a collective. -/
def chunkPacket (s : State) (c : Coll) (p : Nat) (tag : BitVec 3) (n i : Nat) : Packet :=
  let m := mapGet [] c.ready (chunkKey p n)
  let mc := c.desc.op == 4 && decide (3 ≤ p)
  { cls := .s, type := 0, data := true, tag := tag, mc := mc, dst := neighbour s p, dstDeck := BitVec.ofNat 3 c.deck,
    src := ownModule s, srcDeck := BitVec.ofNat 3 c.deck, srcCore := 0xFFF, slot := c.desc.slot, pkt := BitVec.ofNat 16 i,
    chunk := BitVec.ofNat 32 n, mcmask := if mc then mcTargets s p else 0, payload := mapSlice m (512 * i) 512 }

/-- A packet of a sailing leaves: one of a collective is counted as sent, one that is forwarded is done with here. -/
def sendItem (p : Nat) (x : SailRun) (s : State) (i : SailItem) : State :=
  let s1 := sendOut s p { i.pk with dst := neighbour s p }
  modChurn s1 (fun c => match i.own with
    | none => { c with forward := c.forward.erase (p, i.pk) }
    | some d => { c with colls := c.colls.map (fun y =>
        if isColl d x.slot x.step y then { y with sent := mapMod 0 y.sent (chunkKey p i.pk.chunk.toNat) (· + 1) } else y) })

/-- The vacancy notice of R82, in the guard band; a port that can take no frame sends none. -/
def sendVacancy (s : State) (p : Nat) (x : Sailing) (reason chunk : Nat) : State :=
  if !canSend s p then s
  else
    let notice : Packet := { cls := .m, type := 0, tag := BitVec.ofNat 3 x.tag, dst := neighbour s p, src := ownModule s,
                             srcCore := 0xFFF, slot := BitVec.ofNat 16 x.slot, reason := BitVec.ofNat 4 reason,
                             chunk := BitVec.ofNat 32 chunk, step := s.tt.step }
    let s1 := sendOut s p notice
    if (portAt s p).lpl = 3 ∧ x.tag ≠ 0 then s1
    else modPort s1 p (fun q => { q with tt := { q.tt with vacantSent := satInc q.tt.vacantSent } })

/-- The deck and context that feed a slot: those of this step's collective, else those that issued the last one. (DESIGN CHOICE,
log entry 93.) -/
def slotFeed (s : State) (slot : Nat) : Option (Nat × Nat) :=
  match (slotColls s slot).head? with
  | some c => some (c.deck, c.ctx.toNat)
  | none =>
    let n := mapGet 0 s.churn.slotSource slot
    if n = 0 then none else some ((n - 1) / 16, (n - 1) % 16)

/-- Is the slot's source deck, or its source context, in reset? -/
def sourceReset (s : State) (slot : Nat) : Bool :=
  (slotColls s slot).any (·.silent) ||
  (match slotFeed s slot with
   | none => false
   | some (d, x) => decide ((deckAt s d).reset ≠ .none) || (ctxAt (deckAt s d) x).clearing)

/-- Why a sailing with nothing to carry is vacant (R82); where several reasons apply, a tag that no partition holds comes first,
then a reset, then an end with an error. (DESIGN CHOICE, log entry 93.) -/
def vacancyReason (s : State) (p : Nat) (x : Sailing) : Nat :=
  if (tagLd s (BitVec.ofNat 3 x.tag)).isNone then 3
  else if sourceReset s x.slot then 1
  else if (slotColls s x.slot).any (fun c => !c.learned.isEmpty) ∨
      s.churn.aborted.contains (BitVec.ofNat 16 x.slot, s.tt.step.toNat) then 2
  else match slotSender s p x.slot x.tag with
    | none => 0
    | some c => if allSent s c p then 4 else 0

/-- The check of a GATHER_JIT source before its first sailing departs with the shard (R271): the source goes on, or learns what the
check gives. -/
def checkShard (s : State) (c : Coll) : State :=
  if c.desc.op ≠ 7 ∨ c.checked then s
  else if shardCheck s c = stGood then putColl s { c with checked := true }
  else learn s c (shardCheck s c)

/-- The packets of its own collective that a sailing carries. -/
def ownItems (s : State) (p : Nat) (x : Sailing) : List SailItem :=
  match slotSender s p x.slot x.tag with
  | none => []
  | some c => if c.learned.isEmpty && !c.silent then
      ((sailingQueue s c p x).take (sailingRoom (portAt s p) p x.len)).map (fun e =>
        { pk := chunkPacket s c p (BitVec.ofNat 3 x.tag) e.1 e.2, own := some c.deck })
    else []

/-- The packets that a sailing forwards from its landings (R376). -/
def forwardItems (s : State) (p : Nat) (x : Sailing) : List SailItem :=
  (s.churn.forward.filter (fun e => e.1 == p && e.2.slot.toNat == x.slot && e.2.tag == BitVec.ofNat 3 x.tag)).map (fun e =>
    { pk := e.2 })

/-- The sailing of a record that starts now: its payload time, from the end of the guard band (R75). -/
def sailRun (s : State) (x : Sailing) (items : List SailItem) : SailRun :=
  let e := epochNs s.tt s.tt.step.toNat / 5
  { slot := BitVec.ofNat 16 x.slot, tag := BitVec.ofNat 3 x.tag, standby := x.standby, step := s.tt.step.toNat,
    from_ := e + x.start + 2, upto := e + x.start + x.len, at_ := max (e + x.start + 2) (hallNs s / 5), items := items,
    vacant := items.isEmpty }

/-- A COLL sailing, at its time whatever it carries (R98): packets to forward first, then the sender's own; or a vacancy notice,
and its payload time is open water (R82). -/
def departColl (s0 : State) (p : Nat) (x : Sailing) : State :=
  let s := match slotSender s0 p x.slot x.tag with
    | none => s0
    | some c => if (ownItems s0 p x).isEmpty then s0 else checkShard s0 c
  let items := forwardItems s p x ++ ownItems s p x
  let s1 := modPort s p (fun q => { q with sail := some (sailRun s x items) })
  if items.isEmpty then
    let first := match slotSender s p x.slot x.tag with
      | none => x.chunkBase
      | some c => firstUnsent s c p
    sendVacancy s1 p x (vacancyReason s p x) first
  else s1

/-- Send what the capacity gained so far allows; at most `fuel` packets. -/
def drainSail (fuel : Nat) (p : Nat) (s : State) : State :=
  match fuel with
  | 0 => s
  | k + 1 =>
    match (portAt s p).sail with
    | none => s
    | some x =>
      match x.items with
      | [] => s
      | i :: rest =>
        if x.credit < 2176 || !canSend s p then s
        else
          let s1 := sendItem p x s i
          drainSail k p (modPort s1 p (fun q => { q with
            sail := some { x with credit := x.credit - 2176, items := rest, carried := true },
            tt := if x.standby && !x.carried then { q.tt with standbyUsed := satInc q.tt.standbyUsed } else q.tt }))

/-- The sailing of a port as hall time passes: it gains capacity at the width of the moment, sends, and ends; what has not left
stays for the slot's standby sailings (R76, R77). -/
def sailTick (s : State) (p : Nat) : State :=
  match (portAt s p).sail with
  | none => s
  | some x =>
    let now := hallNs s / 5
    let t := min now x.upto
    let gain := (t - x.at_) * portRate p * (4 - (portAt s p).widthTx.toNat)
    let s1 := modPort s p (fun q => { q with sail := some { x with at_ := max t x.at_, credit := x.credit + gain } })
    let s2 := drainSail x.items.length p s1
    if x.upto ≤ now then modPort s2 p (fun q => { q with sail := none }) else s2

/-- The sailings of all ports. -/
def sailAll (s : State) : State := (List.range 9).foldl sailTick s

/-- SAILING_DEPART: transmit record `r` of port `p` starts. -/
def opSailing (s : State) (p r : Nat) : State :=
  match (activeRecords s p 0)[r]? with
  | none => s
  | some x =>
    if !runsNow s x.start x.len then s
    else if x.kind = 3 then (if portUp s p ∧ !(portAt s p).schedWait then opTimeStart s p else s)
    else if x.kind = 1 ∧ sendsSched s p then departColl s p x
    else s

/-! ### Rows and the ramp governor's queue (R502, R504) -/

/-- The pen row of a core: its physical pen's, rows of 16 (chapter 01). (DEDUCED, log entry 3.) -/
def coreRow (k : Deck) (i : Nat) : Nat := mapGet (i / 16) k.penMap (i / 16) / 16

/-- Rows of deck `d` wait for admission, unless they are admitted or wait already. -/
def handRows (s : State) (d : Nat) (rows : List Nat) : State :=
  let k := deckAt s d
  let new := ((rows.filter (fun i => !k.admitted.getLsbD i)).map (fun i => 16 * d + i)).filter (fun i => !s.power.waitRows.contains i)
  { s with power := { s.power with waitRows := s.power.waitRows ++ new.eraseDups } }

/-- Run a deck operation that may start a kernel: the parked rows of a launch that it starts wait for the governor; a
scheduled launch on a parked row that a RAMP record named sets RAMP_LATE. -/
def onDeckLaunch (s : State) (d : Nat) (f : Deck → DeckRes) : State :=
  let k := deckAt s d
  let s1 := onDeck s d f
  let new := (deckAt s1 d).launches.filterMap (fun e => if k.nextLaunch ≤ e.1 then e.2 else none)
  let rows := new.flatMap (fun l => l.cores.map (coreRow k))
  let late := new.any (fun l => l.sched && l.cores.any (fun i => k.rampRows.getLsbD (coreRow k i)))
  let s2 := handRows s1 d rows
  if late then { s2 with power := { s2.power with events := setBit s2.power.events 11 true } } else s2

/-! ### Deck schedule events (R100 to R106) -/

/-- The schedule record `r` of deck `d`, where it runs now and has the kind wanted. -/
def schedNow (s : State) (d r kind : Nat) : Option SchedRec :=
  match (schedRecords (deckAt s d) s.tt.activeVar.toNat)[r]? with
  | none => none
  | some x => if x.kind = kind ∧ runsNow s x.start x.len then some x else none

/-- SCHED_LAUNCH. -/
def opSchedLaunchRec (s : State) (d r : Nat) : State :=
  match schedNow s d r 1 with
  | none => s
  | some x => onDeckLaunch s d (fun k =>
      if headHeld k x.arg then (missLaunch k, []) else thenDeck (headEcc (hallNs s) x.arg k) (fun k => opSchedLaunch (coreEnv s d) k x.arg))

/-- Hall time, in ns, at which a window ends. -/
def windowEnd (s : State) (x : SchedRec) : Nat := epochNs s.tt s.tt.step.toNat + 5 * (x.start + x.len)

/-- SCHED_SCRUB and SCHED_SHADOW: the window opens, of the masked stacks for SCRUB (R102); a deck in reset misses it. -/
def opSchedScrub (s : State) (d r : Nat) : State :=
  match schedNow s d r 2 with
  | none => s
  | some x =>
    if (deckAt s d).reset = .none then
      modDeck s d (fun k => { k with scrubUntil := (List.range 4).foldl (fun m i =>
        if bits x.arg i 1 = 1 then mapSet 0 m i (windowEnd s x) else m) k.scrubUntil })
    else s
def opSchedShadow (s : State) (d r : Nat) : State :=
  match schedNow s d r 3 with
  | none => s
  | some x =>
    if (deckAt s d).reset = .none then
      -- after a window in which a sweep completed, the next one begins a new sweep at DPU 0 (R258)
      let fresh := fun (p : PenShadow) => if p.swept then { p with check := (p.check + 63) / 64 * 64, swept := false } else p
      modDeck s d (fun k => { k with shadowUntil := windowEnd s x, shadow := k.shadow.map (fun e => (e.1, fresh e.2)) })
    else s

/-- SCHED_RAMP: the masked rows of a deck wait at the ramp governor, whether or not QUIESCE stops its streams (R104, R431, R503). -/
def opSchedRamp (s : State) (d r : Nat) : State :=
  match schedNow s d r 4 with
  | none => s
  | some x =>
    let k := deckAt s d
    if k.power = .run ∧ k.reset = .none ∧ !k.outOfService then
      let rows := (List.range 13).filter (fun i => bits x.arg i 1 == 1)
      let mask : BitVec 13 := BitVec.ofNat 13 x.arg &&& ~~~ k.admitted
      handRows (modDeck s d (fun k => { k with rampRows := k.rampRows ||| mask })) d rows
    else s

end Sys2Proof.Machine
end

