-- ==== Sys2Proof/Machine/MemCtl.lean ====
section
/-! DEFINITION. The memory controllers at module level (chapter 08): host accesses by HDM offset (R55, R301, R302, R420), row
copies and the flash table (R329, R332), patrol (R320, R321), parity and retraining (R314 to R316), temperature (R322 to
R327). -/
namespace Sys2Proof.Machine
open Sys2Proof

/-! ### CXL.mem (R55, R301, R302, R420) -/

/-- Every sector of a range, by HDM offset / 32. -/
def rangeSectors (off n : Nat) : List Nat :=
  if n = 0 then [] else (List.range ((off + n - 1) / 32 + 1 - off / 32)).map (fun i => off / 32 + i)

/-- A CXL.mem or RDMA access waits for the channel or the row (R315, R329). (DESIGN CHOICE, log entry 97.) -/
def holdAccess (s : State) (i : Instr) : State := { s with host := { s.host with held := s.host.held ++ [i] } }

/-- CXL_MEM_READ. An LD without decks, and an offset beyond its range, gets poison; the first counts as a violation. The spec
does not say what an access meets while the LD's decoder is not committed: the model serves it by R55 (DESIGN CHOICE, log
entry 63). -/
def opCxlRead (s : State) (l : LdRef) (off n : Nat) (errs : List SectorErr) : State :=
  match heldBind (ldAt s (ldKey l)) with
  | none => violation (emit s (.cxlData l [] (rangeSectors off n))) (ldKey l)
  | some b =>
    if !hdmFits b off n then emit s (.cxlData l [] (rangeSectors off n))
    else if hdmHeld s b off n then holdAccess s (.cxlMemRead l off n errs)
    else
      let ps := hdmPieces b off n
      let s1 := hdmEcc s b off n errs
      let dead := (rangeSectors off n).filter (fun k => match hdmAt b (32 * k) with
        | some (d, a) => !(memUp (deckAt s1 d) && memReadOk (deckAt s1 d) a 32)
        | none => true)
      let data := ps.foldl (fun m x => mapSplice m x.2.2.1 x.2.2.2 (mapSlice (deckAt s1 x.1).mem x.2.1 x.2.2.2)) []
      emit s1 (.cxlData l (data.filter (fun e => !dead.contains ((off + e.1) / 32))) dead)

/-- CXL_MEM_WRITE: not gated (R282). (DEDUCED, log entry 63.) -/
def opCxlWrite (s : State) (l : LdRef) (off : Nat) (bs : List Byte) (errs : List SectorErr) : State :=
  match heldBind (ldAt s (ldKey l)) with
  | none => violation s (ldKey l)
  | some b =>
    if !hdmFits b off bs.length then s
    else if hdmHeld s b off bs.length then holdAccess s (.cxlMemWrite l off bs errs)
    else
      let s1 := (hdmPieces b off bs.length).foldl (fun s x =>
        if memUp (deckAt s x.1) then
          let s2 := onDeck s x.1 (eccEdges (hallNs s) x.2.1 x.2.2.2 (hdmErrs b x.1 errs))
          modDeck s2 x.1 (fun k => (memWritePartial k x.2.1 ((bs.drop x.2.2.1).take x.2.2.2)).1)
        else s) s
      emit s1 (.cxlWritten l)

/-! ### Rows, patrol (R320, R321, R329, R332) -/

/-- Change stack `st` of the module: deck d owns stacks 4d to 4d + 3 (R20). -/
def modStk (s : State) (st : Nat) (f : Stack → Stack) : State := modDeck s (st / 4) (fun k => modStack k (st % 4) f)
def stkAt (s : State) (st : Nat) : Stack := stackAt (deckAt s (st / 4)) (st % 4)

/-- ROW_COPY_DONE (R329): the copy has read the row's sectors; accesses to the row go on. -/
def opRowCopyDone (s : State) (st ch row : Nat) : State :=
  if (stkAt s st).copying.contains (rowKey ch row) then
    let s1 := onDeck s (st / 4) (copyRow (rowPage (st % 4) ch row))
    modStk s1 st (fun x => { x with copying := x.copying.erase (rowKey ch row) })
  else s

/-- REMAP_FLASH_WRITE (R332). -/
def opRemapFlash (s : State) (st : Nat) : State :=
  modStk s st (fun x => { x with remapOlder := x.remapFlash, remapFlash := x.remap })

/-- May patrol read: continuously while no timetable is armed, else in a SCRUB window; not in self-refresh (R102, R320)? -/
def patrolRuns (s : State) (st : Nat) : Bool :=
  let k := deckAt s (st / 4)
  decide (k.power = .run) && memUp k && !(stkAt s st).selfRefresh && (!s.tt.armed || decide (hallNs s < mapGet 0 k.scrubUntil (st % 4)))

/-- The poisoned sectors of a page, which patrol counts and skips (R301). -/
def skippedIn (d : Deck) (p : Nat) : Nat := (d.memBad.filter (fun e => e.1 / 128 == p)).length

/-- PATROL_READ: the next row; it meets the errors that lie in the row, and counts and skips its poisoned sectors. A row that
waits under R315 or R329 is read later. -/
def opPatrol (s : State) (st : Nat) (errs : List SectorErr) : State :=
  let i := (stkAt s st).patrol
  let p := rowPage (st % 4) (i % 16) (i / 16)
  if !patrolRuns s st || rangeHeld (deckAt s (st / 4)) (4096 * p) 4096 then s
  else
    let n := skippedIn (deckAt s (st / 4)) p
    let s0 := onDeck s (st / 4) (eccRange (hallNs s) (4096 * p) 4096 errs)
    let s1 := modStk s0 st (fun x => { x with skipped := x.skipped + n })
    if i + 1 = 0x180000 * 16 then
      modStk s1 st (fun x => { x with patrol := 0, ageS := 0, scrubLate := false, passes := satInc x.passes })
    else modStk s1 st (fun x => { x with patrol := i + 1 })

/-- SCRUB_AGE_LATE (R321): AGE_S exceeds 43,200 s, once in a pass. -/
def opScrubLate (s : State) (st : Nat) : State :=
  let x := stkAt s st
  if 43200 < x.ageS.toNat ∧ x.scrubLate = false then
    safetyAct (memEvent (modStk s st (fun x => { x with scrubLate := true })) 10) 9
  else s

/-- READ_AGE_PROMOTE, WARM_GRACE_EXPIRE, SELF_REFRESH_ENTER. -/
def opReadAge (s : State) (st : Nat) : State := modStk s st (fun x => { x with aged := satInc x.aged })
def opGraceExpire (s : State) (st : Nat) : State := modStk s st (fun x => { x with grace := false })
def opSelfRefresh (s : State) (st : Nat) : State :=
  if (deckAt s (st / 4)).power = .dock then modStk s st (fun x => { x with selfRefresh := true }) else s

/-! ### Parity and retraining (R314 to R316) -/

/-- A channel fails: every access to it completes with MEM_POISON, detector 8. The address of its log entry is free. -/
def channelFail (s0 : State) (st ch : Nat) : State :=
  let f := draw 40 s0
  let s := memEvent (modStk f.2 st (fun x => { x with chFailed := setBit x.chFailed ch true, chRetrain := setBit x.chRetrain ch false })) 5
  fireDetector (plogWrite s (st / 4) f.1.toNat (st % 4) ch 2) 8 (some (st / 4)) none []

/-- PARITY_ERROR: up to three retries, how many and whether the third succeeds being free; then the channel retrains, or
fails where it is the third retraining within 1 s. (DEDUCED, log entry 64.) -/
def opParity (s0 : State) (st ch : Nat) : State :=
  let x := stkAt s0 st
  if x.chFailed.getLsbD ch || x.chRetrain.getLsbD ch then s0
  else
    let f := draw 2 s0
    let n := min 3 (f.1.toNat + 1)
    let s := modStk f.2 st (fun x => { x with parityRetry := satAdd x.parityRetry n })
    if f.1 ≠ 3 then s
    else
      let now := hallNs s
      let ts := now :: (mapGet [] x.retrainTimes ch).filter (fun t => decide (now < t + 1000000000))
      let s1 := modStk s st (fun x => { x with retrainTimes := mapSet [] x.retrainTimes ch (ts.take 3) })
      if 3 ≤ ts.length then channelFail s1 st ch
      else memEvent (modStk s1 st (fun x => { x with chRetrain := setBit x.chRetrain ch true, retrain := satInc x.retrain })) 4

/-- CHANNEL_RETRAIN_DONE. -/
def opRetrainDone (s : State) (st ch : Nat) (ok : Bool) : State :=
  if (stkAt s st).chRetrain.getLsbD ch then
    if ok then modStk s st (fun x => { x with chRetrain := setBit x.chRetrain ch false }) else channelFail s st ch
  else s

/-! ### Temperature (R322 to R326) -/

/-- The level after a report of `t` °C. -/
def nextLevel (cfg : W64) (level : Nat) (t : Int) : Nat :=
  let warm : Int := bits cfg.toNat 0 8
  let hot : Int := bits cfg.toNat 8 8
  if level = 3 ∨ 105 < t then 3
  else if level = 0 then (if hot < t then 2 else if warm < t then 1 else 0)
  else if level = 1 then (if hot < t then 2 else if t < warm - 2 then 0 else 1)
  else if t < hot - 2 then 1 else 2

/-- A stack moves to a level: refresh, grace, counters (R317, R323). -/
def setLevel (x : Stack) (n : Nat) : Stack :=
  let l := x.level.toNat
  { x with level := BitVec.ofNat 2 n, refresh2x := decide (1 ≤ n),
           grace := if n = 1 then (if l = 0 then true else if l = 1 then x.grace else false) else false,
           warmEntries := if n = 1 ∧ l ≠ 1 then satInc x.warmEntries else x.warmEntries,
           hotEntries := if n = 2 ∧ l ≠ 2 then satInc x.hotEntries else x.hotEntries }

/-- Stack `st` moves to level `n`, with what that raises. -/
def moveLevel (s : State) (st n : Nat) : State :=
  let l := (stkAt s st).level.toNat
  let s1 := modStk s st (fun x => setLevel x n)
  if l = n then s1
  else if n = 1 then memEvent s1 6
  else if n = 2 then applyEff (st / 4) (memEvent s1 7) (.hot (st % 4))
  else if n = 3 then
    let s2 := safetyAct (memEvent s1 8) 4
    if (deckAt s2 (st / 4)).power = .shutdown then s2 else deckShutdown s2 (st / 4)
  else s1

/-- Does a reading of a sample satisfy `f`? -/
def anyTemp (ts : List (Option (BitVec 8))) (f : Int → Bool) : Bool :=
  ts.any (fun t => match t with
    | some x => f x.toInt
    | none => false)

/-- Is every stack of a deck below HOT_C, and every die sensor 5 °C or more below THROTTLE_C (R531)? -/
def deckCool (s : State) (d : Nat) : Bool :=
  let hot := (s.mem.cfg.extractLsb' 8 8).toInt
  (List.range 4).all (fun k => decide ((stackAt (deckAt s d) k).temp.toInt < hot)) &&
  !anyTemp (mapGet ({} : Die) s.thermal.dies d).samples (fun t => decide ((s.thermal.throttleC.toInt) - 5 ≤ t))

/-- A temperature of deck `d` has been taken: where it is not cool, the 10 s of detector 11 start again (R531). -/
def noteHeat (s : State) (d : Nat) : State :=
  if deckCool s d then s else modDeck s d (fun k => { k with hotAt := clockNs s })

/-- STACK_TEMP_REPORT. -/
def opTempReport (s : State) (st : Nat) (t : BitVec 8) : State :=
  let s1 := noteHeat (modStk s st (fun x => { x with temp := t, sensorLost := false, maxTemp := if x.maxTemp.toInt < t.toInt then t else x.maxTemp })) (st / 4)
  moveLevel s1 st (nextLevel s.mem.cfg (stkAt s st).level.toNat t.toInt)

/-- STACK_SENSOR_LOST: after three periods the stack counts as Hot; when the command comes again, as above 105 °C. -/
def opSensorLost (s : State) (st : Nat) : State :=
  let x := stkAt s st
  if x.sensorLost then moveLevel s st 3
  else
    let s1 := memEvent (modStk s st (fun x => { x with sensorLost := true })) 9
    if x.level.toNat < 2 then moveLevel s1 st 2 else s1

/-! ### MEM.CFG (R35, R327) -/

/-- A value written outside a field's range takes the nearest end. (DEDUCED, log entry 61.) -/
def clip (lo hi v : Nat) : Nat := if v < lo then lo else if hi < v then hi else v

/-- WARM_C, HOT_C, WARM_CAP, HOT_CAP clipped to their ranges, HOT_C at least WARM_C + 5. -/
def clipTemps (v : Nat) : BitVec 24 :=
  let w := clip 70 85 (bits v 0 8)
  let h := max (w + 5) (clip 80 95 (bits v 8 8))
  BitVec.ofNat 24 (w + 2 ^ 8 * h + 2 ^ 16 * clip 1 15 (bits v 16 4) + 2 ^ 20 * clip 1 15 (bits v 20 4))

/-- A firmware write stays at or below what the management plane has set, field by field. -/
def lowerTemps (a b : BitVec 24) : BitVec 24 :=
  let low := fun lo w => min (bits a.toNat lo w) (bits b.toNat lo w)
  clipTemps (low 0 8 + 2 ^ 8 * low 8 8 + 2 ^ 16 * low 16 4 + 2 ^ 20 * low 20 4)

/-- The management plane sets the four fields. -/
def mgcTemps (s : State) (v : BitVec 24) : State :=
  let t := clipTemps v.toNat
  { s with mem := { s.mem with cfg := (s.mem.cfg >>> 24 <<< 24) ||| t.setWidth 64, mgcCfg := t } }

/-- MEM_CFG_WRITE: firmware writes every field, the management plane the four limits, a host none. -/
def opMemCfg (s : State) (a : Agent) (v : W64) : State :=
  match a with
  | .host _ => unsupported s a
  | .mgc => mgcTemps s (v.setWidth 24)
  | .fw =>
    let t := lowerTemps (clipTemps v.toNat) s.mem.mgcCfg
    let n := t.toNat + 2 ^ 24 * bits v.toNat 24 4 + 2 ^ 32 * clip 1 255 (bits v.toNat 32 8)
    { s with mem := { s.mem with cfg := BitVec.ofNat 64 n } }

end Sys2Proof.Machine
end

