-- ==== Sys2Proof/Machine/RegRead.lean ====
section
/-! DEFINITION. The words of the module registers (the register tables of chapters 02, 05, 07 to 14), and who may read
them. Reserved fields read as 0 (R12). -/
namespace Sys2Proof.Machine
open Sys2Proof

/-- A register word from its fields, each at its lowest bit. -/
def packWord (fs : List (Nat × Nat)) : W64 := BitVec.ofNat 64 ((fs.map (fun f => f.2 * 2 ^ f.1)).sum)

/-- The LD whose banked registers an agent reaches; none for firmware and the MGC. -/
def agentLd (a : Agent) : Option LdRef :=
  match a with
  | .host l => some l
  | _ => none

/-- The key of the banked copy that an agent reaches; CMDP firmware and the MGC have none of their own and use a key that
no LD has. -/
def bankKey (a : Agent) : Nat := ((agentLd a).map ldKey).getD 32

/-! ### HT, TT, TLY (chapters 02, 05) -/

def htWord (s : State) (r : Reg) : W64 :=
  let h := s.htu
  match r with
  | .htNow => BitVec.ofNat 64 (hallNs s)
  | .htNowFrac => h.nowFrac.setWidth 64
  | .htStatus => packWord [(0, h.state.toNat), (3, boolNat h.announced), (4, h.source.toNat), (8, errNow s), (16, h.hops.toNat),
      (24, boolNat h.schedOn), (25, h.gmPrio.toNat), (32, h.gmModule.toNat)]
  | .htCfg => packWord [(0, boolNat h.cfgGmEn), (1, h.cfgGmPrio.toNat), (4, boolNat h.cfgPpsEdge), (8, h.cfgSrcMask.toNat)]
  | .htGmNextSec => h.gmNextSec
  | .htEvents => h.events.setWidth 64
  | .htDisagree => packWord [(0, h.disA.toNat), (4, h.disB.toNat), (16, h.disDiff.toNat)]
  | .htLinkDelay k =>
    let l : LinkTime := mapGet {} h.links k
    packWord [(0, l.delay.toNat), (32, l.asym.toNat), (63, boolNat (decide (4 ≤ l.exchanges)))]
  | .htAlarmTime d a => (mapGet ({} : Alarm) (deckAt s d).alarms a).time
  | .htAlarmCtl d a =>
    let x : Alarm := mapGet {} (deckAt s d).alarms a
    packWord [(0, x.sync.toNat), (12, boolNat x.enable), (13, boolNat x.fired), (16, x.ctx.toNat)]
  | _ => 0

def ttWord (s : State) (r : Reg) : W64 :=
  let t := s.tt
  match r with
  | .ttStatus => packWord [(0, boolNat t.armed), (1, t.activeVar.toNat), (3, t.pendingVar.toNat), (5, boolNat t.pendingValid),
      (6, boolNat t.disarmPending)]
  | .ttEpoch => t.e0
  | .ttPeriod => t.p.setWidth 64
  | .ttStep => t.step
  | .ttPendingStep => t.pendingStep
  | .ttArmErr => packWord [(0, t.errCheck.toNat), (8, t.errPort.toNat), (12, t.errDir.toNat), (13, t.errVariant.toNat),
      (16, t.errRecord.toNat), (32, t.errDeck.toNat)]
  | .ttTxStat p =>
    let q := (portAt s p).tt
    packWord [(0, q.vacantSent.toNat), (16, q.standbyUsed.toNat), (32, q.slotEnded.toNat)]
  | .ttRxStat p =>
    let q := (portAt s p).tt
    packWord [(0, q.vacantRecv.toNat), (16, q.tagDrop.toNat), (32, q.unexpected.toNat)]
  | .ttTtbl p v r =>
    let q := (portAt s p).tt
    packWord [(0, (mapGet 0 q.base (2 * v.val + r.val)).toNat), (32, (mapGet 0 q.count (2 * v.val + r.val)).toNat)]
  | .ttDsched d v =>
    let k := deckAt s d
    packWord [(0, (mapGet 0 k.dschedBase v).toNat), (16, (mapGet 0 k.dschedCount v).toNat)]
  | .ttDstat d => (deckAt s d).missed.setWidth 64
  | _ => 0

def tlyWord (s : State) (r : Reg) : W64 :=
  let rec' := fun (d n : Nat) => (mapGet ({} : Tally) (deckAt s d).tallies n)
  match r with
  | .tlyCtl d c =>
    let k := ctxAt (deckAt s d) c.toNat
    packWord [(0, boolNat k.clearing), (8, k.hbias.toNat)]
  | .tlyStat d => (deckAt s d).binSat.setWidth 64
  | .tlyTotal d n => (rec' d n.toNat).total
  | .tlyZeros d n => (rec' d n.toNat).zeros
  | .tlySats d n => (rec' d n.toNat).sats
  | .tlyNonfinite d n => (rec' d n.toNat).nonfinite
  | .tlyFlushes d n => (rec' d n.toNat).flushes
  | .tlyAmax d n => (rec' d n.toNat).amax.setWidth 64
  | .tlyHist d n m =>
    let b := (rec' d n.toNat).bins
    packWord [(0, (mapGet 0 b (2 * m.val)).toNat), (32, (mapGet 0 b (2 * m.val + 1)).toNat)]
  | _ => 0

/-! ### HOLD, MEM (chapters 07, 08) -/

def holdWord (s : State) (r : Reg) : W64 :=
  let h := fun (d : Nat) (c : BitVec 4) => (ctxAt (deckAt s d) c.toNat).hold
  match r with
  | .holdStep d c => packWord [(0, (h d c).attempt.toNat), (16, (h d c).step.toNat)]
  | .holdStepStatus d c => packWord [(0, (h d c).status.toNat), (16, (h d c).origin.toNat)]
  | .holdCommit d c => packWord [(0, (h d c).gate.toNat), (2, boolNat (h d c).defer), (16, (h d c).applyObj.toNat)]
  | .holdMbase d c => (h d c).mbase.setWidth 64
  | .holdMsize d c => (h d c).msize.setWidth 64
  | .holdBase d c => (h d c).base.setWidth 64
  | .holdSize d c => packWord [(0, (h d c).size.toNat), (48, (h d c).fpSlots.toNat)]
  | .holdTop d c => packWord [(0, (h d c).top.toNat), (40, (h d c).entries.toNat)]
  | .holdHwm d c => (h d c).hwm.setWidth 64
  | .holdFault d c => packWord [(0, (h d c).faultStatus.toNat), (16, (h d c).faultWant.toNat), (32, (h d c).faultFound.toNat),
      (48, (h d c).faultCore.toNat), (63, boolNat (h d c).faultValid)]
  | .holdSnap d c => packWord [(0, (h d c).snapState.toNat), (16, (h d c).snapStatus.toNat)]
  | .holdSnapTag d c => (h d c).snapTag
  | .holdDrop d => (deckAt s d).gateDrop.setWidth 64
  | _ => 0

/-- Does an agent see the poison-log entry `n`: its deck is one of the LD's (chapter 08)? -/
def plogSeen (s : State) (a : Agent) (n : Nat) : Bool :=
  match a with
  | .host l => match heldBind (ldAt s (ldKey l)) with
    | some b => b.decks.getLsbD (bits (mapGet (0 : W64) s.mem.plogLo n).toNat 40 3)
    | none => false
  | _ => true

def memWord (s : State) (a : Agent) (r : Reg) : W64 :=
  let m := s.mem
  match r with
  | .memCfg => m.cfg
  | .memEvents => m.events.setWidth 64
  | .memPlogCnt => m.plogCnt.setWidth 64
  | .memPlogLo n => if plogSeen s a n then mapGet 0 m.plogLo n else 0
  | .memPlogHi n => if plogSeen s a n then mapGet 0 m.plogHi n else 0
  | .memStatus n =>
    let x := stkAt s n
    packWord [(0, x.temp.toNat), (8, x.level.toNat), (10, boolNat x.grace), (11, boolNat x.refresh2x), (12, boolNat x.selfRefresh),
      (16, x.chFailed.toNat), (32, x.chRetrain.toNat)]
  | .memEcc n => packWord [(0, (stkAt s n).ce.toNat), (32, (stkAt s n).ue.toNat)]
  | .memLink n =>
    let x := stkAt s n
    packWord [(0, x.parityRetry.toNat), (16, x.retrain.toNat), (32, x.rereadOk.toNat), (48, x.partialDrop.toNat)]
  | .memRemap n =>
    let x := stkAt s n
    packWord [(0, x.remap.length), (16, (x.remap.filter (fun e => e.2.retired)).length), (32, 4096 - x.spareUsed.length)]
  | .memScrub n => packWord [(0, (stkAt s n).passes.toNat), (32, (stkAt s n).ageS.toNat)]
  | .memPrio n => packWord [(0, (stkAt s n).p3Demoted.toNat), (32, (stkAt s n).aged.toNat)]
  | .memTherm n =>
    let x := stkAt s n
    packWord [(0, x.warmEntries.toNat), (16, x.hotEntries.toNat), (32, x.maxTemp.toNat)]
  | _ => 0

/-! ### LNK, CHN (chapters 09, 10) -/

def lnkWord (s : State) (r : Reg) : W64 :=
  let n := s.net
  match r with
  | .lnkCfg => packWord [(0, n.fenceWaitUs.toNat), (16, n.reqTimeoutUs.toNat), (32, n.violLimit.toNat)]
  | .lnkMap => packWord [(0, boolNat n.armed), (1, n.mapErr.toNat)]
  | .lnkFtrk => packWord [(0, n.tracker.length), (15, n.fenceHold.length), (32, n.refused.toNat)]
  | .lnkFdrop => packWord [(0, n.fenceDiscard.toNat), (32, n.lateReply.toNat)]
  | .lnkStatus p =>
    let q := portAt s p
    packWord [(0, q.state.toNat), (4, q.widthTx.toNat), (6, q.widthRx.toNat), (8, q.lpl.toNat), (12, q.sparesTx.toNat),
      (14, q.sparesRx.toNat), (16, boolNat q.schedWait)]
  | .lnkLanesTx p => (portAt s p).failedTx.setWidth 64
  | .lnkLanesRx p => (portAt s p).failedRx.setWidth 64
  | .lnkPeer p =>
    let q := portAt s p
    packWord [(0, q.peerModule.toNat), (17, q.peerPort.toNat), (21, q.peerLpl.toNat), (32, q.peerBuild.toNat)]
  | .lnkExpect p =>
    let q := portAt s p
    packWord [(0, q.expModule.toNat), (17, q.expPort.toNat), (21, q.expLpl.toNat), (24, boolNat q.enabled)]
  | .lnkFibre p => (portAt s p).fibre
  | .lnkErr p =>
    let q := portAt s p
    packWord [(0, q.crcErr.toNat), (16, q.replay.toNat), (32, q.fecUncorr.toNat), (48, q.violation.toNat)]
  | .lnkDrop p =>
    let q := portAt s p
    packWord [(0, q.ageDrop.toNat), (16, q.downDrop.toNat), (32, q.mcFenced.toNat), (48, q.tagDiscard.toNat)]
  | .lnkEvents p => (portAt s p).events.setWidth 64
  | .lnkCtl p => packWord [(0, boolNat (portAt s p).disable)]
  | _ => 0

def chnWord (s : State) (r : Reg) : W64 :=
  let c := s.churn
  let k := fun (d : Nat) (x : BitVec 4) => ctxAt (deckAt s d) x.toNat
  match r with
  | .chnCfg => packWord [(0, boolNat c.resendEn), (8, c.maxActive.toNat)]
  | .chnStat => packWord [(0, c.digestDrop.toNat), (16, c.stepDrop.toNat), (32, c.abortSent.toNat), (48, c.abortLate.toNat)]
  | .chnResend => packWord [(0, c.requested.toNat), (32, c.recovered.toNat)]
  | .chnPail d x => packWord [(0, (k d x).pailBase.toNat), (16, (k d x).pailSize.toNat), (32, (k d x).recv.toNat)]
  | .chnActive d x => packWord [(0, (k d x).running.length % 32), (16, ((k d x).running.headD 0).toNat)]
  | .chnLast d x => packWord [(0, (k d x).lastStatus.toNat), (16, (k d x).lastSlot.toNat), (32, (k d x).lastSeq.toNat)]
  | .chnUndel d x => packWord [(0, (k d x).undel.toNat), (32, (k d x).undelAxis.toNat)]
  | .chnVote d x => packWord [(0, (k d x).voteNbad.toNat), (32, (k d x).voteStatus.toNat), (48, (k d x).voteColl.toNat)]
  | .chnVoteMember d x => (k d x).voteMember.setWidth 64
  | .chnSkim d x => packWord [(0, (k d x).skimSat.toNat), (32, (k d x).skimFlush.toNat)]
  | _ => 0

/-! ### CMD, MBX, LCK (chapter 11) -/

/-- Does the configuration record put a CXL port in MLD mode (R416, R475)? In recovery every port is an SLD (R484). -/
def portMld (s : State) (p : Nat) : Bool := !s.mgmt.recovery && cellGet s.mgmt.record (8 + p) == 1

/-- Is the LD of a reference the FM-owned LD of its port? -/
def isFm (s : State) (l : LdRef) : Bool := decide (l.ld.val = 8) && portMld s l.port

/-- CMD.ID of an LD. -/
def cmdIdWord (s : State) (l : LdRef) : W64 :=
  let tail := [(5, boolNat (isFm s l)), (26, l.port.val), (27, l.ld.val % 8)]
  match heldBind (ldAt s (ldKey l)) with
  | none => packWord tail
  | some b => packWord ([(0, b.slot), (3, 1), (4, boolNat b.owner), (8, b.decks.toNat), (16, b.tag.toNat), (20, b.window % 64)] ++ tail)

/-- CMD.CTXd. -/
def cmdCtxWord (s : State) (d : Nat) : W64 :=
  let k := deckAt s d
  let mask := fun (f : CtxLife → Bool) => ((List.range 16).filter (fun c => f (ctxAt k c).life)).foldl (fun n c => n + 2 ^ c) 0
  packWord [(0, mask (fun l => decide (l = .live ∨ l = .draining ∨ l = .isolating))), (16, mask (fun l => decide (l = .quarantine))),
    (32, k.streams.length)]

def cmdWord (s : State) (a : Agent) (r : Reg) : W64 :=
  let l := ldAt s (bankKey a)
  match r with
  | .cmdId => ((agentLd a).map (cmdIdWord s)).getD 0
  | .cmdCfg => packWord [(0, l.drainUs.toNat), (16, boolNat l.evIrq)]
  | .cmdCtl => 0
  | .cmdViol => packWord [(0, l.viol.toNat), (16, boolNat l.paused)]
  | .cmdCrTail r => (mapGet ({} : Ring) l.rings r).crTail.setWidth 64
  | .cmdCrHead r => packWord [(0, (mapGet ({} : Ring) l.rings r).crHead.toNat), (32, (mapGet ({} : Ring) l.rings r).expectSeq.toNat)]
  | .cmdSrTail r => (mapGet ({} : Ring) l.rings r).srTail.setWidth 64
  | .cmdSrHead r => (mapGet ({} : Ring) l.rings r).srHead.setWidth 64
  | .cmdEvTail => l.evTail.setWidth 64
  | .cmdEvHead => l.evHead.setWidth 64
  | .cmdEvLost => l.evLost.setWidth 64
  | .cmdEthErr => packWord [(0, l.nakSent.toNat), (16, l.immBad.toNat), (32, l.qpErr.toNat)]
  | .cmdTmo g => (mapGet (if g = 6 then 60000 else 100) l.tmo g).setWidth 64
  | .cmdCtx d => cmdCtxWord s d
  | .cmdCtxDrop d => (deckAt s d).ctxDrop.setWidth 64
  | _ => 0

def mbxWord (s : State) (a : Agent) (r : Reg) : W64 :=
  let l := ldAt s (bankKey a)
  match r with
  | .mbxPtr m => if a = .fw then mapGet 0 s.host.fwPtr m else mapGet 0 l.mbxPtr m
  | .mbxLt m => if a = .fw then mapGet 0 s.host.fwLt m else mapGet 0 l.mbxLt m
  | .mbxStat m =>
    let b : Mailbox := mapGet {} s.host.mbx m
    packWord [(0, b.queue.length), (16, b.full.toNat), (32, b.downErr.toNat)]
  | .mbxDcfg d =>
    let k := deckAt s d
    packWord [(0, k.mbxBase.toNat), (40, k.mbxCtx.toNat), (44, k.mbxSync.toNat), (56, boolNat k.mbxValid)]
  | .lck n => BitVec.ofNat 64 (mapGet 0 s.host.locks n)
  | .lckIgnored => s.host.lckIgnored.setWidth 64
  | _ => 0

/-! ### MGT, PWR, THM, SAF, RST (chapters 12 to 14) -/

/-- Flags of the configuration record in force (R475). -/
def recordFlag (s : State) (b : Nat) : Bool := (cellGet s.mgmt.record 12).getLsbD b

def mgtWord (s : State) (r : Reg) : W64 :=
  let m := s.mgmt
  match r with
  | .mgtFw => packWord [(0, m.build.toNat), (32, m.svn.toNat), (48, boolNat m.recovery), (49, boolNat m.fwPending)]
  | .mgtSvn => m.counter.setWidth 64
  | .mgtCfg => packWord [(0, m.sequence.toNat), (32, boolNat (cellGet m.record 8 == 1)), (33, boolNat (cellGet m.record 9 == 1)),
      (34, boolNat (recordFlag s 0)), (35, boolNat (recordFlag s 1))]
  | .mgtStage => packWord [(0, m.stageBytes.toNat), (25, m.stageState.toNat), (28, m.stageOwner.toNat), (30, boolNat m.stageKind),
      (32, m.stageStatus.toNat)]
  | .mgtIdent => packWord [(0, m.elsPresent.toNat), (4, m.elsValid.toNat), (8, boolNat m.trayValid), (9, m.bay.toNat),
      (11, boolNat m.pufOk), (12, m.fibreValid.toNat)]
  | .mgtTraySerial => m.traySerial
  | .mgtElsSerial n => mapGet 0 m.elsSerial n
  | .mgtMctp => packWord [(0, m.i3cAddr.toNat), (8, m.eidI3c.toNat), (16, m.eidCxl.toNat)]
  | .mgtEvents => m.events.setWidth 64
  | _ => 0

/-- Trips of a feed's eFuse in the last 60 minutes (R487). -/
def tripCount (s : State) (ts : List Nat) : Nat :=
  min 3 (ts.filter (fun t => decide (clockNs s < t + 3600000000000))).length

/-- The code of a deck's power state (PWR.DECKd.STATE). -/
def powerCode (p : DeckPower) : Nat :=
  match p with
  | .run => 0
  | .dock => 1
  | .shutdown => 2
  | .waking => 3

def pwrWord (s : State) (r : Reg) : W64 :=
  let p := s.power
  match r with
  | .pwrStatus => packWord [(0, p.activeFeed.toNat), (2, boolNat p.efuseA), (3, boolNat p.efuseB), (4, p.moduleState.toNat)]
  | .pwrFeedA => packWord [(0, p.voltsA.toNat), (16, p.ampsA.toNat), (32, tripCount s p.tripTimesA)]
  | .pwrFeedB => packWord [(0, p.voltsB.toNat), (16, p.ampsB.toNat), (32, tripCount s p.tripTimesB)]
  | .pwrInput => packWord [(0, p.sampleW.toNat), (16, p.avgW.toNat), (32, p.peakW.toNat)]
  | .pwrLimit => packWord [(0, p.mgcW.toNat), (16, p.fwW.toNat), (32, p.effW.toNat)]
  | .pwrGov => packWord [(0, p.duty.toNat), (16, p.overCnt.toNat), (32, p.changes.toNat)]
  | .pwrCfg => packWord [(0, p.parkUs.toNat), (16, p.dockIdleMs.toNat)]
  | .pwrEvents => p.events.setWidth 64
  | .pwrModule => packWord [(0, boolNat p.standbyReq)]
  | .pwrDeck d =>
    let k := deckAt s d
    packWord [(0, powerCode k.power), (2, boolNat k.dockReq), (4, k.admitted.toNat)]
  | .thmCfg => s.thermal.throttleC.setWidth 64
  | .thmEvents => s.thermal.events.setWidth 64
  | .thmDie n =>
    let x : Die := mapGet {} s.thermal.dies n
    packWord [(0, x.temp.toNat), (8, x.sensor.toNat), (16, x.duty.toNat), (24, x.rate.toNat), (32, x.maxTemp.toNat)]
  | .thmCoolant => packWord [(0, s.thermal.count.toNat), (8, s.thermal.consec.toNat)]
  | _ => 0

/-- The oldest scratchpad pass of a deck, in seconds (R515): a core whose pass began at second 0 is not listed. -/
def spadAge (k : Deck) : Nat :=
  if k.scrubStart.length < 3200 then k.scrubRun
  else k.scrubRun - (k.scrubStart.map (·.2)).foldl min k.scrubRun

def safWord (s : State) (r : Reg) : W64 :=
  let f := s.safety
  let e := fun (n : Nat) => mapGet ({} : ArithRec) f.arith n
  match r with
  | .safStatus => packWord [(0, boolNat f.latched), (1, boolNat f.safeN), (2, f.cause.toNat)]
  | .safTime => f.time
  | .safEvents => f.events.setWidth 64
  | .safArithCnt => f.written.setWidth 64
  | .safArith n => (e n).word
  | .safArithMiss n => (e n).miss
  | .safArithClean n => (e n).clean
  | .safSpscrub d => packWord [(0, min (2 ^ 32 - 1) (spadAge (deckAt s d)))]
  | .safLockstep => f.diverge.setWidth 64
  | _ => 0

/-- Decks with a running reset. -/
def deckBusy (s : State) : Nat :=
  ((List.range 8).filter (fun d => s.rst.running.any (fun r => scopeDeck r.scope == some d))).foldl (fun n d => n + 2 ^ d) 0

/-- Is the window of R538 open for some LD? -/
def legacyOpen (s : State) : Bool := s.host.lds.any (fun e => e.2.legacyWindow)

def rstWord (s : State) (r : Reg) : W64 :=
  let x := s.rst
  match r with
  | .rstStatus => packWord [(0, deckBusy s), (8, x.phase.toNat), (12, boolNat x.hold), (13, boolNat x.cmdpRestart),
      (14, boolNat (legacyOpen s)), (15, boolNat x.pwrcycReq)]
  | .rstCfg => packWord [(0, x.maxAuto.toNat), (4, x.escWindowMs.toNat), (20, boolNat x.pwrcycEn), (32, x.pwrcycWaitMs.toNat)]
  | .rstAction => x.action
  | .rstLimits => packWord [(0, x.wdogLog2.toNat), (16, x.collSlackUs.toNat)]
  | .rstLast => x.last.setWidth 64
  | .rstOptload => x.restarts.setWidth 64
  | .rstEvents => x.events.setWidth 64
  | .rstLegacyWarm => packWord [(16, x.legacyStatus.toNat)]
  | .rstSample => packWord [(0, x.sampleDeck.toNat), (3, boolNat x.sampleAuto), (4, x.sampleCount.toNat), (8, x.samplePen.toNat)]
  | .rstSwrstHub => x.swHub.setWidth 64
  | .rstSwrst d => (mapGet 0 x.swDeck d).setWidth 64
  | .rstDetect n => packWord [(0, (mapGet 0 x.detCount n).toNat), (32, (mapGet 0 x.detLast n).toNat)]
  | .bkp n => mapGet 0 x.bkp n
  | .retained off => BitVec.ofNat 64 (readNat x.retained (8 * off.toNat) 8)
  | _ => 0

/-! ### Any register -/

/-- The word of space 2 that a register name stands for. -/
def syncReg (r : Reg) : Option (Nat × SyncWord) :=
  match r with
  | .syncSet d i => some (d, .set i.toNat)
  | .syncSignal d i => some (d, .signal i.toNat)
  | .syncPoison d i => some (d, .poison i.toNat)
  | .syncGroup d g => some (d, .config g.toNat)
  | .syncTimed d g => some (d, .timed g.toNat)
  | .syncPoisoned d g => some (d, .poisoned g.toNat)
  | _ => none

/-- Who reads a register as R12, R227, R420, R516, R535, R542 and R557 and the register sections give it. -/
inductive Reach where
  /-- Every bound LD, the CMDP and the MGC. -/
  | bound
  /-- The LD that holds the deck, the CMDP and the MGC. -/
  | deck (d : Nat)
  /-- Every LD, bound or not. -/
  | any
  /-- The LD with the owner right, and the CMDP. -/
  | owner
  /-- The CMDP alone. -/
  | cmdp
deriving DecidableEq, Repr

/-- The reach of each register. -/
def regReach (r : Reg) : Reach :=
  match r with
  | .htNow | .htNowFrac | .htStatus | .htCfg | .htGmNextSec | .htEvents | .htDisagree | .htLinkDelay _ | .htAlarmTime _ _
  | .htAlarmCtl _ _ | .ttStatus | .ttEpoch | .ttPeriod | .ttStep | .ttPendingStep | .ttArmErr | .ttTxStat _ | .ttRxStat _
  | .ttTtbl _ _ _ | .ttDsched _ _ | .ttDstat _ => .bound
  | .tlyCtl d _ | .tlyTotal d _ | .tlyZeros d _ | .tlySats d _ | .tlyNonfinite d _ | .tlyFlushes d _ | .tlyAmax d _
  | .tlyHist d _ _ => .deck d
  | .tlyStat d => .deck d
  | .holdStep d _ | .holdStepStatus d _ | .holdCommit d _ | .holdMbase d _ | .holdMsize d _ | .holdBase d _ | .holdSize d _
  | .holdTop d _ | .holdHwm d _ | .holdFault d _ | .holdSnap d _ | .holdSnapTag d _ => .deck d
  | .holdDrop d => .deck d
  | .memCfg | .memEvents | .memPlogCnt | .memPlogLo _ | .memPlogHi _ => .bound
  | .reserved x => match x with
    | .mem n => .deck (n.val / 4)
    | .lnk _ _ => .bound
    | .chn d _ => .deck d
    | .tly d _ _ => .deck d
    | .hold d _ _ => .deck d
  | .memStatus n | .memEcc n | .memLink n | .memRemap n | .memScrub n | .memPrio n | .memTherm n => .deck (n.val / 4)
  | .lnkCfg | .lnkMap | .lnkFtrk | .lnkFdrop | .lnkStatus _ | .lnkLanesTx _ | .lnkLanesRx _ | .lnkPeer _ | .lnkExpect _
  | .lnkFibre _ | .lnkErr _ | .lnkDrop _ | .lnkEvents _ | .lnkCtl _ => .bound
  | .chnCfg | .chnStat | .chnResend => .bound
  | .chnPail d _ | .chnActive d _ | .chnLast d _ | .chnUndel d _ | .chnVote d _ | .chnVoteMember d _ | .chnSkim d _ => .deck d
  | .cmdId | .cmdCfg | .cmdCtl | .cmdViol | .cmdCrTail _ | .cmdCrHead _ | .cmdSrTail _ | .cmdSrHead _ | .cmdEvTail | .cmdEvHead
  | .cmdEvLost | .cmdEthErr | .cmdTmo _ => .any
  | .cmdCtx d | .cmdCtxDrop d => .deck d
  | .mbxPtr _ | .mbxLt _ | .mbxRing _ | .mbxStat _ | .mbxDcfg _ | .lck _ | .lckIgnored => .any
  | .mgtFw | .mgtSvn | .mgtCfg | .mgtStage | .mgtIdent | .mgtTraySerial | .mgtElsSerial _ | .mgtMctp | .mgtEvents => .bound
  | .pwrStatus | .pwrFeedA | .pwrFeedB | .pwrInput | .pwrLimit | .pwrGov | .pwrCfg | .pwrEvents | .pwrModule | .pwrDeck _
  | .thmCfg | .thmEvents | .thmDie _ | .thmCoolant | .safStatus | .safTime | .safEvents | .safArithCnt | .safArith _
  | .safArithMiss _ | .safArithClean _ | .safSpscrub _ | .safLockstep => .bound
  | .rstStatus | .rstCfg | .rstAction | .rstLimits | .rstLast | .rstOptload | .rstEvents | .rstLegacyWarm | .rstSample
  | .rstSwrstHub | .rstSwrst _ | .rstDetect _ | .bkp _ => .bound
  | .ringMem _ => .any
  | .hdmDecoder | .hdmRange => .bound
  | .retained _ => .owner
  | .syncSet _ _ | .syncSignal _ _ | .syncPoison _ _ | .syncGroup _ _ | .syncTimed _ _ | .syncPoisoned _ _ => .cmdp

/-- Does an LD hold deck `d`, not counting decks that are being unbound? -/
def ldHolds (s : State) (k d : Nat) : Bool :=
  match heldBind (ldAt s k) with
  | some b => b.decks.getLsbD d
  | none => false

/-- May an agent read a register of this reach? -/
def mayReach (s : State) (a : Agent) (x : Reach) : Bool :=
  match x, a with
  | .cmdp, .fw => true
  | .cmdp, _ => false
  | .owner, .fw => true
  | .owner, .mgc => false
  | .owner, .host l => isOwner s (ldKey l)
  | .bound, a => mayRead s a
  | .deck d, .host l => ldHolds s (ldKey l) d
  | .deck _, _ => true
  | .any, _ => true

/-- Memory_Active of an LD (R417). -/
def memoryActive (s : State) (k : Nat) : Bool :=
  match heldBind (ldAt s k) with
  | none => false
  | some b => (maskDecks (bindDecks b)).all (fun d => !(deckAt s d).clearing)

/-- The range register of an LD's HDM decoder: Memory_Info_Valid, Memory_Active and the size (R417). Its layout is CXL's.
(PRESUMED, log entry 100.) -/
def hdmRangeWord (s : State) (a : Agent) : W64 :=
  match a with
  | .host l =>
    let size := match heldBind (ldAt s (ldKey l)) with
      | some b => (maskDecks b.decks).length * memEnd
      | none => 0
    BitVec.ofNat 64 (size + 2 * boolNat (memoryActive s (ldKey l)) + boolNat (mapGet false s.host.cxlUp l.port.val))
  | _ => 0

/-- The word that a read of a register gives. The HDM decoder's layout is CXL's. (PRESUMED, log entry 72.) -/
def regWord (s : State) (a : Agent) (r : Reg) : W64 :=
  match r with
  | .ringMem off => BitVec.ofNat 64 (readNat (ldAt s (bankKey a)).mem (8 * off.toNat) 8)
  | .hdmDecoder =>
    let l := ldAt s (bankKey a)
    packWord [(4, l.decoderIw.toNat), (9, boolNat (l.committed || l.decoderErr)), (10, boolNat l.committed), (11, boolNat l.decoderErr)]
  | .hdmRange => hdmRangeWord s a
  | .reserved _ => 0
  | _ =>
    match syncReg r with
    | some (d, w) => syncRead (deckAt s d) w
    | none => htWord s r ||| ttWord s r ||| tlyWord s r ||| holdWord s r ||| memWord s a r ||| lnkWord s r ||| chnWord s r |||
        cmdWord s a r ||| mbxWord s a r ||| mgtWord s r ||| pwrWord s r ||| safWord s r ||| rstWord s r

end Sys2Proof.Machine
end

