-- ==== Sys2Proof/Machine/HostCmd.lean ====
section
/-! DEFINITION. The host's commands (chapter 11): rings and packet checks (R422 to R429), authority (R430), bindings (R38 to
R44, R418 to R421), contexts (R440 to R443), streams (R438, R439), sync groups (R143, R432), memory regions and queue pairs
(R450, R451), JOB_EPOCH (R276, R286), SNAPSHOT (R293 to R295), RESET and QUIESCE (R431, R525), identity and health. -/
namespace Sys2Proof.Machine
open Sys2Proof

/-! ### Packets (R422 to R424, R430) -/

/-- All bits of `n` bytes from byte `off`. -/
def fldMask (off n : Nat) : Nat := (2 ^ (8 * n) - 1) * 2 ^ (8 * off)

/-- Length of a command packet and the bits of its parameters that R430 lists, by opcode. (DEDUCED, log entry 79.) -/
def opLayout (op : Nat) : Option (Nat × Nat) :=
  match op with
  | 0x0001 => some (16, 0)
  | 0x0010 => some (32, fldMask 0 3 + 7 * 2 ^ 24 + fldMask 4 2 + 2 ^ 48)
  | 0x0101 => some (32, fldMask 0 1 + fldMask 2 4)
  | 0x0102 => some (32, fldMask 0 2 + fldMask 4 4)
  | 0x0110 => some (32, fldMask 0 2 + fldMask 4 12)
  | 0x0111 => some (32, fldMask 0 1 + fldMask 2 2)
  | 0x0120 => some (32, fldMask 0 1 + fldMask 2 14)
  | 0x0130 => some (32, fldMask 0 3 + 2 ^ 24 + fldMask 8 8)
  | 0x0131 => some (32, fldMask 0 2 + 0xFFF * 2 ^ 16 + fldMask 4 2)
  | 0x0201 => some (48, fldMask 0 2 + 0xF * 2 ^ 16 + fldMask 4 20)
  | 0x0210 => some (64, fldMask 0 7 + fldMask 8 31)
  | 0x0211 => some (32, fldMask 0 4)
  | 0x0301 => some (48, fldMask 0 12 + fldMask 16 8)
  | 0x0302 => some (32, fldMask 0 13 + 2 ^ 104)
  | 0x0303 => some (32, fldMask 0 1 + fldMask 8 8)
  | 0x0310 => some (16, 0)
  | 0x0401 => some (64, fldMask 0 2 + 0xFFF * 2 ^ 16 + fldMask 4 2 + fldMask 8 6 + fldMask 16 32)
  | 0x0410 => some (64, fldMask 0 2 + fldMask 4 32)
  | 0x0501 => some (32, fldMask 0 3 + fldMask 4 2)
  | 0x0502 => some (32, fldMask 0 1 + 2 ^ 8 + fldMask 4 4)
  | 0x0510 => some (16, 0)
  | 0x0601 => some (48, fldMask 0 16 + 2 ^ 128)
  | 0x0602 => some (16, 0)
  | 0x0610 => some (64, fldMask 0 44)
  | _ => none

/-- The bits of a packet that are in error: each byte of the header against what R423 and R424 expect, and the bits of the
parameters that R430 does not list. (DEDUCED, log entry 79.) -/
def packetErrors (w : Nat) (seq len mask : Nat) : Nat :=
  (bits w 17 15) * 2 ^ 17 + (bits w 32 32 ^^^ seq) * 2 ^ 32 + (bits w 64 16 ^^^ len) * 2 ^ 64 + bits w 80 16 * 2 ^ 80 +
  ((bits w 128 (8 * (len - 16))) ^^^ (bits w 128 (8 * (len - 16)) &&& mask)) * 2 ^ 128

/-- The lowest byte in error. -/
def lowestByte (e : Nat) : Option Nat := (List.range 64).find? (fun i => bits e (8 * i) 8 != 0)

/-- The header of a packet that the CMDP takes from ring `r` of an LD. -/
def packetHdr (l : LdRef) (r : Fin 2) (w : Nat) : CmdHdr :=
  { ld := l, ring := r, opcode := BitVec.ofNat 16 (bits w 0 16), irq := bits w 16 1 == 1, seq := BitVec.ofNat 32 (bits w 32 32),
    tag := BitVec.ofNat 32 (bits w 96 32) }

/-- `n` bytes of a packet from byte `off` of its parameters, as a bit vector (R430). -/
def param (w off n wd : Nat) : BitVec wd := BitVec.ofNat wd (bits w (128 + 8 * off) (8 * n))

/-- One bit of a packet's parameters. -/
def paramBit (w off : Nat) : Bool := bits w (128 + 8 * off) 1 == 1

/-- The command that a packet asks for: its opcode's row with the parameters at R430's offsets. -/
def decodeCmd (h : CmdHdr) (w : Nat) : Option Instr :=
  match h.opcode.toNat with
  | 0x0001 => some (.identify h)
  | 0x0010 => some (.bindLd h { port := param w 0 1 8, ld := param w 1 1 8, decks := param w 2 1 8, tag := param w 3 1 3,
                                window := param w 4 2 16, owner := paramBit w 6 })
  | 0x0101 => some (.ctxCreate h { deck := param w 0 1 8, pail := param w 2 2 16, recv := param w 4 2 16 })
  | 0x0102 => some (.ctxDestroy h { deck := param w 0 1 8, ctx := param w 1 1 8, drainUs := param w 4 4 32 })
  | 0x0110 => some (.streamOpen h { deck := param w 0 1 8, ctx := param w 1 1 8, entries := param w 4 4 32, base := param w 8 8 64 })
  | 0x0111 => some (.streamClose h { deck := param w 0 1 8, stream := param w 2 2 16 })
  | 0x0120 => some (.launch h { deck := param w 0 1 8, stream := param w 2 2 16, publish := param w 4 4 32, start := param w 8 8 64 })
  | 0x0130 => some (.syncAlloc h { deck := param w 0 1 8, ctx := param w 1 1 8, count := param w 2 1 8, free := paramBit w 3,
                                   mask := param w 8 8 64 })
  | 0x0131 => some (.syncPoison h { deck := param w 0 1 8, ctx := param w 1 1 8, obj := param w 2 2 12, status := param w 4 2 16 })
  | 0x0201 => some (.memMap h { deck := param w 0 1 8, ctx := param w 1 1 8, access := param w 2 1 4, rkey := param w 4 4 32,
                                base := param w 8 8 64, length := param w 16 8 64 })
  | 0x0210 => some (.qpOpen h { port := param w 0 1 8, mtu := param w 1 1 8, vlan := param w 2 2 16, remoteQpn := param w 4 3 24,
                                sqPsn := param w 8 4 32, rqPsn := param w 12 4 32, remoteIp := param w 16 16 128,
                                nextHop := param w 32 6 48, retry := param w 38 1 8 })
  | 0x0211 => some (.qpClose h (param w 0 4 32))
  | 0x0301 => some (.ttLoad h { kind := param w 0 1 8, variant := param w 1 1 8, portOrDeck := param w 2 1 8, dir := param w 3 1 8,
                                base := param w 4 4 32, count := param w 8 4 32, source := param w 16 8 64 })
  | 0x0302 => some (.ttArm h { e0 := param w 0 8 64, p := param w 8 4 32, variant := param w 12 1 8, disarm := paramBit w 13 })
  | 0x0303 => some (.ttSelectVariant h { variant := param w 0 1 8, step := param w 8 8 64 })
  | 0x0310 => some (.timeStatus h)
  | 0x0401 => some (.jobEpoch h { deck := param w 0 1 8, ctx := param w 1 1 8, applyObj := param w 2 2 12, fpSlots := param w 4 2 16,
                                  step := param w 8 6 48, mbase := param w 16 8 64, msize := param w 24 8 64,
                                  hbase := param w 32 8 64, hsize := param w 40 8 64 })
  | 0x0410 => some (.snapshot h { deck := param w 0 1 8, ctx := param w 1 1 8, qpn := param w 4 4 32, snapBase := param w 8 8 64,
                                  length := param w 16 8 64, remoteAddr := param w 24 8 64, rkey := param w 32 4 32 })
  | 0x0501 => some (.reset h { level := param w 0 1 8, deck := param w 1 1 8, ctx := param w 2 1 8, core := param w 4 2 16 })
  | 0x0502 => some (.quiesce h { decks := param w 0 1 8, release := paramBit w 1, timeoutUs := param w 4 4 32 })
  | 0x0510 => some (.health h)
  | 0x0601 => some (.fwStage h { offset := param w 0 4 32, length := param w 4 4 32, source := param w 8 8 64, last := paramBit w 16 })
  | 0x0602 => some (.fwActivate h)
  | 0x0610 => some (.attest h { nonce := param w 0 32 256, dest := param w 32 8 64, destLen := param w 40 4 32 })
  | _ => none

/-- A deck number of a command as a mask. -/
def deckBit (d : BitVec 8) : BitVec 8 := if d.toNat < 8 then 1#8 <<< d.toNat else 0

/-- The decks that a command names (R428). -/
def cmdDecks (c : Instr) : BitVec 8 :=
  match c with
  | .bindLd _ q => q.decks
  | .ctxCreate _ q => deckBit q.deck
  | .ctxDestroy _ q => deckBit q.deck
  | .streamOpen _ q => deckBit q.deck
  | .streamClose _ q => deckBit q.deck
  | .launch _ q => deckBit q.deck
  | .syncAlloc _ q => deckBit q.deck
  | .syncPoison _ q => deckBit q.deck
  | .memMap _ q => deckBit q.deck
  | .ttLoad _ q => if q.kind = 2 then deckBit q.portOrDeck else 0
  | .jobEpoch _ q => deckBit q.deck
  | .snapshot _ q => deckBit q.deck
  | .reset _ q => if q.level.toNat < 5 then deckBit q.deck else 0
  | .quiesce _ q => q.decks
  | _ => 0

/-- Every command taken and not finally answered, over all rings. -/
def takenCmds (s : State) : List TakenCmd := s.host.lds.flatMap (fun e => e.2.rings.flatMap (fun q => q.2.taken))

/-- Can a command take effect: the CMDP has taken its packet, it has not yet taken effect, and no command taken before it that
names one of its decks is still to take effect (R427, R428)? -/
def runnable (s : State) (h : CmdHdr) (c : Instr) : Bool :=
  match (ringAt s (ldKey h.ld) h.ring.val).taken.find? (sameCmd h) with
  | none => false
  | some t => decide (t.cmd = c) && !t.started &&
      !(takenCmds s).any (fun u => !u.started && decide (u.order < t.order) && cmdDecks u.cmd &&& cmdDecks c != 0)

/-- Run a command of the rings: a row that no taken packet asks for does nothing. -/
def runCmd (s : State) (h : CmdHdr) (c : Instr) (go : State) : State := if runnable s h c then go else s

/-- CMD_DOORBELL (R422): a count that moves back, or more than 256 ahead of HEAD, is ignored and is a violation. -/
def opDoorbell (s : State) (l : LdRef) (r : Nat) (tail : BitVec 32) : State :=
  let k := ldKey l
  let q := ringAt s k r
  let posted := (q.crTail - q.crHead).toNat
  let n := (tail - q.crHead).toNat
  if n < posted ∨ 256 < n then violation s k
  else
    let s1 := setRing s k r { q with crTail := tail }
    { s1 with host := { s1.host with doorbells := s1.host.doorbells ++ List.replicate (n - posted) (k, r) } }

/-- May the CMDP take the next packet of a ring now (R427, R449)? -/
def ringReady (s : State) (k r : Nat) : Bool :=
  let l := ldAt s k
  let q := ringAt s k r
  !l.paused && !s.rst.cmdpStopped && q.crHead != q.crTail && q.taken.all (fun t => t.pending || t.mute) &&
  decide ((q.srTail - q.srHead).toNat ≤ 510)

/-- Is ring `r` the first in doorbell order that can be taken (R428)? -/
def ringFirst (s : State) (k r : Nat) : Bool :=
  match s.host.doorbells.find? (fun x => ringReady s x.1 x.2) with
  | some x => x == (k, r)
  | none => false

/-- CMD_TAKE (R424, R427, R428): a packet that fails its checks is answered at once, a good one waits for its opcode's
row. -/
def opTake (s : State) (l : LdRef) (r : Fin 2) : State :=
  let k := ldKey l
  if !(ringReady s k r && ringFirst s k r) then s
  else
    let q := ringAt s k r
    let w := readNat (ldAt s k).mem (0x10000 * r.val + 256 * (q.crHead.toNat % 256)) 64
    let h := packetHdr l r w
    let s0 := { s with host := { s.host with doorbells := s.host.doorbells.erase (k, r.val) } }
    let s1 := setRing s0 k r { q with crHead := q.crHead + 1, expectSeq := h.seq + 1 }
    match opLayout h.opcode.toNat with
    | none => violation (replyNow s1 h stBadOpcode 0) k
    | some (len, mask) =>
      match lowestByte (packetErrors w q.expectSeq.toNat len mask) with
      | some i => violation (replyNow s1 h stBadPacket i) k
      | none =>
        match decodeCmd h w with
        | none => s1
        | some c =>
          let q1 := ringAt s1 k r
          let t : TakenCmd := { hdr := h, cmd := c, takenAt := clockNs s, order := s.host.takes }
          let s2 := setRing s1 k r { q1 with taken := q1.taken ++ [t] }
          { s2 with host := { s2.host with takes := s2.host.takes + 1 } }

/-- CMD.TMOg of an LD, in ms, for an opcode's group. -/
def groupLimit (l : Ld) (op : BitVec 16) : Nat :=
  let g := op.toNat / 256
  (mapGet (if g = 6 then 60000 else 100) l.tmo g).toNat

/-- CMD_TIMEOUT (R429): the oldest command of the ring that has had no final reply within the limit of its opcode's group
overruns, once, and detector 5 fires. -/
def opCmdTimeout (s : State) (l : LdRef) (r : Fin 2) : State :=
  let k := ldKey l
  let q := ringAt s k r
  match q.taken.find? (fun t => !t.timedOut && !t.mute &&
      decide (t.takenAt + 1000000 * groupLimit (ldAt s k) t.hdr.opcode < clockNs s)) with
  | none => s
  | some t =>
    let taken := q.taken.map (fun x => if x = t then { x with timedOut := true } else x)
    fireDetector (setRing s k r { q with taken := taken }) 5 none none []

/-- CMD_RESUME (R449): at least 1 s after the pause. -/
def opResume (s : State) (l : LdRef) : State :=
  let k := ldKey l
  let x := ldAt s k
  if x.paused ∧ x.pausedAt + 1000000000 ≤ clockNs s then setLd s k { x with paused := false } else s

/-! ### Authority (R36, R41, R430, R484, R514) -/

/-- What refuses every command of an LD before its own authority is looked at: a stopped CMDP, the recovery loader, the
FM-owned LD's short list. -/
def gateCmd (s : State) (h : CmdHdr) : Option Status :=
  let op := h.opcode.toNat
  if s.rst.cmdpStopped then some stBusyReset
  else if s.mgmt.recovery then
    (if h.ring.val = 0 ∧ (op = 0x0001 ∨ op = 0x0510 ∨ op = 0x0601 ∨ op = 0x0602) then none else some stBusyReset)
  else if isFm s h.ld ∧ ¬ (op = 0x0001 ∨ op = 0x0010 ∨ op = 0x0510) then some stNotBound
  else none

/-- Run a command that any LD may issue. -/
def anyCmd (s : State) (h : CmdHdr) (go : State) : State :=
  match gateCmd s h with
  | some st => replyNow s h st 0
  | none => go

/-- Run a command of a bound LD. -/
def boundCmd (s : State) (h : CmdHdr) (go : State) : State :=
  anyCmd s h (if (heldBind (ldAt s (ldKey h.ld))).isSome then go else replyNow s h stNotBound 0)

/-- Run a command of the owner LD, the timetable commands among them (R45). -/
def ownerCmd (s : State) (h : CmdHdr) (go : State) : State :=
  anyCmd s h (if isOwner s (ldKey h.ld) then go else replyNow s h stNotBound 0)

/-- Run a command of the LD that holds deck `d`; a fault action on the deck, or the context named, comes first (R36). -/
def deckCmd (s : State) (h : CmdHdr) (d : BitVec 8) (x : Option (BitVec 8)) (go : State) : State :=
  anyCmd s h (
    if !(decide (d.toNat < 8) && ldHolds s (ldKey h.ld) d.toNat) then replyNow s h stNotBound 0
    else if faultRuns s d.toNat (x.map (fun c => c.setWidth 4)) then replyNow s h stBusyReset 0
    else go)

/-- Is context `x` of deck `d` LIVE (R442)? -/
def ctxLive (s : State) (d : Nat) (x : BitVec 8) : Bool :=
  decide (x.toNat < 16) && decide ((ctxAt (deckAt s d) x.toNat).life = .live)

/-- A free choice of a number below `n` that `used` does not hold: the first free one from a free value upwards (log entry
5). None where all are used. -/
def pickFree (s : State) (n : Nat) (used : List Nat) : Option Nat × State :=
  let v := draw 32 s
  (((List.range (used.length + 1)).map (fun i => (v.1.toNat + i) % n)).find? (fun x => !used.contains x), v.2)

/-! ### IDENTIFY, HEALTH, TIME_STATUS -/

/-- Decks out of service, as a mask. -/
def retiredMask (s : State) : Nat := ((List.range 8).filter (fun d => (deckAt s d).outOfService)).foldl (fun n d => n + 2 ^ d) 0

/-- "IH4-3072-54" in ASCII, zero-padded to 16 bytes. -/
def orderCode : List Byte := [0x49, 0x48, 0x34, 0x2D, 0x33, 0x30, 0x37, 0x32, 0x2D, 0x35, 0x34, 0, 0, 0, 0, 0]

/-- IDENTIFY. -/
def opIdentify (s : State) (h : CmdHdr) : State :=
  let b := heldBind (ldAt s (ldKey h.ld))
  anyCmd s h (replyNow (slotWrite s h 16 (orderCode ++ natBytes 8 Config.moduleSerial.toNat ++ natBytes 4 (ownModule s).toNat ++
    natBytes 4 s.mgmt.build.toNat ++ natBytes 1 4 ++ natBytes 1 ((b.map (·.slot)).getD 0xFF) ++
    natBytes 1 ((b.map (·.decks.toNat)).getD 0) ++ natBytes 1 (retiredMask s))) h stGood 0)

/-- A deck's state byte: 0 in service, 1 out of service, 2 Shutdown, 3 Dock. -/
def deckHealth (k : Deck) : Nat :=
  if k.outOfService then 1
  else match k.power with
    | .shutdown => 2
    | .dock => 3
    | _ => 0

/-- Stacks that need maintenance (R333): their table is full. -/
def stackMask (s : State) : Nat :=
  ((List.range 32).filter (fun n => decide (4096 ≤ (stkAt s n).remap.length))).foldl (fun m n => m + 2 ^ n) 0

/-- Port states, 4 bits each. -/
def portStates (s : State) : Nat := (List.range 9).foldl (fun m p => m + (portAt s p).state.toNat * 2 ^ (4 * p)) 0

/-- Decks that need maintenance (R477), as a mask. -/
def maintMask (s : State) : Nat := ((List.range 8).filter (fun d => (deckAt s d).maint)).foldl (fun n d => n + 2 ^ d) 0

/-- HEALTH. -/
def opHealth (s : State) (h : CmdHdr) : State :=
  anyCmd s h (replyNow (slotWrite s h 16 ((List.range 8).map (fun d => BitVec.ofNat 8 (deckHealth (deckAt s d))) ++
    natBytes 4 (stackMask s) ++ natBytes 5 (portStates s) ++ natBytes 1 (maintMask s))) h stGood 0)

/-- TIME_STATUS. -/
def opTimeStatus (s : State) (h : CmdHdr) : State :=
  boundCmd s h (
    let s1 := slotWrite s h 16 (natBytes 8 (htWord s .htStatus).toNat ++ natBytes 8 (hallNs s) ++ natBytes 1 (s.htu.t % 256))
    replyNow (slotWrite s1 h 40 (natBytes 8 s.tt.step.toNat ++ natBytes 8 (ttWord s .ttStatus).toNat)) h stGood 0)

/-! ### Bindings (R38 to R44, R418 to R421, R499) -/

/-- LDs that hold or await a binding, with what each has or will have. -/
def claims (s : State) : List (Nat × Binding) :=
  (s.host.lds.filterMap (fun e => e.2.bind.map (fun b => (e.1, b)))).filter (fun e => !s.host.binds.any (fun j => j.target == e.1)) ++
  s.host.binds.map (fun j => (j.target, j.bind))

/-- The LDs a port presents (R416, R475). -/
def ldExists (s : State) (p ld : Nat) : Bool :=
  decide (p < 2) && (if portMld s p then decide (ld < (cellGet s.mgmt.record (10 + p)).toNat) else ld == 0)

/-- May an LD issue BIND_LD (R418)? -/
def mayBind (s : State) (l : LdRef) : Bool :=
  isFm s l || isOwner s (ldKey l) || (!portMld s l.port && decide (l.ld.val = 0) && (claims s).isEmpty)

/-- The refusals of R39 and R419 for a nonempty deck mask; the windows share 60 MiB (R21). -/
def bindRefused (s : State) (t : Nat) (q : BindLdP) : Bool :=
  let others := (claims s).filter (fun e => e.1 != t)
  let old := (((ldAt s t).bind).map (·.decks)).getD 0
  others.any (fun e => e.2.decks &&& q.decks != 0) || (maskDecks q.decks).any (fun d => (deckAt s d).outOfService) ||
  decide (8 ≤ others.length) || others.any (fun e => e.2.tag == q.tag) ||
  decide (60 < (others.map (fun e => e.2.window)).sum + q.window.toNat) || (q.owner && others.any (fun e => e.2.owner)) ||
  ((ldAt s t).committed && old != q.decks)

/-- The lowest free host slot; an LD that has one keeps it. -/
def slotFor (s : State) (t : Nat) : Nat :=
  match (claims s).find? (fun e => e.1 == t) with
  | some e => e.2.slot
  | none => ((List.range 8).find? (fun n => !(claims s).any (fun e => e.2.slot == n))).getD 0

/-- Every LIVE context of deck `d` starts to drain for `us` microseconds, with no command to answer (R43). -/
def drainDeck (us : Nat) (s : State) (d : Nat) : State :=
  modDeck s d (fun k => (List.range 16).foldl (fun k x =>
    let c := ctxAt k x
    if c.life = .live then
      stopCores (setCtx k x { c with life := .draining, destroyer := none, drainUntil := clockNs s + 1000 * us })
        ((ctxCores k (BitVec.ofNat 4 x)).filter (fun i => (coreAt k i).launch.isSome))
    else k) k)

/-- Has deck `d` a context that is not yet torn down? -/
def drainsYet (k : Deck) : Bool := k.ctxs.any (fun e => decide (e.2.life = .live ∨ e.2.life = .draining ∨ e.2.life = .isolating))

/-- Once every context of a leaving deck is torn down, the clearing begins (R43): scratchpads are zeroed with it. -/
def clearLeaving (s : State) (d : Nat) : State :=
  let leaves := s.host.lds.any (fun e => match e.2.bind with
    | some b => b.leaving.getLsbD d
    | none => false)
  if leaves ∧ !drainsYet (deckAt s d) then
    modDeck s d (fun k =>
      let cores := k.cores.map (fun e => (e.1, { e.2 with spad := [], spadBad := [] }))
      { k with clearing := true, cores := cores })
  else s

/-- What the rings of an unbound LD keep: commands taken that have not yet taken effect run to their end and post no reply
(R421). -/
def mutedRing (q : Ring) : Option Ring :=
  let ts := (q.taken.filter (fun t => !t.started)).map (fun t => { t with mute := true })
  if ts.isEmpty then none else some { taken := ts }

/-- R421: the LD's queue pairs, regions, locks, ring memory and banked registers. -/
def cleanLd (s : State) (k : Nat) : State :=
  let l := ldAt s k
  let p := k / 16
  let n := k % 16
  let mine := fun (port : Fin 2) (ld : Fin 9) => port.val == p && ld.val == n
  let h := s.host
  let locks := match l.bind with
    | some b => h.locks.filter (fun e => e.2 != b.slot + 1)
    | none => h.locks
  let qps := h.qps.filter (fun e => match e.2 with
    | some q => !mine q.port q.ld
    | none => true)
  let regions := h.regions.filter (fun e => match e.2 with
    | some r => !mine r.port r.ld
    | none => true)
  let h1 := { h with qps := qps, regions := regions, locks := locks, doorbells := h.doorbells.filter (fun x => x.1 != k),
                     quiesces := h.quiesces.filter (fun j => ldKey j.hdr.ld != k) }
  setLd { s with host := h1 } k { bind := l.bind, committed := l.committed, decoderIw := l.decoderIw, decoderErr := l.decoderErr,
                                  rings := l.rings.filterMap (fun e => (mutedRing e.2).map (fun q => (e.1, q))) }

/-- An unbinding begins (R43): the decks leave, their contexts drain; the owner right ends at once. -/
def beginUnbind (s : State) (k : Nat) (decks : BitVec 8) : State :=
  let s1 := modLd s k (fun l => { l with bind := l.bind.map (fun b =>
    { b with decks := b.decks &&& ~~~decks, leaving := b.leaving ||| (b.decks &&& decks),
             owner := b.owner && b.decks &&& ~~~decks != 0 }) })
  (maskDecks decks).foldl (fun s d => clearLeaving (drainDeck (ldAt s k).drainUs.toNat s d) d) s1

/-- The unbinding ends once no deck is held and none leaves: R421, and the LD is unbound. -/
def endUnbind (s : State) (k : Nat) : State :=
  match (ldAt s k).bind with
  | none => s
  | some b =>
    if b.decks = 0 ∧ b.leaving = 0 then modLd (cleanLd s k) k (fun l => { l with bind := none }) else s

/-- Is every deck of a waiting BIND_LD cleared and in Run (R44, R499)? -/
def bindReady (s : State) (j : BindJob) : Bool :=
  (maskDecks j.bind.decks).all (fun d =>
    let k := deckAt s d
    let leaves := s.host.lds.any (fun e => match e.2.bind with
      | some b => b.leaving.getLsbD d
      | none => false)
    !k.clearing && !leaves && decide (k.power ≠ .dock) && decide (k.power ≠ .waking))

/-- Put a binding in place and answer its command: decks that the LD drops leave it. -/
def applyBind (s : State) (j : BindJob) : State :=
  let old := (ldAt s j.target).bind
  let dropped := ((old.map (·.decks)).getD 0) &&& ~~~j.bind.decks
  let mem := match old with
    | some b => if b.decks = 0 then [] else b.mem.filter (fun e => decide (e.1 < j.bind.window * 0x100000))
    | none => []
  let s1 := beginUnbind s j.target dropped
  let left := (((ldAt s1 j.target).bind).map (·.leaving)).getD 0
  let s2 := modLd s1 j.target (fun l => { l with bind := some { j.bind with mem := mem, leaving := left } })
  replyFinal s2 j.hdr stGood j.bind.slot

/-- Complete every waiting BIND_LD whose decks are ready. (DESIGN CHOICE, log entry 65.) -/
def serveBinds (s : State) : State :=
  let ready := s.host.binds.filter (bindReady s)
  let s1 := { s with host := { s.host with binds := s.host.binds.filter (fun j => !bindReady s j) } }
  ready.foldl applyBind s1

/-- Docked decks that a BIND_LD names wake (R499). -/
def wakeDecks (s : State) (m : BitVec 8) : State :=
  (maskDecks m).foldl (fun s d => modDeck s d (fun k => if k.power = .dock then { k with power := .waking } else k)) s

/-- BIND_LD (R36, R38 to R44, R418, R419). An unbinding answers at once, before its clearing ends, with the slot that the LD
held, 0 where it held none: R430 gives the RESULT for a binding alone. (DESIGN CHOICE, log entry 65.) -/
def opBindLd (s : State) (h : CmdHdr) (q : BindLdP) : State :=
  anyCmd s h (
    let t := 16 * q.port.toNat + q.ld.toNat
    if !mayBind s h.ld then replyNow s h stNotBound 0
    else if (maskDecks (q.decks ||| (((ldAt s t).bind).map bindDecks).getD 0)).any (fun d => faultRuns s d none) then
      replyNow s h stBusyReset 0
    else if !ldExists s q.port.toNat q.ld.toNat then replyNow s h stBadParam 0
    else if q.decks = 0 then
      let slot := (((ldAt s t).bind).map (·.slot)).getD 0
      endUnbind (replyNow (beginUnbind s t ((((ldAt s t).bind).map (·.decks)).getD 0)) h stGood slot) t
    else if bindRefused s t q then replyNow s h stBadParam 0
    else
      let b : Binding := { slot := slotFor s t, decks := q.decks, tag := q.tag, window := q.window.toNat, owner := q.owner }
      let s1 := replyLater (wakeDecks s q.decks) h
      serveBinds { s1 with host := { s1.host with binds := s1.host.binds ++ [{ hdr := h, target := t, bind := b }] } })

/-- DECK_CLEAR_DONE (R43, R44): stack memory is zero, the deck is unbound, and what waited for it goes on. -/
def opClearDone (s : State) (d : Nat) : State :=
  if !(deckAt s d).clearing then s
  else
    let s1 := modDeck s d (fun k => { k with mem := [], memBad := [], latent := [], clearing := false, unboundAt := clockNs s })
    let ks := (s1.host.lds.filter (fun e => match e.2.bind with
      | some b => b.leaving.getLsbD d
      | none => false)).map (·.1)
    let s2 := ks.foldl (fun s k => endUnbind (modLd s k (fun l => { l with bind := l.bind.map (fun b =>
      { b with leaving := setBit b.leaving d false }) })) k) s1
    serveBinds s2

/-- CXL_PERST (R42, R43, R421, R478, R523): the port's LDs are unbound, the port retrains; source 2. (DESIGN
CHOICE, log entry 49.) -/
def opPerst (s : State) (p : Fin 2) : State :=
  let l := draw 3 s
  let s0 := recordCause l.2 (causeWord l.1.toNat 2 0 0 0 false (nextReset l.2))
  let ks := (s0.host.lds.map (·.1)).filter (fun k => k / 16 == p.val)
  let s1 := { s0 with host := { s0.host with binds := s0.host.binds.filter (fun j => j.target / 16 != p.val),
                                             cxlUp := mapSet false s0.host.cxlUp p false,
                                             cxlWidth := mapSet 0 s0.host.cxlWidth p 0, cxlRate := mapSet 0 s0.host.cxlRate p 0 } }
  let s2 := ks.foldl (fun s k =>
    let s' := cleanLd (beginUnbind s k ((((ldAt s k).bind).map (·.decks)).getD 0)) k
    endUnbind (modLd s' k (fun l => { l with committed := false, decoderIw := 0, decoderErr := false })) k) s1
  match s2.mgmt.stageLd with
  | some l => if l.port = p ∧ s2.mgmt.stageOwner = 1 then
      { s2 with mgmt := { flashTorn s2.mgmt with stageState := 6, stageOwner := 0, stageLd := none, stageCmd := none } }
    else s2
  | none => s2

/-- CXL_LINK_TRAINED (R415, R417). -/
def opCxlTrained (s : State) (p : Fin 2) (width : BitVec 5) (rate : BitVec 6) : State :=
  { s with host := { s.host with cxlUp := mapSet false s.host.cxlUp p true, cxlWidth := mapSet 0 s.host.cxlWidth p width.toNat,
                                 cxlRate := mapSet 0 s.host.cxlRate p rate.toNat } }

/-! ### Contexts (R440 to R443) -/

/-- The pails of an LD's decks, as ranges of its window in 64 KiB units. -/
def pailRanges (s : State) (b : Binding) : List (Nat × Nat) :=
  (maskDecks (bindDecks b)).flatMap (fun d => ((deckAt s d).ctxs.filter (fun e => e.2.pailSize != 0)).map (fun e =>
    (e.2.pailBase.toNat, e.2.pailSize.toNat)))

/-- The lowest place of the window where a pail of `n` units fits. -/
def pailPlace (ranges : List (Nat × Nat)) (units n : Nat) : Option Nat :=
  let starts := 0 :: ranges.map (fun r => r.1 + r.2)
  let fits := fun a => decide (a + n ≤ units) && ranges.all (fun r => decide (a + n ≤ r.1) || decide (r.1 + r.2 ≤ a))
  (starts.filter fits).foldl (fun b a => match b with
    | none => some a
    | some c => some (min a c)) none

/-- CTX_CREATE (R440, R441). -/
def opCtxCreate (s : State) (h : CmdHdr) (q : CtxCreateP) : State :=
  deckCmd s h q.deck none (
    let d := q.deck.toNat
    let size := if q.pail = 0 then 64 else q.pail.toNat
    match heldBind (ldAt s (ldKey h.ld)), (List.range 16).find? (fun x => decide ((ctxAt (deckAt s d) x).life = .free)) with
    | _, none => replyNow s h stNoContext 0
    | none, _ => replyNow s h stNotBound 0
    | some b, some x =>
      match pailPlace (pailRanges s b) (b.window * 16) size with
      | none => replyNow s h stBadParam 0
      | some a =>
        if size < q.recv.toNat then replyNow s h stBadParam 0
        else replyNow (modDeck s d (fun k => setCtx k x { ctxAt k x with
          life := .live, pailBase := BitVec.ofNat 16 a, pailSize := BitVec.ofNat 16 size, recv := q.recv })) h stGood x)

/-- CTX_DESTROY (R442): the cores stop; the reply follows when the context is isolated. -/
def opCtxDestroy (s : State) (h : CmdHdr) (q : CtxDestroyP) : State :=
  deckCmd s h q.deck (some q.ctx) (
    let d := q.deck.toNat
    if !ctxLive s d q.ctx then replyNow s h stBadParam 0
    else
      let us := if q.drainUs = 0 then (ldAt s (ldKey h.ld)).drainUs.toNat else q.drainUs.toNat
      let s1 := modDeck s d (fun k =>
        stopCores (setCtx k q.ctx.toNat { ctxAt k q.ctx.toNat with
            life := .draining, destroyer := some h, drainUntil := clockNs s + 1000 * us })
          ((ctxCores k (q.ctx.setWidth 4)).filter (fun i => (coreAt k i).launch.isSome)))
      replyLater s1 h)

/-- Are the cores, movers and collectives of a context idle (R442)? -/
def ctxIdle (s : State) (d : Nat) (x : BitVec 4) : Bool :=
  (ctxCores (deckAt s d) x).all (fun i => enginesIdle (coreAt (deckAt s d) i)) &&
  !s.churn.colls.any (fun c => c.deck == d && c.ctx == x && !c.done)

/-- CTX_DRAIN_END (R442): all is idle, or DRAIN_US has passed; the wrapper completes what remains with ISOLATED, GOOD is
posted, the context enters QUARANTINE; the last context of a deck that is being unbound lets its clearing begin (R43). -/
def opDrainEnd (s : State) (d : Nat) (x : BitVec 4) : State :=
  let k := ctxAt (deckAt s d) x.toNat
  if k.life ≠ .draining || !(ctxIdle s d x || decide (k.drainUntil ≤ clockNs s)) then s
  else
    let f := failSnap stIsolated k
    let s0 := applyRes s d (setCtx (deckAt s d) x.toNat f.1, f.2)
    let s1 := resetColls (onDeck s0 d (destroyCtx x)) d (fun y => y == x)
    let s2 := modDeck s1 d (fun k => setCtx k x.toNat { ctxAt k x.toNat with
      life := .quarantine, destroyer := none, quarAt := clockNs s })
    let s3 := match k.destroyer with
      | some h => replyFinal s2 h stGood 0
      | none => s2
    clearLeaving s3 d

/-- How long a quarantine lasts, in ns (R442): the longer of 2 × P ticks and 100 ms; P is 0 while no timetable is armed. -/
def quarantineNs (s : State) : Nat := max (if s.tt.armed then 10 * s.tt.p.toNat else 0) 100000000

/-- CTX_QUARANTINE_END (R442, R443): the Tallies are zero, the HOLD registers at their Reset values, which are zero but for
STEP_STATUS (R279), and the id is FREE. -/
def opQuarantineEnd (s : State) (d : Nat) (x : BitVec 4) : State :=
  let c := ctxAt (deckAt s d) x.toNat
  if c.life ≠ .quarantine || decide (clockNs s < c.quarAt + quarantineNs s) then s
  else modDeck s d (fun k =>
    let k1 := setCtx k x.toNat { hbias := (ctxAt k x.toNat).hbias }
    { k1 with tallies := k1.tallies.filter (fun e => e.1 / 256 != x.toNat) })

/-! ### Streams (R438, R439) -/

/-- STREAM_OPEN (R430, R441). -/
def opStreamOpen (s : State) (h : CmdHdr) (q : StreamOpenP) : State :=
  deckCmd s h q.deck (some q.ctx) (
    let d := q.deck.toNat
    let n := q.entries.toNat
    let used := (deckAt s d).streams.map (·.1)
    if !ctxLive s d q.ctx || !(decide (16 ≤ n) && decide (n ≤ 65536) && n &&& (n - 1) == 0) ||
        !(q.base.toNat % 128 == 0 && decide (q.base.toNat + 128 * n ≤ memEnd)) then replyNow s h stBadParam 0
    else if 8192 ≤ used.length then replyNow s h stNoStream 0
    else match pickFree s 8192 used with
      | (none, s1) => replyNow s1 h stNoStream 0
      | (some i, s1) =>
        let st : Stream := { ctx := q.ctx.setWidth 4, entries := n, base := q.base.setWidth 40 }
        replyNow (modDeck s1 d (fun k => setStream k i (some st))) h stGood i)

/-- STREAM_CLOSE (R439). -/
def opStreamClose (s : State) (h : CmdHdr) (q : StreamCloseP) : State :=
  let d := q.deck.toNat
  let st := streamAt (deckAt s d) q.stream.toNat
  deckCmd s h q.deck (st.map (fun x => x.ctx.setWidth 8)) (
    match st with
    | none => replyNow s h stBadParam 0
    | some x =>
      if x.closing.isSome then replyNow s h stBadParam 0
      else
        let s1 := onDeck s d (discardStream stIsolated q.stream.toNat)
        match streamAt (deckAt s1 d) q.stream.toNat with
        | none => replyNow s1 h stGood 0
        | some y =>
          if y.run = .none then replyNow (modDeck s1 d (fun k => setStream k q.stream.toNat none)) h stGood 0
          else replyLater (modDeck s1 d (fun k => setStream k q.stream.toNat (some { y with closing := some h }))) h)

/-- The entries that a LAUNCH publishes: `start` goes to the first KERNEL entry (R438). -/
def newPubs (k : Deck) (x : Stream) (n start now : Nat) (h : CmdHdr) : List PubEntry :=
  let first := (List.range n).find? (fun i => entryKind k x (x.next + i) == 1)
  (List.range n).map (fun i =>
    let p : PubEntry := { slot := (x.next + i) % x.entries, order := k.nextOrder + i }
    if start ≠ 0 ∧ first = some i then { p with start := start, hdr := some h, late := decide (start < now) } else p)

/-- LAUNCH (R101, R438). -/
def opLaunch (s : State) (h : CmdHdr) (q : LaunchP) : State :=
  let d := q.deck.toNat
  let k := deckAt s d
  let st := streamAt k q.stream.toNat
  deckCmd s h q.deck (st.map (fun x => x.ctx.setWidth 8)) (
    match st with
    | none => replyNow s h stBadParam 0
    | some x =>
      let n := q.publish.toNat
      let pubs := newPubs k x n q.start.toNat (hallNs s) h
      if x.closing.isSome ∨ decide ((ctxAt k x.ctx.toNat).life ≠ .live) ∨ x.entries < x.pubs.length + n ∨
          (q.start ≠ 0 ∧ pubs.all (fun p => p.hdr.isNone)) then replyNow s h stBadParam 0
      else
        let x' := { x with next := (x.next + n) % x.entries, pubs := x.pubs ++ pubs }
        let s1 := modDeck s d (fun k => setStream { k with nextOrder := k.nextOrder + n } q.stream.toNat (some x'))
        if q.start = 0 then replyNow s1 h stGood 0 else replyPending s1 h)

/-! ### Sync groups (R143, R432) -/

/-- The lowest free groups of a deck. -/
def freeGroups (k : Deck) : List Nat := (List.range 64).filter (fun g => !(groupAt k g).alloc)

/-- SYNC_ALLOC (R143, R441): COUNT whole groups, or with FREE the groups of MASK, which must be the context's. -/
def opSyncAlloc (s : State) (h : CmdHdr) (q : SyncAllocP) : State :=
  deckCmd s h q.deck (some q.ctx) (
    let d := q.deck.toNat
    let k := deckAt s d
    let x : BitVec 4 := q.ctx.setWidth 4
    let n := q.count.toNat
    if !ctxLive s d q.ctx then replyNow s h stBadParam 0
    else if q.free then
      let gs := (List.range 64).filter (fun g => q.mask.getLsbD g)
      if gs.all (fun g => (groupAt k g).alloc && (groupAt k g).ctx == x) then
        replyNow (modDeck s d (fun k => { k with groups := k.groups.filter (fun e => !gs.contains e.1),
                                                 objs := k.objs.filter (fun e => !gs.contains (e.1 / 64)) })) h stGood 0
      else replyNow s h stBadParam 0
    else if n = 0 ∨ 64 < n then replyNow s h stBadParam 0
    else if (freeGroups k).length < n then replyNow s h stNoSync 0
    else
      let gs := (freeGroups k).take n
      let s1 := modDeck s d (fun k => gs.foldl (fun k g => setGroup k g { ctx := x, alloc := true }) k)
      replyNow (slotWrite s1 h 24 (natBytes 8 (gs.foldl (fun m g => m + 2 ^ g) 0))) h stGood (gs.headD 0))

/-- SYNC_POISON (R432). -/
def opSyncPoison (s : State) (h : CmdHdr) (q : SyncPoisonP) : State :=
  deckCmd s h q.deck (some q.ctx) (
    let d := q.deck.toNat
    let k := deckAt s d
    if !ctxLive s d q.ctx ∨ q.status = 0 then replyNow s h stBadParam 0
    else match objRefused k (q.ctx.setWidth 4) q.obj with
      | some st => replyNow s h st 0
      | none => replyNow (onDeck s d (fun k => settle k [.poison q.obj.toNat q.status false])) h stGood 0)

/-! ### Memory regions and queue pairs (R450, R451) -/

/-- MEM_MAP (R451). -/
def opMemMap (s : State) (h : CmdHdr) (q : MemMapP) : State :=
  deckCmd s h q.deck (some q.ctx) (
    let d := q.deck.toNat
    if q.access.getLsbD 3 then
      match mapGet none s.host.regions q.rkey.toNat with
      | some r =>
        if r.port = h.ld.port ∧ r.ld = h.ld.ld then
          replyNow { s with host := { s.host with regions := mapSet none s.host.regions q.rkey.toNat none } } h stGood q.rkey.toNat
        else replyNow s h stBadParam 0
      | none => replyNow s h stBadParam 0
    else if !ctxLive s d q.ctx || q.base.toNat % 4096 != 0 || q.length.toNat % 4096 != 0 || q.length == 0 ||
        decide (memEnd < q.base.toNat + q.length.toNat) || decide (4096 ≤ s.host.regions.length) then replyNow s h stBadParam 0
    else match pickFree s (2 ^ 32) (s.host.regions.map (·.1)) with
      | (none, s1) => replyNow s1 h stBadParam 0
      | (some key, s1) =>
        let r : Region := { port := h.ld.port, ld := h.ld.ld, deck := d, ctx := q.ctx.setWidth 4, base := q.base.toNat,
                            length := q.length.toNat, access := q.access.setWidth 3 }
        replyNow { s1 with host := { s1.host with regions := mapSet none s1.host.regions key (some r) } } h stGood key)

/-- QP_OPEN (R450). -/
def opQpOpen (s : State) (h : CmdHdr) (q : QpOpenP) : State :=
  boundCmd s h (
    if 1 < q.port.toNat ∨ q.mtu.toNat < 3 ∨ 5 < q.mtu.toNat ∨ 7 < q.retry.toNat ∨ 1024 ≤ s.host.qps.length then replyNow s h stBadParam 0
    else match pickFree s (2 ^ 24) (s.host.qps.map (·.1)) with
      | (none, s1) => replyNow s1 h stBadParam 0
      | (some n, s1) =>
        let x : Qp := { port := h.ld.port, ld := h.ld.ld, eth := q.port.toNat, mtu := q.mtu, vlan := q.vlan, remoteQpn := q.remoteQpn,
                        sqPsn := q.sqPsn, rqPsn := q.rqPsn, remoteIp := q.remoteIp, nextHop := q.nextHop, retry := q.retry }
        replyNow { s1 with host := { s1.host with qps := mapSet none s1.host.qps n (some x) } } h stGood n)

/-- QP_CLOSE (R430, R453): by the LD that opened it. -/
def opQpClose (s : State) (h : CmdHdr) (n : Nat) : State :=
  anyCmd s h (
    match mapGet none s.host.qps n with
    | some x =>
      if x.port = h.ld.port ∧ x.ld = h.ld.ld then
        replyNow { s with host := { s.host with qps := mapSet none s.host.qps n none } } h stGood 0
      else replyNow s h stNotBound 0
    | none => replyNow s h stNotBound 0)

/-! ### JOB_EPOCH and SNAPSHOT (chapter 07) -/

/-- Is a range 4 KiB aligned, whole, and inside stack memory? -/
def region4k (b n : Nat) : Bool := b % 4096 == 0 && n % 4096 == 0 && decide (b + n ≤ memEnd)

/-- Do two ranges meet? -/
def rangesMeet (a n b m : Nat) : Bool := decide (a < b + m) && decide (b < a + n)

/-- The refusals of R265 and R276. -/
def jobRefused (s : State) (q : JobEpochP) : Bool :=
  let k := deckAt s q.deck.toNat
  let c := ctxAt k q.ctx.toNat
  !s.tt.armed || rangesMeet q.mbase.toNat q.msize.toNat q.hbase.toNat q.hsize.toNat || !region4k q.mbase.toNat q.msize.toNat ||
  !region4k q.hbase.toNat q.hsize.toNat || decide (4096 < q.fpSlots.toNat) || decide (q.hsize.toNat < 256 * q.fpSlots.toNat) ||
  k.launches.any (fun e => match e.2 with
    | some l => l.ctx.toNat == q.ctx.toNat
    | none => false) || c.hold.gate == 1

/-- The fingerprint area that a JOB_EPOCH zeroes: its deck address and length. -/
def fpArea (q : JobEpochP) : Nat × Nat := (q.hbase.toNat + q.hsize.toNat - 256 * q.fpSlots.toNat, 256 * q.fpSlots.toNat)

/-- JOB_EPOCH (R266, R267, R276, R279, R283, R286): the fingerprint area is zero and the stack empty before the reply, which
is MEM_POISON where a row of the area is retired or its channel has failed (R316, R330). -/
def opJobEpoch (s : State) (h : CmdHdr) (q : JobEpochP) : State :=
  deckCmd s h q.deck (some q.ctx) (
    let d := q.deck.toNat
    if !ctxLive s d q.ctx || jobRefused s q then replyNow s h stBadParam 0
    else
      let s1 := modDeck s d (fun k =>
        let c := ctxAt k q.ctx.toNat
        let hold : Hold := { c.hold with
          step := q.step, attempt := 0, status := 0, origin := 0, gate := 0, defer := false, applyObj := q.applyObj,
          mbase := q.mbase.setWidth 40, msize := q.msize.setWidth 40, base := q.hbase.setWidth 40, size := q.hsize.setWidth 40,
          fpSlots := q.fpSlots.setWidth 13, top := 0, entries := 0, configured := true, opening := false }
        memWrite (setCtx k q.ctx.toNat { c with hold := hold }) (fpArea q).1 (fpArea q).2 [])
      replyNow s1 h (memWriteSt (deckAt s d) (fpArea q).1 (fpArea q).2) 0)

/-- The refusals of R293. -/
def snapRefused (s : State) (q : SnapshotP) : Bool :=
  let c := (ctxAt (deckAt s q.deck.toNat) q.ctx.toNat).hold
  let n := q.length.toNat
  c.gate != 0 || c.attempt != 0 || c.snapState == 1 || c.snapState == 2 || n == 0 || decide (c.msize.toNat < n) || n % 4096 != 0 ||
  rangesMeet q.snapBase.toNat (n + 32) c.mbase.toNat c.msize.toNat || rangesMeet q.snapBase.toNat (n + 32) c.base.toNat c.size.toNat

/-- SNAPSHOT (R293): PENDING, and the committed tag is STEP − 1 with ATTEMPT 0. -/
def opSnapshot (s : State) (h : CmdHdr) (q : SnapshotP) : State :=
  deckCmd s h q.deck (some q.ctx) (
    let d := q.deck.toNat
    if !ctxLive s d q.ctx || snapRefused s q then replyNow s h stBadParam 0
    else
      let job : SnapJob := { hdr := h, qpn := q.qpn, dst := q.snapBase, length := q.length, remote := q.remoteAddr, rkey := q.rkey }
      let s1 := modDeck s d (fun k =>
        let c := ctxAt k q.ctx.toNat
        let tag : W64 := BitVec.ofNat 64 (2 ^ 16 * (c.hold.step - 1).toNat)
        setCtx k q.ctx.toNat { c with snap := some job, hold := { c.hold with snapState := 1, snapStatus := 0, snapTag := tag } })
      replyPending s1 h)

/-- The 32-byte header of a snapshot (R294). -/
def snapHeader (s : State) (d : Nat) (x : BitVec 4) (tag : W64) (bs : List Byte) : List Byte :=
  natBytes 32 (tag.toNat + 2 ^ 64 * (ownModule s).toNat + 2 ^ 81 * d + 2 ^ 84 * x.toNat + 2 ^ 96 * (crc32c bs).toNat +
    2 ^ 128 * bs.length)

/-- A gate opening that waited for the end of a snapshot copy happens (R284). -/
def openWaiting (h : Hold) : Hold := if h.opening then { h with gate := 1, defer := true, opening := false } else h

/-- Can queue pair `n` take what an LD's snapshot ships: it is the LD's, open and not in error (R453)? -/
def qpShips (s : State) (l : LdRef) (n : Nat) : Bool :=
  match mapGet none s.host.qps n with
  | some q => q.port == l.port && q.ld == l.ld && !q.err
  | none => false

/-- What the copy of a snapshot gives: its status, and the deck with the header and the copy in the snapshot region. A read
that meets poison, and a write that a row or a poisoned sector discards, end it with MEM_POISON, a region beyond the deck's
memory with BAD_PARAM. (DEDUCED, log entry 46.) -/
def snapCopy (s : State) (d : Nat) (x : BitVec 4) (j : SnapJob) (k : Deck) : Status × Deck :=
  let c := ctxAt k x.toNat
  let n := j.length.toNat
  if memEnd < j.dst.toNat + 32 + n then (stBadParam, k)
  else match memRead k c.hold.mbase.toNat n with
    | none => (stMemPoison, k)
    | some m =>
      let bs := readBytes m 0 n
      let w := memWritePartial k j.dst.toNat (snapHeader s d x c.hold.snapTag bs ++ bs)
      (if w.2 then stMemPoison else memWriteSt k j.dst.toNat (32 + n), w.1)

/-- SNAPSHOT_COPY_DONE (R284, R294, R295): the copy stands behind its header and ships, where the queue pair takes it. It
waits while a channel or row of either region does (R315, R329). -/
def opSnapCopied (s : State) (d : Nat) (x : BitVec 4) : State :=
  let c := ctxAt (deckAt s d) x.toNat
  match c.snap with
  | none => s
  | some j =>
    let n := j.length.toNat
    if c.hold.snapState ≠ 1 || rangeHeld (deckAt s d) c.hold.mbase.toNat n || rangeHeld (deckAt s d) j.dst.toNat (32 + n) then s
    else
      let s0 := onDeck s d (eccRange (hallNs s) c.hold.mbase.toNat n [])
      let r := snapCopy s0 d x j (deckAt s0 d)
      let h := openWaiting (ctxAt r.2 x.toNat).hold
      let c1 := ctxAt r.2 x.toNat
      if r.1 ≠ stGood then
        replyFinal (setDeck s0 d (setCtx r.2 x.toNat { c1 with snap := none, hold := { h with snapState := 4, snapStatus := r.1 } }))
          j.hdr r.1 0
      else if qpShips s0 j.hdr.ld j.qpn.toNat then
        emit (replyFinal (setDeck s0 d (setCtx r.2 x.toNat { c1 with hold := { h with snapState := 2 } })) j.hdr stGood 0)
          (.rdmaSend j.qpn.toNat j.rkey j.remote.toNat (32 + n) (mapSlice r.2.mem j.dst.toNat (32 + n)))
      else
        replyFinal (setDeck s0 d (setCtx r.2 x.toNat { c1 with
          snap := none, hold := { h with snapState := 4, snapStatus := stLinkLost } })) j.hdr stGood 0

/-- SNAPSHOT_SHIP_DONE (R295): an errored or closed queue pair ships nothing. -/
def opSnapShipped (s : State) (d : Nat) (x : BitVec 4) (ok : Bool) : State :=
  let c := ctxAt (deckAt s d) x.toNat
  let qpOk := match c.snap with
    | some j => qpShips s j.hdr.ld j.qpn.toNat
    | none => false
  if c.snap.isSome ∧ c.hold.snapState = 2 then
    let hold := if ok && qpOk then { c.hold with snapState := 3, snapStatus := 0 } else { c.hold with snapState := 4, snapStatus := stLinkLost }
    modDeck s d (fun k => setCtx k x.toNat { c with snap := none, hold := hold })
  else s

/-! ### RESET and QUIESCE (R431, R523, R525) -/

/-- The scope of a RESET command. -/
def resetScope (q : ResetP) : Option Scope :=
  let d : Fin 8 := Fin.ofNat 8 q.deck.toNat
  let x : BitVec 4 := q.ctx.setWidth 4
  match q.level.toNat with
  | 1 => some (.ctx d x)
  | 2 => some (.engine d x (if q.core = 0xFFFF then 0xFFF else q.core))
  | 3 => some (.compute d)
  | 4 => some (.full d)
  | 5 => some .module
  | _ => none

/-- RESET at levels 1 to 4 (R523, R525). -/
def opResetDeck (s : State) (h : CmdHdr) (q : ResetP) (x : Scope) : State :=
  let lvl := q.level.toNat
  let named := lvl = 1 ∨ (lvl = 2 ∧ q.core = 0xFFFF)
  deckCmd s h q.deck (if lvl ≤ 2 then some q.ctx else none) (
    if (named ∧ !ctxLive s q.deck.toNat q.ctx) ∨ (lvl = 2 ∧ q.core ≠ 0xFFFF ∧ 3200 ≤ q.core.toNat) then replyNow s h stBadParam 0
    else if resetRuns s x then replyNow s h stBusyReset 0
    else replyNow (applyReset s x [q.core.toNat] 5 0 false (some h)) h stGood 0)

/-- RESET (R430, R431, R481, R525): level 5 by the owner, alone on the module; it answers GOOD and takes effect 10 µs later.
(DESIGN CHOICE, log entry 60.) -/
def opReset (s : State) (h : CmdHdr) (q : ResetP) : State :=
  match resetScope q with
  | none => anyCmd s h (replyNow s h (if (heldBind (ldAt s (ldKey h.ld))).isSome then stBadParam else stNotBound) 0)
  | some .module =>
    ownerCmd s h (
      if (boundLds s).any (fun k => k != ldKey h.ld) then replyNow s h stBadParam 0
      else if s.mgmt.stageState = 4 ∨ resetRuns s .module then replyNow s h stBusyReset 0
      else modRst (replyNow s h stGood 0) (fun r => { r with resetDue := some (clockNs s + 10000) }))
  | some x => opResetDeck s h q x

/-- Are a deck's cores, movers and Churn work idle (R431)? -/
def deckIdle (s : State) (d : Nat) : Bool :=
  let k := deckAt s d
  k.launches.isEmpty && k.cores.all (fun e => decide (e.2.launch = none) && enginesIdle e.2) &&
  !s.churn.colls.any (fun c => c.deck == d && !c.done)

/-- Does an LD hold every deck of a nonempty mask? -/
def holdsAll (s : State) (k : Nat) (m : BitVec 8) : Bool := m != 0 && (maskDecks m).all (fun d => ldHolds s k d)

/-- QUIESCE (R36, R431). -/
def opQuiesce (s : State) (h : CmdHdr) (q : QuiesceP) : State :=
  anyCmd s h (
    if !holdsAll s (ldKey h.ld) q.decks then replyNow s h stNotBound 0
    else if (maskDecks q.decks).any (fun d => faultRuns s d none) then replyNow s h stBusyReset 0
    else
      let s1 := (maskDecks q.decks).foldl (fun s d => modDeck s d (fun k => { k with quiesced := !q.release })) (replyPending s h)
      if q.release then replyFinal s1 h stGood 0
      else { s1 with host := { s1.host with quiesces := s1.host.quiesces ++
        [{ hdr := h, decks := q.decks, since := clockNs s, timeoutUs := q.timeoutUs.toNat }] } })

/-- QUIESCE_END (R431): GOOD once the decks are idle; LATE where they are not and TIMEOUT_US has passed. A GOOD one that named
every deck of the LD opens the window of R538. -/
def opQuiesceEnd (s : State) (l : LdRef) (r : Fin 2) : State :=
  match s.host.quiesces.find? (fun j => decide (j.hdr.ld = l ∧ j.hdr.ring = r)) with
  | none => s
  | some j =>
    let good := (maskDecks j.decks).all (deckIdle s)
    if !good && decide (clockNs s < j.since + 1000 * j.timeoutUs) then s
    else
    let s1 := { s with host := { s.host with quiesces := s.host.quiesces.erase j } }
    let all := match heldBind (ldAt s (ldKey l)) with
      | some b => b.decks == j.decks
      | none => false
    let s2 := replyFinal s1 j.hdr (if good then stGood else stLate) 0
    if good && all then modLd s2 (ldKey l) (fun x => { x with legacyWindow := true, legacyAt := clockNs s }) else s2

end Sys2Proof.Machine
end

