-- ==== Sys2Proof/Machine/HostIo.lean ====
section
/-! DEFINITION. Mailboxes (R444 to R446), locks (R447, R448), the 800GbE ports (R450 to R453), and TLY.CTL (R226). -/
namespace Sys2Proof.Machine
open Sys2Proof

/-! ### Mailboxes -/

/-- Is the receiver of mailbox `m` in Dock, or the module Off (R445)? -/
def mbxDown (s : State) (m : Nat) : Bool := decide (m < 8) && decide ((deckAt s m).power = .dock) || s.power.moduleState == 2

/-- May an agent send to mailbox `m` (R444)? (DESIGN CHOICE, log entry 66.) -/
def mbxSender (s : State) (a : Agent) (m : Nat) : Bool :=
  match a with
  | .fw => decide (m < 8)
  | .mgc => false
  | .host l => if m < 8 then ldHolds s (ldKey l) m else decide (m = 8) && (heldBind (ldAt s (ldKey l))).isSome

/-- The notice that an agent has staged for mailbox `m`. -/
def stagedNotice (s : State) (a : Agent) (m : Nat) : W64 × W64 := (mbxWord s a (.mbxPtr (Fin.ofNat 10 m)), mbxWord s a (.mbxLt (Fin.ofNat 10 m)))

def modMbx (s : State) (m : Nat) (f : Mailbox → Mailbox) : State :=
  { s with host := { s.host with mbx := mapMod {} s.host.mbx m f } }

/-- MBX_RING (R444, R445): the read's value is the status. (DESIGN CHOICE, log entry 66.) -/
def opMbxRing (s : State) (a : Agent) (m : Nat) : State :=
  let answer := fun (s : State) (st : Status) => emit s (.value a (st.setWidth 64))
  let b : Mailbox := mapGet {} s.host.mbx m
  if mbxDown s m then emit s (.aborted a)
  else if !mbxSender s a m then answer s stNotBound
  else if m < 8 ∧ (deckAt s m).mbxValid = false then answer s stNoContext
  else if 16 ≤ b.queue.length then answer (modMbx s m (fun b => { b with full := satInc b.full })) stPending
  else answer (modMbx s m (fun b => { b with queue := b.queue ++ [stagedNotice s a m] })) stGood

/-- MBX_DELIVER (R446, R454): the oldest notice of deck `d` goes to its area and SYNC is signalled by one; where the row of
the area is retired or its channel has failed, the write is discarded (R316, R330) and SYNC is poisoned with MEM_POISON.
During a full reset the queue is discarded and counted. (DESIGN CHOICE, log entry 66.) -/
def opMbxDeliver (s : State) (d : Nat) : State :=
  let b : Mailbox := mapGet {} s.host.mbx d
  let k := deckAt s d
  match b.queue with
  | [] => s
  | x :: rest =>
    if k.reset = .full then modMbx s d (fun b => { b with queue := [], downErr := satAdd b.downErr b.queue.length })
    else if k.mbxValid && syncUp k && !rangeHeld k (k.mbxBase.toNat + 16 * (mapGet 0 s.host.delivered d % 16)) 16 then
      let n := mapGet 0 s.host.delivered d
      let s1 := { modMbx s d (fun b => { b with queue := rest }) with host :=
        { (modMbx s d (fun b => { b with queue := rest })).host with delivered := mapSet 0 s.host.delivered d (n + 1) } }
      let bs := natBytes 8 x.1.toNat ++ natBytes 8 x.2.toNat
      let s2 := modDeck s1 d (fun k => memWrite k (k.mbxBase.toNat + 16 * (n % 16)) 16 (bytesCells bs))
      let st := memWriteSt k (k.mbxBase.toNat + 16 * (n % 16)) 16
      if objAlloc k k.mbxSync.toNat && objCtx k k.mbxSync.toNat == k.mbxCtx then
        onDeck s2 d (fun k => settle k [if st = stGood then .signal k.mbxSync.toNat 1 else .poison k.mbxSync.toNat st false])
      else s2
    else s

/-! ### Locks -/

/-- The owner number of an agent (R447); 0 for an LD without a host slot. -/
def ownerNumber (s : State) (a : Agent) : Nat :=
  match a with
  | .fw => 9
  | .mgc => 10
  | .host l => ((heldBind (ldAt s (ldKey l))).map (fun b => b.slot + 1)).getD 0

/-- Is lock `n` open to an agent (R447)? -/
def lockOpen (s : State) (a : Agent) (n : Nat) : Bool :=
  match a with
  | .fw => true
  | .mgc => decide (n < 16)
  | .host l =>
    if n < 16 then isOwner s (ldKey l)
    else decide (ownerNumber s a ≠ 0) && decide ((n - 16) / 8 + 1 = ownerNumber s a)

/-- LCK_READ (R448). -/
def opLckRead (s : State) (a : Agent) (n : Nat) : State :=
  if !lockOpen s a n then unsupported s a
  else
    let o := mapGet 0 s.host.locks n
    let s1 := emit s (.value a (BitVec.ofNat 64 o))
    if o = 0 then { s1 with host := { s1.host with locks := mapSet 0 s1.host.locks n (ownerNumber s a) } } else s1

/-- LCK_WRITE (R448): the owner frees the lock by writing its own number; anything else is ignored and counted. -/
def opLckWrite (s : State) (a : Agent) (n : Nat) (v : W64) : State :=
  if !lockOpen s a n then unsupported s a
  else
    let o := mapGet 0 s.host.locks n
    if o ≠ 0 ∧ o = ownerNumber s a ∧ bits v.toNat 0 6 = o then { s with host := { s.host with locks := mapSet 0 s.host.locks n 0 } }
    else { s with host := { s.host with lckIgnored := satInc s.host.lckIgnored } }

/-! ### The Ethernet ports -/

/-- The queue pair of a number, while it takes traffic (R453) and its port is up (R484, R500). -/
def liveQp (s : State) (n : Nat) : Option Qp :=
  if s.power.moduleState = 0 ∧ s.mgmt.recovery = false then
    (mapGet none s.host.qps n).bind (fun q => if q.err then none else some q)
  else none

/-- The LD of a queue pair. -/
def qpLd (q : Qp) : Nat := 16 * q.port.val + q.ld.val

/-- Answer a queue pair's request with a NAK (0 Invalid Request, 1 Remote Access Error, 2 Remote Operational Error). -/
def sendNak (s : State) (n : Nat) (q : Qp) (code : Nat) : State :=
  emit (modLd s (qpLd q) (fun l => { l with nakSent := satInc l.nakSent })) (.rdmaNak n code)

/-- A queue pair enters the error state; a snapshot that ships on it fails with LINK_LOST (R295, R453). -/
def qpError (s : State) (n : Nat) : State :=
  match mapGet none s.host.qps n with
  | none => s
  | some q =>
    if q.err then s
    else
      let s1 := modLd { s with host := { s.host with qps := mapSet none s.host.qps n (some { q with err := true }) } } (qpLd q)
        (fun l => { l with qpErr := satInc l.qpErr })
      (List.range 8).foldl (fun s d => (deckAt s d).ctxs.foldl (fun s e => match e.2.snap with
        | some j => if j.qpn.toNat = n ∧ e.2.hold.snapState = 2 then opSnapShipped s d (BitVec.ofNat 4 e.1) false else s
        | none => s) s) s1

/-- The region of a request that R451 lets through, for an access bit. (DEDUCED, log entry 67.) -/
def regionFor (s : State) (q : Qp) (rkey : BitVec 32) (addr len bit : Nat) : Option Region :=
  match mapGet none s.host.regions rkey.toNat with
  | none => none
  | some r =>
    if r.port = q.port ∧ r.ld = q.ld ∧ r.base ≤ addr ∧ addr + len ≤ r.base + r.length ∧ r.access.getLsbD bit then some r else none

/-- Does an access of queue pair `n` to a region wait (R315, R329)? -/
def rdmaHeld (s : State) (n : Nat) (rkey : BitVec 32) (addr len bit : Nat) : Bool :=
  match (liveQp s n).bind (fun q => regionFor s q rkey addr len bit) with
  | some r => memUp (deckAt s r.deck) && rangeHeld (deckAt s r.deck) addr len
  | none => false

/-- A request writes: refused by the region or the gate (R282, R451), or the bytes are written. A write that a retired row, a
failed channel or a poisoned sector discards is answered with a NAK of Remote Operational Error, and the queue pair enters the
error state (R302, R316, R330). Gives the region written. (DEDUCED, log entry 67.) -/
def rdmaStore (s : State) (n : Nat) (rkey : BitVec 32) (addr : Nat) (bs : List Byte) (imm : Bool) (errs : List SectorErr) :
    Option Region × State :=
  match liveQp s n with
  | none => (none, s)
  | some q =>
    match regionFor s q rkey addr bs.length 0 with
    | none => (none, sendNak s n q 1)
    | some r =>
      let k := deckAt s r.deck
      if imm ∧ r.access.getLsbD 2 = false then (none, sendNak s n q 1)
      else if gateRefuses k addr bs.length then
        (none, sendNak (modDeck s r.deck (fun k => { k with gateDrop := satInc k.gateDrop })) n q 1)
      else if !memUp k then (none, sendNak s n q 2)
      else
        let s1 := onDeck s r.deck (eccEdges (hallNs s) addr bs.length errs)
        let w := memWritePartial (deckAt s1 r.deck) addr bs
        let s2 := setDeck s1 r.deck w.1
        if w.2 || memWriteSt (deckAt s1 r.deck) addr bs.length != stGood then (none, qpError (sendNak s2 n q 2) n)
        else (some r, emit s2 (.rdmaAck n))

/-- RDMA_WRITE (R451). -/
def opRdmaWrite (s : State) (n : Nat) (rkey : BitVec 32) (addr : Nat) (bs : List Byte) (errs : List SectorErr) : State :=
  if rdmaHeld s n rkey addr bs.length 0 then holdAccess s (.rdmaWrite n rkey addr bs errs)
  else (rdmaStore s n rkey addr bs false errs).2

/-- RDMA_WRITE_IMMEDIATE (R452). -/
def opRdmaImm (s : State) (n : Nat) (rkey : BitVec 32) (addr : Nat) (bs : List Byte) (imm : BitVec 32) (errs : List SectorErr) : State :=
  if rdmaHeld s n rkey addr bs.length 0 then holdAccess s (.rdmaWriteImmediate n rkey addr bs imm errs)
  else match rdmaStore s n rkey addr bs true errs with
  | (none, s1) => s1
  | (some r, s1) =>
    let k := deckAt s1 r.deck
    let o := imm.toNat % 4096
    if syncUp k && objAlloc k o && objCtx k o == r.ctx then
      onDeck s1 r.deck (fun k => settle k [.signal o (BitVec.ofNat 32 (bits imm.toNat 16 16))])
    else modLd s1 (16 * r.port.val + r.ld.val) (fun l => { l with immBad := satInc l.immBad })

/-- RDMA_READ (R451). -/
def opRdmaRead (s : State) (n : Nat) (rkey : BitVec 32) (addr len : Nat) (errs : List SectorErr) : State :=
  match liveQp s n with
  | none => s
  | some q =>
    match regionFor s q rkey addr len 1 with
    | none => sendNak s n q 1
    | some r =>
      if !memUp (deckAt s r.deck) then sendNak s n q 2
      else if rangeHeld (deckAt s r.deck) addr len then holdAccess s (.rdmaRead n rkey addr len errs)
      else
        let s1 := onDeck s r.deck (eccRange (hallNs s) addr len errs)
        match memRead (deckAt s1 r.deck) addr len with
        | some m => emit s1 (.rdmaData n m)
        | none => qpError (sendNak s1 n q 2) n

/-- Carry out an access that waited. -/
def runAccess (s : State) (i : Instr) : State :=
  match i with
  | .cxlMemRead l off n errs => opCxlRead s l off n errs
  | .cxlMemWrite l off bs errs => opCxlWrite s l off bs errs
  | .rdmaWrite n rkey addr bs errs => opRdmaWrite s n rkey addr bs errs
  | .rdmaWriteImmediate n rkey addr bs imm errs => opRdmaImm s n rkey addr bs imm errs
  | .rdmaRead n rkey addr len errs => opRdmaRead s n rkey addr len errs
  | _ => s

/-- What waited for a channel or a row goes on, in acceptance order; what still has to wait stays (R315, R329). -/
def runHeld (s : State) : State :=
  let s1 := s.host.held.foldl runAccess { s with host := { s.host with held := [] } }
  releaseHeld s1.net.fenceHold.length s1

/-- RDMA_UNSUPPORTED_OP (R450). -/
def opRdmaUnsupported (s : State) (n : Nat) : State :=
  match liveQp s n with
  | none => emit s (.rdmaNak n 0)
  | some q => sendNak s n q 0

/-- CONGESTION_NOTIFICATION_PACKET (R450): the sending rate is reduced. -/
def opCnp (s : State) (n : Nat) : State :=
  match liveQp s n with
  | none => s
  | some q => { s with host := { s.host with qps := mapSet none s.host.qps n (some { q with cnps := q.cnps + 1 }) } }

/-- PRIORITY_FLOW_CONTROL_FRAME (R450). -/
def opPfc (s : State) (e : Nat) (pause : Bool) : State :=
  { s with host := { s.host with pfcPaused := mapSet false s.host.pfcPaused e pause } }

/-- Reset of Ethernet port `e` (R523): its queue pairs enter the error state. -/
def resetEth (s : State) (e : Nat) : State :=
  let ns := (s.host.qps.filter (fun x => match x.2 with
    | some q => q.eth == e
    | none => false)).map (·.1)
  ns.foldl qpError (opPfc s e false)

/-! ### TLY.CTL -/

/-- May an agent write the registers of deck `d` that its LD and the CMDP write? -/
def deckWriter (s : State) (a : Agent) (d : Nat) : Bool :=
  match a with
  | .fw => true
  | .mgc => false
  | .host l => ldHolds s (ldKey l) d

/-- TLY_CLEAR, a write of TLY.CTLd_c (R226): HBIAS is written, and CLEAR zeroes the context's Tallies before any update that
meets it. -/
def opTlyClear (s : State) (a : Agent) (d : Nat) (x : BitVec 4) (v : W64) : State :=
  if !deckWriter s a d then unsupported s a
  else modDeck s d (fun k =>
    let c := ctxAt k x.toNat
    let on := v.getLsbD 0
    let k1 := setCtx k x.toNat { c with hbias := v.extractLsb' 8 8, clearing := c.clearing || on }
    if on then { k1 with tallies := k1.tallies.filter (fun e => e.1 / 256 != x.toNat) } else k1)

/-- TLY_CLEAR_DONE. -/
def opTlyClearDone (s : State) (d : Nat) (x : BitVec 4) : State :=
  modDeck s d (fun k => setCtx k x.toNat { ctxAt k x.toNat with clearing := false })

end Sys2Proof.Machine
end

