-- ==== Sys2Proof/Machine/MgmtOps.lean ====
section
/-! DEFINITION. The management plane (chapter 12): MCTP control (R457, R458), PLDM monitoring (R459 to R461), SPDM and
attestation (R468 to R472), signed objects and their staging, verification and activation (R473 to R484). -/
namespace Sys2Proof.Machine
open Sys2Proof

/-! ### Transports (R457, R458) -/

/-- Does the MGC hear a transport: standby power is present, and CXL carries MCTP where the record says so? -/
def mgcHears (s : State) (t : Transport) : Bool :=
  s.power.island && (match t with
    | .i3c => true
    | .cxl => recordFlag s 1)

/-- Answer a request. -/
def mctpReply (s : State) (t : Transport) (c : MctpCode) (body : List Byte) : State := emit s (.mctp t c body)

/-- Run a request that both transports carry. -/
def mctpRun (s : State) (t : Transport) (go : State) : State := if mgcHears s t then go else s

/-- Run a PLDM request that is refused over CXL (R458). -/
def i3cRun (s : State) (t : Transport) (go : State) : State :=
  mctpRun s t (match t with
    | .i3c => go
    | .cxl => mctpReply s t .unsupportedPldmCmd [])

def setMgmt (s : State) (m : Mgmt) : State := { s with mgmt := m }

/-- SET_ENDPOINT_ID. -/
def opSetEid (s : State) (t : Transport) (eid : BitVec 8) : State :=
  mctpRun s t (mctpReply (setMgmt s (match t with
    | .i3c => { s.mgmt with eidI3c := eid }
    | .cxl => { s.mgmt with eidCxl := eid })) t .success [eid])

/-- GET_ENDPOINT_ID. -/
def opGetEid (s : State) (t : Transport) : State :=
  mctpRun s t (mctpReply s t .success [match t with
    | .i3c => s.mgmt.eidI3c
    | .cxl => s.mgmt.eidCxl])

/-- Is a message type carried (R457)? -/
def typeCarried (ty : BitVec 8) : Bool := ty == 0 || ty == 1 || ty == 5

/-- GET_MCTP_VERSION_SUPPORT: the manual states no versions; a free value stands for them. -/
def opMctpVersion (s : State) (t : Transport) (ty : BitVec 8) : State :=
  mctpRun s t (
    if typeCarried ty then
      let v := draw 32 s
      mctpReply v.2 t .success (natBytes 4 v.1.toNat)
    else mctpReply s t .invalidRequest [])

/-- GET_MESSAGE_TYPE_SUPPORT. -/
def opTypeSupport (s : State) (t : Transport) : State := mctpRun s t (mctpReply s t .success [0x00, 0x01, 0x05])

/-- MCTP_UNSUPPORTED_TYPE: discarded and counted. -/
def opMctpOther (s : State) (t : Transport) (ty : BitVec 8) : State :=
  mctpRun s t (if typeCarried ty then s else setMgmt s { s.mgmt with mctpDrop := s.mgmt.mctpDrop + 1 })

/-! ### PLDM monitoring (R459 to R461) -/

/-- The instances of R460's table: 49 numeric sensors, 19 state sensors and 5 effecters. -/
def pdrCount : Nat := 4 + 9 + 32 + 4 + 1 + 9 + 8 + 1 + 1 + 4

/-- GET_PDR_REPOSITORY_INFO. -/
def opPdrInfo (s : State) (t : Transport) : State :=
  mctpRun s t (mctpReply s t .success (natBytes 4 pdrCount ++ natBytes 8 s.mgmt.pdrTime.toNat))

/-- GET_PDR. -/
def opGetPdr (s : State) (t : Transport) (handle : BitVec 32) : State :=
  mctpRun s t (
    if handle.toNat < pdrCount then mctpReply s t .success (Config.pdrRecord s.mgmt.build.toNat handle.toNat)
    else mctpReply s t .badParam [])

/-- The latest sample of a numeric sensor; the optical output of an ELS stands in no register and is free. -/
def sensorBytes (s : State) (i : SensorId) : List Byte × State :=
  match i with
  | .feedAVolts => (natBytes 2 s.power.voltsA.toNat, s)
  | .feedBVolts => (natBytes 2 s.power.voltsB.toNat, s)
  | .inputCurrent => (natBytes 4 (s.power.ampsA.toNat + s.power.ampsB.toNat), s)
  | .inputPower => (natBytes 2 s.power.sampleW.toNat, s)
  | .dieTemp n => ([(mapGet ({} : Die) s.thermal.dies n).temp], s)
  | .stackTemp n => ([(stkAt s n).temp], s)
  | .elsOutput _ =>
    let v := draw 16 s
    (natBytes 2 v.1.toNat, v.2)

/-- GET_SENSOR_READING. -/
def opSensor (s : State) (t : Transport) (i : SensorId) : State :=
  let r := sensorBytes s i
  mctpRun s t (mctpReply r.2 t .success r.1)

/-- The value of a state sensor. -/
def stateSensor (s : State) (i : StateSensorId) : Byte :=
  match i with
  | .htu => s.htu.state.setWidth 8
  | .port p => (portAt s p).state.setWidth 8
  | .deck d => BitVec.ofNat 8 (deckHealth (deckAt s d))
  | .fwMode => if s.mgmt.recovery then 1 else 0

/-- GET_STATE_SENSOR_READINGS. -/
def opStateSensor (s : State) (t : Transport) (i : StateSensorId) : State := mctpRun s t (mctpReply s t .success [stateSensor s i])

/-- An effecter's value: the limit that the management plane has set. -/
def effecterValue (s : State) (i : EffecterId) : Nat :=
  let m := s.mem.mgcCfg.toNat
  match i with
  | .powerLimit => s.power.mgcW.toNat
  | .warmC => bits m 0 8
  | .hotC => bits m 8 8
  | .warmCap => bits m 16 4
  | .hotCap => bits m 20 4

/-- GET_NUMERIC_EFFECTER_VALUE. -/
def opGetEffecter (s : State) (t : Transport) (i : EffecterId) : State :=
  mctpRun s t (mctpReply s t .success (natBytes 2 (effecterValue s i)))

/-- Set the management limit on input power, clipped (R491, R494): it applies from the next window boundary. -/
def setMgcW (s : State) (v : Nat) : State :=
  let w := BitVec.ofNat 16 (clip 6000 15000 v)
  let p := s.power
  { s with power := { p with mgcW := w, events := if w = p.mgcW then p.events else setBit p.events 8 true } }

/-- Set an effecter (R327, R460, R461). -/
def setEffecter (s : State) (i : EffecterId) (v : Nat) : State :=
  let m := s.mem.mgcCfg
  match i with
  | .powerLimit => setMgcW s v
  | .warmC => mgcTemps s (m.extractLsb' 8 16 ++ BitVec.ofNat 8 (min 255 v))
  | .hotC => mgcTemps s (m.extractLsb' 16 8 ++ BitVec.ofNat 8 (min 255 v) ++ m.extractLsb' 0 8)
  | .warmCap => mgcTemps s (m.extractLsb' 20 4 ++ BitVec.ofNat 4 (min 15 v) ++ m.extractLsb' 0 16)
  | .hotCap => mgcTemps s (BitVec.ofNat 4 (min 15 v) ++ m.extractLsb' 0 20)

/-- SET_NUMERIC_EFFECTER_VALUE: the response carries the clipped value. -/
def opSetEffecter (s : State) (t : Transport) (i : EffecterId) (v : BitVec 16) : State :=
  i3cRun s t (
    let s1 := setEffecter s i v.toNat
    mctpReply s1 t .success (natBytes 2 (effecterValue s1 i)))

/-- POLL_FOR_PLATFORM_EVENT_MESSAGE. -/
def opPoll (s : State) (t : Transport) : State :=
  i3cRun s t (match s.mgmt.pldm with
    | [] => mctpReply s t .success []
    | e :: rest => mctpReply (setMgmt s { s.mgmt with pldm := rest }) t .success (natBytes 4 e))

/-! ### SPDM (R468 to R471) -/

/-- May the security unit sign (R456, R468)? -/
def maySign (s : State) : Bool := s.mgmt.pufOk && s.mgmt.verified

/-- GET_VERSION: SPDM 1.2. -/
def opSpdmVersion (s : State) (t : Transport) : State := mctpRun s t (mctpReply s t .success [0x12])

/-- GET_CAPABILITIES: CERT_CAP, CHAL_CAP and MEAS_CAP with signature, as bits 0, 1 and 2. -/
def opSpdmCaps (s : State) (t : Transport) : State := mctpRun s t (mctpReply s t .success [0x07])

/-- NEGOTIATE_ALGORITHMS: RSASSA-3072 and SHA-256, or nothing. -/
def opSpdmAlgs (s : State) (t : Transport) (rsa sha : Bool) : State :=
  mctpRun s t (if rsa && sha then mctpReply s t .success [0x01, 0x01] else mctpReply s t .invalidRequest [])

/-- GET_DIGESTS: slot 0 alone. -/
def opSpdmDigests (s : State) (t : Transport) : State :=
  mctpRun s t (mctpReply s t .success (1 :: natBytes 32 (Config.sha256 (bytesCells Config.certChain)).toNat))

/-- GET_CERTIFICATE. -/
def opSpdmCert (s : State) (t : Transport) (slot : BitVec 8) (off len : BitVec 16) : State :=
  mctpRun s t (
    if slot = 0 then mctpReply s t .success ((Config.certChain.drop off.toNat).take len.toNat)
    else mctpReply s t .invalidRequest [])

/-- A signature over an SPDM transcript, whose digest the manual leaves to SPDM. -/
def spdmSign (s : State) : List Byte × State :=
  let v := draw 256 s
  (Config.signature v.1, v.2)

/-- CHALLENGE. -/
def opChallenge (s : State) (t : Transport) (slot : BitVec 8) : State :=
  mctpRun s t (
    if slot ≠ 0 then mctpReply s t .invalidRequest []
    else if !maySign s then mctpReply s t .authFailed []
    else
      let r := spdmSign s
      mctpReply r.2 t .success r.1)

/-- A measurement's 32 bytes. -/
def measurement (s : State) (n : Nat) : List Byte := natBytes 32 (mapGet 0 s.mgmt.measured n).toNat

/-- GET_MEASUREMENTS: index 0 asks for their number, 0xFF for all, 1 to 4 for one. -/
def opMeasurements (s : State) (t : Transport) (i : BitVec 8) (signed : Bool) : State :=
  mctpRun s t (
    let body : Option (List Byte) :=
      if i = 0 then some [4]
      else if i = 0xFF then some ([1, 2, 3, 4].flatMap (measurement s))
      else if i.toNat ≤ 4 then some (measurement s i.toNat)
      else none
    match body with
    | none => mctpReply s t .invalidRequest []
    | some b =>
      if !signed then mctpReply s t .success b
      else if !maySign s then mctpReply s t .authFailed []
      else
        let r := spdmSign s
        mctpReply r.2 t .success (b ++ r.1))

/-- SPDM_UNSUPPORTED. -/
def opSpdmOther (s : State) (t : Transport) : State := mctpRun s t (mctpReply s t .unsupportedRequest [])

/-! ### Writing an LD's window, and ATTEST (R472) -/

/-- Write bytes of one deck for a command: a deck that is down answers ISOLATED, a row or sector that discards them MEM_POISON
(R302, R330, R375). -/
def pieceWrite (r : Status × State) (d a : Nat) (bs : List Byte) : Status × State :=
  if !memUp (deckAt r.2 d) then (if r.1 = stGood then stIsolated else r.1, r.2)
  else
    let s1 := onDeck r.2 d (eccEdges (hallNs r.2) a bs.length [])
    let w := memWritePartial (deckAt s1 d) a bs
    let st := if w.2 then stMemPoison else memWriteSt (deckAt s1 d) a bs.length
    (if r.1 = stGood then st else r.1, setDeck s1 d w.1)

/-- Write bytes of an LD by HDM offset. -/
def hdmWrite (s : State) (k off : Nat) (bs : List Byte) : Status × State :=
  match heldBind (ldAt s k) with
  | none => (stNotBound, s)
  | some b =>
    if !hdmFits b off bs.length then (stBadParam, s)
    else (hdmPieces b off bs.length).foldl (fun r x => pieceWrite r x.1 x.2.1 ((bs.drop x.2.2.1).take x.2.2.2)) (stGood, s)

/-- Bytes 0 to 191 of an attestation report. -/
def reportBody (s : State) (h : CmdHdr) (nonce : BitVec 256) : List Byte :=
  natBytes 32 nonce.toNat ++ natBytes 8 Config.moduleSerial.toNat ++ natBytes 4 (ownModule s).toNat ++ natBytes 4 s.mgmt.build.toNat ++
  natBytes 2 s.mgmt.counter.toNat ++ natBytes 2 (cmdIdWord s h.ld).toNat ++ natBytes 4 s.mgmt.sequence.toNat ++
  [1, 2, 3, 4].flatMap (measurement s) ++ natBytes 4 Config.certChain.length ++ natBytes 4 0

/-- ATTEST: PENDING, then the number of bytes written, or the refusal. -/
def opAttest (s : State) (h : CmdHdr) (q : AttestP) : State :=
  boundCmd s h (
    let s1 := replyPending s h
    let body := reportBody s h q.nonce
    let sig := (List.range 384).map (fun i => (Config.signature (Config.sha256 (bytesCells body)))[i]?.getD 0)
    let report := body ++ sig ++ Config.certChain
    if !maySign s then replyFinal s1 h stAuthFailed 0
    else if q.destLen.toNat < report.length then replyFinal s1 h stBadParam 0
    else
      let r := hdmWrite s1 (ldKey h.ld) q.dest.toNat report
      replyFinal r.2 h r.1 (if r.1 = stGood then report.length else 0))

/-! ### Signed objects (R473, R474) -/

/-- A field of an object's header. -/
def objField (m : Cells) (off n : Nat) : Nat := readNat m off n

def isImage (m : Cells) : Bool := objField m 0 4 == 0x0C5E1A01
def isRecord (m : Cells) : Bool := objField m 0 4 == 0x0C5E1A02

/-- Step 1 of R474 over `n` staged bytes. -/
def objForm (m : Cells) (n : Nat) : Bool :=
  let len := objField m 16 4
  (isImage m || isRecord m) && objField m 4 2 == 1 && objField m 6 2 == 0 && objField m 14 2 == 0 &&
  objField m 52 12 == 0 && objField m 452 60 == 0 && objField m 1920 128 == 0 &&
  (if isImage m then decide (1 ≤ len ∧ len ≤ 16775168) else len == 256) && n == 2048 + len

/-- Steps 2 to 5 of R474: the root key, the signer's certificate, its signature, the payload's digest. -/
def objAuth (m : Cells) : Bool :=
  let root := mapSlice m 64 388
  let cert := mapSlice m 512 1024
  Config.sha256 root == Config.rootHash && Config.certAuth root cert (isImage m) &&
  Config.signatureAuth cert (Config.sha256 (mapSlice m 0 1536)) (mapSlice m 1536 384) &&
  (Config.sha256 (mapSlice m 2048 (objField m 16 4))).toNat == objField m 20 32

/-- The verification of R474: its status. -/
def verifyObject (s : State) (m : Cells) (n : Nat) : Status :=
  if !objForm m n then stBadParam
  else if !objAuth m then stAuthFailed
  else if isImage m then (if objField m 12 2 < s.mgmt.counter.toNat then stRollback else stGood)
  else if objField m 8 4 ≤ s.mgmt.storedSeq.toNat then stRollback
  else if objField m 2048 8 ≠ Config.moduleSerial.toNat then stAuthFailed
  else stGood

/-! ### Staging (R478, R479) -/

/-- Staging begins for an owner (1 FW_STAGE, 2 PLDM). -/
def beginStage (now : Nat) (m : Mgmt) (owner : BitVec 2) (l : Option LdRef) : Mgmt :=
  { m with stageBytes := 0, stageState := 1, stageOwner := owner, stageKind := false, stageMem := [], stageLd := l, stageCmd := none,
           stageAt := now }

/-- Staging ends in FAILED and is released. -/
def failStage (m : Mgmt) : Mgmt := { m with stageState := 6, stageOwner := 0, stageLd := none, stageCmd := none }

/-- Take a chunk into staging memory. -/
def stageChunk (now : Nat) (m : Mgmt) (c : Cells) (n : Nat) : Mgmt :=
  { m with stageAt := now, stageMem := mapSplice m.stageMem m.stageBytes.toNat n c, stageBytes := m.stageBytes + BitVec.ofNat 25 n }

/-- Run FW_STAGE or FW_ACTIVATE: the owner LD, or in recovery the port's LD (R484). -/
def fwCmd (s : State) (h : CmdHdr) (go : State) : State :=
  if s.mgmt.recovery then anyCmd s h go else ownerCmd s h go

/-- The bytes that FW_STAGE names. In recovery no LD is bound and SOURCE names no memory: they are free.
(DEDUCED, log entry 68.) -/
def stageSource (s : State) (h : CmdHdr) (q : FwStageP) : (Status × Cells) × State :=
  if s.mgmt.recovery then
    let v := draw (8 * q.length.toNat) s
    ((stGood, bytesCells (natBytes q.length.toNat v.1.toNat)), v.2)
  else cmdRead s (ldKey h.ld) q.source.toNat q.length.toNat

/-- FW_STAGE (R478, R479). -/
def opFwStage (s : State) (h : CmdHdr) (q : FwStageP) : State :=
  fwCmd s h (
    let m := s.mgmt
    let fresh := m.stageOwner = 0
    let mine := m.stageOwner = 1 ∧ m.stageLd = some h.ld ∧ m.stageState = 1
    let at' := if fresh then 0 else m.stageBytes.toNat
    if ¬ (fresh ∨ mine) ∨ q.offset.toNat ≠ at' ∨ 0x1000000 < at' + q.length.toNat then replyNow s h stBadParam 0
    else
      let r := stageSource s h q
      let s1 := replyPending r.2 h
      if r.1.1 ≠ stGood then replyFinal s1 h r.1.1 0
      else
        let m1 := if fresh then beginStage (clockNs s) m 1 (some h.ld) else m
        let m2 := stageChunk (clockNs s) m1 r.1.2 q.length.toNat
        if q.last then setMgmt s1 { m2 with stageState := 2, stageCmd := some h } else replyFinal (setMgmt s1 m2) h stGood 0)

/-- The write of a verified object begins (R480): the marker is set for an image. (DEDUCED, log entry 54.) -/
def beginWrite (m : Mgmt) (h : Option CmdHdr) : Mgmt :=
  { m with stageState := 4, stageCmd := h, writeMarker := m.writeMarker || !m.stageKind }

/-- VERIFY_COMPLETE (R474, R479, R480, R482): the status of the staged object; over PLDM a good one is applied at once. -/
def opVerifyComplete (s : State) : State :=
  let m := s.mgmt
  if m.stageState ≠ 2 then s
  else
    let st := verifyObject s m.stageMem m.stageBytes.toNat
    let m1 := { m with stageStatus := st, stageKind := if isRecord m.stageMem then true else if isImage m.stageMem then false else m.stageKind }
    let m2 := if st = stGood then { m1 with stageState := 3, stageCmd := none } else failStage m1
    let s1 := match m.stageCmd with
      | some h => replyFinal (setMgmt s m2) h st 0
      | none => setMgmt s m2
    if m.stageOwner = 2 then
      let code : BitVec 8 := if st = stGood then 0x00 else if st = stRollback then 0x03 else 0x01
      let s2 := emit s1 (.pldmVerifyComplete code)
      if st = stGood then setMgmt s2 (beginWrite m2 none) else s2
    else s1

/-- FW_ACTIVATE (R480). -/
def opFwActivate (s : State) (h : CmdHdr) : State :=
  fwCmd s h (
    if s.mgmt.stageState ≠ 3 then replyNow s h stBadParam 0
    else replyPending (setMgmt s (beginWrite s.mgmt (some h))) h)

/-- FLASH_WRITE_DONE (R480, R482, R484): the object stands in flash; the recovery loader then resets the module. -/
def opFlashDone (s : State) : State :=
  let m := s.mgmt
  if m.stageState ≠ 4 then s
  else
    let m1 := if m.stageKind then { m with flashRecord := m.stageMem, storedSeq := BitVec.ofNat 32 (objField m.stageMem 8 4) }
      else { m with flashImage := m.stageMem, writeMarker := false }
    let s1 := setMgmt s { m1 with stageState := 5, stageOwner := 0, stageLd := none, stageCmd := none, fwPending := true }
    let s2 := match m.stageCmd with
      | some h => replyFinal s1 h stGood 0
      | none => s1
    let s3 := if m.stageOwner = 2 then emit s2 .pldmApplyComplete else s2
    if m.recovery then moduleReset s3 true false 11 0 false else s3

/-- STAGE_TIMEOUT (R478): 60 s have passed without a transfer. -/
def opStageTimeout (s : State) : State :=
  let m := s.mgmt
  if m.stageOwner ≠ 0 ∧ (m.stageState = 1 ∨ m.stageState = 3) ∧ m.stageAt + 60000000000 ≤ clockNs s then mgtEvent (setMgmt s (failStage m)) 7 else s

/-! ### PLDM firmware update (R482), over I3C only -/

/-- Run a request of the update that PLDM owns. -/
def updRun (s : State) (t : Transport) (go : State) : State :=
  i3cRun s t (if s.mgmt.stageOwner = 2 then go else mctpReply s t .notInUpdateMode [])

/-- QUERY_DEVICE_IDENTIFIERS. -/
def opQueryIds (s : State) (t : Transport) : State := i3cRun s t (mctpReply s t .success Config.deviceIds)

/-- The build and SVN that await a cold reset. -/
def pendingVersion (m : Mgmt) : Nat := if m.fwPending then objField m.flashImage 8 4 else 0

/-- GET_FIRMWARE_PARAMETERS: the running build, and the pending one until a cold reset. -/
def opFwParams (s : State) (t : Transport) : State :=
  i3cRun s t (mctpReply s t .success (natBytes 4 s.mgmt.build.toNat ++ natBytes 4 (pendingVersion s.mgmt)))

/-- REQUEST_UPDATE (R478). -/
def opRequestUpdate (s : State) (t : Transport) : State :=
  i3cRun s t (
    if s.mgmt.stageOwner ≠ 0 then mctpReply s t .alreadyInUpdateMode []
    else mctpReply (setMgmt s { beginStage (clockNs s) s.mgmt 2 none with updComp := 0, updSize := 0 }) t .success [])

/-- Is a component offered? -/
def compOffered (c : BitVec 16) : Bool := c == 1 || c == 2

/-- PASS_COMPONENT_TABLE. -/
def opPassTable (s : State) (t : Transport) (c : BitVec 16) : State :=
  updRun s t (mctpReply s t (if compOffered c then .success else .badParam) [])

/-- UPDATE_COMPONENT: the module then pulls the data. -/
def opUpdateComponent (s : State) (t : Transport) (c : BitVec 16) (n : BitVec 32) : State :=
  updRun s t (
    if !compOffered c ∨ 0x1000000 < n.toNat ∨ s.mgmt.stageState ≠ 1 then mctpReply s t .badParam []
    else emit (mctpReply (setMgmt s { s.mgmt with updComp := c, updSize := n, stageBytes := 0, stageMem := [] }) t .success [])
      .pldmRequestData)

/-- REQUEST_FIRMWARE_DATA: a response arrives, within the size that UpdateComponent gave; with the last one the transfer is complete and verification begins. -/
def opFwData (s : State) (bs : List Byte) (last : Bool) : State :=
  let m := s.mgmt
  if !(mgcHears s .i3c && m.stageOwner == 2 && m.stageState == 1 && m.updComp != 0) || decide (min 0x1000000 m.updSize.toNat < m.stageBytes.toNat + bs.length) then s
  else
    let m1 := stageChunk (clockNs s) m (bytesCells bs) bs.length
    if last then emit (setMgmt s { m1 with stageState := 2 }) .pldmTransferComplete else emit (setMgmt s m1) .pldmRequestData

/-- ACTIVATE_FIRMWARE: the object takes effect at the next cold module reset. -/
def opActivateFw (s : State) (t : Transport) : State :=
  i3cRun s t (mctpReply s t (if s.mgmt.stageState = 5 then .success else .notInUpdateMode) [])

/-- GET_STATUS. -/
def opGetStatus (s : State) (t : Transport) : State := i3cRun s t (mctpReply s t .success [s.mgmt.stageState.setWidth 8])

/-- CANCEL_UPDATE_COMPONENT: the update goes on without the component's bytes. -/
def opCancelComponent (s : State) (t : Transport) : State :=
  updRun s t (
    let m := flashTorn s.mgmt
    mctpReply (setMgmt s { m with updComp := 0, updSize := 0, stageBytes := 0, stageMem := [], stageState := 1 }) t .success [])

/-- CANCEL_UPDATE (R478). -/
def opCancelUpdate (s : State) (t : Transport) : State :=
  updRun s t (mctpReply (setMgmt s (failStage (flashTorn s.mgmt))) t .success [])

/-- ENTDAA (R555). -/
def opEntdaa (s : State) (a : BitVec 7) : State := if s.power.island then setMgmt s { s.mgmt with i3cAddr := a } else s

/-! ### Boot (R483, R484) -/

/-- The measurements of a boot (R471). -/
def bootMeasure (m : Mgmt) (recordOk : Bool) : SMap (BitVec 256) :=
  let m1 := mapSet 0 [] 1 (Config.sha256 (bytesCells Config.bootRom))
  let m2 := if m.recovery then m1 else mapSet 0 m1 2 (Config.sha256 m.flashImage)
  let m3 := if recordOk then mapSet 0 m2 3 (Config.sha256 m.flashRecord) else m2
  mapSet 0 m3 4 (Config.sha256 (bytesCells (natBytes 2 m.counter.toNat ++ natBytes 4 m.storedSeq.toNat)))

/-- Step 1 of the release order (R483, R484): the image is verified, the counter follows its SVN, the PDR repository gets a
new update time. A marker found set is a torn image. -/
def bootImage (s : State) (b : BootCheck) : State :=
  let m := s.mgmt
  let t := draw 64 s
  let bad := m.writeMarker ∨ b = .authFail ∨ b = .rollback
  let svn := BitVec.ofNat 16 (objField m.flashImage 12 2)
  let m1 := if bad then { m with recovery := true, build := 0, svn := 0, fwPending := false, verified := false, pdrTime := t.1 }
    else { m with recovery := false, build := BitVec.ofNat 32 (objField m.flashImage 8 4), svn := svn, fwPending := false,
                  verified := true, counter := if m.counter.toNat < svn.toNat then svn else m.counter, pdrTime := t.1 }
  let s1 := setMgmt t.2 m1
  let s2 := setMgmt s1 { m1 with measured := bootMeasure m1 false }
  if m.writeMarker then mgtEvent s2 2
  else if b = .authFail then mgtEvent s2 0
  else if b = .rollback then mgtEvent s2 1
  else s2

/-- Step 2 (R477, R484): the record is verified and comes into force; a record that fails leads to recovery. -/
def bootRecord (s : State) (b : BootCheck) : State :=
  let m := s.mgmt
  if b = .cfgReject then
    let m1 := { m with recovery := true, build := 0, svn := 0, verified := false, recordObj := [], record := [], sequence := 0 }
    mgtEvent (setMgmt s { m1 with measured := bootMeasure m1 false }) 3
  else
    let seq := BitVec.ofNat 32 (objField m.flashRecord 8 4)
    let m1 := { m with recordObj := m.flashRecord, record := mapSlice m.flashRecord 2048 256, sequence := seq }
    setMgmt s { m1 with measured := bootMeasure m1 true }

end Sys2Proof.Machine
end

