-- ==== Sys2Proof/Machine/ExecHost.lean ====
section
/-! DEFINITION. The commands of the host attachment (chapter 11): rings, the 30 command packets, stream entries,
mailboxes, locks, Ethernet. -/
namespace Sys2Proof.Machine
open Sys2Proof

/-- Answer a command with a status. -/
def answer (h : CmdHdr) (r : Status × State) : State := replyNow r.2 h r.1 0

/-- CMD_DOORBELL (R422). -/
def execCmdDoorbell (l : LdRef) (r : Fin 2) (tail : BitVec 32) (s : State) : Res := done (opDoorbell s l r tail)

/-- CMD_TAKE (R427). -/
def execCmdTake (l : LdRef) (r : Fin 2) (s : State) : Res := done (opTake s l r)

/-- CMD_TIMEOUT (R429). -/
def execCmdTimeout (l : LdRef) (r : Fin 2) (s : State) : Res := done (opCmdTimeout s l r)

/-- CMD_RESUME (R449). -/
def execCmdResume (l : LdRef) (s : State) : Res := done (opResume s l)

/-- IDENTIFY (R430). -/
def execIdentify (h : CmdHdr) (s : State) : Res :=
  done (runCmd s h (.identify h) (opIdentify s h))

/-- BIND_LD (R38). -/
def execBindLd (h : CmdHdr) (q : BindLdP) (s : State) : Res :=
  done (runCmd s h (.bindLd h q) (opBindLd s h q))

/-- CTX_CREATE (R440). -/
def execCtxCreate (h : CmdHdr) (q : CtxCreateP) (s : State) : Res :=
  done (runCmd s h (.ctxCreate h q) (opCtxCreate s h q))

/-- CTX_DESTROY (R442). -/
def execCtxDestroy (h : CmdHdr) (q : CtxDestroyP) (s : State) : Res :=
  done (runCmd s h (.ctxDestroy h q) (opCtxDestroy s h q))

/-- CTX_DRAIN_END (R442). -/
def execCtxDrainEnd (d : Fin 8) (x : BitVec 4) (s : State) : Res := done (opDrainEnd s d x)

/-- CTX_QUARANTINE_END (R443). -/
def execCtxQuarantineEnd (d : Fin 8) (x : BitVec 4) (s : State) : Res := done (opQuarantineEnd s d x)

/-- STREAM_OPEN (R430). -/
def execStreamOpen (h : CmdHdr) (q : StreamOpenP) (s : State) : Res :=
  done (runCmd s h (.streamOpen h q) (opStreamOpen s h q))

/-- STREAM_CLOSE (R439). -/
def execStreamClose (h : CmdHdr) (q : StreamCloseP) (s : State) : Res :=
  done (runCmd s h (.streamClose h q) (opStreamClose s h q))

/-- LAUNCH (R438). -/
def execLaunch (h : CmdHdr) (q : LaunchP) (s : State) : Res :=
  done (runCmd s h (.launch h q) (opLaunch s h q))

/-- SYNC_ALLOC (R143). -/
def execSyncAlloc (h : CmdHdr) (q : SyncAllocP) (s : State) : Res :=
  done (runCmd s h (.syncAlloc h q) (opSyncAlloc s h q))

/-- SYNC_POISON (R432). -/
def execSyncPoison (h : CmdHdr) (q : SyncPoisonP) (s : State) : Res :=
  done (runCmd s h (.syncPoison h q) (opSyncPoison s h q))

/-- MEM_MAP (R451). -/
def execMemMap (h : CmdHdr) (q : MemMapP) (s : State) : Res :=
  done (runCmd s h (.memMap h q) (opMemMap s h q))

/-- QP_OPEN (R450). -/
def execQpOpen (h : CmdHdr) (q : QpOpenP) (s : State) : Res :=
  done (runCmd s h (.qpOpen h q) (opQpOpen s h q))

/-- QP_CLOSE (R453). -/
def execQpClose (h : CmdHdr) (qpn : BitVec 32) (s : State) : Res := done (runCmd s h (.qpClose h qpn) (opQpClose s h qpn.toNat))

/-- TT_LOAD (R36, R87): a fault action on the deck whose schedule is loaded comes first; the read of the source may have to
wait (R315, R329). -/
def execTtLoad (h : CmdHdr) (q : TtLoadP) (s : State) : Res :=
  done (runCmd s h (.ttLoad h q) (ownerCmd s h (
    if q.kind = 2 ∧ faultRuns s q.portOrDeck.toNat none then replyNow s h stBusyReset 0
    else if cmdHeld s (ldKey h.ld) q.source.toNat (ttBytes q) then s
    else answer h (ttLoad s (ldKey h.ld) q))))

/-- TT_ARM (R90). -/
def execTtArm (h : CmdHdr) (q : TtArmP) (s : State) : Res :=
  done (runCmd s h (.ttArm h q) (ownerCmd s h (answer h (ttArm s q))))

/-- TT_SELECT_VARIANT (R88). -/
def execTtSelectVariant (h : CmdHdr) (q : TtSelectP) (s : State) : Res :=
  done (runCmd s h (.ttSelectVariant h q) (ownerCmd s h (answer h (ttSelect s q))))

/-- TIME_STATUS (R73). -/
def execTimeStatus (h : CmdHdr) (s : State) : Res :=
  done (runCmd s h (.timeStatus h) (opTimeStatus s h))

/-- JOB_EPOCH (R276); the zeroing may have to wait (R315, R329). -/
def execJobEpoch (h : CmdHdr) (q : JobEpochP) (s : State) : Res :=
  done (if rangeHeld (deckAt s q.deck.toNat) (fpArea q).1 (fpArea q).2 then s else runCmd s h (.jobEpoch h q) (opJobEpoch s h q))

/-- SNAPSHOT (R293). -/
def execSnapshot (h : CmdHdr) (q : SnapshotP) (s : State) : Res :=
  done (runCmd s h (.snapshot h q) (opSnapshot s h q))

/-- RESET (R525). -/
def execReset (h : CmdHdr) (q : ResetP) (s : State) : Res :=
  done (runCmd s h (.reset h q) (opReset s h q))

/-- QUIESCE (R431). -/
def execQuiesce (h : CmdHdr) (q : QuiesceP) (s : State) : Res :=
  done (runCmd s h (.quiesce h q) (opQuiesce s h q))

/-- QUIESCE_END (R431). -/
def execQuiesceEnd (l : LdRef) (r : Fin 2) (s : State) : Res := done (opQuiesceEnd s l r)

/-- HEALTH (R430). -/
def execHealth (h : CmdHdr) (s : State) : Res :=
  done (runCmd s h (.health h) (opHealth s h))

/-- FW_STAGE (R479); the read of the source may have to wait (R315, R329). -/
def execFwStage (h : CmdHdr) (q : FwStageP) (s : State) : Res :=
  done (if cmdHeld s (ldKey h.ld) q.source.toNat q.length.toNat then s else runCmd s h (.fwStage h q) (opFwStage s h q))

/-- FW_ACTIVATE (R480). -/
def execFwActivate (h : CmdHdr) (s : State) : Res :=
  done (runCmd s h (.fwActivate h) (opFwActivate s h))

/-- ATTEST (R472); the write of the report may have to wait (R315, R329). -/
def execAttest (h : CmdHdr) (q : AttestP) (s : State) : Res :=
  done (if cmdHeld s (ldKey h.ld) q.dest.toNat q.destLen.toNat then s else runCmd s h (.attest h q) (opAttest s h q))

/-- STREAM_NOP (R436). -/
def execStreamNop (d : Fin 8) (n : BitVec 13) (s : State) : Res := done (onDeck s d (readHead (hallNs s) n.toNat (fun k => opStreamNop k n.toNat)))

/-- STREAM_KERNEL (R436). -/
def execStreamKernel (d : Fin 8) (n : BitVec 13) (s : State) : Res :=
  done (onDeckLaunch s d (readHead (hallNs s) n.toNat (fun k => opStreamKernel (coreEnv s d) k n.toNat)))

/-- STREAM_WAIT (R436). -/
def execStreamWait (d : Fin 8) (n : BitVec 13) (s : State) : Res := done (onDeck s d (readHead (hallNs s) n.toNat (fun k => opStreamWait (coreEnv s d) k n.toNat)))

/-- STREAM_SIGNAL (R436). -/
def execStreamSignal (d : Fin 8) (n : BitVec 13) (s : State) : Res := done (onDeck s d (readHead (hallNs s) n.toNat (fun k => opStreamSignal k n.toNat)))

/-- STREAM_COLL (R383). -/
def execStreamColl (d : Fin 8) (n : BitVec 13) (s : State) : Res :=
  done (onDeck s d (readHead (hallNs s) n.toNat (fun k => opStreamColl (coreEnv s d) k n.toNat)))

/-- KERNEL_COMPLETE (R436). -/
def execKernelComplete (d : Fin 8) (id : Nat) (s : State) : Res := done (onDeck s d (fun k => opKernelComplete k id))

/-- MBX_RING (R444). -/
def execMbxRing (a : Agent) (m : Fin 10) (s : State) : Res := done (opMbxRing s a m)

/-- MBX_DELIVER (R446). -/
def execMbxDeliver (d : Fin 8) (s : State) : Res := done (opMbxDeliver s d)

/-- LCK_READ (R448). -/
def execLckRead (a : Agent) (n : Fin 80) (s : State) : Res := done (opLckRead s a n)

/-- LCK_WRITE (R448). -/
def execLckWrite (a : Agent) (n : Fin 80) (v : BitVec 64) (s : State) : Res := done (opLckWrite s a n v)

/-- CXL_PERST (R421). -/
def execCxlPerst (port : Fin 2) (s : State) : Res := done (opPerst s port)

/-- RDMA_WRITE (R451). -/
def execRdmaWrite (qpn : Nat) (rkey : BitVec 32) (addr : Nat) (data : List Byte) (errs : List SectorErr) (s : State) : Res :=
  done (opRdmaWrite s qpn rkey addr data errs)

/-- RDMA_WRITE_IMMEDIATE (R452). -/
def execRdmaWriteImmediate (qpn : Nat) (rkey : BitVec 32) (addr : Nat) (data : List Byte) (imm : BitVec 32) (errs : List SectorErr) (s : State) : Res :=
  done (opRdmaImm s qpn rkey addr data imm errs)

/-- RDMA_READ (R451). -/
def execRdmaRead (qpn : Nat) (rkey : BitVec 32) (addr len : Nat) (errs : List SectorErr) (s : State) : Res :=
  done (opRdmaRead s qpn rkey addr len errs)

/-- RDMA_UNSUPPORTED_OP (R450). -/
def execRdmaUnsupportedOp (qpn : Nat) (_u : UnsupportedRdma) (s : State) : Res := done (opRdmaUnsupported s qpn)

/-- QP_RETRY_EXHAUSTED (R453). -/
def execQpRetryExhausted (qpn : Nat) (s : State) : Res := done (qpError s qpn)

/-- TLY_CLEAR (R226). -/
def execTlyClear (a : Agent) (d : Fin 8) (x : BitVec 4) (v : BitVec 64) (s : State) : Res := done (opTlyClear s a d x v)

/-- TLY_CLEAR_DONE (R226). -/
def execTlyClearDone (d : Fin 8) (x : BitVec 4) (s : State) : Res := done (opTlyClearDone s d x)

/-- CONGESTION_NOTIFICATION_PACKET (R450). -/
def execCongestionNotificationPacket (qpn : Nat) (s : State) : Res := done (opCnp s qpn)

/-- PRIORITY_FLOW_CONTROL_FRAME (R450). -/
def execPriorityFlowControlFrame (e : Fin 2) (pause : Bool) (s : State) : Res := done (opPfc s e pause)

/-- CXL_LINK_TRAINED (R417). -/
def execCxlLinkTrained (port : Fin 2) (width : BitVec 5) (rate : BitVec 6) (s : State) : Res :=
  done (opCxlTrained s port width rate)

end Sys2Proof.Machine
end

