-- ==== Sys2Proof/Machine/ExecMem.lean ====
section
/-! DEFINITION. The commands of the memory system (chapter 08), of snapshots (07) and of the clearing of a deck (01).
-/
namespace Sys2Proof.Machine
open Sys2Proof

/-- DECK_CLEAR_DONE (R44). -/
def execDeckClearDone (d : Fin 8) (s : State) : Res := done (opClearDone s d)

/-- SNAPSHOT_COPY_DONE (R294). -/
def execSnapshotCopyDone (d : Fin 8) (x : BitVec 4) (s : State) : Res := done (opSnapCopied s d x)

/-- SNAPSHOT_SHIP_DONE (R295). -/
def execSnapshotShipDone (d : Fin 8) (x : BitVec 4) (ok : Bool) (s : State) : Res := done (opSnapShipped s d x ok)

/-- CXL_MEM_READ (R301). -/
def execCxlMemRead (l : LdRef) (off len : Nat) (errs : List SectorErr) (s : State) : Res := done (opCxlRead s l off len errs)

/-- CXL_MEM_WRITE (R302). -/
def execCxlMemWrite (l : LdRef) (off : Nat) (data : List Byte) (errs : List SectorErr) (s : State) : Res :=
  done (opCxlWrite s l off data errs)

/-- ROW_COPY_DONE (R329): what waited goes on. -/
def execRowCopyDone (st : Fin 32) (ch : BitVec 4) (row : Nat) (s : State) : Res :=
  done (runHeld (opRowCopyDone s st ch.toNat row))

/-- REMAP_FLASH_WRITE (R332). -/
def execRemapFlashWrite (st : Fin 32) (s : State) : Res := done (opRemapFlash s st)

/-- PATROL_READ (R320). -/
def execPatrolRead (st : Fin 32) (errs : List SectorErr) (s : State) : Res := done (opPatrol s st errs)

/-- SCRUB_AGE_LATE (R321). -/
def execScrubAgeLate (st : Fin 32) (s : State) : Res := done (opScrubLate s st)

/-- READ_AGE_PROMOTE (R310). -/
def execReadAgePromote (st : Fin 32) (s : State) : Res := done (opReadAge s st)

/-- PARITY_ERROR (R314). -/
def execParityError (st : Fin 32) (ch : BitVec 4) (s : State) : Res := done (opParity s st ch.toNat)

/-- CHANNEL_RETRAIN_DONE (R315): what waited goes on. -/
def execChannelRetrainDone (st : Fin 32) (ch : BitVec 4) (ok : Bool) (s : State) : Res :=
  done (runHeld (opRetrainDone s st ch.toNat ok))

/-- STACK_TEMP_REPORT (R322). -/
def execStackTempReport (st : Fin 32) (temp : BitVec 8) (s : State) : Res := done (opTempReport s st temp)

/-- WARM_GRACE_EXPIRE (R323). -/
def execWarmGraceExpire (st : Fin 32) (s : State) : Res := done (opGraceExpire s st)

/-- STACK_SENSOR_LOST (R325). -/
def execStackSensorLost (st : Fin 32) (s : State) : Res := done (opSensorLost s st)

/-- SELF_REFRESH_ENTER (R319). -/
def execSelfRefreshEnter (st : Fin 32) (s : State) : Res := done (opSelfRefresh s st)

/-- MEM_CFG_WRITE (R327). -/
def execMemCfgWrite (a : Agent) (v : BitVec 64) (s : State) : Res := done (opMemCfg s a v)

end Sys2Proof.Machine
end

