-- ==== Sys2Proof/Machine/ExecMgmt.lean ====
section
/-! DEFINITION. The commands of the management plane (chapter 12). -/
namespace Sys2Proof.Machine
open Sys2Proof

/-- SET_ENDPOINT_ID (R458). -/
def execSetEndpointId (t : Transport) (eid : BitVec 8) (s : State) : Res := done (opSetEid s t eid)

/-- GET_ENDPOINT_ID (R458). -/
def execGetEndpointId (t : Transport) (s : State) : Res := done (opGetEid s t)

/-- GET_MCTP_VERSION_SUPPORT (R458). -/
def execGetMctpVersionSupport (t : Transport) (ty : BitVec 8) (s : State) : Res := done (opMctpVersion s t ty)

/-- GET_MESSAGE_TYPE_SUPPORT (R458). -/
def execGetMessageTypeSupport (t : Transport) (s : State) : Res := done (opTypeSupport s t)

/-- MCTP_UNSUPPORTED_TYPE (R457). -/
def execMctpUnsupportedType (t : Transport) (ty : BitVec 8) (s : State) : Res := done (opMctpOther s t ty)

/-- GET_PDR_REPOSITORY_INFO (R460). -/
def execGetPdrRepositoryInfo (t : Transport) (s : State) : Res := done (opPdrInfo s t)

/-- GET_PDR (R460). -/
def execGetPdr (t : Transport) (handle : BitVec 32) (s : State) : Res := done (opGetPdr s t handle)

/-- GET_SENSOR_READING (R461). -/
def execGetSensorReading (t : Transport) (i : SensorId) (s : State) : Res := done (opSensor s t i)

/-- GET_STATE_SENSOR_READINGS (R461). -/
def execGetStateSensorReadings (t : Transport) (i : StateSensorId) (s : State) : Res := done (opStateSensor s t i)

/-- GET_NUMERIC_EFFECTER_VALUE (R460). -/
def execGetNumericEffecterValue (t : Transport) (i : EffecterId) (s : State) : Res := done (opGetEffecter s t i)

/-- SET_NUMERIC_EFFECTER_VALUE (R461). -/
def execSetNumericEffecterValue (t : Transport) (i : EffecterId) (v : BitVec 16) (s : State) : Res :=
  done (opSetEffecter s t i v)

/-- POLL_FOR_PLATFORM_EVENT_MESSAGE (R459). -/
def execPollForPlatformEventMessage (t : Transport) (s : State) : Res := done (opPoll s t)

/-- GET_VERSION (R470). -/
def execGetVersion (t : Transport) (s : State) : Res := done (opSpdmVersion s t)

/-- GET_CAPABILITIES (R470). -/
def execGetCapabilities (t : Transport) (s : State) : Res := done (opSpdmCaps s t)

/-- NEGOTIATE_ALGORITHMS (R470). -/
def execNegotiateAlgorithms (t : Transport) (rsa3072 sha256 : Bool) (s : State) : Res := done (opSpdmAlgs s t rsa3072 sha256)

/-- GET_DIGESTS (R470). -/
def execGetDigests (t : Transport) (s : State) : Res := done (opSpdmDigests s t)

/-- GET_CERTIFICATE (R470). -/
def execGetCertificate (t : Transport) (slot : BitVec 8) (off len : BitVec 16) (s : State) : Res :=
  done (opSpdmCert s t slot off len)

/-- CHALLENGE (R470). -/
def execChallenge (t : Transport) (slot : BitVec 8) (_nonce : BitVec 256) (s : State) : Res := done (opChallenge s t slot)

/-- GET_MEASUREMENTS (R471). -/
def execGetMeasurements (t : Transport) (index : BitVec 8) (signed : Bool) (_nonce : BitVec 256) (s : State) : Res :=
  done (opMeasurements s t index signed)

/-- SPDM_UNSUPPORTED (R470). -/
def execSpdmUnsupported (t : Transport) (_code : BitVec 8) (s : State) : Res := done (opSpdmOther s t)

/-- QUERY_DEVICE_IDENTIFIERS (R482). -/
def execQueryDeviceIdentifiers (t : Transport) (s : State) : Res := done (opQueryIds s t)

/-- GET_FIRMWARE_PARAMETERS (R482). -/
def execGetFirmwareParameters (t : Transport) (s : State) : Res := done (opFwParams s t)

/-- REQUEST_UPDATE (R478). -/
def execRequestUpdate (t : Transport) (s : State) : Res := done (opRequestUpdate s t)

/-- PASS_COMPONENT_TABLE (R482). -/
def execPassComponentTable (t : Transport) (comp : BitVec 16) (s : State) : Res := done (opPassTable s t comp)

/-- UPDATE_COMPONENT (R482). -/
def execUpdateComponent (t : Transport) (comp : BitVec 16) (size : BitVec 32) (s : State) : Res :=
  done (opUpdateComponent s t comp size)

/-- REQUEST_FIRMWARE_DATA (R482). -/
def execRequestFirmwareData (data : List Byte) (last : Bool) (s : State) : Res := done (opFwData s data last)

/-- VERIFY_COMPLETE (R474). -/
def execVerifyComplete (s : State) : Res := done (opVerifyComplete s)

/-- ACTIVATE_FIRMWARE (R480). -/
def execActivateFirmware (t : Transport) (s : State) : Res := done (opActivateFw s t)

/-- GET_STATUS (R482). -/
def execGetStatus (t : Transport) (s : State) : Res := done (opGetStatus s t)

/-- CANCEL_UPDATE_COMPONENT (R482). -/
def execCancelUpdateComponent (t : Transport) (s : State) : Res := done (opCancelComponent s t)

/-- CANCEL_UPDATE (R478). -/
def execCancelUpdate (t : Transport) (s : State) : Res := done (opCancelUpdate s t)

/-- STAGE_TIMEOUT (R478). -/
def execStageTimeout (s : State) : Res := done (opStageTimeout s)

/-- FLASH_WRITE_DONE (R480). -/
def execFlashWriteDone (s : State) : Res := done (opFlashDone s)

/-- ENTDAA (R555). -/
def execEntdaa (addr : BitVec 7) (s : State) : Res := done (opEntdaa s addr)

end Sys2Proof.Machine
end

