-- ==== Sys2Proof/Machine/Router.lean ====
section
/-! DEFINITION. The router (chapter 09): when a port carries unscheduled traffic (R79, R80, R82), forwarding and ageing of Q, P and
M packets (R28, R50, R342, R363 to R365, R373). -/
namespace Sys2Proof.Machine
open Sys2Proof

/-- May unscheduled traffic leave by a port now: in open water, outside every sailing, in a TIME sailing after its exchange, in a COLL
sailing that is treated as open or has departed vacant; never in a VACANT one (R79, R80, R82, R94, R343, R351)? -/
def openWater (s : State) (p : Nat) : Bool :=
  match (portAt s p).sail with
  | some x => x.vacant && decide (x.from_ ≤ hallNs s / 5)
  | none =>
    match stepPos s with
    | none => true
    | some t =>
      match (activeRecords s p 0).find? (fun x => decide (x.start ≤ t) && decide (t < x.start + x.len)) with
      | none => true
      | some x =>
        if x.kind = 0 then false
        else if x.kind = 1 then !sendsSched s p
        else if x.kind = 3 then decide (x.start + 4 ≤ t)
        else true

/-- Can a packet at an input leave its buffer now: it sinks here, it is discarded for want of a port, or its output takes it? A deck
whose hub link has failed reaches no hub (R28, R29). -/
def canLeave (s : State) (r : RouteIn) (credits : Nat × Nat) (pk : Packet) : Bool :=
  (match r with
   | .deck d => !(deckAt s d.val).hubLinkFailed
   | _ => true) &&
  (pk.dst == ownModule s || (match nextHop s (inputPort r) pk credits with
    | (_, none) => true
    | (p, some _) => canSend s p && openWater s p))

/-- One packet of an input leaves, sinks here, or is discarded. -/
def forwardOne (s : State) (r : RouteIn) (credits : Nat × Nat) (pk : Packet) : State :=
  if pk.dst = ownModule s then modNet s (fun n => { n with arrived := n.arrived ++ [pk] })
  else match nextHop s (inputPort r) pk credits with
    | (p, none) => modPort s p (fun q => { q with downDrop := satInc q.downDrop })
    | (p, some vc) => sendOut s p { pk with vc := vc }

/-- The free credits of the + and the − output, which the spec does not let the model know, as free values. -/
def drawCredits (s : State) : (Nat × Nat) × State :=
  let a := draw 16 s
  let b := draw 16 a.2
  ((a.1.toNat, b.1.toNat), b.2)

/-- PACKET_FORWARD: of the packets that head their class and VC at an input and can leave, one does; which, where there are several,
is a free value (R363 to R365). (DESIGN CHOICE, log entry 43.) -/
def opForward (s : State) (r : RouteIn) : State :=
  let q := inputQueue s r
  let c := drawCredits s
  let go := (laneHeads q).filter (fun i => match q[i]? with
    | none => false
    | some x => canLeave s r c.1 x.pk)
  let f := draw 16 c.2
  match go[if go.length ≤ 1 then 0 else f.1.toNat % go.length]? with
  | none => s
  | some i =>
    match q[i]? with
    | none => s
    | some x => forwardOne (setInputQueue f.2 r (q.eraseIdx i)) r c.1 x.pk

/-- PACKET_AGE_OUT: the oldest packet of an input has waited more than 12 µs (R373). -/
def opAgeOut (s : State) (r : RouteIn) : State :=
  match inputQueue s r with
  | [] => s
  | x :: rest =>
    if clockNs s ≤ x.since + 12000 then s
    else
      let p := match inputPort r with
        | some p => p
        | none => (nextHop s none x.pk (0, 0)).1
      modPort (setInputQueue s r rest) p (fun q => { q with ageDrop := satInc q.ageDrop })

end Sys2Proof.Machine
end

