-- ==== Sys2Proof/Machine/ExecNet.lean ====
section
/-! DEFINITION. The commands of the optical engines, ports, packets and fences (chapters 01, 09) and of Churn (10). -/
namespace Sys2Proof.Machine
open Sys2Proof

/-- A packet command acts where its packet is of the command's kind and addressed to this module (R359, R361). -/
def onPacket (s : State) (pk : Packet) (cls : PClass) (ty : BitVec 4) (f : State) : State :=
  if pk.cls = cls ∧ pk.type = ty ∧ pk.dst = ownModule s then f else s

/-- CHUNK_READY with what ECC finds in the source that Churn reads: a loss gives the member MEM_POISON (R301, R406). -/
def opChunkReadErr (s : State) (k : CollRef) (p chunk : Nat) (errs : List SectorErr) : State :=
  match collAt s k, errs with
  | none, _ => s
  | some _, [] => opChunkReady s k p chunk
  | some c, _ =>
    let n := srcBytes (geoOf s c.deck) c.desc
    let s1 := onDeck s c.deck (eccRange (hallNs s) c.desc.src n errs)
    if memReadOk (deckAt s1 c.deck) c.desc.src n then opChunkReady s1 k p chunk
    else match collAt s1 k with
      | none => s1
      | some c => learn s1 c stMemPoison

/-- Does Churn's access to the buffers or the fingerprint entry of a collective wait (R315, R329)? -/
def collWaits (s : State) (k : CollRef) : Bool :=
  match collAt s k with
  | none => false
  | some c =>
    let x := deckAt s c.deck
    let g := geoOf s c.deck
    let h := (ctxAt x c.ctx.toNat).hold
    let waits := fun a n => decide (a + n ≤ memEnd) && rangeHeld x a n
    memUp x && (waits c.desc.src (srcBytes g c.desc) || waits c.desc.dst (dstBytes g c.desc) ||
      (c.desc.op == 7 && waits (h.base.toNat + h.size.toNat - 256 * h.fpSlots.toNat) (256 * h.fpSlots.toNat)))

/-- COLL_SLACK_EXPIRE: detector 4 (R531), for a collective that has not ended COLL_SLACK_US after its deadline (R405). -/
def opCollSlack (s : State) (k : CollRef) : State :=
  match collAt s k with
  | none => s
  | some c =>
    if c.done || c.silent || decide (hallNs s ≤ deadlineNs s c.desc.slot c.tstep + 1000 * s.rst.collSlackUs.toNat) then s
    else fireDetector s 4 (some c.deck) (some c.ctx) []

/-- ELS_FAIL (R344). -/
def execElsFail (n : Fin 4) (s : State) : Res := done (opElsFail s n)

/-- ELS_PAIR_LOST (R25). -/
def execElsPairLost (pair : Fin 2) (s : State) : Res := done (opPairLost s pair)

/-- ELS_INSERT (R465). -/
def execElsInsert (n : Fin 4) (rec : List Byte) (s : State) : Res := done (readEls s n rec)

/-- FABRIC_FLIT_UE (R31). -/
def execFabricFlitUe (d : Fin 8) (v : FabricVictim) (s : State) : Res := done (opFlitUe s d v)

/-- DECK_HUB_LINK_FAIL (R29). -/
def execDeckHubLinkFail (d : Fin 8) (s : State) : Res := done (opHubLinkFail s d)

/-- LANE_FAIL (R339). -/
def execLaneFail (p : Fin 9) (dir : Fin 2) (lane : Fin 34) (s : State) : Res := done (opLaneFail s p dir lane)

/-- PORT_LOSS (R342). -/
def execPortLoss (p : Fin 9) (s : State) : Res := done (opPortLoss s p)

/-- PORT_RETRY (R343). -/
def execPortRetry (p : Fin 9) (s : State) : Res := done (opPortRetry s p)

/-- TRAINING_TIMEOUT (R358). -/
def execTrainingTimeout (p : Fin 9) (s : State) : Res := done (opTrainingTimeout s p)

/-- QUARANTINE_EXPIRE (R352). -/
def execQuarantineExpire (p : Fin 9) (s : State) : Res := done (opQuarantineExpire s p)

/-- TRAIN_FRAME_RECEIVE (R353). -/
def execTrainFrameReceive (p : Fin 9) (f : TrainFrame) (s : State) : Res := done (opTrainFrame s p f)

/-- FIBRE_CONNECTOR_INSERT (R345). -/
def execFibreConnectorInsert (p : Fin 9) (rec : List Byte) (s : State) : Res := done (opFibreInsert s p rec)

/-- PKT_FRAME_RECEIVE (R348). -/
def execPktFrameReceive (p : Fin 9) (f : PktFrame) (s : State) : Res := done (opPktFrame s p f)

/-- NAK_RECEIVE (R348). -/
def execNakReceive (p : Fin 9) (seq : BitVec 16) (s : State) : Res := done (opNak s p seq)

/-- PACKET_FORWARD (R363). -/
def execPacketForward (r : RouteIn) (s : State) : Res := done (opForward s r)

/-- PACKET_AGE_OUT (R373). -/
def execPacketAgeOut (r : RouteIn) (s : State) : Res := done (opAgeOut s r)

/-- PKT_WRITE (R368). -/
def execPktWrite (pk : Packet) (s : State) : Res := done (onPacket s pk .q 0 (opRequest s pk []))

/-- PKT_READ (R131). -/
def execPktRead (pk : Packet) (errs : List SectorErr) (s : State) : Res := done (onPacket s pk .q 1 (opRequest s pk errs))

/-- PKT_ATOM (R311). -/
def execPktAtom (pk : Packet) (s : State) : Res := done (onPacket s pk .q 2 (opRequest s pk []))

/-- PKT_SIG (R145). -/
def execPktSig (pk : Packet) (s : State) : Res := done (onPacket s pk .q 3 (opRequest s pk []))

/-- PKT_RESEND (R399). -/
def execPktResend (pk : Packet) (s : State) : Res := done (onPacket s pk .q 4 (opRequest s pk []))

/-- PKT_ACK (R135). -/
def execPktAck (pk : Packet) (s : State) : Res := done (onPacket s pk .p 0 (opAck s pk))

/-- PKT_DATA (R131). -/
def execPktData (pk : Packet) (s : State) : Res := done (onPacket s pk .p 1 (opData s pk))

/-- PKT_VACANCY (R82). -/
def execPktVacancy (p : Fin 9) (pk : Packet) (s : State) : Res := done (onPacket s pk .m 0 (opVacancy s p pk))

/-- PKT_CONTROL (R365). -/
def execPktControl (pk : Packet) (s : State) : Res := done (onPacket s pk .m 1 (opControl s pk))

/-- PKT_MC_REPORT (R377). -/
def execPktMcReport (pk : Packet) (s : State) : Res := done (onPacket s pk .m 2 (opMcReport s pk))

/-- PKT_CHUNK (R362). -/
def execPktChunk (p : Fin 9) (pk : Packet) (s : State) : Res := done (if pk.cls = .s then opChunk s p pk else s)

/-- FENCE_WAIT_EXPIRE (R370). -/
def execFenceWaitExpire (n : Nat) (s : State) : Res := done (opFenceWaitExpire s n)

/-- FENCE_ENTRY_EXPIRE (R368). -/
def execFenceEntryExpire (n : Nat) (s : State) : Res := done (opFenceEntryExpire s n)

/-- FENCE_WINDOW_ABANDON (R366). -/
def execFenceWindowAbandon (c : CoreRef) (dst : BitVec 17) (s : State) : Res :=
  done (onDeck s c.deck (fun k => opWindowAbandon (coreEnv s c.deck) k c.core dst))

/-- RETRY_RESEND (R368). -/
def execRetryResend (c : CoreRef) (txn : BitVec 16) (s : State) : Res :=
  done (modDeck s c.deck (fun k => opRetryResend (coreEnv s c.deck) k c.core txn.toNat))

/-- REQUEST_TIMEOUT (R372). -/
def execRequestTimeout (c : CoreRef) (txn : BitVec 16) (s : State) : Res :=
  done (onDeck s c.deck (fun k => opRequestTimeout (coreEnv s c.deck) k c.core txn.toNat))

/-- LNK_RETRAIN (R340). -/
def execLnkRetrain (a : Agent) (p : Fin 9) (s : State) : Res := done (opRetrain s a p)

/-- LNK_DISABLE (R356). -/
def execLnkDisable (a : Agent) (p : Fin 9) (v : Bool) (s : State) : Res := done (opDisable s a p v)

/-- COLL_BUFFERS_GRANTED (R396). -/
def execCollBuffersGranted (k : CollRef) (s : State) : Res := done (if collWaits s k then s else opBuffersGranted s k)

/-- CHUNK_LANDED (R399). -/
def execChunkLanded (k : CollRef) (p : Fin 9) (chunk : BitVec 32) (s : State) : Res :=
  done (if collWaits s k then s else opChunkLanded s k p chunk.toNat)

/-- CHURN_RESEND_REQ (R399). -/
def execChurnResendReq (p : Fin 9) (n : Notice) (s : State) : Res := done (opResendReq (takeNotice s 0x0102 n.slot) p n)

/-- CHURN_ABORT (R408). -/
def execChurnAbort (p : Fin 9) (n : Notice) (s : State) : Res := done (opAbort (takeNotice s 0x0101 n.slot) p n)

/-- COLL_COMPLETE (R404). -/
def execCollComplete (k : CollRef) (s : State) : Res := done (if collWaits s k then s else opCollComplete s k)

/-- COLL_DEADLINE (R405). -/
def execCollDeadline (k : CollRef) (s : State) : Res := done (opCollDeadline s k)

/-- COLL_SLACK_EXPIRE (R531). -/
def execCollSlackExpire (k : CollRef) (s : State) : Res := done (opCollSlack s k)

/-- CHUNK_READY (R82). -/
def execChunkReady (k : CollRef) (p : Fin 9) (chunk : BitVec 32) (errs : List SectorErr) (s : State) : Res :=
  done (if collWaits s k then s else opChunkReadErr s k p chunk.toNat errs)

/-- FIBRE_CONNECTOR_REMOVE (R358). -/
def execFibreConnectorRemove (p : Fin 9) (s : State) : Res := done (opFibreRemove s p)

/-- LANE_SIGNAL (R358). -/
def execLaneSignal (p : Fin 9) (s : State) : Res := done (opLaneSignal s p)

/-- IDLE_FRAME_RECEIVE (R348). -/
def execIdleFrameReceive (p : Fin 9) (ack : BitVec 16) (s : State) : Res := done (opIdleFrame s p ack)

/-- FENCED_SEND_RELEASE (R371). -/
def execFencedSendRelease (c : CoreRef) (s : State) : Res :=
  done (onDeck s c.deck (fun k => opFencedRelease (coreEnv s c.deck) k c.core))

end Sys2Proof.Machine
end

