-- ==== Sys2Proof/Machine/Power.lean ====
section
/-! DEFINITION. Power, thermal limits and safety (chapter 13): feeds and eFuses (R485 to R490), the duty governor (R491 to
R494), Dock and Standby (R495 to R500), ramps (R501 to R504), die temperature (R506 to R509), lockstep, scratchpad scrub
(R514, R515); shadow checking and pen retirement (R18, R19, R257 to R262). -/
namespace Sys2Proof.Machine
open Sys2Proof

def setPower (s : State) (p : Power) : State := { s with power := p }
def pwrEvent (p : Power) (n : Nat) : Power := { p with events := setBit p.events n true }
def thmEvent (s : State) (n : Nat) : State :=
  { s with thermal := { s.thermal with events := setBit s.thermal.events n true } }

/-! ### The two feeds -/

/-- FEED_A_FAIL (R485). -/
def opFeedAFail (s : State) : State :=
  let p := s.power
  if p.activeFeed ≠ 1 then s
  else if p.efuseB then setPower s { p with activeFeed := 0, goodA := none }
  else setPower s (pwrEvent { p with activeFeed := 2, goodA := none } 0)

/-- Has a feed stood in its range for `ns`, by the samples taken (R486, R487)? -/
def feedGood (s : State) (since : Option Nat) (ns : Nat) : Bool :=
  match since with
  | some t => decide (t + ns ≤ clockNs s)
  | none => false

/-- FEED_A_RETURN (R486): feed A has stood between 50 V and 58 V for 100 ms. -/
def opFeedAReturn (s : State) : State :=
  let p := s.power
  if p.activeFeed = 2 ∧ p.efuseA = false ∧ feedGood s p.goodA 100000000 then setPower s (pwrEvent { p with activeFeed := 1 } 1) else s

/-- Times of an eFuse's trips in the last 60 minutes, with one more now. -/
def addTrip (s : State) (ts : List Nat) : List Nat :=
  (clockNs s :: ts.filter (fun t => decide (clockNs s < t + 3600000000000))).take 3

/-- EFUSE_TRIP (R485, R487, R490, R510): the third trip within 60 minutes latches it; with both open the module enters the
safe state. -/
def opEfuseTrip (s : State) (f : Feed) : State :=
  let p := s.power
  let isOpen := match f with
    | .a => p.efuseA
    | .b => p.efuseB
  if isOpen then s
  else
    let p1 := match f with
      | .a =>
        let ts := addTrip s p.tripTimesA
        let l := p.latchedA || decide (3 ≤ ts.length)
        pwrEvent { p with efuseA := true, tripTimesA := ts, latchedA := l } 4
      | .b =>
        let ts := addTrip s p.tripTimesB
        let l := p.latchedB || decide (3 ≤ ts.length)
        pwrEvent { p with efuseB := true, tripTimesB := ts, latchedB := l } 5
    let latched := match f with
      | .a => p1.latchedA
      | .b => p1.latchedB
    let p2 := if latched then pwrEvent p1 6 else p1
    let p3 := match f with
      | .a => if p2.activeFeed = 1 then
          (if p2.efuseB then { p2 with activeFeed := 0 } else pwrEvent { p2 with activeFeed := 2 } 0) else p2
      | .b => if p2.activeFeed = 2 then { p2 with activeFeed := if p2.efuseA then 0 else 1 } else p2
    let s1 := safetyAct (setPower s p3) 1
    if p3.efuseA && p3.efuseB then safeState s1 1 else s1

/-- EFUSE_RECLOSE (R487): an eFuse that is not latched closes once its feed has stood between 50 V and 58 V for 1 s. -/
def opEfuseReclose (s : State) (f : Feed) : State :=
  let p := s.power
  match f with
  | .a => if p.latchedA || !feedGood s p.goodA 1000000000 then s else setPower s { p with efuseA := false }
  | .b => if p.latchedB || !feedGood s p.goodB 1000000000 then s else setPower s { p with efuseB := false }

/-- The module goes Off as a power loss (R489). -/
def lossOff (s : State) : State :=
  let s1 := goOff s
  setPower s1 (pwrEvent s1.power 7)

/-- POWER_LOSS: both eFuses opened by trips is the safe state instead (R490). -/
def opPowerLoss (s : State) : State :=
  if s.power.moduleState = 2 ∨ (s.power.efuseA && s.power.efuseB) then s else lossOff s

/-- PRESENT_CHANGE (R466, R546): the tray record is read again; a released module goes Off. (DESIGN CHOICE, log entry 78.) -/
def opPresent (s : State) (high : Bool) (rec : List Byte) : State :=
  let m0 := { s.mgmt with presentHigh := high }
  if !s.power.island then setMgmt s m0
  else
    let ok := recordValid 3 rec
    let c := bytesCells rec
    let m := { m0 with trayValid := ok, bay := if ok then BitVec.ofNat 2 (readNat c 3 1) else 0,
                       traySerial := if ok then BitVec.ofNat 64 (readNat c 4 8) else 0 }
    let s1 := if ok then setMgmt s m else mgtEvent (setMgmt s m) 5
    if high ∧ s.power.moduleState ≠ 2 then lossOff s1 else s1

/-- STANDBY_POWER_GOOD (R467, R468, R512, R529): the PUF key is rebuilt; SAFE_n follows the latch. -/
def opStandbyGood (s : State) (puf : Bool) : State :=
  if s.power.island then s
  else
    let s1 := { s with power := { s.power with island := true, moduleState := 2 },
                       safety := { s.safety with safeN := s.safety.latched },
                       mgmt := { s.mgmt with pufOk := puf }, rst := { s.rst with phase := 1 } }
    if puf then s1 else mgtEvent s1 6

/-- What survives the loss of standby power: K7, and the queue of commands and clocks of the model (R512, R536). -/
def opStandbyLoss (s : State) : State :=
  let m := flashTorn s.mgmt
  let ps := s.ports.filterMap (fun e => if portKept e.2 = {} then none else some (e.1, portKept e.2))
  let ds := (List.range 8).foldl (fun d i =>
    let k := deckKept (clockNs s) false false (deckAt s i)
    mapSet {} d i { k with scrubRun := 0, scrubStart := [], scrubPos := [],
                           stks := k.stks.map (fun e => (e.1, { e.2 with remap := e.2.remapFlash })) }) []
  let mgmt : Mgmt := { counter := m.counter, sequence := m.sequence, recordObj := m.recordObj, record := m.record,
                       flashImage := m.flashImage, flashRecord := m.flashRecord, storedSeq := m.storedSeq,
                       writeMarker := m.writeMarker, presentHigh := m.presentHigh }
  { decks := ds, ports := ps, mgmt := mgmt, power := { moduleState := 2, island := false }, safety := { safeN := true },
    pending := s.pending, clock := s.clock, free := s.free, out := s.out }

/-- POWER_ON (R485, R489, R512, R546): main conversion starts, with a cold module reset of source 0. (DEDUCED,
log entry 70.) -/
def opPowerOn (s : State) : State :=
  let p := s.power
  if !p.island || p.moduleState ≠ 2 || s.safety.latched || s.mgmt.presentHigh || (p.efuseA && p.efuseB) then s
  else
    let feed : BitVec 2 := if !p.efuseA && decide (4600 ≤ p.voltsA.toNat) then 1 else if p.efuseB then 1 else 2
    moduleReset (setPower s { p with moduleState := 0, activeFeed := feed }) true false 0 0 false

/-- Since when a feed has stood between 50 V and 58 V, after one more sample of it (R486, R487). -/
def feedSince (now : Nat) (old : Option Nat) (v : BitVec 16) : Option Nat :=
  if 5000 ≤ v.toNat ∧ v.toNat ≤ 5800 then some (old.getD now) else none

/-- POWER_SAMPLE (R486 to R488, R491). -/
def opPowerSample (s : State) (w va ia vb ib : BitVec 16) : State :=
  if !s.power.island then s
  else
    let p := s.power
    let p1 := { p with sampleW := w, peakW := if p.peakW.toNat < w.toNat then w else p.peakW, voltsA := va, ampsA := ia, voltsB := vb,
                       ampsB := ib, winSum := p.winSum + w.toNat, winCount := p.winCount + 1,
                       goodA := feedSince (clockNs s) p.goodA va, goodB := feedSince (clockNs s) p.goodB vb }
    let v := if p.activeFeed = 1 then va.toNat else if p.activeFeed = 2 then vb.toNat else 0
    let p2 := if 4600 ≤ v ∧ v < 5000 then pwrEvent p1 2 else p1
    setPower s (if 5800 < v ∧ v ≤ 5900 then pwrEvent p2 3 else p2)

/-! ### The duty governor -/

/-- The governor's next duty, and whether the overrun applies (R493). -/
def nextDuty (p : Power) (avg cnt : Nat) : BitVec 5 :=
  if p.effW.toNat < avg then (if 10 ≤ cnt ∨ p.duty.toNat ≤ 4 then 4 else p.duty - 1)
  else if avg * 10 < p.effW.toNat * 9 ∧ 10 ≤ p.calm ∧ p.duty.toNat < 16 then p.duty + 1
  else p.duty

/-- POWER_WINDOW_END (R491, R493, R494). -/
def opWindowEnd (s : State) : State :=
  let p := s.power
  if p.moduleState = 2 then s
  else
    let avg := if p.winCount = 0 then 0 else p.winSum / p.winCount
    let above := decide (p.effW.toNat < avg)
    let cnt : BitVec 8 := if above then satInc p.overCnt else 0
    let d := nextDuty p avg cnt.toNat
    let changed := decide (d ≠ p.duty)
    let p1 := { p with avgW := BitVec.ofNat 16 avg, winSum := 0, winCount := 0, overCnt := cnt, duty := d,
                       changes := if changed then p.changes + 1 else p.changes, calm := if changed then 0 else min 10 (p.calm + 1),
                       effW := BitVec.ofNat 16 (min p.mgcW.toNat p.fwW.toNat) }
    let p2 := if above && decide (10 ≤ cnt.toNat) then pwrEvent p1 10 else p1
    setPower s (if above && p.duty == 4 then pwrEvent p2 9 else p2)

/-- A new limit; LIMIT_CHANGE where it differs (R494). -/
def setLimit (p : Power) (mgc fw : Nat) : Power :=
  let p1 := { p with mgcW := BitVec.ofNat 16 mgc, fwW := BitVec.ofNat 16 fw }
  if p1.mgcW = p.mgcW ∧ p1.fwW = p.fwW then p1 else pwrEvent p1 8

/-- POWER_LIMIT_WRITE (R35, R491, R517): firmware's limit stays at or below the management plane's. -/
def opLimitWrite (s : State) (a : Agent) (v : W64) : State :=
  let fw := clip 6000 15000 (bits v.toNat 16 16)
  match a with
  | .host _ => unsupported s a
  | .mgc => setPower s (setLimit s.power (clip 6000 15000 (bits v.toNat 0 16)) fw)
  | .fw => setPower s (setLimit s.power s.power.mgcW.toNat (min fw s.power.mgcW.toNat))

/-- THROTTLE_C_WRITE (R507, R517): the MGC alone. -/
def opThrottleWrite (s : State) (a : Agent) (v : W64) : State :=
  match a with
  | .mgc => { s with thermal := { s.thermal with throttleC := BitVec.ofNat 8 (clip 85 110 (bits v.toNat 0 8)) } }
  | _ => unsupported s a

/-! ### Dock and Standby -/

/-- No stream entry is running or published, and no collective is bound (R498). -/
def dockable (s : State) (d : Nat) : Bool :=
  let k := deckAt s d
  decide (k.power = .run) && decide (k.reset = .none) && k.launches.isEmpty &&
  k.streams.all (fun e => match e.2 with
    | some x => decide (x.run = .none) && x.pubs.isEmpty
    | none => true) &&
  !s.churn.colls.any (fun c => c.deck == d && !c.done)

/-- DOCK_REQ_WRITE (R498, R517). -/
def opDockReq (s : State) (a : Agent) (d : Nat) (v : Bool) : State :=
  if deckWriter s a d then
    modDeck s d (fun k =>
      let p := if v = false ∧ k.power = .dock then DeckPower.waking else k.power
      { k with dockReq := v, power := p })
  else unsupported s a

/-- DECK_DOCK (R497, R498). -/
def opDeckDock (s : State) (d : Nat) : State :=
  if (deckAt s d).dockReq && dockable s d then modDeck s d enterDock else s

/-- DECK_WAKE (R319, R497, R501): the deck is in Run, its stacks leave self-refresh, its rows are parked; the ages of its scratchpad passes restart (R515). -/
def opDeckWake (s : State) (d : Nat) : State :=
  let k := deckAt s d
  if k.power = .waking ∧ k.reset = .none then
    serveBinds (setDeck s d ((List.range 4).foldl (fun k i => modStack k i (fun x => { x with selfRefresh := false }))
      { k with power := .run, scrubRun := 0, scrubStart := [] }))
  else s

/-- DOCK_IDLE_EXPIRE (R499): a deck that has been unbound for DOCK_IDLE_MS since its clearing docks. -/
def opDockIdle (s : State) (d : Nat) : State :=
  let wanted := s.host.binds.any (fun j => j.bind.decks.getLsbD d)
  let due := decide ((deckAt s d).unboundAt + 1000000 * s.power.dockIdleMs.toNat ≤ clockNs s)
  if (deckLd s d).isNone && !(deckAt s d).clearing && !wanted && due && dockable s d then modDeck s d enterDock else s

/-- STANDBY_REQ_WRITE (R500, R517). -/
def opStandbyReq (s : State) (a : Agent) (v : Bool) : State :=
  match a with
  | .mgc =>
    let p := s.power
    setPower s { p with standbyReq := v, moduleState := if v = false ∧ p.moduleState = 1 then 0 else p.moduleState }
  | _ => unsupported s a

/-- MODULE_STANDBY_ENTER (R500): Standby clears K0 to K2 on every deck, what was written to docked decks among it (R10, R536). -/
def opStandbyEnter (s : State) : State :=
  if s.power.standbyReq ∧ s.power.moduleState = 0 ∧ (List.range 8).all (fun d => decide ((deckAt s d).power = .dock)) then
    let s1 := (List.range 8).foldl (fun s d => modDeck s d enterDock) s
    setPower s1 { s1.power with moduleState := 1 }
  else s

/-! ### Ramps -/

/-- The place of a deck in milking order (R501). -/
def milkPlace (d : Nat) : Nat := 2 * (d % 4) + d / 4

/-- Rows that wait, in the governor's order (R503). -/
def rampOrder (rows : List Nat) : List Nat :=
  ([0, 4, 1, 5, 2, 6, 3, 7].flatMap (fun d => (List.range 13).map (fun r => 16 * d + r))).filter (fun x => rows.contains x)

/-- RAMP_WINDOW (R503): at most 12 rows are admitted; the others wait on. -/
def opRampWindow (s : State) : State :=
  let now := (rampOrder s.power.waitRows).take 12
  let s1 := now.foldl (fun s x => modDeck s (x / 16) (fun k =>
    { k with admitted := setBit k.admitted (x % 16) true, rampRows := setBit k.rampRows (x % 16) false })) s
  setPower s1 { s1.power with waitRows := s1.power.waitRows.filter (fun x => !now.contains x) }

/-- ROW_PARK (R502): no matrix or vector instruction is on any pen of the row. -/
def opRowPark (s : State) (d row : Nat) : State :=
  let k := deckAt s d
  if k.cores.any (fun e => coreRow k e.1 == row && !(e.2.vq.isEmpty && e.2.mq.isEmpty)) then s
  else modDeck s d (fun k => { k with admitted := setBit k.admitted row false })

/-! ### Die temperature -/

/-- The hottest reading of a sample, with its sensor. -/
def hottest (ts : List (Option (BitVec 8))) : Option (Nat × BitVec 8) :=
  ts.zipIdx.foldl (fun b e => match e.1, b with
    | none, _ => b
    | some t, none => some (e.2, t)
    | some t, some x => if x.2.toInt < t.toInt then some (e.2, t) else b) none

/-- Readings above 115 °C, by sensor. -/
def hotNow (ts : List (Option (BitVec 8))) : List Bool :=
  ts.map (fun t => match t with
    | some x => decide (115 < x.toInt)
    | none => false)

/-- A die after a sample. -/
def dieAfter (x : Die) (throttle : Nat) (ts : List (Option (BitVec 8))) : Die :=
  let x1 := { x with samples := ts, hot := hotNow ts, above := x.above || anyTemp ts (fun t => decide ((throttle : Int) < t)),
                     notBelow := x.notBelow || anyTemp ts (fun t => decide ((throttle : Int) - 5 ≤ t)) }
  match hottest ts with
  | none => x1
  | some (i, t) => { x1 with temp := t, sensor := BitVec.ofNat 4 i, maxTemp := if x.maxTemp.toInt < t.toInt then t else x.maxTemp }

/-- DIE_TEMP_SAMPLE (R506, R508, R509). -/
def opDieSample (s : State) (n : Nat) (temps : List (Option (BitVec 8))) : State :=
  if s.power.moduleState = 2 then s
  else
    let ts := temps.take (if n = 8 then 8 else 16)
    let x : Die := mapGet {} s.thermal.dies n
    let failed := (ts.filter (fun t => t.isNone)).length
    let twice := ((hotNow ts).zip x.hot).any (fun e => e.1 && e.2)
    let s0 := { s with thermal := { s.thermal with dies := mapSet {} s.thermal.dies n (dieAfter x s.thermal.throttleC.toNat ts) } }
    let s1 := if n < 8 then noteHeat s0 n else s0
    let s2 := if failed = 0 then s1 else thmEvent s1 5
    if !(twice || decide (3 ≤ failed)) then s2
    else if n = 8 then safeState (safetyAct (thmEvent s2 2) 3) 3
    else if (deckAt s2 n).power = .shutdown then s2
    else deckShutdown (safetyAct (thmEvent s2 1) 2) n

/-- The rate of each sensor of a die over the window, none where either sample is missing. -/
def dieRates (x : Die) : List Int :=
  (x.samples.zip x.base).filterMap (fun e => match e.1, e.2 with
    | some a, some b => some (a.toInt - b.toInt)
    | _, _ => none)

/-- The thermal duty of a deck's die after a window (R507). -/
def thermalDuty (x : Die) : BitVec 5 :=
  if x.above then (if x.duty.toNat ≤ 4 then 4 else x.duty - 1)
  else if x.notBelow = false ∧ x.duty.toNat < 16 then x.duty + 1
  else x.duty

/-- A die after a window boundary. -/
def dieBoundary (n : Nat) (x : Die) : Die :=
  let top := (dieRates x).foldl max (-128)
  { x with duty := if n = 8 then x.duty else thermalDuty x,
           rate := if (dieRates x).isEmpty then 0 else BitVec.ofInt 8 (min 127 top), base := x.samples, above := false, notBelow := false }

/-- THERMAL_WINDOW_END (R507, R509). -/
def opThermalEnd (s : State) : State :=
  if s.power.moduleState = 2 then s
  else
    let dies := (List.range 9).map (fun n => (n, mapGet ({} : Die) s.thermal.dies n))
    let fast := (dies.map (fun e => ((dieRates e.2).filter (fun r => decide (5 < r))).length)).sum
    let fell := dies.any (fun e => decide ((dieBoundary e.1 e.2).duty.toNat < e.2.duty.toNat))
    let cons : BitVec 2 := if 3 ≤ fast then satInc s.thermal.consec else 0
    let t := { s.thermal with dies := dies.foldl (fun m e => mapSet {} m e.1 (dieBoundary e.1 e.2)) [],
                              count := BitVec.ofNat 8 (min 255 fast), consec := cons }
    let s1 := { s with thermal := t }
    let s2 := if fell then thmEvent s1 0 else s1
    let s3 := if fast = 0 then s2 else thmEvent s2 3
    if cons = 3 then safeState (safetyAct (thmEvent s3 4) 5) 5 else s3

/-! ### Lockstep and the scratchpad scrubber (R514, R515) -/

/-- CMDP_LOCKSTEP_DIVERGE: the CMDP stops, its commands end with BUSY_RESET, detector 10 fires. -/
def opLockstep (s : State) : State :=
  let s1 := { s with safety := { s.safety with diverge := satInc s.safety.diverge } }
  let s2 := modRst (busyAll (safetyAct s1 7)) (fun r => { r with cmdpStopped := true })
  fireDetector s2 10 none none []

/-- SPAD_SCRUB_UNIT: the next unit of a core's scratchpad is read; an uncorrectable one stays poisoned and fires detector 7. -/
def opSpadScrub (s : State) (d i : Nat) (r : SpadFinding) : State :=
  let k := deckAt s d
  let u := mapGet 0 k.scrubPos i
  let core := match r with
    | .uncorrectable => { coreAt k i with spadBad := mapSet false (coreAt k i).spadBad u true }
    | .corrected => { coreAt k i with spadCe := (coreAt k i).spadCe + 1 }
    | .clean => coreAt k i
  let done' := decide (u + 1 = 8192)
  let k1 := setCore k i core
  let s1 := setDeck s d { k1 with scrubPos := mapSet 0 k1.scrubPos i (if done' then 0 else u + 1),
                                  scrubStart := if done' then mapSet 0 k1.scrubStart i k1.scrubRun else k1.scrubStart }
  match r with
  | .uncorrectable => fireDetector s1 7 (some d) core.lastCtx [i]
  | _ => s1

/-- SPAD_SCRUB_LATE: safety function 10 reports a pass older than 10 min (R510, R515). -/
def opSpadLate (s : State) (d : Nat) : State := if 600 < spadAge (deckAt s d) then safetyAct s 10 else s

/-! ### Shadow checking (R257 to R262) and pen retirement (R18, R19) -/

/-- The DPU pair of check `n` (R258). -/
def shadowPair (n : Nat) : Nat × Nat := (n % 64, (n % 64 + 1 + n / 64 % 63) % 64)

/-- The physical pens that the flash copy of the map uses. -/
def pensUsed (k : Deck) : List Nat := (List.range 200).map (fun p => mapGet p k.penFlash p)

/-- Firmware retires logical pen `p`: the lowest free spare takes its place at the next compute reset, or the deck goes out
of service (R18, R19). (DEDUCED, log entry 3.) (DESIGN CHOICE, log entry 20.) (DEDUCED, log entry 71.) -/
def retirePen (p : Nat) (k : Deck) : Deck :=
  let old := mapGet p k.penFlash p
  if old ≠ physPen k p then k
  else
    let bad := k.pensBad ++ [old]
    match (List.range 208).find? (fun x => !(pensUsed k).contains x && !bad.contains x) with
    | some x => { k with pensBad := bad, penOlder := k.penFlash, penFlash := mapInsert k.penFlash p x }
    | none => { k with pensBad := bad, outOfService := true }

/-- One record of the arithmetic ring (R262, R516). -/
def arithRecord (s : State) (d p : Nat) (x : ShadowMiss) (n : Nat) (clean : Nat) : ArithRec :=
  let pr := shadowPair n
  let f := match x.verdict with
    | .second => pr.2
    | _ => pr.1
  let both := match x.verdict with
    | .both => true
    | _ => false
  { word := packWord [(0, d), (3, p), (11, physPen (deckAt s d) p), (19, x.slice.val), (23, f), (29, if both then pr.2 else 0),
      (35, boolNat both), (36, 1)],
    miss := BitVec.ofNat 64 (hallNs s), clean := BitVec.ofNat 64 clean }

/-- Put a record into the ring. -/
def pushArith (s : State) (r : ArithRec) : State :=
  let f := s.safety
  { s with safety := { f with arith := mapSet {} f.arith (f.written.toNat % 16) r, written := satInc f.written } }

/-- ARITH_CHECK on a pen (R261): the lowest core still running each launch there records it. (DEDUCED, log entry 71.) -/
def arithFault (p : Nat) (k : Deck) : Deck :=
  let live := (List.range 16).map (fun j => 16 * p + j) |>.filter (fun i =>
    (coreAt k i).launch.isSome && decide ((coreAt k i).run ≠ .ended) && decide ((coreAt k i).run ≠ .stopped))
  let ls := (live.filterMap (fun i => (coreAt k i).launch)).eraseDups
  ls.foldl (fun k l => match live.find? (fun i => (coreAt k i).launch == some l) with
    | some i => coreFault k i stArithCheck 2 (coreAt k i).matPc
    | none => k) k

/-- The isolation wrapper of a pen that has been retired closes on it: what its cores run ends with ISOLATED (R18, R157). -/
def fencePen (p : Nat) (k : Deck) : DeckRes :=
  if k.pensBad.contains (physPen k p) then
    thenDeck (eachDeck isolateCore (penCores p) k) endFaulted
  else (k, [])

/-- May pens be checked now: in a SHADOW window, or at any time while no timetable is armed (R257, R259)? -/
def shadowOn (s : State) (d : Nat) : Bool :=
  let k := deckAt s d
  decide (k.power = .run) && decide (k.reset = .none) && !k.outOfService &&
  (!s.tt.armed || decide (hallNs s < k.shadowUntil))

/-- SHADOW_CHECK: one check cycle of a pen, with the slices whose comparison differs. -/
def opShadow (s : State) (d p : Nat) (miss : List ShadowMiss) : State :=
  if !shadowOn s d then s
  else
    let k := deckAt s d
    let sh : PenShadow := mapGet {} k.shadow p
    let n := sh.check
    let bad := fun j => miss.any (fun x => x.slice.val == j)
    let dpu := (shadowPair n).1
    let clean := ((List.range 16).filter (fun j => !bad j)).foldl (fun m j => mapSet 0 m (64 * j + dpu) (hallNs s)) sh.clean
    let recs := miss.map (fun x =>
      let f := match x.verdict with
        | .second => (shadowPair n).2
        | _ => dpu
      arithRecord s d p x n (mapGet 0 sh.clean (64 * x.slice.val + f)))
    let sh' : PenShadow := { check := n + 1, swept := sh.swept || decide (n % 64 = 63), clean := clean }
    let s1 := setDeck s d { k with shadow := mapSet {} k.shadow p sh' }
    if miss.isEmpty then s1
    else
      let s2 := safetyAct (recs.foldl pushArith s1) 6
      let cores := (List.range 16).map (fun j => 16 * p + j) |>.filter (fun i => (coreAt k i).launch.isSome)
      let s3 := applyRes s2 d (fencePen p (retirePen p (arithFault p (deckAt s2 d))))
      fireDetector s3 6 (some d) ((cores.head?).bind (fun i => (coreAt k i).lastCtx)) cores

end Sys2Proof.Machine
end

