-- ==== Sys2Proof/Machine/ExecPower.lean ====
section
/-! DEFINITION. The commands of power, thermal limits and safety (chapter 13). -/
namespace Sys2Proof.Machine
open Sys2Proof

/-- PRESENT_CHANGE (R546). -/
def execPresentChange (high : Bool) (rec : List Byte) (s : State) : Res := done (opPresent s high rec)

/-- STANDBY_POWER_GOOD (R467). -/
def execStandbyPowerGood (pufOk : Bool) (s : State) : Res := done (opStandbyGood s pufOk)

/-- STANDBY_POWER_LOSS (R512). -/
def execStandbyPowerLoss (s : State) : Res := done (opStandbyLoss s)

/-- FEED_A_FAIL (R485). -/
def execFeedAFail (s : State) : Res := done (opFeedAFail s)

/-- FEED_A_RETURN (R486). -/
def execFeedAReturn (s : State) : Res := done (opFeedAReturn s)

/-- EFUSE_TRIP (R487). -/
def execEfuseTrip (feed : Feed) (s : State) : Res := done (opEfuseTrip s feed)

/-- EFUSE_RECLOSE (R487). -/
def execEfuseReclose (feed : Feed) (s : State) : Res := done (opEfuseReclose s feed)

/-- POWER_LOSS (R489). -/
def execPowerLoss (s : State) : Res := done (opPowerLoss s)

/-- POWER_WINDOW_END (R493). -/
def execPowerWindowEnd (s : State) : Res := done (opWindowEnd s)

/-- POWER_LIMIT_WRITE (R494). -/
def execPowerLimitWrite (a : Agent) (v : BitVec 64) (s : State) : Res := done (opLimitWrite s a v)

/-- THROTTLE_C_WRITE (R507). -/
def execThrottleCWrite (a : Agent) (v : BitVec 64) (s : State) : Res := done (opThrottleWrite s a v)

/-- DOCK_REQ_WRITE (R498). -/
def execDockReqWrite (a : Agent) (d : Fin 8) (v : Bool) (s : State) : Res := done (opDockReq s a d v)

/-- DECK_DOCK (R497). -/
def execDeckDock (d : Fin 8) (s : State) : Res := done (opDeckDock s d)

/-- DECK_WAKE (R497). -/
def execDeckWake (d : Fin 8) (s : State) : Res := done (opDeckWake s d)

/-- DOCK_IDLE_EXPIRE (R499). -/
def execDockIdleExpire (d : Fin 8) (s : State) : Res := done (opDockIdle s d)

/-- STANDBY_REQ_WRITE (R500). -/
def execStandbyReqWrite (a : Agent) (v : Bool) (s : State) : Res := done (opStandbyReq s a v)

/-- MODULE_STANDBY_ENTER (R500). -/
def execModuleStandbyEnter (s : State) : Res := done (opStandbyEnter s)

/-- RAMP_WINDOW (R503). -/
def execRampWindow (s : State) : Res := done (opRampWindow s)

/-- ROW_PARK (R502). -/
def execRowPark (d : Fin 8) (row : Fin 13) (s : State) : Res := done (opRowPark s d row)

/-- DIE_TEMP_SAMPLE (R508). -/
def execDieTempSample (n : Fin 9) (temps : List (Option (BitVec 8))) (s : State) : Res := done (opDieSample s n temps)

/-- THERMAL_WINDOW_END (R507). -/
def execThermalWindowEnd (s : State) : Res := done (opThermalEnd s)

/-- CMDP_LOCKSTEP_DIVERGE (R514). -/
def execCmdpLockstepDiverge (s : State) : Res := done (opLockstep s)

/-- SPAD_SCRUB_UNIT (R515). -/
def execSpadScrubUnit (c : CoreRef) (r : SpadFinding) (s : State) : Res := done (opSpadScrub s c.deck c.core r)

/-- SPAD_SCRUB_LATE (R510). -/
def execSpadScrubLate (d : Fin 8) (s : State) : Res := done (opSpadLate s d)

/-- POWER_SAMPLE (R491). -/
def execPowerSample (watts va ia vb ib : BitVec 16) (s : State) : Res := done (opPowerSample s watts va ia vb ib)

/-- POWER_ON (R489). -/
def execPowerOn (s : State) : Res := done (opPowerOn s)

end Sys2Proof.Machine
end

