-- ==== Sys2Proof/Machine/Resets.lean ====
section
/-! DEFINITION. The commands of chapter 14: the SWRST bits (R523), the end and the failure of a reset (R527, R531), MRST_n
(R524), the release order (R529, R540), the detectors that time fires (R531), the power-cycle request (R532) and the
Slack-water reset (R538 to R541). -/
namespace Sys2Proof.Machine
open Sys2Proof

/-! ### Firmware's reset bits (R523, R542) -/

/-- Run `f` for CMDP firmware; nobody else writes the SWRST registers. -/
def fwOnly (s : State) (a : Agent) (f : State) : State :=
  match a with
  | .fw => f
  | _ => unsupported s a

def opSwrst (s : State) (a : Agent) (x : Scope) (cores : List Nat) : State := fwOnly s a (applyReset s x cores 6 0 false none)

/-- SWRST_ENGINE names one core of the deck, or with 0xFFF every core of the context. -/
def opSwrstEngine (s : State) (a : Agent) (d : Fin 8) (x : BitVec 4) (core : BitVec 12) : State :=
  opSwrst s a (.engine d x (core.setWidth 16)) (if core.toNat < 3200 then [core.toNat] else [])

def opSwrstEth (s : State) (a : Agent) (e : Nat) : State := fwOnly s a (resetEth s e)

/-! ### The end of a reset, and its failure -/

/-- RESET_COMPLETE (R527): a module reset ends with the release order instead. Accesses that waited for a channel or row that the
reset took away meet the closed wrapper first. -/
def opResetComplete (s : State) (x : Scope) : State :=
  match x with
  | .module => s
  | _ => serveBinds (finishReset (runHeld s) x)

/-- The time within which a scope is ready, in ns (R519, R526). -/
def limitNs (x : Scope) : Nat :=
  match x with
  | .ctx _ _ => 20000
  | .engine _ _ _ => 50000
  | .compute _ => 2000000
  | .full _ => 250000000
  | .module => 300000000
  | .cmdp => 100000000

/-- RESET_TIME_LIMIT (R531): the reset has not become ready within its limit; it fails and the next level up applies. Of a CMDP
restart, CMDP_RESTART_TIMEOUT says so (R526). -/
def opResetLimit (s : State) (x : Scope) : State :=
  match s.rst.running.find? (fun r => decide (r.scope = x)) with
  | none => s
  | some e =>
    if clockNs s < e.since + limitNs x ∨ x = .cmdp then s
    else if s.rst.maxAuto.toNat < scopeLevel x + 1 then rstEvent s 2
    else escalate (modRst s (fun r => { r with running := r.running.filter (fun y => decide (y.scope ≠ x)) })) x e.detector

/-- CMDP_RESTART_TIMEOUT (R526): a restart not complete within 100 ms is followed by a module reset at level 5, whatever MAX_AUTO
holds. -/
def opCmdpTimeout (s : State) : State :=
  match s.rst.running.find? (fun r => decide (r.scope = .cmdp)) with
  | none => s
  | some e => if clockNs s < e.since + limitNs .cmdp then s else rstEvent (moduleReset s false false 7 e.detector true) 1

/-! ### MRST_n (R524) -/

/-- Is a pulse of this width honoured? From 1 µs yes, below 500 ns no, between the two it is open. (DESIGN
CHOICE, log entry 76.) -/
def mrstSeen (s : State) (ns : Nat) : Bool × State :=
  if 1000 ≤ ns then (true, s)
  else if ns < 500 then (false, s)
  else
    let r := draw 1 s
    (r.1 == 1, r.2)

/-- MRST: the pin has been low for `ns`, and stays low or rises now. The release order starts at the rising edge. -/
def opMrst (s : State) (low : Bool) (ns : Nat) : State :=
  if s.safety.latched || !s.power.island then s
  else if s.rst.mrstLow then modRst s (fun r => { r with mrstLow := low })
  else
    let q := mrstSeen s ns
    if q.1 then modRst (moduleReset q.2 true false 1 0 false) (fun r => { r with mrstLow := low }) else q.2

/-! ### The release order (R529) -/

/-- Which copy of item `i` of a deck's tables option loading applies (R477): 0 the newest, 1 the older, 2 none. Item 0 is
the pen map, item k + 1 the remap table of stack k. The bits of `w` say which HMACs fail. -/
def tableCopy (pufOk : Bool) (w : BitVec 10) (i : Nat) : Nat :=
  if pufOk && !w.getLsbD (2 * i) then 0 else if !w.getLsbD (2 * i + 1) then 1 else 2

/-- The copy of a table that its number names; copy 2 is the empty table. -/
def pickCopy {α : Type} (n : Nat) (newest older : SMap α) : SMap α := if n = 0 then newest else if n = 1 then older else []

/-- Option loading of one deck's tables (R17, R332, R477). -/
def loadTables (pufOk : Bool) (w : BitVec 10) (k : Deck) : Deck :=
  let pens := pickCopy (tableCopy pufOk w 0) k.penFlash k.penOlder
  { k with penMap := pens, penFlash := pens, maint := (List.range 5).any (fun i => tableCopy pufOk w i == 2),
           stks := k.stks.map (fun e =>
             let n := tableCopy pufOk w (e.1 + 1)
             let t := pickCopy n e.2.remapFlash e.2.remapOlder
             (e.1, { e.2 with remap := if n = 0 then e.2.remap else t, remapFlash := t })) }

/-- Option loading of the pen map and the remap tables. Which HMACs fail is a free value. (DESIGN CHOICE, log entry 69.) -/
def optionTables (s : State) : State :=
  (List.range 8).foldl (fun s d =>
    let r := draw 10 s
    modDeck r.2 d (loadTables s.mgmt.pufOk r.1)) s

/-- Release of one deck (R501): in service, it runs with its rows parked. (DEDUCED, log entry 55.) -/
def releaseDeck (s : State) (d : Nat) : State :=
  modDeck s d (fun k => if k.outOfService then k else { k with reset := .none, power := .run })

/-- Release of the links: every port that is plugged trains. -/
def releaseLinks (s : State) : State :=
  (List.range 9).foldl (fun s p => if (portAt s p).plugged then startTraining s p else s) s

def setPhase (s : State) (n : BitVec 4) : State := modRst s (fun r => { r with phase := n })

/-- RELEASE_STEP: the block of the running step is released. The recovery loader leaves out decks, links and Ethernet
(R484); a Slack-water reset leaves out CXL (R541). (DEDUCED, log entry 70.) -/
def opRelease (s : State) (boot : BootCheck) : State :=
  if s.rst.hold || s.rst.mrstLow then s
  else match s.rst.phase.toNat with
    | 1 => setPhase s (if s.power.moduleState = 2 then 0 else 2)
    | 2 => setPhase (optionTables (bootRecord (bootImage s boot) boot)) 3
    | 3 => setPhase { s with htu := { s.htu with t := 0 } } (if s.mgmt.recovery then 7 else 4)
    | 4 => setPhase (if s.rst.slack then s else (List.range 8).foldl trainChannels s) 5
    | 5 => setPhase (serveBinds ((List.range 8).foldl releaseDeck s)) 6
    | 6 => releaseLinks (setPhase s (if s.rst.slack then 8 else 7))
    | 7 => setPhase s 8
    | 8 => finishReset (setPhase s 0) .module
    | _ => s

/-! ### Detectors that time fires -/

/-- WATCHDOG_EXPIRE (R154, R531): a core that runs a kernel and is not in WAIT or WAITT has made no progress. -/
def opWatchdog (s : State) (d i : Nat) : State :=
  let c := coreAt (deckAt s d) i
  let live := match c.run with
    | .ready | .fence _ | .fenceSource | .result _ _ | .endWait => true
    | .idle | .object | .time _ _ | .ended | .stopped => false
  if c.launch.isSome && live then fireDetector s 1 (some d) c.lastCtx [i] else s

/-- SHUTDOWN_RECOVERY (R531): detector 11, once the deck has been cool for 10 s. A deck out of service stays so. -/
def opShutdownRecovery (s : State) (d : Nat) : State :=
  let k := deckAt s d
  if k.power = .shutdown && !k.outOfService && deckCool s d && decide (k.hotAt + 10000000000 ≤ clockNs s) then fireDetector s 11 (some d) none [] else s

/-- PWRCYC_TIMEOUT (R532): standby is still there PWRCYC_WAIT_MS after the request. -/
def opPwrcycTimeout (s : State) : State :=
  if s.rst.pwrcycReq && s.power.island && decide (s.rst.pwrcycAt + 1000000 * s.rst.pwrcycWaitMs.toNat ≤ clockNs s) then
    rstEvent (moduleReset (modRst s (fun r => { r with pwrcycReq := false })) true false 12 0 false) 3
  else s

/-! ### The Slack-water reset (R538 to R541) -/

/-- Mover or Churn traffic in flight on a deck: requests it waits for, packets of it or to it, collectives, chunks in its
pails (R539). -/
def deckTraffic (s : State) (d : Nat) : Bool :=
  let k := deckAt s d
  k.cores.any (fun e => !e.2.xq.isEmpty || !e.2.txns.isEmpty) || !k.txq.isEmpty ||
  s.churn.colls.any (fun c => c.deck == d && !c.done) || s.churn.landed.any (fun e => e.2.delivered && e.2.got != 0) ||
  (s.net.arrived ++ s.net.fenceHold.map (·.pk)).any (fun p => p.dstDeck.toNat == d)

/-- Record the outcome of a write of RST.LEGACY_WARM. -/
def legacyStatus (s : State) (st : Status) : State := modRst s (fun r => { r with legacyStatus := st })

/-- RST_LEGACY_WARM. (DEDUCED, log entry 77.) -/
def opLegacyWarm (s : State) (a : Agent) (key : BitVec 16) : State :=
  match a with
  | .host l =>
    let mine := (ldAt s (ldKey l)).legacyWindow
    if !mayRead s a || (legacyOpen s && !mine) then unsupported s a
    else if key ≠ 0x5EA1 || !mine then legacyStatus s stBadParam
    else if 1 < (boundLds s).length then legacyStatus s stNotBound
    else if s.mgmt.stageState = 4 then legacyStatus s stBusyReset
    else if (List.range 8).any (deckTraffic s) then legacyStatus (rstEvent (moduleReset s true false 9 0 false) 4) stBusyReset
    else legacyStatus (moduleReset s false true 8 0 false) stGood
  | _ => unsupported s a

/-- LEGACY_WINDOW_EXPIRE (R538): each window closes 1 ms after the reply that opened it. -/
def opLegacyExpire (s : State) : State :=
  s.host.lds.foldl (fun s e => modLd s e.1 (fun l =>
    if l.legacyAt + 1000000 ≤ clockNs s then { l with legacyWindow := false } else l)) s

end Sys2Proof.Machine
end

