-- ==== Sys2Proof/Machine/RegWrite.lean ====
section
/-! DEFINITION. Writes of the module registers that have no row of their own, and the clearing of read-clear fields (R12 and
the access rules of R34, R35, R455, R51, R302, R420, R445, R449, R517, R518, R535, R542, R557 and the register sections). A write
of a register that has a row of its own goes to that row's operation. -/
namespace Sys2Proof.Machine
open Sys2Proof

/-! ### Access -/

/-- Banked registers: each LD has its own copy, and nobody else has one (chapter 11). -/
def banked (r : Reg) : Bool :=
  match r with
  | .cmdId | .cmdCfg | .cmdCtl | .cmdViol | .cmdCrTail _ | .cmdCrHead _ | .cmdSrTail _ | .cmdSrHead _ | .cmdEvTail | .cmdEvHead
  | .cmdEvLost | .cmdEthErr | .cmdTmo _ | .ringMem _ | .hdmDecoder => true
  | _ => false

/-- The mailbox of an MBX register. -/
def mbxOf (r : Reg) : Option Nat :=
  match r with
  | .mbxPtr m | .mbxLt m | .mbxRing m | .mbxStat m => some m.val
  | .mbxDcfg d => some d.val
  | _ => none

/-- May an agent read a register? (DEDUCED, log entry 75.) -/
def mayReadReg (s : State) (a : Agent) (r : Reg) : Bool :=
  mayReach s a (regReach r) && (!banked r || (agentLd a).isSome) && (match a, mbxOf r, r with
    | .mgc, some _, .mbxStat _ => true
    | .mgc, some _, .mbxDcfg _ => true
    | .mgc, some _, _ => false
    | _, _, _ => true)

/-! ### Read-clear fields -/

/-- Clear the read-clear fields of a register that agent `a` has read. Reading either word of a poison-log entry marks the
entry read. -/
def clearRc (s : State) (a : Agent) (r : Reg) : State :=
  match r with
  | .ttTxStat p => modPort s p (fun q => { q with tt := { q.tt with vacantSent := 0, standbyUsed := 0, slotEnded := 0 } })
  | .ttRxStat p => modPort s p (fun q => { q with tt := { q.tt with vacantRecv := 0, tagDrop := 0, unexpected := 0 } })
  | .ttDstat d => modDeck s d (fun k => { k with missed := 0 })
  | .tlyStat d => modDeck s d (fun k => { k with binSat := 0 })
  | .holdHwm d c => modDeck s d (fun k => setHold k c.toNat { (ctxAt k c.toNat).hold with hwm := 0 })
  | .holdDrop d => modDeck s d (fun k => { k with gateDrop := 0 })
  | .memPlogLo n | .memPlogHi n =>
    if plogSeen s a n then { s with mem := { s.mem with plogUnread := mapSet false s.mem.plogUnread n false } } else s
  | .memEcc n => modStk s n (fun x => { x with ce := 0, ue := 0 })
  | .memLink n => modStk s n (fun x => { x with parityRetry := 0, retrain := 0, rereadOk := 0, partialDrop := 0 })
  | .memPrio n => modStk s n (fun x => { x with p3Demoted := 0, aged := 0 })
  | .memTherm n => modStk s n (fun x => { x with warmEntries := 0, hotEntries := 0, maxTemp := 0 })
  | .lnkFtrk => modNet s (fun n => { n with refused := 0 })
  | .lnkFdrop => modNet s (fun n => { n with fenceDiscard := 0, lateReply := 0 })
  | .lnkErr p => modPort s p (fun q => { q with crcErr := 0, replay := 0, fecUncorr := 0, violation := 0 })
  | .lnkDrop p => modPort s p (fun q => { q with ageDrop := 0, downDrop := 0, mcFenced := 0, tagDiscard := 0 })
  | .chnStat => { s with churn := { s.churn with digestDrop := 0, stepDrop := 0, abortSent := 0, abortLate := 0 } }
  | .chnResend => { s with churn := { s.churn with requested := 0, recovered := 0 } }
  | .chnSkim d c => modDeck s d (fun k => setCtx k c.toNat { ctxAt k c.toNat with skimSat := 0, skimFlush := 0 })
  | .cmdViol => modLd s (bankKey a) (fun l => { l with viol := 0 })
  | .cmdEvLost => modLd s (bankKey a) (fun l => { l with evLost := 0 })
  | .cmdEthErr => modLd s (bankKey a) (fun l => { l with nakSent := 0, immBad := 0, qpErr := 0 })
  | .cmdCtxDrop d => modDeck s d (fun k => { k with ctxDrop := 0 })
  | .mbxStat m => modMbx s m (fun b => { b with full := 0, downErr := 0 })
  | .lckIgnored => { s with host := { s.host with lckIgnored := 0 } }
  | .pwrInput => setPower s { s.power with peakW := 0 }
  | .pwrGov => setPower s { s.power with changes := 0 }
  | .thmDie n => { s with thermal := { s.thermal with dies := mapMod {} s.thermal.dies n (fun x => { x with maxTemp := 0 }) } }
  | .safLockstep => { s with safety := { s.safety with diverge := 0 } }
  | .rstDetect n => modRst s (fun x => { x with detCount := mapSet 0 x.detCount n 0 })
  | _ => s

/-- Events that no command reports are added to their counters when these are read: uncorrectable FEC codewords, and, of the
priority-3 reads served since, those beyond P3_BUDGET (R309): all where the budget is 0. How many there were is a free value
otherwise. (DESIGN CHOICE, log entry 82.) -/
def countUnseen (s : State) (r : Reg) : State :=
  match r with
  | .memPrio n =>
    let v := draw 32 s
    let none' := s.mem.cfg.extractLsb' 24 4 == 0
    modStk v.2 n (fun x =>
      { x with p3Demoted := satAdd x.p3Demoted (if none' then x.p3Reads else min v.1.toNat x.p3Reads), p3Reads := 0 })
  | .lnkErr p =>
    let v := draw 16 s
    modPort v.2 p (fun q => { q with fecUncorr := satAdd q.fecUncorr v.1.toNat })
  | _ => s

/-- RC_REGISTER_READ: the value goes out, then the read-clear fields are cleared. -/
def opRegRead (s : State) (a : Agent) (r : Reg) : State :=
  if ((mbxOf r).map (mbxDown s)).getD false then emit s (.aborted a)
  else match r with
    | .htNow => opHtNow s a
    | .mbxRing m => opMbxRing s a m
    | .lck n => opLckRead s a n
    | _ =>
      if mayReadReg s a r then
        let s1 := countUnseen s r
        clearRc (emit s1 (.value a (regWord s1 a r))) a r
      else unsupported s a

/-! ### Writes by block -/

/-- A write with no effect from an agent that may reach the register: read-only and reserved bits (R12). -/
def ignoreWrite (s : State) (a : Agent) (r : Reg) : State := if mayReadReg s a r && a != .mgc then s else unsupported s a

/-- Write for agents that pass a test; anyone else gets Unsupported Request. -/
def gated (ok : Bool) (s : State) (a : Agent) (f : State) : State := if ok then f else unsupported s a

/-- HT (R557). -/
def writeHt (s : State) (a : Agent) (r : Reg) (v : W64) : State :=
  match r with
  | .htCfg => opHtCfg s a v
  | .htGmNextSec => opGmWrite s a v
  | .htEvents => gated (ownerWrite s a) s a (setHtu s { s.htu with events := s.htu.events &&& ~~~(v.setWidth 9) })
  | .htAlarmTime d n => gated (deckWriter s a d) s a (modDeck s d (fun k =>
      { k with alarms := mapMod {} k.alarms n (fun x => { x with time := v }) }))
  | .htAlarmCtl d n => gated (deckWriter s a d) s a (modDeck s d (fun k =>
      { k with alarms := mapMod {} k.alarms n (fun x =>
        { x with sync := v.extractLsb' 0 12, enable := v.getLsbD 12, fired := x.fired && !v.getLsbD 13, ctx := v.extractLsb' 16 4 }) }))
  | _ => unsupported s a

/-- HOLD: two fields are cleared by writing 1. -/
def writeHold (s : State) (a : Agent) (r : Reg) (v : W64) : State :=
  match r with
  | .holdCommit d c => gated (deckWriter s a d) s a (modDeck s d (fun k =>
      let h := (ctxAt k c.toNat).hold
      setHold k c.toNat { h with defer := h.defer && !v.getLsbD 2 }))
  | .holdFault d c => gated (deckWriter s a d) s a (modDeck s d (fun k =>
      let h := (ctxAt k c.toNat).hold
      setHold k c.toNat { h with faultValid := h.faultValid && !v.getLsbD 63 }))
  | _ => ignoreWrite s a r

/-- LNK and CHN. -/
def writeNet (s : State) (a : Agent) (r : Reg) (v : W64) : State :=
  match r with
  | .lnkCfg => gated (lnkWriter s a) s a (modNet s (fun n =>
      { n with fenceWaitUs := BitVec.ofNat 16 (max 1200 (bits v.toNat 0 16)), reqTimeoutUs := BitVec.ofNat 16 (max 2500 (bits v.toNat 16 16)),
               violLimit := v.extractLsb' 32 16 }))
  | .lnkEvents p => gated (mayReadReg s a r && a != .mgc) s a (modPort s p (fun q => { q with events := q.events &&& ~~~(v.setWidth 9) }))
  | .lnkCtl p =>
    let s1 := opDisable s a p (v.getLsbD 0)
    if v.getLsbD 1 && lnkWriter s a then opRetrain s1 a p else s1
  | .chnCfg => gated (lnkWriter s a) s a
      { s with churn := { s.churn with resendEn := v.getLsbD 0, maxActive := BitVec.ofNat 5 (min 16 (bits v.toNat 8 5)) } }
  | _ => ignoreWrite s a r

/-- A head register of an LD: beyond its tail it is ignored and counts as a violation (R449). -/
def writeHead (s : State) (k : Nat) (head tail new : BitVec 32) (f : State) : State :=
  if (tail - head).toNat < (new - head).toNat then violation s k else f

/-- A write of the HDM decoder's control register: COMMIT takes an interleave of one way alone (R417). (PRESUMED, log
entry 100.) -/
def writeDecoder (x : Ld) (v : W64) : Ld :=
  let iw : BitVec 4 := v.extractLsb' 4 4
  { x with decoderIw := iw, committed := v.getLsbD 9 && iw == 0, decoderErr := v.getLsbD 9 && iw != 0 }

/-- CMD, by the host whose bank it is. -/
def writeCmd (s : State) (l : LdRef) (r : Reg) (v : W64) : State :=
  let k := ldKey l
  let x := ldAt s k
  match r with
  | .cmdCfg => setLd s k { x with drainUs := v.extractLsb' 0 16, evIrq := v.getLsbD 16 }
  | .cmdCtl => if v.getLsbD 0 then opResume s l else s
  | .cmdCrTail n => opDoorbell s l n (v.setWidth 32)
  | .cmdSrHead n =>
    let q := ringAt s k n
    writeHead s k q.srHead q.srTail (v.setWidth 32) (setRing s k n { q with srHead := v.setWidth 32 })
  | .cmdEvHead => writeHead s k x.evHead x.evTail (v.setWidth 32) (setLd s k { x with evHead := v.setWidth 32 })
  | .cmdTmo g => setLd s k { x with tmo := mapSet (if g = 6 then 60000 else 100) x.tmo g (v.setWidth 32) }
  | .ringMem off => setLd s k { x with mem := writeNat x.mem (8 * off.toNat) 8 v.toNat }
  | .hdmDecoder => if mayReadReg s (.host l) r then setLd s k (writeDecoder x v) else unsupported s (.host l)
  | _ => s

/-- MBX (R444 to R446). -/
def writeMbx (s : State) (a : Agent) (r : Reg) (v : W64) : State :=
  match r with
  | .mbxPtr m => match a with
    | .fw => { s with host := { s.host with fwPtr := mapSet 0 s.host.fwPtr m v } }
    | .mgc => unsupported s a
    | .host l => modLd s (ldKey l) (fun x => { x with mbxPtr := mapSet 0 x.mbxPtr m v })
  | .mbxLt m => match a with
    | .fw => { s with host := { s.host with fwLt := mapSet 0 s.host.fwLt m v } }
    | .mgc => unsupported s a
    | .host l => modLd s (ldKey l) (fun x => { x with mbxLt := mapSet 0 x.mbxLt m v })
  | .mbxDcfg d => gated (deckWriter s a d) s a
      (let s1 := modDeck s d (fun k => { k with mbxBase := (v.extractLsb' 0 40 >>> 8) <<< 8, mbxCtx := v.extractLsb' 40 4,
                                                mbxSync := v.extractLsb' 44 12, mbxValid := v.getLsbD 56 })
       { s1 with host := { s1.host with delivered := mapSet 0 s1.host.delivered d 0 } })
  | _ => ignoreWrite s a r

/-- PWR, THM, SAF (R34, R517, R518). -/
def writePwr (s : State) (a : Agent) (r : Reg) (v : W64) : State :=
  match r, a with
  | .pwrDeck d, _ => opDockReq s a d (v.getLsbD 2)
  | .pwrLimit, _ => opLimitWrite s a v
  | .pwrModule, _ => opStandbyReq s a (v.getLsbD 0)
  | .thmCfg, _ => opThrottleWrite s a v
  | _, .host _ => unsupported s a
  | .pwrCfg, _ => setPower s { s.power with parkUs := BitVec.ofNat 16 (clip 50 10000 (bits v.toNat 0 16)), dockIdleMs := v.extractLsb' 16 16 }
  | .safEvents, .mgc => { s with safety := { s.safety with events := s.safety.events &&& ~~~(v.setWidth 16) } }
  | _, .mgc => unsupported s a
  | .pwrEvents, .fw => setPower s { s.power with events := s.power.events &&& ~~~(v.setWidth 12) }
  | .thmEvents, .fw => { s with thermal := { s.thermal with events := s.thermal.events &&& ~~~(v.setWidth 6) } }
  | .safEvents, .fw => unsupported s a
  | _, .fw => s

/-- One write of RST.SWRSTd: CTX and CORE are written, and the highest of the bits set applies (R523). -/
def writeSwrst (s : State) (a : Agent) (d : Fin 8) (v : W64) : State :=
  fwOnly s a (
    let x : BitVec 4 := v.extractLsb' 4 4
    let core : BitVec 12 := v.extractLsb' 8 12
    let s1 := modRst s (fun r => { r with swDeck := mapMod 0 r.swDeck d (fun w => (w &&& 0xF) ||| (x.setWidth 20 <<< 4) |||
      (core.setWidth 20 <<< 8)) })
    if v.getLsbD 3 then opSwrst s1 a (.full d) []
    else if v.getLsbD 2 then opSwrst s1 a (.compute d) []
    else if v.getLsbD 1 then opSwrstEngine s1 a d x core
    else if v.getLsbD 0 then opSwrst s1 a (.ctx d x) []
    else s1)

/-- One write of RST.SWRST_HUB: each bit set acts, the widest last. -/
def writeSwrstHub (s : State) (a : Agent) (v : W64) : State :=
  fwOnly s a (
    let s1 := if v.getLsbD 1 then opSwrstEth s a 0 else s
    let s2 := if v.getLsbD 2 then opSwrstEth s1 a 1 else s1
    let s3 := if v.getLsbD 0 then opSwrst s2 a .cmdp [] else s2
    if v.getLsbD 3 then opSwrst s3 a .module [] else s3)

/-- May an agent write the reset settings (R542)? -/
def resetSetter (a : Agent) : Bool :=
  match a with
  | .host _ => false
  | _ => true

/-- RST, the backup registers, retained memory (R534, R535, R542). -/
def writeRst (s : State) (a : Agent) (r : Reg) (v : W64) : State :=
  match r with
  | .rstCfg => gated (resetSetter a) s a (modRst s (fun x =>
      { x with maxAuto := BitVec.ofNat 4 (clip 1 6 (bits v.toNat 0 4)), escWindowMs := v.extractLsb' 4 16, pwrcycEn := v.getLsbD 20,
               pwrcycWaitMs := v.extractLsb' 32 16 }))
  | .rstAction => gated (resetSetter a) s a (modRst s (fun x => { x with action := v &&& 0x000FFFFFFFFFFFF0 }))
  | .rstLimits => gated (resetSetter a) s a (modRst s (fun x =>
      { x with wdogLog2 := BitVec.ofNat 6 (clip 16 30 (bits v.toNat 0 6)), collSlackUs := v.extractLsb' 16 16 }))
  | .rstSample => gated (resetSetter a) s a (modRst s (fun x =>
      { x with sampleDeck := v.extractLsb' 0 3, sampleAuto := v.getLsbD 3, sampleCount := v.extractLsb' 4 3,
               samplePen := BitVec.ofNat 8 (min 199 (bits v.toNat 8 8)) }))
  | .rstLegacyWarm => opLegacyWarm s a (v.setWidth 16)
  | .rstSwrst d => writeSwrst s a d v
  | .rstSwrstHub => writeSwrstHub s a v
  | .bkp n =>
    if (a = .fw ∧ 2 ≤ n.val ∧ n.val ≤ 7) ∨ (a = .mgc ∧ 8 ≤ n.val) then modRst s (fun x => { x with bkp := mapSet 0 x.bkp n v })
    else if mayReadReg s a r then s else unsupported s a
  | .retained off =>
    if a = .fw then
      (if 0xE100 ≤ 8 * off.toNat then modRst s (fun x => { x with retained := writeNat x.retained (8 * off.toNat) 8 v.toNat }) else s)
    else unsupported s a
  | _ => unsupported s a

/-- Words of space 2, which the CMDP reaches as its owner (R51, R145). -/
def writeSync (s : State) (a : Agent) (r : Reg) (v : W64) : State :=
  match syncReg r with
  | none => s
  | some (d, w) => fwOnly s a (if syncUp (deckAt s d) then onDeck s d (fun k => (syncWrite k w v none true).2) else s)

/-- REGISTER_WRITE. -/
def opRegWrite (s : State) (a : Agent) (r : Reg) (v : W64) : State :=
  match r with
  | .htNow | .htNowFrac | .htStatus | .htCfg | .htGmNextSec | .htEvents | .htDisagree | .htLinkDelay _ | .htAlarmTime _ _
  | .htAlarmCtl _ _ => writeHt s a r v
  | .ttStatus | .ttEpoch | .ttPeriod | .ttStep | .ttPendingStep | .ttArmErr | .ttTxStat _ | .ttRxStat _ | .ttTtbl _ _ _
  | .ttDsched _ _ | .ttDstat _ => ignoreWrite s a r
  | .tlyCtl d c => opTlyClear s a d c v
  | .tlyStat _ | .tlyTotal _ _ | .tlyZeros _ _ | .tlySats _ _ | .tlyNonfinite _ _ | .tlyFlushes _ _ | .tlyAmax _ _
  | .tlyHist _ _ _ => ignoreWrite s a r
  | .holdStep _ _ | .holdStepStatus _ _ | .holdCommit _ _ | .holdMbase _ _ | .holdMsize _ _ | .holdBase _ _ | .holdSize _ _
  | .holdTop _ _ | .holdHwm _ _ | .holdFault _ _ | .holdSnap _ _ | .holdSnapTag _ _ | .holdDrop _ => writeHold s a r v
  | .memCfg => opMemCfg s a v
  | .memEvents => gated (mayReadReg s a r && a != .mgc) s a
      { s with mem := { s.mem with events := s.mem.events &&& ~~~(v.setWidth 16) } }
  | .memPlogCnt | .memPlogLo _ | .memPlogHi _ | .memStatus _ | .memEcc _ | .memLink _ | .memRemap _ | .memScrub _ | .memPrio _
  | .memTherm _ => ignoreWrite s a r
  | .lnkCfg | .lnkMap | .lnkFtrk | .lnkFdrop | .lnkStatus _ | .lnkLanesTx _ | .lnkLanesRx _ | .lnkPeer _ | .lnkExpect _
  | .lnkFibre _ | .lnkErr _ | .lnkDrop _ | .lnkEvents _ | .lnkCtl _ | .chnCfg | .chnStat | .chnResend | .chnPail _ _
  | .chnActive _ _ | .chnLast _ _ | .chnUndel _ _ | .chnVote _ _ | .chnVoteMember _ _ | .chnSkim _ _ => writeNet s a r v
  | .cmdCtx _ | .cmdCtxDrop _ | .hdmRange | .reserved _ => ignoreWrite s a r
  | .cmdId | .cmdCfg | .cmdCtl | .cmdViol | .cmdCrTail _ | .cmdCrHead _ | .cmdSrTail _ | .cmdSrHead _ | .cmdEvTail | .cmdEvHead
  | .cmdEvLost | .cmdEthErr | .cmdTmo _ | .ringMem _ | .hdmDecoder =>
    match a with
    | .host l => writeCmd s l r v
    | _ => unsupported s a
  | .mbxPtr m | .mbxLt m =>
    if mbxDown s m then modMbx s m (fun b => { b with downErr := satInc b.downErr }) else writeMbx s a r v
  | .mbxRing m | .mbxStat m =>
    if mbxDown s m then modMbx s m (fun b => { b with downErr := satInc b.downErr }) else ignoreWrite s a r
  | .mbxDcfg d =>
    if mbxDown s d then modMbx s d (fun b => { b with downErr := satInc b.downErr }) else writeMbx s a r v
  | .lck n => opLckWrite s a n v
  | .lckIgnored => ignoreWrite s a r
  | .mgtEvents => match a with
    | .mgc => setMgmt s { s.mgmt with events := s.mgmt.events &&& ~~~(v.setWidth 8) }
    | _ => unsupported s a
  | .mgtFw | .mgtSvn | .mgtCfg | .mgtStage | .mgtIdent | .mgtTraySerial | .mgtElsSerial _ | .mgtMctp =>
    match a with
    | .fw => s
    | _ => unsupported s a
  | .pwrStatus | .pwrFeedA | .pwrFeedB | .pwrInput | .pwrLimit | .pwrGov | .pwrCfg | .pwrEvents | .pwrModule | .pwrDeck _
  | .thmCfg | .thmEvents | .thmDie _ | .thmCoolant | .safStatus | .safTime | .safEvents | .safArithCnt | .safArith _
  | .safArithMiss _ | .safArithClean _ | .safSpscrub _ | .safLockstep => writePwr s a r v
  | .rstStatus | .rstCfg | .rstAction | .rstLimits | .rstLast | .rstOptload | .rstEvents | .rstLegacyWarm | .rstSample
  | .rstSwrstHub | .rstSwrst _ | .rstDetect _ | .bkp _ | .retained _ => writeRst s a r v
  | .syncSet _ _ | .syncSignal _ _ | .syncPoison _ _ | .syncGroup _ _ | .syncTimed _ _ | .syncPoisoned _ _ => writeSync s a r v

end Sys2Proof.Machine
end

