-- ==== Sys2Proof/Machine/ExecReset.lean ====
section
/-! DEFINITION. The commands of reset and recovery (chapter 14), and the accesses of registers that have no row of
their own. -/
namespace Sys2Proof.Machine
open Sys2Proof

/-- SWRST_CTX (R523). -/
def execSwrstCtx (a : Agent) (d : Fin 8) (x : BitVec 4) (s : State) : Res := done (opSwrst s a (.ctx d x) [])

/-- SWRST_ENGINE (R523). -/
def execSwrstEngine (a : Agent) (d : Fin 8) (x : BitVec 4) (core : BitVec 12) (s : State) : Res :=
  done (opSwrstEngine s a d x core)

/-- SWRST_COMPUTE (R523). -/
def execSwrstCompute (a : Agent) (d : Fin 8) (s : State) : Res := done (opSwrst s a (.compute d) [])

/-- SWRST_FULL (R523). -/
def execSwrstFull (a : Agent) (d : Fin 8) (s : State) : Res := done (opSwrst s a (.full d) [])

/-- SWRST_CMDP_RESTART (R526). -/
def execSwrstCmdpRestart (a : Agent) (s : State) : Res := done (opSwrst s a .cmdp [])

/-- SWRST_ETH (R523). -/
def execSwrstEth (a : Agent) (e : Fin 2) (s : State) : Res := done (opSwrstEth s a e)

/-- SWRST_MODULE_WARM (R523). -/
def execSwrstModuleWarm (a : Agent) (s : State) : Res := done (opSwrst s a .module [])

/-- CMDP_RESTART_TIMEOUT (R526). -/
def execCmdpRestartTimeout (s : State) : Res := done (opCmdpTimeout s)

/-- RESET_COMPLETE (R527). -/
def execResetComplete (sc : Scope) (s : State) : Res := done (opResetComplete s sc)

/-- RESET_TIME_LIMIT (R531). -/
def execResetTimeLimit (sc : Scope) (s : State) : Res := done (opResetLimit s sc)

/-- MRST (R524). -/
def execMrst (low : Bool) (widthNs : Nat) (s : State) : Res := done (opMrst s low widthNs)

/-- RELEASE_STEP (R529). -/
def execReleaseStep (boot : BootCheck) (s : State) : Res := done (opRelease s boot)

/-- WATCHDOG_EXPIRE (R531). -/
def execWatchdogExpire (c : CoreRef) (s : State) : Res := done (opWatchdog s c.deck c.core)

/-- SHUTDOWN_RECOVERY (R531). -/
def execShutdownRecovery (d : Fin 8) (s : State) : Res := done (opShutdownRecovery s d)

/-- PWRCYC_TIMEOUT (R532). -/
def execPwrcycTimeout (s : State) : Res := done (opPwrcycTimeout s)

/-- RST_LEGACY_WARM (R538). -/
def execRstLegacyWarm (a : Agent) (key : BitVec 16) (s : State) : Res := done (opLegacyWarm s a key)

/-- LEGACY_WINDOW_EXPIRE (R538). -/
def execLegacyWindowExpire (s : State) : Res := done (opLegacyExpire s)

/-- REGISTER_WRITE (R12). -/
def execRegisterWrite (a : Agent) (r : Reg) (v : BitVec 64) (s : State) : Res := done (opRegWrite s a r v)

/-- RC_REGISTER_READ (R12). -/
def execRcRegisterRead (a : Agent) (r : Reg) (s : State) : Res := done (opRegRead s a r)

end Sys2Proof.Machine
end

