-- ==== Sys2Proof/Machine/ExecTime.lean ====
section
/-! DEFINITION. The commands of hall time, the timetable and the deck schedules (chapter 02), and the shadow check
(06). -/
namespace Sys2Proof.Machine
open Sys2Proof

/-- The end of a comparison window; a holdover that it leads to is a safety function (R68, R510). -/
def opDisagreeEnd (s : State) : State :=
  let r := opDisagree s
  if r.2 then safetyAct r.1 8 else r.1

/-- A deck at a step of hall time: a forward step fires every alarm whose time it has reached and satisfies every such WAITT at
once; a backward one defers them (R72, R153). -/
def stepDeck (env : CoreEnv) (forward : Bool) (k : Deck) : DeckRes :=
  let r := if forward then eachDeck (fun a k => opAlarm env k a) (k.alarms.map (·.1)) k else (k, [])
  (stepWaits env.now forward r.1, r.2)

/-- What a command has done to hall time besides slewing is a step, which every deck takes (R72). -/
def afterStep (before s : State) : State :=
  if s.htu.t = before.htu.t then s
  else (List.range 8).foldl (fun s d => onDeck s d (fun k => stepDeck (coreEnv s d) (decide (before.htu.t < s.htu.t)) k)) s

/-- BEACON_SEND (R350). -/
def execBeaconSend (p : Fin 9) (s : State) : Res := done (opBeaconSend s p)

/-- BEACON_RECEIVE (R60). -/
def execBeaconReceive (p : Fin 9) (crcOk : Bool) (b : Beacon) (s : State) : Res := done (afterStep s (opBeaconReceive s p crcOk b))

/-- BEACON_MISSING (R66). -/
def execBeaconMissing (p : Fin 9) (s : State) : Res := done (dropLink s p)

/-- TIME_REQ_RECEIVE (R351). -/
def execTimeReqReceive (p : Fin 9) (crcOk : Bool) (t1 : Stamp) (s : State) : Res := done (opTimeReq s p crcOk t1)

/-- TIME_RESP_RECEIVE (R351). -/
def execTimeRespReceive (p : Fin 9) (crcOk : Bool) (t1 t2 t3 : Stamp) (s : State) : Res := done (opTimeResp s p crcOk t1 t2 t3)

/-- TIME_EXCHANGE_START (R351). -/
def execTimeExchangeStart (p : Fin 9) (s : State) : Res := done (opTimeStart s p)

/-- DISAGREE_WINDOW_END (R68). -/
def execDisagreeWindowEnd (s : State) : Res := done (opDisagreeEnd s)

/-- ACQUIRE_NO_SOURCE (R71). -/
def execAcquireNoSource (s : State) : Res := done (opAcquireNoSource s)

/-- HOLDOVER_EXPIRE (R71). -/
def execHoldoverExpire (s : State) : Res := done (opHoldoverExpire s)

/-- PPS_EDGE (R64). -/
def execPpsEdge (falling : Bool) (cycles : Nat) (refOk : Bool) (s : State) : Res := done (afterStep s (opPpsEdge s falling cycles refOk))

/-- PPS_OVERDUE (R66). -/
def execPpsOverdue (s : State) : Res := done (opPpsOverdue s)

/-- REF25_INVALID (R66). -/
def execRef25Invalid (s : State) : Res := done (opRefInvalid s)

/-- GM_SECOND_ELAPSE (R64). -/
def execGmSecondElapse (s : State) : Res := done (opGmSecond s)

/-- HT_GM_NEXT_SEC_WRITE (R64). -/
def execHtGmNextSecWrite (a : Agent) (v : BitVec 64) (s : State) : Res := done (opGmWrite s a v)

/-- HT_CFG_WRITE (R64). -/
def execHtCfgWrite (a : Agent) (v : BitVec 64) (s : State) : Res := done (opHtCfg s a v)

/-- HT_NOW_READ (R56). -/
def execHtNowRead (a : Agent) (s : State) : Res := done (opHtNow s a)

/-- ALARM_FIRE (R107). -/
def execAlarmFire (d : Fin 8) (n : Fin 64) (s : State) : Res := done (onDeck s d (fun k => opAlarm (coreEnv s d) k n))

/-- STEP_EPOCH (R74). -/
def execStepEpoch (s : State) : Res := done (opStepEpoch s)

/-- SAILING_DEPART (R81). -/
def execSailingDepart (p : Fin 9) (r : Nat) (s : State) : Res := done (opSailing s p r)

/-- SCHED_LAUNCH (R100). -/
def execSchedLaunch (d : Fin 8) (r : Nat) (s : State) : Res := done (opSchedLaunchRec s d r)

/-- SCHED_SCRUB (R102). -/
def execSchedScrub (d : Fin 8) (r : Nat) (s : State) : Res := done (opSchedScrub s d r)

/-- SCHED_SHADOW (R103). -/
def execSchedShadow (d : Fin 8) (r : Nat) (s : State) : Res := done (opSchedShadow s d r)

/-- SCHED_RAMP (R104). -/
def execSchedRamp (d : Fin 8) (r : Nat) (s : State) : Res := done (opSchedRamp s d r)

/-- LAUNCH_START_TIME (R101). -/
def execLaunchStartTime (d : Fin 8) (n : BitVec 13) (s : State) : Res :=
  done (onDeckLaunch s d (readHead (hallNs s) n.toNat (fun k => opLaunchStart (coreEnv s d) k n.toNat)))

/-- SHADOW_CHECK (R257). -/
def execShadowCheck (d : Fin 8) (pen : Fin 200) (miss : List ShadowMiss) (s : State) : Res := done (opShadow s d pen miss)

end Sys2Proof.Machine
end

