-- ==== Sys2Proof/Machine/Dispatch.lean ====
section
/-! DEFINITION. One arm per command: the call of its meaning. -/
namespace Sys2Proof.Machine
open Sys2Proof

def exec (i : Instr) (s : State) : Host.Outcome State Fault Refusal :=
  match i with
  | .nop c f => Sys2Proof.Machine.execNop c f s
  | .endKernel c f => Sys2Proof.Machine.execEndKernel c f s
  | .csrr c f => Sys2Proof.Machine.execCsrr c f s
  | .csrw c f => Sys2Proof.Machine.execCsrw c f s
  | .loop c f => Sys2Proof.Machine.execLoop c f s
  | .fence c f => Sys2Proof.Machine.execFence c f s
  | .fenceRelease c => Sys2Proof.Machine.execFenceRelease c s
  | .waitObj c f => Sys2Proof.Machine.execWaitObj c f s
  | .waitt c f => Sys2Proof.Machine.execWaitt c f s
  | .waittExpire c => Sys2Proof.Machine.execWaittExpire c s
  | .add c f => Sys2Proof.Machine.execAdd c f s
  | .sub c f => Sys2Proof.Machine.execSub c f s
  | .andOp c f => Sys2Proof.Machine.execAndOp c f s
  | .orOp c f => Sys2Proof.Machine.execOrOp c f s
  | .xor c f => Sys2Proof.Machine.execXor c f s
  | .sll c f => Sys2Proof.Machine.execSll c f s
  | .srl c f => Sys2Proof.Machine.execSrl c f s
  | .sra c f => Sys2Proof.Machine.execSra c f s
  | .slt c f => Sys2Proof.Machine.execSlt c f s
  | .sltu c f => Sys2Proof.Machine.execSltu c f s
  | .mul c f => Sys2Proof.Machine.execMul c f s
  | .mulhu c f => Sys2Proof.Machine.execMulhu c f s
  | .div c f => Sys2Proof.Machine.execDiv c f s
  | .divu c f => Sys2Proof.Machine.execDivu c f s
  | .rem c f => Sys2Proof.Machine.execRem c f s
  | .remu c f => Sys2Proof.Machine.execRemu c f s
  | .addi c f => Sys2Proof.Machine.execAddi c f s
  | .andi c f => Sys2Proof.Machine.execAndi c f s
  | .ori c f => Sys2Proof.Machine.execOri c f s
  | .xori c f => Sys2Proof.Machine.execXori c f s
  | .slli c f => Sys2Proof.Machine.execSlli c f s
  | .srli c f => Sys2Proof.Machine.execSrli c f s
  | .srai c f => Sys2Proof.Machine.execSrai c f s
  | .slti c f => Sys2Proof.Machine.execSlti c f s
  | .sltiu c f => Sys2Proof.Machine.execSltiu c f s
  | .lih c f => Sys2Proof.Machine.execLih c f s
  | .ldb c f => Sys2Proof.Machine.execLdb c f s
  | .ldh c f => Sys2Proof.Machine.execLdh c f s
  | .ldw c f => Sys2Proof.Machine.execLdw c f s
  | .ldd c f => Sys2Proof.Machine.execLdd c f s
  | .ldbs c f => Sys2Proof.Machine.execLdbs c f s
  | .ldhs c f => Sys2Proof.Machine.execLdhs c f s
  | .ldws c f => Sys2Proof.Machine.execLdws c f s
  | .stb c f => Sys2Proof.Machine.execStb c f s
  | .sth c f => Sys2Proof.Machine.execSth c f s
  | .stw c f => Sys2Proof.Machine.execStw c f s
  | .std c f => Sys2Proof.Machine.execStd c f s
  | .lds c f => Sys2Proof.Machine.execLds c f s
  | .sts c f => Sys2Proof.Machine.execSts c f s
  | .fadd c f => Sys2Proof.Machine.execFadd c f s
  | .fsub c f => Sys2Proof.Machine.execFsub c f s
  | .fmul c f => Sys2Proof.Machine.execFmul c f s
  | .ffma c f => Sys2Proof.Machine.execFfma c f s
  | .fmin c f => Sys2Proof.Machine.execFmin c f s
  | .fmax c f => Sys2Proof.Machine.execFmax c f s
  | .flt c f => Sys2Proof.Machine.execFlt c f s
  | .fle c f => Sys2Proof.Machine.execFle c f s
  | .feq c f => Sys2Proof.Machine.execFeq c f s
  | .fcvtSL c f => Sys2Proof.Machine.execFcvtSL c f s
  | .fcvtLS c f => Sys2Proof.Machine.execFcvtLS c f s
  | .beq c f => Sys2Proof.Machine.execBeq c f s
  | .bne c f => Sys2Proof.Machine.execBne c f s
  | .blt c f => Sys2Proof.Machine.execBlt c f s
  | .bge c f => Sys2Proof.Machine.execBge c f s
  | .bltu c f => Sys2Proof.Machine.execBltu c f s
  | .bgeu c f => Sys2Proof.Machine.execBgeu c f s
  | .jal c f => Sys2Proof.Machine.execJal c f s
  | .jalr c f => Sys2Proof.Machine.execJalr c f s
  | .vadd c f => Sys2Proof.Machine.execVadd c f s
  | .vsub c f => Sys2Proof.Machine.execVsub c f s
  | .vmul c f => Sys2Proof.Machine.execVmul c f s
  | .vfma c f => Sys2Proof.Machine.execVfma c f s
  | .vmin c f => Sys2Proof.Machine.execVmin c f s
  | .vmax c f => Sys2Proof.Machine.execVmax c f s
  | .vcmp c f => Sys2Proof.Machine.execVcmp c f s
  | .vsel c f => Sys2Proof.Machine.execVsel c f s
  | .vcvt c f => Sys2Proof.Machine.execVcvt c f s
  | .vqnt c f => Sys2Proof.Machine.execVqnt c f s
  | .vrsqs c f => Sys2Proof.Machine.execVrsqs c f s
  | .vbcst c f => Sys2Proof.Machine.execVbcst c f s
  | .vext c f => Sys2Proof.Machine.execVext c f s
  | .tlyacc c f => Sys2Proof.Machine.execTlyacc c f s
  | .tlyctr c f => Sys2Proof.Machine.execTlyctr c f s
  | .tallyUpdateApply d => Sys2Proof.Machine.execTallyUpdateApply d s
  | .mlds c f => Sys2Proof.Machine.execMlds c f s
  | .mmul c f => Sys2Proof.Machine.execMmul c f s
  | .mdrn c f => Sys2Proof.Machine.execMdrn c f s
  | .mzero c f => Sys2Proof.Machine.execMzero c f s
  | .matrixStart c => Sys2Proof.Machine.execMatrixStart c s
  | .gangRendezvous d pen => Sys2Proof.Machine.execGangRendezvous d pen s
  | .gangTimeout d pen => Sys2Proof.Machine.execGangTimeout d pen s
  | .mov c f => Sys2Proof.Machine.execMov c f s
  | .movt c f => Sys2Proof.Machine.execMovt c f s
  | .put c f => Sys2Proof.Machine.execPut c f s
  | .get c f => Sys2Proof.Machine.execGet c f s
  | .atom c f => Sys2Proof.Machine.execAtom c f s
  | .sig c f => Sys2Proof.Machine.execSig c f s
  | .syncrd c f => Sys2Proof.Machine.execSyncrd c f s
  | .hpush c f => Sys2Proof.Machine.execHpush c f s
  | .hpop c f => Sys2Proof.Machine.execHpop c f s
  | .moverTransferComplete c id errs => Sys2Proof.Machine.execMoverTransferComplete c id errs s
  | .launchStopComplete d id => Sys2Proof.Machine.execLaunchStopComplete d id s
  | .syncWaitTimeout d w => Sys2Proof.Machine.execSyncWaitTimeout d w s
  | .beaconSend p => Sys2Proof.Machine.execBeaconSend p s
  | .beaconReceive p crcOk b => Sys2Proof.Machine.execBeaconReceive p crcOk b s
  | .beaconMissing p => Sys2Proof.Machine.execBeaconMissing p s
  | .timeReqReceive p crcOk t1 => Sys2Proof.Machine.execTimeReqReceive p crcOk t1 s
  | .timeRespReceive p crcOk t1 t2 t3 => Sys2Proof.Machine.execTimeRespReceive p crcOk t1 t2 t3 s
  | .timeExchangeStart p => Sys2Proof.Machine.execTimeExchangeStart p s
  | .disagreeWindowEnd => Sys2Proof.Machine.execDisagreeWindowEnd s
  | .acquireNoSource => Sys2Proof.Machine.execAcquireNoSource s
  | .holdoverExpire => Sys2Proof.Machine.execHoldoverExpire s
  | .ppsEdge falling cycles refOk => Sys2Proof.Machine.execPpsEdge falling cycles refOk s
  | .ppsOverdue => Sys2Proof.Machine.execPpsOverdue s
  | .ref25Invalid => Sys2Proof.Machine.execRef25Invalid s
  | .gmSecondElapse => Sys2Proof.Machine.execGmSecondElapse s
  | .htGmNextSecWrite a v => Sys2Proof.Machine.execHtGmNextSecWrite a v s
  | .htCfgWrite a v => Sys2Proof.Machine.execHtCfgWrite a v s
  | .htNowRead a => Sys2Proof.Machine.execHtNowRead a s
  | .alarmFire d n => Sys2Proof.Machine.execAlarmFire d n s
  | .stepEpoch => Sys2Proof.Machine.execStepEpoch s
  | .sailingDepart p r => Sys2Proof.Machine.execSailingDepart p r s
  | .schedLaunch d r => Sys2Proof.Machine.execSchedLaunch d r s
  | .schedScrub d r => Sys2Proof.Machine.execSchedScrub d r s
  | .schedShadow d r => Sys2Proof.Machine.execSchedShadow d r s
  | .schedRamp d r => Sys2Proof.Machine.execSchedRamp d r s
  | .launchStartTime d n => Sys2Proof.Machine.execLaunchStartTime d n s
  | .shadowCheck d pen miss => Sys2Proof.Machine.execShadowCheck d pen miss s
  | .elsFail n => Sys2Proof.Machine.execElsFail n s
  | .elsPairLost pair => Sys2Proof.Machine.execElsPairLost pair s
  | .elsInsert n rec => Sys2Proof.Machine.execElsInsert n rec s
  | .fabricFlitUe d v => Sys2Proof.Machine.execFabricFlitUe d v s
  | .deckHubLinkFail d => Sys2Proof.Machine.execDeckHubLinkFail d s
  | .deckClearDone d => Sys2Proof.Machine.execDeckClearDone d s
  | .laneFail p dir lane => Sys2Proof.Machine.execLaneFail p dir lane s
  | .portLoss p => Sys2Proof.Machine.execPortLoss p s
  | .portRetry p => Sys2Proof.Machine.execPortRetry p s
  | .trainingTimeout p => Sys2Proof.Machine.execTrainingTimeout p s
  | .quarantineExpire p => Sys2Proof.Machine.execQuarantineExpire p s
  | .trainFrameReceive p f => Sys2Proof.Machine.execTrainFrameReceive p f s
  | .fibreConnectorInsert p rec => Sys2Proof.Machine.execFibreConnectorInsert p rec s
  | .pktFrameReceive p f => Sys2Proof.Machine.execPktFrameReceive p f s
  | .nakReceive p seq => Sys2Proof.Machine.execNakReceive p seq s
  | .packetForward r => Sys2Proof.Machine.execPacketForward r s
  | .packetAgeOut r => Sys2Proof.Machine.execPacketAgeOut r s
  | .pktWrite pk => Sys2Proof.Machine.execPktWrite pk s
  | .pktRead pk errs => Sys2Proof.Machine.execPktRead pk errs s
  | .pktAtom pk => Sys2Proof.Machine.execPktAtom pk s
  | .pktSig pk => Sys2Proof.Machine.execPktSig pk s
  | .pktResend pk => Sys2Proof.Machine.execPktResend pk s
  | .pktAck pk => Sys2Proof.Machine.execPktAck pk s
  | .pktData pk => Sys2Proof.Machine.execPktData pk s
  | .pktVacancy p pk => Sys2Proof.Machine.execPktVacancy p pk s
  | .pktControl pk => Sys2Proof.Machine.execPktControl pk s
  | .pktMcReport pk => Sys2Proof.Machine.execPktMcReport pk s
  | .pktChunk p pk => Sys2Proof.Machine.execPktChunk p pk s
  | .fenceWaitExpire n => Sys2Proof.Machine.execFenceWaitExpire n s
  | .fenceEntryExpire n => Sys2Proof.Machine.execFenceEntryExpire n s
  | .fenceWindowAbandon c dst => Sys2Proof.Machine.execFenceWindowAbandon c dst s
  | .retryResend c txn => Sys2Proof.Machine.execRetryResend c txn s
  | .requestTimeout c txn => Sys2Proof.Machine.execRequestTimeout c txn s
  | .lnkRetrain a p => Sys2Proof.Machine.execLnkRetrain a p s
  | .lnkDisable a p v => Sys2Proof.Machine.execLnkDisable a p v s
  | .collBuffersGranted k => Sys2Proof.Machine.execCollBuffersGranted k s
  | .chunkLanded k p chunk => Sys2Proof.Machine.execChunkLanded k p chunk s
  | .churnResendReq p n => Sys2Proof.Machine.execChurnResendReq p n s
  | .churnAbort p n => Sys2Proof.Machine.execChurnAbort p n s
  | .collComplete k => Sys2Proof.Machine.execCollComplete k s
  | .collDeadline k => Sys2Proof.Machine.execCollDeadline k s
  | .collSlackExpire k => Sys2Proof.Machine.execCollSlackExpire k s
  | .snapshotCopyDone d x => Sys2Proof.Machine.execSnapshotCopyDone d x s
  | .snapshotShipDone d x ok => Sys2Proof.Machine.execSnapshotShipDone d x ok s
  | .cxlMemRead l off len errs => Sys2Proof.Machine.execCxlMemRead l off len errs s
  | .cxlMemWrite l off data errs => Sys2Proof.Machine.execCxlMemWrite l off data errs s
  | .rowCopyDone st ch row => Sys2Proof.Machine.execRowCopyDone st ch row s
  | .remapFlashWrite st => Sys2Proof.Machine.execRemapFlashWrite st s
  | .patrolRead st errs => Sys2Proof.Machine.execPatrolRead st errs s
  | .scrubAgeLate st => Sys2Proof.Machine.execScrubAgeLate st s
  | .readAgePromote st => Sys2Proof.Machine.execReadAgePromote st s
  | .parityError st ch => Sys2Proof.Machine.execParityError st ch s
  | .channelRetrainDone st ch ok => Sys2Proof.Machine.execChannelRetrainDone st ch ok s
  | .stackTempReport st temp => Sys2Proof.Machine.execStackTempReport st temp s
  | .warmGraceExpire st => Sys2Proof.Machine.execWarmGraceExpire st s
  | .stackSensorLost st => Sys2Proof.Machine.execStackSensorLost st s
  | .selfRefreshEnter st => Sys2Proof.Machine.execSelfRefreshEnter st s
  | .memCfgWrite a v => Sys2Proof.Machine.execMemCfgWrite a v s
  | .cmdDoorbell l r tail => Sys2Proof.Machine.execCmdDoorbell l r tail s
  | .cmdTake l r => Sys2Proof.Machine.execCmdTake l r s
  | .cmdTimeout l r => Sys2Proof.Machine.execCmdTimeout l r s
  | .cmdResume l => Sys2Proof.Machine.execCmdResume l s
  | .identify h => Sys2Proof.Machine.execIdentify h s
  | .bindLd h q => Sys2Proof.Machine.execBindLd h q s
  | .ctxCreate h q => Sys2Proof.Machine.execCtxCreate h q s
  | .ctxDestroy h q => Sys2Proof.Machine.execCtxDestroy h q s
  | .ctxDrainEnd d x => Sys2Proof.Machine.execCtxDrainEnd d x s
  | .ctxQuarantineEnd d x => Sys2Proof.Machine.execCtxQuarantineEnd d x s
  | .streamOpen h q => Sys2Proof.Machine.execStreamOpen h q s
  | .streamClose h q => Sys2Proof.Machine.execStreamClose h q s
  | .launch h q => Sys2Proof.Machine.execLaunch h q s
  | .syncAlloc h q => Sys2Proof.Machine.execSyncAlloc h q s
  | .syncPoison h q => Sys2Proof.Machine.execSyncPoison h q s
  | .memMap h q => Sys2Proof.Machine.execMemMap h q s
  | .qpOpen h q => Sys2Proof.Machine.execQpOpen h q s
  | .qpClose h qpn => Sys2Proof.Machine.execQpClose h qpn s
  | .ttLoad h q => Sys2Proof.Machine.execTtLoad h q s
  | .ttArm h q => Sys2Proof.Machine.execTtArm h q s
  | .ttSelectVariant h q => Sys2Proof.Machine.execTtSelectVariant h q s
  | .timeStatus h => Sys2Proof.Machine.execTimeStatus h s
  | .jobEpoch h q => Sys2Proof.Machine.execJobEpoch h q s
  | .snapshot h q => Sys2Proof.Machine.execSnapshot h q s
  | .reset h q => Sys2Proof.Machine.execReset h q s
  | .quiesce h q => Sys2Proof.Machine.execQuiesce h q s
  | .quiesceEnd l r => Sys2Proof.Machine.execQuiesceEnd l r s
  | .health h => Sys2Proof.Machine.execHealth h s
  | .fwStage h q => Sys2Proof.Machine.execFwStage h q s
  | .fwActivate h => Sys2Proof.Machine.execFwActivate h s
  | .attest h q => Sys2Proof.Machine.execAttest h q s
  | .streamNop d n => Sys2Proof.Machine.execStreamNop d n s
  | .streamKernel d n => Sys2Proof.Machine.execStreamKernel d n s
  | .streamWait d n => Sys2Proof.Machine.execStreamWait d n s
  | .streamSignal d n => Sys2Proof.Machine.execStreamSignal d n s
  | .streamColl d n => Sys2Proof.Machine.execStreamColl d n s
  | .kernelComplete d id => Sys2Proof.Machine.execKernelComplete d id s
  | .mbxRing a m => Sys2Proof.Machine.execMbxRing a m s
  | .mbxDeliver d => Sys2Proof.Machine.execMbxDeliver d s
  | .lckRead a n => Sys2Proof.Machine.execLckRead a n s
  | .lckWrite a n v => Sys2Proof.Machine.execLckWrite a n v s
  | .cxlPerst port => Sys2Proof.Machine.execCxlPerst port s
  | .rdmaWrite qpn rkey addr data errs => Sys2Proof.Machine.execRdmaWrite qpn rkey addr data errs s
  | .rdmaWriteImmediate qpn rkey addr data imm errs => Sys2Proof.Machine.execRdmaWriteImmediate qpn rkey addr data imm errs s
  | .rdmaRead qpn rkey addr len errs => Sys2Proof.Machine.execRdmaRead qpn rkey addr len errs s
  | .rdmaUnsupportedOp qpn u => Sys2Proof.Machine.execRdmaUnsupportedOp qpn u s
  | .qpRetryExhausted qpn => Sys2Proof.Machine.execQpRetryExhausted qpn s
  | .tlyClear a d x v => Sys2Proof.Machine.execTlyClear a d x v s
  | .tlyClearDone d x => Sys2Proof.Machine.execTlyClearDone d x s
  | .setEndpointId t eid => Sys2Proof.Machine.execSetEndpointId t eid s
  | .getEndpointId t => Sys2Proof.Machine.execGetEndpointId t s
  | .getMctpVersionSupport t ty => Sys2Proof.Machine.execGetMctpVersionSupport t ty s
  | .getMessageTypeSupport t => Sys2Proof.Machine.execGetMessageTypeSupport t s
  | .mctpUnsupportedType t ty => Sys2Proof.Machine.execMctpUnsupportedType t ty s
  | .getPdrRepositoryInfo t => Sys2Proof.Machine.execGetPdrRepositoryInfo t s
  | .getPdr t handle => Sys2Proof.Machine.execGetPdr t handle s
  | .getSensorReading t x => Sys2Proof.Machine.execGetSensorReading t x s
  | .getStateSensorReadings t x => Sys2Proof.Machine.execGetStateSensorReadings t x s
  | .getNumericEffecterValue t x => Sys2Proof.Machine.execGetNumericEffecterValue t x s
  | .setNumericEffecterValue t x v => Sys2Proof.Machine.execSetNumericEffecterValue t x v s
  | .pollForPlatformEventMessage t => Sys2Proof.Machine.execPollForPlatformEventMessage t s
  | .getVersion t => Sys2Proof.Machine.execGetVersion t s
  | .getCapabilities t => Sys2Proof.Machine.execGetCapabilities t s
  | .negotiateAlgorithms t rsa3072 sha256 => Sys2Proof.Machine.execNegotiateAlgorithms t rsa3072 sha256 s
  | .getDigests t => Sys2Proof.Machine.execGetDigests t s
  | .getCertificate t slot off len => Sys2Proof.Machine.execGetCertificate t slot off len s
  | .challenge t slot nonce => Sys2Proof.Machine.execChallenge t slot nonce s
  | .getMeasurements t index signed nonce => Sys2Proof.Machine.execGetMeasurements t index signed nonce s
  | .spdmUnsupported t code => Sys2Proof.Machine.execSpdmUnsupported t code s
  | .queryDeviceIdentifiers t => Sys2Proof.Machine.execQueryDeviceIdentifiers t s
  | .getFirmwareParameters t => Sys2Proof.Machine.execGetFirmwareParameters t s
  | .requestUpdate t => Sys2Proof.Machine.execRequestUpdate t s
  | .passComponentTable t comp => Sys2Proof.Machine.execPassComponentTable t comp s
  | .updateComponent t comp size => Sys2Proof.Machine.execUpdateComponent t comp size s
  | .requestFirmwareData data last => Sys2Proof.Machine.execRequestFirmwareData data last s
  | .verifyComplete => Sys2Proof.Machine.execVerifyComplete s
  | .activateFirmware t => Sys2Proof.Machine.execActivateFirmware t s
  | .getStatus t => Sys2Proof.Machine.execGetStatus t s
  | .cancelUpdateComponent t => Sys2Proof.Machine.execCancelUpdateComponent t s
  | .cancelUpdate t => Sys2Proof.Machine.execCancelUpdate t s
  | .stageTimeout => Sys2Proof.Machine.execStageTimeout s
  | .flashWriteDone => Sys2Proof.Machine.execFlashWriteDone s
  | .presentChange high rec => Sys2Proof.Machine.execPresentChange high rec s
  | .standbyPowerGood pufOk => Sys2Proof.Machine.execStandbyPowerGood pufOk s
  | .standbyPowerLoss => Sys2Proof.Machine.execStandbyPowerLoss s
  | .feedAFail => Sys2Proof.Machine.execFeedAFail s
  | .feedAReturn => Sys2Proof.Machine.execFeedAReturn s
  | .efuseTrip feed => Sys2Proof.Machine.execEfuseTrip feed s
  | .efuseReclose feed => Sys2Proof.Machine.execEfuseReclose feed s
  | .powerLoss => Sys2Proof.Machine.execPowerLoss s
  | .powerWindowEnd => Sys2Proof.Machine.execPowerWindowEnd s
  | .powerLimitWrite a v => Sys2Proof.Machine.execPowerLimitWrite a v s
  | .throttleCWrite a v => Sys2Proof.Machine.execThrottleCWrite a v s
  | .dockReqWrite a d v => Sys2Proof.Machine.execDockReqWrite a d v s
  | .deckDock d => Sys2Proof.Machine.execDeckDock d s
  | .deckWake d => Sys2Proof.Machine.execDeckWake d s
  | .dockIdleExpire d => Sys2Proof.Machine.execDockIdleExpire d s
  | .standbyReqWrite a v => Sys2Proof.Machine.execStandbyReqWrite a v s
  | .moduleStandbyEnter => Sys2Proof.Machine.execModuleStandbyEnter s
  | .rampWindow => Sys2Proof.Machine.execRampWindow s
  | .rowPark d row => Sys2Proof.Machine.execRowPark d row s
  | .dieTempSample n temps => Sys2Proof.Machine.execDieTempSample n temps s
  | .thermalWindowEnd => Sys2Proof.Machine.execThermalWindowEnd s
  | .cmdpLockstepDiverge => Sys2Proof.Machine.execCmdpLockstepDiverge s
  | .spadScrubUnit c r => Sys2Proof.Machine.execSpadScrubUnit c r s
  | .spadScrubLate d => Sys2Proof.Machine.execSpadScrubLate d s
  | .swrstCtx a d x => Sys2Proof.Machine.execSwrstCtx a d x s
  | .swrstEngine a d x core => Sys2Proof.Machine.execSwrstEngine a d x core s
  | .swrstCompute a d => Sys2Proof.Machine.execSwrstCompute a d s
  | .swrstFull a d => Sys2Proof.Machine.execSwrstFull a d s
  | .swrstCmdpRestart a => Sys2Proof.Machine.execSwrstCmdpRestart a s
  | .swrstEth a e => Sys2Proof.Machine.execSwrstEth a e s
  | .swrstModuleWarm a => Sys2Proof.Machine.execSwrstModuleWarm a s
  | .cmdpRestartTimeout => Sys2Proof.Machine.execCmdpRestartTimeout s
  | .resetComplete sc => Sys2Proof.Machine.execResetComplete sc s
  | .resetTimeLimit sc => Sys2Proof.Machine.execResetTimeLimit sc s
  | .mrst low widthNs => Sys2Proof.Machine.execMrst low widthNs s
  | .releaseStep boot => Sys2Proof.Machine.execReleaseStep boot s
  | .watchdogExpire c => Sys2Proof.Machine.execWatchdogExpire c s
  | .shutdownRecovery d => Sys2Proof.Machine.execShutdownRecovery d s
  | .pwrcycTimeout => Sys2Proof.Machine.execPwrcycTimeout s
  | .rstLegacyWarm a key => Sys2Proof.Machine.execRstLegacyWarm a key s
  | .legacyWindowExpire => Sys2Proof.Machine.execLegacyWindowExpire s
  | .registerWrite a r v => Sys2Proof.Machine.execRegisterWrite a r v s
  | .engineInstructionComplete c e => Sys2Proof.Machine.execEngineInstructionComplete c e s
  | .badOpcodeIssue c w => Sys2Proof.Machine.execBadOpcodeIssue c w s
  | .chunkReady k p chunk errs => Sys2Proof.Machine.execChunkReady k p chunk errs s
  | .powerSample watts va ia vb ib => Sys2Proof.Machine.execPowerSample watts va ia vb ib s
  | .powerOn => Sys2Proof.Machine.execPowerOn s
  | .fibreConnectorRemove p => Sys2Proof.Machine.execFibreConnectorRemove p s
  | .laneSignal p => Sys2Proof.Machine.execLaneSignal p s
  | .idleFrameReceive p ack => Sys2Proof.Machine.execIdleFrameReceive p ack s
  | .rcRegisterRead a r => Sys2Proof.Machine.execRcRegisterRead a r s
  | .entdaa addr => Sys2Proof.Machine.execEntdaa addr s
  | .fencedSendRelease c => Sys2Proof.Machine.execFencedSendRelease c s
  | .congestionNotificationPacket qpn => Sys2Proof.Machine.execCongestionNotificationPacket qpn s
  | .priorityFlowControlFrame e pause => Sys2Proof.Machine.execPriorityFlowControlFrame e pause s
  | .cxlLinkTrained port width rate => Sys2Proof.Machine.execCxlLinkTrained port width rate s

end Sys2Proof.Machine
end

