-- ==== Sys2Proof/Machine/Idle.lean ====
section
/-! DEFINITION. What passes of itself while no command waits: one tick of the clock (log entry 4), and at every second the
ages of the scrub passes (R321, R515). -/
namespace Sys2Proof.Machine
open Sys2Proof

/-- One second of a deck in Run: its scratchpad passes age, and the patrol passes of the stacks not in self-refresh. -/
def deckSecond (k : Deck) : Deck :=
  if k.power ≠ .run ∨ k.reset ≠ .none then k
  else (List.range 4).foldl (fun k i => modStack k i (fun x => if x.selfRefresh then x else { x with ageS := satInc x.ageS }))
    { k with scrubRun := k.scrubRun + 1 }

/-- The module reset of a RESET at level 5, 10 µs after its reply (R431). -/
def resetIfDue (s : State) : State :=
  match s.rst.resetDue with
  | none => s
  | some t => if t ≤ clockNs s then moduleReset (modRst s (fun r => { r with resetDue := none })) false false 5 0 false else s

/-- One tick of 5 ns: hall time and the clock advance, the sailings in progress carry what it lets them, and a module reset that
is due takes effect. -/
def idleTick (s : State) : State :=
  let s1 := resetIfDue (sailAll (tick s))
  if s1.clock % 200000000 = 0 then
    (List.range 32).foldl opScrubLate ((List.range 8).foldl (fun s d => modDeck s d deckSecond) s1)
  else s1

end Sys2Proof.Machine
end

