-- ==== Sys2Proof/Safety.lean ====
section
/-! DEFINITION. What claims speak of: the canonical form of memory, a core and its parts as a claim names them, and the safety
properties of the whole block. -/
namespace Sys2Proof.Machine
open Sys2Proof

/-- The canonical form of a byte store: addresses strictly rising, no byte listed that an unlisted address reads as. -/
def Memory.wf (m : Cells) : Bool := mapWf 0 m

/-- Every deck's stack memory is in canonical form. -/
def memoryWf (s : State) : Bool := s.decks.all (fun e => Memory.wf e.2.mem)

/-- One byte of the stack memory of deck `d`. -/
def deckByte (s : State) (d a : Nat) : Byte := cellGet (deckAt s d).mem a

/-- The core that a command names. -/
def coreOf (s : State) (c : CoreRef) : Core := coreAt (deckAt s c.deck) c.core

/-- Scalar register `r` of a core. -/
def sreg (s : State) (c : CoreRef) (r : BitVec 5) : W64 := sGet (coreOf s c) r

/-- Can core `c` issue its next instruction (R110)? -/
def canIssue (s : State) (c : CoreRef) : Bool := scalarReady (coreOf s c)

/-- The instruction at PC is not the last word of a running loop's body, and a successor word exists: it retires to the next
word. -/
def plainNext (k : Core) : Bool := k.loops.all (fun f => decide (f.last ≠ k.pc.toNat)) && decide (k.pc.toNat < 8191)

/-- The core after a scalar instruction that wrote `v` into `rd` retired to the next word. (DEDUCED, log entry 46.) -/
def retired (k : Core) (rd : BitVec 5) (v : W64) : Core := { sSet k rd v with pc := k.pc + 1 }

/-- `s` with core `c` replaced. -/
def putCore (s : State) (c : CoreRef) (k : Core) : State := setDeck s c.deck (setCore (deckAt s c.deck) c.core k)

/-- CORE_FAULT after a fault with `st` at engine `e`: the first one stays (R156). -/
def faultedWith (k : Core) (st : Status) (e : BitVec 2) : CoreFault :=
  if k.fault.valid then k.fault else { status := st, pc := k.pc, engine := e, valid := true }

/-- A 128-bit instruction at PC fits below word 8,191, begins on no body's last word and ends no body. -/
def wideNext (k : Core) : Bool :=
  k.loops.all (fun f => decide (f.last ≠ k.pc.toNat) && decide (f.last ≠ k.pc.toNat + 1)) && decide (k.pc.toNat + 2 ≤ 8191)

/-- The engine of an opcode: 0 scalar, 1 vector, 2 matrix, 3 mover. -/
def opEngine (op : Nat) : BitVec 2 := if op < 0x80 then 0 else if op < 0xA0 then 1 else if op < 0xB0 then 2 else 3

/-- The registers and memories of a core are the same. -/
def sameRegs (k k' : Core) : Prop :=
  k'.s = k.s ∧ k'.v = k.v ∧ k'.k = k.k ∧ k'.acc = k.acc ∧ k'.dmem = k.dmem ∧ k'.spad = k.spad ∧ k'.t = k.t ∧ k'.lc = k.lc ∧
  k'.live = k.live ∧ k'.loops = k.loops ∧ k'.pc = k.pc

/-- Nothing but deck `d` differs. -/
def onlyDeck (s t : State) (d : Nat) : Prop := t = { s with decks := t.decks } ∧ ∀ e, e ≠ d → deckAt t e = deckAt s e

/-- The command of header `h` got one more status reply, with status `st` and result `res`, in the place that SR_TAIL named
(R425). -/
def replied (s t : State) (h : CmdHdr) (st : Status) (res : Nat) : Prop :=
  let q := ringAt s (ldKey h.ld) h.ring.val
  (ringAt t (ldKey h.ld) h.ring.val).srTail = q.srTail + 1 ∧
  readNat (ldAt t (ldKey h.ld)).mem (0x20000 + 0x2000 * h.ring.val + 16 * (q.srTail.toNat % 512)) 16 =
    st.toNat + 2 ^ 16 * h.opcode.toNat + 2 ^ 32 * h.seq.toNat + 2 ^ 64 * h.tag.toNat + 2 ^ 96 * (res % 2 ^ 32)

/-- The first byte of the packet slot of the command last taken from a ring (R425). -/
def slotBase (s : State) (h : CmdHdr) : Nat :=
  0x10000 * h.ring.val + 256 * (((ringAt s (ldKey h.ld) h.ring.val).crHead - 1).toNat % 256)

/-- Nothing but its LD's own authority stands in the way of a command: the CMDP runs, no recovery loader, not the FM-owned
LD's short list, and its LD has not been unbound since it was taken (R421, R430, R484). -/
def cmdOpen (s : State) (h : CmdHdr) : Bool := (gateCmd s h).isNone && !muted s h

/-- No error that no read has met yet stands in a deck's memory. -/
def memClean (s : State) : Prop := ∀ d, (deckAt s d).latent = []

/-- Nothing waits at a channel that retrains or a row being copied (R315, R329). -/
def noneHeld (s : State) : Prop := s.host.held = [] ∧ s.net.fenceHold = []

/-- As `cmdOpen`, for a command that names deck `d`: its LD holds the deck, and no fault action runs on it or on the context
named (R36, R430). -/
def deckOpen (s : State) (h : CmdHdr) (d : BitVec 8) (x : Option (BitVec 8)) : Bool :=
  cmdOpen s h && decide (d.toNat < 8) && ldHolds s (ldKey h.ld) d.toNat && !faultRuns s d.toNat (x.map (fun c => c.setWidth 4))

/-- While the safety latch is set, main conversion is off (R511, R512). -/
def latchedOff (s : State) : Bool := !s.safety.latched || s.power.moduleState == 2

/-- A state from which no listed command stops with a fault or a refusal. -/
def runs (s : State) (cs : List Instr) : Prop := ∀ c ∈ cs, ∃ t, exec c s = .next t

end Sys2Proof.Machine
end

