-- ==== Sys2Proof/Certificates/Slice0/Obligations.lean ====
section
/-! DEFINITION. The statements for the provers. Each docstring names what in spec/ the statement rests on and says it in
words. -/
open Sys2Proof Sys2Proof.Machine

/-- [00_overview: how the block is driven] For every state s and command c, a step of s with c put at the front of its
queue is exec of c on s: the rest of the queue stays as it was. This is the model's frame for commands (a queue,
first in, first out). -/
def Obligations.StepRunsTheFrontCommand : Prop :=
  ∀ (s : State) (c : Instr), step (s.withFront c) = exec c s

/-- [02_hall_time: the HTU counts in ticks of 5 ns] The model's choice (log entry 4): on an empty queue a step answers a
next state whose queue is still empty and whose model clock is one tick later; the decks' stack memory is unchanged unless a module
reset that a RESET command asked for falls due (log entry 60). -/
def Obligations.EmptyQueueTicks : Prop :=
  ∀ s : State, s.pending = [] → ∃ t, step s = .next t ∧ t.pending = [] ∧ t.clock = s.clock + 1 ∧
    (s.rst.resetDue = none → ∀ d a, deckByte t d a = deckByte s d a)

/-- [00_overview: commands and errors] For every command and every state, exec answers a next state: the model has no
fault and no refusal. Where the spec gives an error, it is the command's effect on the state. -/
def Obligations.EveryCommandAnswers : Prop :=
  ∀ (i : Instr) (s : State), ∃ t, exec i s = .next t

/-- [R110, R116, R121, R142, 04_instruction_set: Integer register operations, R191] On a core that can issue and whose PC
is not the last word of a running loop, each of the 16 integer register operations with its unused field RS3 and reserved
bits 0 answers the state in which only that core changed: RD takes the result of RS1 and RS2 (a write to s0 is dropped),
PC goes to the next word, and everything else (other registers, memories, queues, every other part of the module) is as
before. Division by 0 gives all ones and the dividend. Completes: add, sub, andOp, orOp, xor, sll, srl, sra, slt, sltu,
mul, mulhu, div, divu, rem, remu. -/
def Obligations.RegisterOperations : Prop :=
  ∀ (s : State) (c : CoreRef) (f : FmtR), canIssue s c = true → plainNext (coreOf s c) = true → f.rs3 = 0 → f.res = 0 →
    let k := coreOf s c
    let a := sreg s c f.rs1
    let b := sreg s c f.rs2
    let n := b.toNat % 64
    exec (.add c f) s = .next (putCore s c (retired k f.rd (a + b))) ∧
    exec (.sub c f) s = .next (putCore s c (retired k f.rd (a - b))) ∧
    exec (.andOp c f) s = .next (putCore s c (retired k f.rd (a &&& b))) ∧
    exec (.orOp c f) s = .next (putCore s c (retired k f.rd (a ||| b))) ∧
    exec (.xor c f) s = .next (putCore s c (retired k f.rd (a ^^^ b))) ∧
    exec (.sll c f) s = .next (putCore s c (retired k f.rd (a <<< n))) ∧
    exec (.srl c f) s = .next (putCore s c (retired k f.rd (a >>> n))) ∧
    exec (.sra c f) s = .next (putCore s c (retired k f.rd (a.sshiftRight n))) ∧
    exec (.slt c f) s = .next (putCore s c (retired k f.rd (if a.toInt < b.toInt then 1 else 0))) ∧
    exec (.sltu c f) s = .next (putCore s c (retired k f.rd (if a.toNat < b.toNat then 1 else 0))) ∧
    exec (.mul c f) s = .next (putCore s c (retired k f.rd (BitVec.ofNat 64 (a.toNat * b.toNat)))) ∧
    exec (.mulhu c f) s = .next (putCore s c (retired k f.rd (BitVec.ofNat 64 (a.toNat * b.toNat / 2 ^ 64)))) ∧
    exec (.div c f) s = .next (putCore s c (retired k f.rd (if b = 0 then BitVec.allOnes 64 else a.sdiv b))) ∧
    exec (.divu c f) s = .next (putCore s c (retired k f.rd (if b = 0 then BitVec.allOnes 64 else a / b))) ∧
    exec (.rem c f) s = .next (putCore s c (retired k f.rd (if b = 0 then a else a.srem b))) ∧
    exec (.remu c f) s = .next (putCore s c (retired k f.rd (if b = 0 then a else a % b)))

/-- [R110, R116, R164, 04_instruction_set: Integer immediate operations, R191] As RegisterOperations, for the 10 immediate
operations: the immediate is sign-extended, except that shifts take IMM32[5:0] (bits [31:6] being 0) and LIH puts it above
RS1[31:0]. Completes: addi, andi, ori, xori, slli, srli, srai, slti, sltiu, lih. -/
def Obligations.ImmediateOperations : Prop :=
  ∀ (s : State) (c : CoreRef) (f : FmtI), canIssue s c = true → plainNext (coreOf s c) = true → f.rs2 = 0 → f.res = 0 →
    let k := coreOf s c
    let a := sreg s c f.rs1
    let b := f.imm.signExtend 64
    exec (.addi c f) s = .next (putCore s c (retired k f.rd (a + b))) ∧
    exec (.andi c f) s = .next (putCore s c (retired k f.rd (a &&& b))) ∧
    exec (.ori c f) s = .next (putCore s c (retired k f.rd (a ||| b))) ∧
    exec (.xori c f) s = .next (putCore s c (retired k f.rd (a ^^^ b))) ∧
    exec (.slti c f) s = .next (putCore s c (retired k f.rd (if a.toInt < b.toInt then 1 else 0))) ∧
    exec (.sltiu c f) s = .next (putCore s c (retired k f.rd (if a.toNat < b.toNat then 1 else 0))) ∧
    exec (.lih c f) s = .next (putCore s c (retired k f.rd (f.imm ++ a.setWidth 32))) ∧
    (f.imm.toNat < 64 →
      exec (.slli c f) s = .next (putCore s c (retired k f.rd (a <<< f.imm.toNat))) ∧
      exec (.srli c f) s = .next (putCore s c (retired k f.rd (a >>> f.imm.toNat))) ∧
      exec (.srai c f) s = .next (putCore s c (retired k f.rd (a.sshiftRight f.imm.toNat))))

/-- [R120, R122, R125, 04_instruction_set: Memory] On a core that can issue, a load of n bytes at a naturally aligned
address RS1 + IMM32 inside data memory writes RD with the bytes, lowest address first, zero- or sign-extended; LDS reads 8
bytes of the own scratchpad at an aligned address below 262,144 whose unit holds no uncorrectable error. Only that core
changes, in RD and PC. Completes: ldb, ldh, ldw, ldd, ldbs, ldhs, ldws, lds. -/
def Obligations.DataMemoryLoads : Prop :=
  ∀ (s : State) (c : CoreRef) (f : FmtI), canIssue s c = true → plainNext (coreOf s c) = true → f.rs2 = 0 → f.res = 0 →
    let k := coreOf s c
    let a := (sreg s c f.rs1 + f.imm.signExtend 64).toNat
    (a < 32768 →
      exec (.ldb c f) s = .next (putCore s c (retired k f.rd (BitVec.ofNat 64 (readNat k.dmem a 1)))) ∧
      exec (.ldbs c f) s = .next (putCore s c (retired k f.rd ((BitVec.ofNat 8 (readNat k.dmem a 1)).signExtend 64)))) ∧
    (a < 32768 → a % 2 = 0 →
      exec (.ldh c f) s = .next (putCore s c (retired k f.rd (BitVec.ofNat 64 (readNat k.dmem a 2)))) ∧
      exec (.ldhs c f) s = .next (putCore s c (retired k f.rd ((BitVec.ofNat 16 (readNat k.dmem a 2)).signExtend 64)))) ∧
    (a < 32768 → a % 4 = 0 →
      exec (.ldw c f) s = .next (putCore s c (retired k f.rd (BitVec.ofNat 64 (readNat k.dmem a 4)))) ∧
      exec (.ldws c f) s = .next (putCore s c (retired k f.rd ((BitVec.ofNat 32 (readNat k.dmem a 4)).signExtend 64)))) ∧
    (a < 32768 → a % 8 = 0 →
      exec (.ldd c f) s = .next (putCore s c (retired k f.rd (BitVec.ofNat 64 (readNat k.dmem a 8))))) ∧
    (a < 262144 → a % 8 = 0 → unitOk k (a / 32) = true →
      exec (.lds c f) s = .next (putCore s c (retired k f.rd (BitVec.ofNat 64 (readNat k.spad a 8)))))

/-- [R120, R122, R125, 04_instruction_set: Memory] On a core that can issue, STB, STH, STW and STD at an aligned address
inside data memory store the low bytes of RS2, lowest address first, and STS stores RS2 to the scratchpad where the unit
holds no uncorrectable error. Nothing else changes but PC: every other byte of data memory, the scratchpad, the registers
and the rest of the module are as before. Completes: stb, sth, stw, std, sts. -/
def Obligations.StoresChangeOnlyTheirBytes : Prop :=
  ∀ (s : State) (c : CoreRef) (f : FmtI), canIssue s c = true → plainNext (coreOf s c) = true → f.rd = 0 → f.res = 0 →
    let k := coreOf s c
    let a := (sreg s c f.rs1 + f.imm.signExtend 64).toNat
    let v := sreg s c f.rs2
    (∀ p ∈ [(1, Instr.stb c f), (2, Instr.sth c f), (4, Instr.stw c f), (8, Instr.std c f)], a < 32768 → a % p.1 = 0 →
      ∃ m, exec p.2 s = .next (putCore s c { k with dmem := m, pc := k.pc + 1 }) ∧
        readNat m a p.1 = v.toNat % 256 ^ p.1 ∧ ∀ x, x < a ∨ a + p.1 ≤ x → cellGet m x = cellGet k.dmem x) ∧
    (a < 262144 → a % 8 = 0 → unitOk k (a / 32) = true →
      ∃ m, exec (.sts c f) s = .next (putCore s c { k with spad := m, pc := k.pc + 1 }) ∧
        readNat m a 8 = v.toNat ∧ ∀ x, x < a ∨ a + 8 ≤ x → cellGet m x = cellGet k.spad x)

/-- [R122] On a core that can issue, with the encoding in order: a load or store whose address is not naturally aligned
or does not lie inside data memory, an LDS or STS at a misaligned address, a taken branch or jump to a word beyond
8,191, and a NOP that retires to the word after 8,191 with no loop running record BAD_PARAM, engine 0 and
the PC in CORE_FAULT (unless an earlier fault stands there), and the data memory, the scratchpad and the scalar
registers are as before (JAL and JALR write nothing then, log entry 28). Any other NOP that ends no loop body moves the
PC to the next word and changes nothing else. Completes: nop. -/
def Obligations.MisalignedOrOutsideAccessFaults : Prop :=
  ∀ (s : State) (c : CoreRef) (f : FmtI), canIssue s c = true → f.res = 0 →
    let k := coreOf s c
    let a := (sreg s c f.rs1 + f.imm.signExtend 64).toNat
    let faults := fun i => ∃ t, exec i s = .next t ∧ (coreOf t c).fault = faultedWith k stBadParam 0 ∧
      (coreOf t c).dmem = k.dmem ∧ (coreOf t c).spad = k.spad ∧ (coreOf t c).s = k.s ∧ (coreOf t c).pc = k.pc
    (f.rs2 = 0 → ∀ p ∈ [(1, Instr.ldb c f), (1, Instr.ldbs c f), (2, Instr.ldh c f), (2, Instr.ldhs c f), (4, Instr.ldw c f),
      (4, Instr.ldws c f), (8, Instr.ldd c f)], a % p.1 ≠ 0 ∨ 32767 < a → faults p.2) ∧
    (f.rd = 0 → ∀ p ∈ [(1, Instr.stb c f), (2, Instr.sth c f), (4, Instr.stw c f), (8, Instr.std c f)],
      a % p.1 ≠ 0 ∨ 32767 < a → faults p.2) ∧
    (a % 8 ≠ 0 → (f.rs2 = 0 → faults (.lds c f)) ∧ (f.rd = 0 → faults (.sts c f))) ∧
    (8191 < f.imm.toNat → (f.rs1 = 0 → f.rs2 = 0 → faults (.jal c f)) ∧
      (f.rd = 0 → ∀ p ∈ [(sreg s c f.rs1 == sreg s c f.rs2, Instr.beq c f), (sreg s c f.rs1 != sreg s c f.rs2, Instr.bne c f),
        ((sreg s c f.rs1).slt (sreg s c f.rs2), Instr.blt c f), (!(sreg s c f.rs1).slt (sreg s c f.rs2), Instr.bge c f),
        ((sreg s c f.rs1).ult (sreg s c f.rs2), Instr.bltu c f), (!(sreg s c f.rs1).ult (sreg s c f.rs2), Instr.bgeu c f)],
        p.1 = true → faults p.2)) ∧
    (8191 < a → f.rs2 = 0 → faults (.jalr c f)) ∧
    (k.pc = 8191 → k.loops = [] → faults (.nop c { body := 0 })) ∧
    (plainNext k = true → exec (.nop c { body := 0 }) s = .next (putCore s c { k with pc := k.pc + 1 }))

/-- [R121, R203, R204, 04_instruction_set: Scalar FP32] On a core that can issue, each of the 11 FP32 operations writes RD
from bits [31:0] of its operands, with one rounding; an FP32 result leaves RD[63:32] 0; a comparison with a NaN gives 0;
FCVT.L.S of a NaN gives 0. Only RD and PC of that core change and no fault is raised. Completes: fadd, fsub, fmul, ffma,
fmin, fmax, flt, fle, feq, fcvtSL, fcvtLS. -/
def Obligations.FloatOperations : Prop :=
  ∀ (s : State) (c : CoreRef) (f : FmtR), canIssue s c = true → plainNext (coreOf s c) = true → f.res = 0 →
    let k := coreOf s c
    let a : W32 := (sreg s c f.rs1).setWidth 32
    let b : W32 := (sreg s c f.rs2).setWidth 32
    let x : W32 := (sreg s c f.rs3).setWidth 32
    let ans := fun (i : Instr) (v : W32) => exec i s = .next (putCore s c (retired k f.rd (v.setWidth 64)))
    let cmp := fun (i : Instr) (v : Bool) => exec i s = .next (putCore s c (retired k f.rd (if v then 1 else 0)))
    ans (.ffma c f) (f32Fma a b x) ∧
    (f.rs3 = 0 →
      ans (.fadd c f) (f32Add a b) ∧ ans (.fsub c f) (f32Sub a b) ∧ ans (.fmul c f) (f32Mul a b) ∧
      ans (.fmin c f) (f32Min a b) ∧ ans (.fmax c f) (f32Max a b) ∧
      cmp (.flt c f) (fvLtC (f32 a) (f32 b)) ∧ cmp (.fle c f) (fvLe (f32 a) (f32 b)) ∧ cmp (.feq c f) (fvEq (f32 a) (f32 b)) ∧
      (f32 a = .nan ∨ f32 b = .nan → cmp (.flt c f) false ∧ cmp (.fle c f) false ∧ cmp (.feq c f) false)) ∧
    (f.rs3 = 0 → f.rs2 = 0 →
      ans (.fcvtSL c f) (toF32 (fvOfInt (sreg s c f.rs1).toInt)) ∧
      exec (.fcvtLS c f) s = .next (putCore s c (retired k f.rd (toInt64Trunc (f32 a)))) ∧
      (f32 a = .nan → exec (.fcvtLS c f) s = .next (putCore s c (retired k f.rd 0))))

/-- [R142] On a core that can issue, a conditional branch whose condition holds, JAL and JALR go to their target word at
most 8,191: every running loop whose body does not hold the target, from the innermost out, ends with live count 0, and a
body branched into from outside starts no loop; a branch not taken goes to the next word. JAL and JALR write the next
word's address to RD. Nothing else changes. Completes: beq, bne, blt, bge, bltu, bgeu, jal, jalr. -/
def Obligations.TakenBranchesEndLoops : Prop :=
  ∀ (s : State) (c : CoreRef) (f : FmtI), canIssue s c = true → f.res = 0 →
    let k := coreOf s c
    let a := sreg s c f.rs1
    let b := sreg s c f.rs2
    let out := fun (t : Nat) => k.loops.takeWhile (fun g => !(decide (g.first ≤ t) && decide (t ≤ g.last)))
    let goes := fun (i : Instr) (t : Nat) (k' : Core) => ∃ live,
      exec i s = .next (putCore s c { k' with pc := BitVec.ofNat 13 t, loops := k.loops.drop (out t).length, live := live }) ∧
      (∀ g ∈ out t, mapGet 0 live g.ctr.toNat = 0) ∧
      ∀ n, (∀ g ∈ out t, g.ctr.toNat ≠ n) → mapGet 0 live n = mapGet 0 k.live n
    (f.rd = 0 → ∀ p ∈ [(a == b, Instr.beq c f), (a != b, Instr.bne c f), (decide (a.toInt < b.toInt), Instr.blt c f),
        (decide (b.toInt ≤ a.toInt), Instr.bge c f), (decide (a.toNat < b.toNat), Instr.bltu c f),
        (decide (b.toNat ≤ a.toNat), Instr.bgeu c f)],
      (p.1 = true → f.imm.toNat ≤ 8191 → goes p.2 f.imm.toNat k) ∧
      (p.1 = false → plainNext k = true → exec p.2 s = .next (putCore s c { k with pc := k.pc + 1 }))) ∧
    (f.rs1 = 0 → f.rs2 = 0 → f.imm.toNat ≤ 8191 →
      goes (.jal c f) f.imm.toNat (sSet k f.rd (BitVec.ofNat 64 (k.pc.toNat + 1)))) ∧
    (f.rs2 = 0 → (a + f.imm.signExtend 64).toNat ≤ 8191 →
      goes (.jalr c f) (a + f.imm.signExtend 64).toNat (sSet k f.rd (BitVec.ofNat 64 (k.pc.toNat + 1))))

/-- [R188] On a core that can issue, with an encoding in order: CSRR and CSRW of a number outside 0 to 4, 0x10 to 0x17,
0x20 to 0x22 and 0x28 to 0x2A fault with BAD_PARAM and leave the registers as they were; CSRW to the read-only
numbers 0 to 4 and 0x28 to 0x2A, and to T0, retires with no other effect. -/
def Obligations.CsrNumbersOutsideTheSummaryFault : Prop :=
  ∀ (s : State) (c : CoreRef) (f : FmtC), canIssue s c = true →
    let k := coreOf s c
    let n := (fieldC f 32 12).toNat
    let ro := n ≤ 4 ∨ (0x28 ≤ n ∧ n ≤ 0x2A)
    let known := ro ∨ (0x10 ≤ n ∧ n ≤ 0x17) ∨ (0x20 ≤ n ∧ n ≤ 0x22)
    (¬ known → ∀ p ∈ [(wfCsrr f, Instr.csrr c f), (wfCsrw f, Instr.csrw c f)], p.1 = true →
      ∃ t, exec p.2 s = .next t ∧ (coreOf t c).fault = faultedWith k stBadParam 0 ∧ (coreOf t c).s = k.s ∧
        (coreOf t c).t = k.t ∧ (coreOf t c).lc = k.lc ∧ (coreOf t c).pc = k.pc) ∧
    (ro ∨ n = 0x10 → wfCsrw f = true → plainNext k = true → exec (.csrw c f) s = .next (putCore s c { k with pc := k.pc + 1 }))

/-- [R3, R56, R117, R119, R126, R140, 03_processing_cores: CSR summary] On a core that can issue: CSRR gives the core id
(core index, deck, module number), CORE_CTX (context, tag, launch number), CORE_FAULT, CORE_CYCLE (six per tick of 5 ns
since the kernel started, 0 before), hall time in ns, T0 as 1, a stride register, a loop counter or a live count; CSRW
writes T1 to T7 and LC0 to LC2 from the register, field by field. Nothing else changes but PC. Completes: csrr, csrw. -/
def Obligations.CsrValues : Prop :=
  ∀ (s : State) (c : CoreRef) (f : FmtC), canIssue s c = true → plainNext (coreOf s c) = true →
    let k := coreOf s c
    let n := (fieldC f 32 12).toNat
    let rd := fieldC f 8 5
    let v := sreg s c (fieldC f 13 5)
    let gives := fun (x : W64) => exec (.csrr c f) s = .next (putCore s c (retired k rd x))
    (wfCsrr f = true →
      (n = 0 → gives (BitVec.ofNat 64 (c.core.val + 2 ^ 12 * c.deck.val + 2 ^ 15 * (ownModule s).toNat))) ∧
      (n = 1 → gives (BitVec.ofNat 64 (k.ctx.toNat + 2 ^ 4 * k.tag.toNat + 2 ^ 16 * k.launchSeq.toNat))) ∧
      (n = 3 → k.start = none → gives 0) ∧
      (n = 3 → ∀ t, k.start = some t → gives (BitVec.ofNat 64 ((s.htu.core - t) * 6 / 1280))) ∧
      (n = 2 → gives (BitVec.ofNat 64 (k.fault.status.toNat + 2 ^ 16 * k.fault.pc.toNat + 2 ^ 29 * k.fault.engine.toNat +
        2 ^ 31 * boolNat k.fault.valid))) ∧
      (n = 4 → gives (BitVec.ofNat 64 (hallNs s))) ∧
      (n = 0x10 → gives 1) ∧
      (0x11 ≤ n → n ≤ 0x17 → let t := mapGet {} k.t (n - 0x10)
        gives (BitVec.ofNat 64 (t.row.toNat + 2 ^ 16 * t.iter.toNat + 2 ^ 30 * t.loop.toNat))) ∧
      (0x20 ≤ n → n ≤ 0x22 → gives ((mapGet 0 k.lc (n - 0x20)).setWidth 64)) ∧
      (0x28 ≤ n → n ≤ 0x2A → gives ((mapGet 0 k.live (n - 0x28)).setWidth 64))) ∧
    (wfCsrw f = true →
      (0x11 ≤ n → n ≤ 0x17 → exec (.csrw c f) s = .next (putCore s c { k with
        t := mapSet {} k.t (n - 0x10) { row := v.extractLsb' 0 16, iter := v.extractLsb' 16 14, loop := v.extractLsb' 30 2 },
        pc := k.pc + 1 })) ∧
      (0x20 ≤ n → n ≤ 0x22 → exec (.csrw c f) s = .next (putCore s c { k with
        lc := mapSet 0 k.lc (n - 0x20) (v.setWidth 32), pc := k.pc + 1 })))

/-- [R138, R139, R140, R141] On a core that can issue, a LOOP of a counter that no running loop uses, whose body ends
inside the innermost running loop and on no branch and no LOOP: with LCn at least 1 the live count becomes LCn, the loop
stands as the innermost one and PC goes to the next word; with LCn 0 and no loop running, PC goes to the word after the
body and no loop starts. A LOOP on a counter in use, or that would end after the enclosing body, or whose last instruction
is a branch or LOOP, faults with BAD_PARAM. Completes: loop. -/
def Obligations.LoopStartsOrSkips : Prop :=
  ∀ (s : State) (c : CoreRef) (f : FmtC), canIssue s c = true → wfLoop f = true →
    let k := coreOf s c
    let n := fieldC f 8 2
    let first := k.pc.toNat + 1
    let last := k.pc.toNat + (fieldC f 32 12).toNat + 1
    let cnt := mapGet 0 k.lc n.toNat
    let fits := (∀ g ∈ k.loops, g.ctr ≠ n) ∧ (∀ g ∈ k.loops.head?, last ≤ g.last) ∧
      endsBody (lastOp k.imem first last 4096) = false
    (fits → cnt ≠ 0 → plainNext k = true → exec (.loop c f) s = .next (putCore s c { k with
      live := mapSet 0 k.live n.toNat cnt, latched := mapSet 0 k.latched n.toNat cnt,
      loops := { ctr := n, first := first, last := last } :: k.loops, pc := k.pc + 1 })) ∧
    (fits → cnt = 0 → k.loops = [] → last < 8191 → exec (.loop c f) s = .next (putCore s c { k with
      live := mapSet 0 k.live n.toNat 0, latched := mapSet 0 k.latched n.toNat 0, pc := BitVec.ofNat 13 (last + 1) })) ∧
    (¬ fits → ∃ t, exec (.loop c f) s = .next t ∧ (coreOf t c).fault = faultedWith k stBadParam 0 ∧
      (coreOf t c).loops = k.loops ∧ (coreOf t c).live = k.live)

/-- [R138, R141] A NOP that is the last word of the bodies of the two innermost running loops, on a core that can issue:
while the inner live count is above 1 it falls by 1 and PC goes to the inner body's first word, the outer loop being
untouched; when it is 1 the inner loop ends with live count 0 and the outer count falls by 1, running the outer body
again while it is nonzero. Nothing else of the module changes. -/
def Obligations.InnerLoopEndsBeforeOuter : Prop :=
  ∀ (s : State) (c : CoreRef) (inner outer : LoopFrame) (rest : List LoopFrame), canIssue s c = true →
    let k := coreOf s c
    let n := mapGet 0 k.live inner.ctr.toNat
    let m := mapGet 0 k.live outer.ctr.toNat
    k.loops = inner :: outer :: rest → inner.last = k.pc.toNat → outer.last = k.pc.toNat → inner.ctr ≠ outer.ctr →
    inner.first ≤ 8191 → outer.first ≤ 8191 →
    (n - 1 ≠ 0 → exec (.nop c { body := 0 }) s = .next (putCore s c { k with
      live := mapSet 0 k.live inner.ctr.toNat (n - 1), pc := BitVec.ofNat 13 inner.first })) ∧
    (n = 1 → m - 1 ≠ 0 → exec (.nop c { body := 0 }) s = .next (putCore s c { k with
      loops := outer :: rest, live := mapSet 0 (mapSet 0 k.live inner.ctr.toNat 0) outer.ctr.toNat (m - 1),
      pc := BitVec.ofNat 13 outer.first }))

/-- [R110, R113, R128] On a core that can issue: a FENCE completes at once (PC to the next word) where no earlier
instruction of an engine in MASK is incomplete, else issue stalls with PC in place; a FENCE.PASS always lets issue
go on and, while its SRC engines are busy, holds its DST engines (an empty DST holds nothing); FENCE.SOURCE stalls
until every mover instruction has read its source. FENCE_RELEASE lets a stalled fence go on once its condition holds,
changes nothing of the run state before, and drops the FENCE.PASS entries whose engines are done. Nothing else of the
module changes. Completes: FENCE, FENCE_RELEASE. -/
def Obligations.FencesWaitAndRelease : Prop :=
  ∀ (s : State) (c : CoreRef) (f : FmtC),
    let k := coreOf s c
    let mask := fieldC f 10 4
    let goesOn := exec (.fence c f) s = .next (putCore s c { k with pc := k.pc + 1 })
    (canIssue s c = true → plainNext k = true → wfFence f = true →
      (fieldC f 8 2 = 0 → maskBusy k mask k.seq = false → goesOn) ∧
      (fieldC f 8 2 = 0 → maskBusy k mask k.seq = true → exec (.fence c f) s = .next (putCore s c { k with run := .fence mask })) ∧
      (fieldC f 8 2 = 1 → maskBusy k mask k.seq = false → goesOn) ∧
      (fieldC f 8 2 = 1 → maskBusy k mask k.seq = true → fieldC f 14 4 ≠ 0 → exec (.fence c f) s = .next (putCore s c
        { k with passes := k.passes ++ [{ src := mask, dst := fieldC f 14 4, seq := k.seq }], pc := k.pc + 1 })) ∧
      (fieldC f 8 2 = 1 → fieldC f 14 4 = 0 → goesOn) ∧
      (fieldC f 8 2 = 2 → (∀ e ∈ k.xq, e.srcRead = true) → goesOn) ∧
      (fieldC f 8 2 = 2 → (∃ e ∈ k.xq, e.srcRead = false) →
        exec (.fence c f) s = .next (putCore s c { k with run := .fenceSource }))) ∧
    (let live := k.passes.filter (fun p => maskBusy k p.src p.seq)
     (∀ m, (k.run = .fence m ∧ maskBusy k m k.seq = true) ∨ (k.run = .fenceSource ∧ ∃ e ∈ k.xq, e.srcRead = false) →
       exec (.fenceRelease c) s = .next (putCore s c { k with passes := live })) ∧
     ∀ m, (k.run = .fence m ∧ maskBusy k m k.seq = false) ∨ (k.run = .fenceSource ∧ ∀ e ∈ k.xq, e.srcRead = true) →
      plainNext k = true → exec (.fenceRelease c) s = .next (putCore s c { k with passes := live, run := .ready, pc := k.pc + 1 }))

/-- [R150] On a core that can issue, a WAIT on an allocated object of the core's own context: when the object is poisoned
SD takes its STATUS and PC goes on, whatever the count; else when COUNT is at least the target SD takes 0 and PC goes on;
else issue stalls and the core waits on that object for that target. A poisoned object and SD = s0 with a nonzero status
fault the core with that status. Completes: waitObj. -/
def Obligations.WaitOnAnObject : Prop :=
  ∀ (s : State) (c : CoreRef) (f : FmtC), canIssue s c = true → plainNext (coreOf s c) = true → wfWait f = true →
    let k := coreOf s c
    let d := deckAt s c.deck
    let o := fieldC f 32 12
    let sd := fieldC f 8 5
    let x := objAt d o.toNat
    let target := sreg s c (fieldC f 13 5)
    objAlloc d o.toNat = true → objCtx d o.toNat = k.ctx →
    (x.poison = true → (sd ≠ 0 ∨ x.status = 0) →
      exec (.waitObj c f) s = .next (putCore s c (retired k sd (x.status.setWidth 64)))) ∧
    (x.poison = true → sd = 0 → x.status ≠ 0 →
      ∃ t, exec (.waitObj c f) s = .next t ∧ (coreOf t c).fault = faultedWith k x.status 0 ∧ (coreOf t c).s = k.s) ∧
    (x.poison = false → target.toNat ≤ x.count.toNat → exec (.waitObj c f) s = .next (putCore s c (retired k sd 0))) ∧
    (x.poison = false → x.count.toNat < target.toNat → exec (.waitObj c f) s = .next (setDeck s c.deck
      { setCore d c.core { k with run := .object } with
        waiters := d.waiters ++ [{ who := .core c.core, sd := sd, obj := o, target := target, start := clockNs s }] }))

/-- [R151, R152, R187] On a core that can issue: WAITT with a time at most 2^32 ns ahead stalls issue until the first
tick boundary (a multiple of 5 ns) at or after that time, at the earliest the next one; further ahead it faults with
BAD_PARAM; when hall time has reached the boundary the expiry lets issue go on at the next word. END ends the core's
part at once where no engine has work, and waits otherwise. Completes: WAITT, WAITT_EXPIRE, END. -/
def Obligations.WaitForHallTime : Prop :=
  ∀ (s : State) (c : CoreRef) (f : FmtC),
    let k := coreOf s c
    let t := (sreg s c (fieldC f 13 5)).toNat
    (canIssue s c = true → wfWaitt f = true → t ≤ hallNs s + 2 ^ 32 → ∃ b, exec (.waitt c f) s = .next (putCore s c { k with run := .time t b }) ∧
      b % 5 = 0 ∧ t ≤ b ∧ hallNs s < b ∧ (b < t + 5 ∨ b ≤ hallNs s + 5)) ∧
    (canIssue s c = true → wfWaitt f = true → hallNs s + 2 ^ 32 < t →
      ∃ u, exec (.waitt c f) s = .next u ∧ (coreOf u c).fault = faultedWith k stBadParam 0) ∧
    (∀ u b, k.run = .time u b → b ≤ hallNs s → plainNext k = true →
      exec (.waittExpire c) s = .next (putCore s c { k with run := .ready, pc := k.pc + 1 })) ∧
    (canIssue s c = true → enginesIdle k = true → exec (.endKernel c { body := 0 }) s = .next (putCore s c { k with run := .ended })) ∧
    (canIssue s c = true → enginesIdle k = false → exec (.endKernel c { body := 0 }) s = .next (putCore s c { k with run := .endWait }))

/-- [R190] When core issue is ready and the word's OP is not in the opcode tables, CORE_FAULT takes BAD_OPCODE, ENGINE 0
and the PC (unless an earlier fault stands there); registers, memories, PC and queues of the core take nothing in.
Completes: badOpcodeIssue. -/
def Obligations.ReservedOpcodesFault : Prop :=
  ∀ (s : State) (c : CoreRef) (w : W64), (coreOf s c).run = .ready → opDefined (w.toNat % 256) = false →
    let k := coreOf s c
    ∃ t, exec (.badOpcodeIssue c w) s = .next t ∧ (coreOf t c).fault = faultedWith k stBadOpcode 0 ∧
      sameRegs k (coreOf t c) ∧ (coreOf t c).vq = k.vq ∧ (coreOf t c).xq = k.xq ∧ (coreOf t c).mq.Sublist k.mq ∧
      onlyDeck s t c.deck

/-- [R191, R192, R161] For every core instruction whose encoding fails its checks (reserved bits, reserved values,
formats, unused fields, row counts, operand forms), on a core that can issue, CORE_FAULT takes BAD_PARAM, the engine
of the opcode and the PC (unless an earlier fault stands there); registers, memories and PC keep their values and no
queue takes the instruction (for a mover instruction: where no earlier one could start or deliver its word just then).
The same fault answers a 128-bit instruction at word 8,191, and a vector or matrix instruction with room in its queue
at the last word of a running loop's body (matrix: on a core whose launch has the whole pen). -/
def Obligations.BrokenEncodingsFault : Prop :=
  ∀ (s : State) (i : Instr) (c : CoreRef) (w : BitVec 128), instrCore i = some c → encodeCore i = some w → canIssue s c = true →
    let k := coreOf s c
    let op := w.toNat % 256
    (wellFormed i = false ∨ (128 ≤ op ∧ k.pc = 8191) ∨
      (0x80 ≤ op ∧ op ≤ 0x8C ∧ k.vq.length < 16 ∧ ∃ g ∈ k.loops, g.last = k.pc.toNat) ∨
      (0xA0 ≤ op ∧ op ≤ 0xA3 ∧ k.mq.length < 16 ∧ wholePen (deckAt s c.deck) c.core = true ∧
        ∃ g ∈ k.loops, g.last = k.pc.toNat)) →
    (opEngine op = 3 → ∀ e ∈ k.xq, e.started = true ∧ e.value = none) →
    ∃ t, exec i s = .next t ∧ (coreOf t c).fault = faultedWith k stBadParam (opEngine op) ∧ sameRegs k (coreOf t c) ∧
      (coreOf t c).vq = k.vq ∧ (coreOf t c).mq.Sublist k.mq ∧ (coreOf t c).xq = k.xq

/-- [R111, R115, R126, R174, R222, R192] On a ready core with room in the vector queue (16 places), whose two words lie
inside word 8,191 and end no running loop, a vector instruction with an encoding in order joins the tail of the queue with
its operands, mask and scalar as they stand at issue, and PC goes on by two words; VEXT then stalls issue until its
result; TLYACC and TLYCTR join the queue where their Tally lies in the context's range, and fault with BAD_PARAM at engine
1 where it does not. Nothing else changes where an instruction is queued. Completes: vadd, vsub, vmul, vfma, vmin, vmax,
vcmp, vsel, vcvt, vqnt, vrsqs, vbcst, vext, tlyacc, tlyctr. -/
def Obligations.VectorInstructionsQueue : Prop :=
  ∀ (s : State) (c : CoreRef) (f : FmtV), (coreOf s c).run = .ready → wideNext (coreOf s c) = true → (coreOf s c).vq.length < 16 →
    let k := coreOf s c
    let queued := fun (i : Instr) (op : BitVec 8) =>
      exec i s = .next (putCore s c { k with vq := k.vq ++ [vecEntry op f k], seq := k.seq + 1, pc := k.pc + 2 })
    (wfV2 f = true → queued (.vadd c f) 0x80) ∧
    (wfV2 f = true → queued (.vsub c f) 0x81) ∧
    (wfV2 f = true → queued (.vmul c f) 0x82) ∧
    (wfV3 f = true → queued (.vfma c f) 0x83) ∧
    (wfV2 f = true → queued (.vmin c f) 0x84) ∧
    (wfV2 f = true → queued (.vmax c f) 0x85) ∧
    (wfVcmp f = true → queued (.vcmp c f) 0x86) ∧
    (wfVsel f = true → queued (.vsel c f) 0x87) ∧
    (wfVcvt f = true → queued (.vcvt c f) 0x88) ∧
    (wfVqnt f = true → queued (.vqnt c f) 0x89) ∧
    (wfVrsqs f = true → queued (.vrsqs c f) 0x8A) ∧
    (wfVbcst f = true → queued (.vbcst c f) 0x8B) ∧
    (wfVext f = true → exec (.vext c f) s = .next (putCore s c
      { k with vq := k.vq ++ [vecEntry 0x8C f k], seq := k.seq + 1, run := .result .vector k.seq })) ∧
    ((f.ext.extractLsb' 0 12).toNat / 256 = k.ctx.toNat →
      (wfTlyacc f = true → queued (.tlyacc c f) 0x90) ∧ (wfTlyctr f = true → queued (.tlyctr c f) 0x91)) ∧
    ((f.ext.extractLsb' 0 12).toNat / 256 ≠ k.ctx.toNat →
      ∀ p ∈ [(wfTlyacc f, Instr.tlyacc c f), (wfTlyctr f, Instr.tlyctr c f)], p.1 = true →
        ∃ t, exec p.2 s = .next t ∧ (coreOf t c).fault = faultedWith k stBadParam 1 ∧ (coreOf t c).vq = k.vq)

/-- [R113, R115, R125, R221, R225, R235, R237] ENGINE_INSTRUCTION_COMPLETE: the head of the vector queue that no
FENCE.PASS holds leaves the queue with its rows written in order and its counters updated (where no uncorrectable
scratchpad error is met); a VEXT at the head gives its register the lane and issue goes on; the started head of the matrix
queue leaves it with its effect on accumulators, stationary rows or scratchpad. Only that core changes, and an END that
waited ends once no engine has work. Completes: engineInstructionComplete. -/
def Obligations.EngineInstructionsComplete : Prop :=
  ∀ (s : State) (c : CoreRef),
    let k := coreOf s c
    let after := fun (k' : Core) => if k'.run = .endWait ∧ enginesIdle k' = true then { k' with run := .ended } else k'
    (∀ e rest, k.vq = e :: rest → passHolds k 1 e.seq = false → e.op ≠ 0x8C → e.op ≠ 0x90 → e.op ≠ 0x91 →
      ∀ k', runRows (vecRow e) 0 e.n { k with vq := rest } = (k', false) →
      exec (.engineInstructionComplete c .vector) s = .next (putCore s c (after k'))) ∧
    (∀ e rest r, k.vq = e :: rest → passHolds k 1 e.seq = false → e.op = 0x8C → e.a = .vreg r →
      k.run = .result .vector e.seq → wideNext k = true →
      exec (.engineInstructionComplete c .vector) s = .next (putCore s c { sSet k (e.ext.extractLsb' 0 5)
        ((mapGet 0 k.v (32 * (r % 16) + (e.ext.extractLsb' 5 5).toNat)).setWidth 64) with
          vq := rest, run := .ready, pc := k.pc + 2 })) ∧
    (∀ e rest, k.mq = e :: rest → e.started = true → ∀ k', runMat e { k with mq := rest } = (k', false) →
      exec (.engineInstructionComplete c .matrix) s = .next (putCore s c (after k')))

/-- [R222, R223, R224, R225] TLYACC and TLYCTR at the head of a vector queue that no FENCE.PASS holds send one update to
the deck's Tally unit: TLYACC what its rows hold, TLYCTR the core's two counters, zeroing them as it does.
TALLY_UPDATE_APPLY takes the oldest update: the Tally's totals and its bins grow by it, staying at all ones, AMAX
keeps the larger magnitude, and the instruction leaves its core's queue. Other Tallies are unchanged. Completes:
TALLY_UPDATE_APPLY, ENGINE_INSTRUCTION_COMPLETE. -/
def Obligations.TallyUpdatesSaturate : Prop :=
  (∀ (s : State) (d : Fin 8) u rest, (deckAt s d).tlyQueue = u :: rest →
    ∃ t, exec (.tallyUpdateApply d) s = .next t ∧ onlyDeck s t d ∧
      let T := mapGet {} (deckAt s d).tallies u.tally.toNat
      let T' := mapGet {} (deckAt t d).tallies u.tally.toNat
      T'.total = satAdd T.total u.total ∧ T'.zeros = satAdd T.zeros u.zeros ∧ T'.sats = satAdd T.sats u.sats ∧
      T'.nonfinite = satAdd T.nonfinite u.nonfinite ∧ T'.flushes = satAdd T.flushes u.flushes ∧
      T'.amax.toNat = max T.amax.toNat u.amax.toNat ∧ (deckAt t d).tlyQueue = rest ∧
      ((u.bins.map Prod.fst).Nodup → ∀ b, mapGet 0 T'.bins b = satAdd (mapGet 0 T.bins b) (mapGet 0 u.bins b)) ∧
      (coreAt (deckAt t d) u.core).vq = (coreAt (deckAt s d) u.core).vq.drop 1 ∧
      ∀ n, n ≠ u.tally.toNat → mapGet {} (deckAt t d).tallies n = mapGet {} (deckAt s d).tallies n) ∧
  (∀ (s : State) (c : CoreRef) e rest u, (coreOf s c).vq = e :: rest → e.op = 0x90 → passHolds (coreOf s c) 1 e.seq = false →
    (coreOf s c).tallySent = false →
    let k := coreOf s c
    let d := deckAt s c.deck
    tallyScan e (ctxAt d k.ctx.toNat).hbias k 0 e.n { core := c.core, tally := e.ext.extractLsb' 0 12 } = some u →
    exec (.engineInstructionComplete c .vector) s = .next (setDeck s c.deck
      { setCore d c.core { k with tallySent := true } with tlyQueue := d.tlyQueue ++ [u] })) ∧
  (∀ (s : State) (c : CoreRef) e rest, (coreOf s c).vq = e :: rest → e.op = 0x91 → passHolds (coreOf s c) 1 e.seq = false →
    (coreOf s c).tallySent = false →
    let k := coreOf s c
    let u : TlyUpdate := { core := c.core, tally := e.ext.extractLsb' 0 12, sats := k.satc.toNat, flushes := k.flsc.toNat }
    exec (.engineInstructionComplete c .vector) s = .next (setDeck s c.deck
      { setCore (deckAt s c.deck) c.core { k with satc := 0, flsc := 0, tallySent := true } with
        tlyQueue := (deckAt s c.deck).tlyQueue ++ [u] }))

/-- [R111, R185, R193, R239, R240] On a ready core with room in the matrix queue, MLDS, MMUL, MDRN and MZERO with
encodings in order (GANG only where the launch has the whole pen) join the tail of the queue. MATRIX_START starts the
head, alone, where it is not ganged and no FENCE.PASS holds it; an MMUL whose streamed format does not pair with the
recorded stationary format leaves the queue with no effect and faults the core with BAD_PARAM, engine 2. Completes: mlds,
mmul, mdrn, mzero, matrixStart. -/
def Obligations.MatrixInstructionsQueueAndStart : Prop :=
  ∀ (s : State) (c : CoreRef) (f : FmtM),
    let k := coreOf s c
    let queued := fun (i : Instr) (op : BitVec 8) =>
      exec i s = .next (putCore s c { k with mq := k.mq ++ [matEntry op f k], seq := k.seq + 1, pc := k.pc + 2 })
    (k.run = .ready → wideNext k = true → k.mq.length < 16 → (f.gang = 0 ∨ wholePen (deckAt s c.deck) c.core = true) →
      (wfMlds f = true → queued (.mlds c f) 0xA0) ∧ (wfMmul f = true → queued (.mmul c f) 0xA1) ∧
      (wfMdrn f = true → queued (.mdrn c f) 0xA2) ∧ (wfMzero f = true → queued (.mzero c f) 0xA3)) ∧
    (∀ e rest, k.mq = e :: rest → e.started = false → e.gang = false → passHolds k 2 e.seq = false →
      (e.op ≠ 0xA1 ∨ formatsPair k.statFmt e = true →
        exec (.matrixStart c) s = .next (putCore s c
          { k with mq := { e with started := true, lead := none } :: rest, matPc := e.pc })) ∧
      (e.op = 0xA1 → formatsPair k.statFmt e = false →
        ∃ t, exec (.matrixStart c) s = .next t ∧ onlyDeck s t c.deck ∧ sameRegs k (coreOf t c) ∧
          (coreOf t c).mq.Sublist rest ∧
          (coreOf t c).fault = (if k.fault.valid then k.fault else
            { status := stBadParam, pc := e.pc, engine := 2, valid := true })))

/-- [R241, R242, R243, R244] When all 16 cores of a pen hold at the head of the matrix queue a startable ganged
instruction with the same bits [31:0] whose formats pair, GANG_RENDEZVOUS starts every one of them and changes no
register. When one of the pen's cores holds one that could start and another does not, GANG_TIMEOUT takes the
instruction off every core of the pen that holds a ganged instruction at its head, and each of those records BAD_PARAM
at engine 2 with the instruction's PC (unless an earlier fault stands there); the pen's other cores record nothing.
Completes: GANG_RENDEZVOUS, GANG_TIMEOUT. -/
def Obligations.GangsStartTogetherOrFault : Prop :=
  ∀ (s : State) (d : Fin 8) (pen : Fin 200),
    let at_ := fun (i : Nat) => coreAt (deckAt s d) i
    let waits := fun (i : Nat) => gangHead (at_ i) = true ∧ (startable (at_ i)).isSome = true
    ((∃ w, ∀ i ∈ penCores pen, ∃ e, startable (at_ i) = some e ∧ e.gang = true ∧ e.low = w ∧ startOk (at_ i) e = true) →
      ∃ t, exec (.gangRendezvous d pen) s = .next t ∧ onlyDeck s t d ∧ ∀ i ∈ penCores pen,
        (∃ e rest, (coreAt (deckAt t d) i).mq = e :: rest ∧ e.started = true ∧ rest = (at_ i).mq.drop 1) ∧
        sameRegs (at_ i) (coreAt (deckAt t d) i) ∧ (coreAt (deckAt t d) i).fault = (at_ i).fault) ∧
    ((∃ i ∈ penCores pen, waits i) → (∃ i ∈ penCores pen, ¬ waits i) →
      ∃ t, exec (.gangTimeout d pen) s = .next t ∧ onlyDeck s t d ∧ ∀ i ∈ penCores pen,
        (∀ e rest, gangHead (at_ i) = true → (at_ i).mq = e :: rest → (coreAt (deckAt t d) i).mq.Sublist rest ∧
          (coreAt (deckAt t d) i).fault =
            (if (at_ i).fault.valid then (at_ i).fault else { status := stBadParam, pc := e.pc, engine := 2, valid := true })) ∧
        (gangHead (at_ i) = false → (coreAt (deckAt t d) i).fault = (at_ i).fault))

/-- [R111, R112, R115, R130, R181, R282] On a ready core with room in the mover queue (32 places), whose two words fit,
and whose earlier mover instructions have all started, with no word of a SYNCRD waiting: each of the nine instructions
with an encoding in order, whose issue checks (completion object, alignment, lengths, address ranges) pass and whose
destination the closed master gate does not refuse, joins the mover's queue under the next number, and PC goes on by
two words (SYNCRD stalls issue for its result instead). Where it cannot start yet nothing else of the module changes;
where it can start and acts within its own module it is marked started, HPUSH and HPOP taking their turn in the hold
queue, and nothing else changes. A remote GET, SIG or SYNCRD that can start puts one request packet into the deck's
injection queue. One whose destination the closed gate refuses and that names no completion object faults the core
with VOTE_FAILED at engine 3. Completes: MOV, MOVT, PUT, GET, ATOM, SIG, SYNCRD, HPUSH, HPOP. -/
def Obligations.MoverInstructionsQueue : Prop :=
  ∀ (s : State) (c : CoreRef) (f : FmtX), (coreOf s c).run = .ready → wideNext (coreOf s c) = true → (coreOf s c).xq.length < 32 →
    (∀ e ∈ (coreOf s c).xq, e.started = true ∧ e.value = none) →
    let k := coreOf s c
    let d := deckAt s c.deck
    let env := coreEnv s c.deck
    let ok := fun (op : BitVec 8) => movIssue env d op f k = none ∧ movGated env d op f (movArgs f k) = false
    let joined := fun (op : BitVec 8) (e : MovEntry) =>
      let k' := { k with xq := k.xq ++ [e], seq := k.seq + 1 }
      if op = opSYNCRD then { k' with run := .result .mover k.seq } else { k' with pc := k.pc + 2 }
    let queued := fun (i : Instr) (op : BitVec 8) =>
      let e := movEntry env op f k
      let starts := canStart env (joined op e) e
      (starts = false → exec i s = .next (putCore s c (joined op e))) ∧
      (starts = true → e.remote = false → exec i s = .next (setDeck s c.deck
        { setCore d c.core (joined op { e with started := true }) with
          holdQ := if op = opHPUSH ∨ op = opHPOP then d.holdQ ++ [(k.ctx, c.core.val, k.seq)] else d.holdQ })) ∧
      (starts = true → e.remote = true → (op = opGET ∨ op = opSIG ∨ op = opSYNCRD) → ∃ t, exec i s = .next t ∧
        ∃ pk : Packet, (deckAt t c.deck).txq = d.txq ++ [{ pk := pk, since := clockNs s }] ∧ pk.dst = e.target ∧
          pk.src = ownModule s ∧ pk.srcCore = BitVec.ofNat 12 c.core.val)
    let refused := fun (i : Instr) => ∃ t, exec i s = .next t ∧ (coreOf t c).fault = faultedWith k stVoteFailed 3 ∧
      (coreOf t c).xq = k.xq ∧ (coreOf t c).pc = k.pc
    let shut := fun (op : BitVec 8) => movIssue env d op f k = none ∧ movGated env d op f (movArgs f k) = true ∧ f.cen = 0
    ∀ p ∈ [(wfMove f, Instr.mov c f, opMOV), (wfMovt f, Instr.movt c f, opMOVT), (wfMove f, Instr.put c f, opPUT),
        (wfMove f, Instr.get c f, opGET), (wfAtom f, Instr.atom c f, opATOM), (wfSig f, Instr.sig c f, opSIG),
        (wfSyncrd f, Instr.syncrd c f, opSYNCRD), (wfHpush f, Instr.hpush c f, opHPUSH), (wfHpop f, Instr.hpop c f, opHPOP)],
      p.1 = true → (ok p.2.2 → queued p.2.1 p.2.2) ∧ (shut p.2.2 → refused p.2.1)

/-- [R112, R130, R135, R145] MOVER_TRANSFER_COMPLETE of a started MOV, the one instruction of its core's mover, between two
ranges of stack memory that hold no poisoned sector, no failed channel, no standing memory error and nothing to wait
for (a channel in training, a row being copied): the destination bytes are the source bytes as they stood, every other
byte of the deck's memory is unchanged, the mover's queue is empty, and a completion object that is allocated, not
waited on and not near saturation has its count raised by AMT. Completes: MOVER_TRANSFER_COMPLETE. -/
def Obligations.TransfersEndAtTheirObject : Prop :=
  ∀ (s : State) (c : CoreRef) (e : MovEntry),
    let d := deckAt s c.deck
    let env := coreEnv s c.deck
    (coreOf s c).xq = [e] → e.started = true → e.remote = false → e.op = opMOV →
    placeOf env e.src.toNat e.len = .stack → placeOf env e.dst.toNat e.len = .stack →
    memReadOk d e.src.toNat e.len = true → memWriteSt d e.dst.toNat e.len = stGood → d.latent = [] →
    movHeld s c.deck c.core e = false →
    ∃ t, exec (.moverTransferComplete c e.seq []) s = .next t ∧ (coreOf t c).xq = [] ∧
      (∀ i, i < e.len → deckByte t c.deck (e.dst.toNat + i) = deckByte s c.deck (e.src.toNat + i)) ∧
      (∀ a, a < e.dst.toNat ∨ e.dst.toNat + e.len ≤ a → deckByte t c.deck a = deckByte s c.deck a) ∧
      ∀ o, e.cobj = some o → objAlloc d o.toNat = true → objWaited d o.toNat = false →
        (objAt d o.toNat).count.toNat + e.amt.toNat < 2 ^ 32 →
        (objAt (deckAt t c.deck) o.toNat).count.toNat = (objAt d o.toNat).count.toNat + e.amt.toNat

/-- [R155, R156, R437] LAUNCH_STOP_COMPLETE of a faulted launch whose cores have no work left: the launch is gone, its
cores belong to no kernel, and its allocated completion object is poisoned, with the first fault's status where nothing
waits on the deck. SYNC_WAIT_TIMEOUT of a wait not yet reported that has lasted longer than its group's TIMEOUT, with
detector 2's action 0: the object's timed-out bit is set, detector 2 counts it, and the waiter stays. Completes:
LAUNCH_STOP_COMPLETE, SYNC_WAIT_TIMEOUT. -/
def Obligations.FaultedLaunchesPoisonTheirObject : Prop :=
  (∀ (s : State) (d : Fin 8) (id : Nat) (l : Launch) (st : Status), launchAt (deckAt s d) id = some l → l.faulted = some st →
    (∀ i ∈ l.cores, enginesIdle (coreAt (deckAt s d) i) = true) →
    ∃ t, exec (.launchStopComplete d id) s = .next t ∧ launchAt (deckAt t d) id = none ∧
      (∀ i ∈ l.cores, (coreAt (deckAt t d) i).launch = none) ∧
      ∀ o, l.cobj = some o → (streamAt (deckAt s d) l.stream).isSome = true → objAlloc (deckAt s d) o.toNat = true → st ≠ 0 →
        (objAt (deckAt t d) o.toNat).poison = true ∧
        ((deckAt s d).waiters = [] → (objAt (deckAt t d) o.toNat).status = st)) ∧
  (∀ (s : State) (d : Fin 8) (w : Who) (x : Waiter), (deckAt s d).waiters.find? (fun y => decide (y.who = w)) = some x →
    waitOverdue (clockNs s) (deckAt s d) x = true → actionOf s 2 = 0 →
    ∃ t, exec (.syncWaitTimeout d w) s = .next t ∧
      (groupAt (deckAt t d) (x.obj.toNat / 64)).timed.getLsbD (x.obj.toNat % 64) = true ∧
      mapGet 0 t.rst.detCount 2 = satInc (mapGet 0 s.rst.detCount 2) ∧
      ((deckAt t d).waiters.map (fun y => (y.who, y.obj, y.target))) =
        (deckAt s d).waiters.map (fun y => (y.who, y.obj, y.target)))

/-- [R60, R349, R350, R351] On a trained port: BEACON_SEND sends a beacon with hall time, state, ERR_EST, hops and grand
master as they stand; a TIME_REQ with a good CRC is answered with t1 and two stamps of hall time;
TIME_EXCHANGE_START sends TIME_REQ and remembers its stamp; a TIME_RESP for that stamp sets the link delay to the
mean of the two directions less half the asymmetry and counts the exchange; a TIME frame with a bad CRC is counted and
discarded, a TIME_RESP voiding its exchange; a beacon with a good CRC is kept, and on a link with four exchanges it
yields the offset: sender's stamp plus link delay minus hall time; a beacon with a bad CRC counts as missing too, and
the fourth in a row drops the link's beacon. Completes: BEACON_SEND, BEACON_RECEIVE, TIME_REQ_RECEIVE,
TIME_RESP_RECEIVE, TIME_EXCHANGE_START. -/
def Obligations.TimeFramesCarryHallTime : Prop :=
  ∀ (s : State) (p : Fin 9), portTrained (portAt s p) = true →
    let l := linkAt s.htu p
    let now : Stamp := { ns := BitVec.ofNat 64 (s.htu.t / 256), frac := BitVec.ofNat 8 (s.htu.t % 256) }
    let own : Beacon := { ns := now.ns, frac := now.frac, state := s.htu.state, errEst := BitVec.ofNat 8 (errNow s),
                          hops := s.htu.hops, gmPrio := s.htu.gmPrio, gmModule := s.htu.gmModule }
    let bad := setPort s p { portAt s p with crcErr := satInc (portAt s p).crcErr }
    exec (.beaconSend p) s = .next { s with out := .beacon p own :: s.out } ∧
    (∀ t1, exec (.timeReqReceive p true t1) s = .next { s with out := .timeResp p t1 now now :: s.out }) ∧
    (∀ t1, exec (.timeReqReceive p false t1) s = .next bad) ∧
    (∀ t1 t2 t3, exec (.timeRespReceive p false t1 t2 t3) s = .next { bad with htu := setLink s.htu p { l with t1 := none } }) ∧
    (∀ b, (l.missed < 3 → exec (.beaconReceive p false b) s =
        .next { bad with htu := setLink s.htu p { l with missed := l.missed + 1 } }) ∧
      (3 ≤ l.missed → ∃ t, exec (.beaconReceive p false b) s = .next t ∧ (portAt t p).crcErr = satInc (portAt s p).crcErr ∧
        (linkAt t.htu p).beacon = none ∧ (linkAt t.htu p).missed = 0)) ∧
    (∃ t, exec (.timeExchangeStart p) s = .next t ∧ t = { s with htu := t.htu, out := .timeReq p now :: s.out } ∧
      (linkAt t.htu p).t1 = some s.htu.t) ∧
    (∀ t1 t2 t3 : Stamp, l.t1 = some (t1.ns.toNat * 256 + t1.frac.toNat) →
      ∃ t, exec (.timeRespReceive p true t1 t2 t3) s = .next t ∧ t = { s with htu := t.htu, free := t.free } ∧
        (linkAt t.htu p).exchanges = l.exchanges + 1 ∧ (linkAt t.htu p).t1 = none ∧
        let up : Int := (s.htu.t : Int) - (t1.ns.toNat * 256 + t1.frac.toNat : Nat)
        let away : Int := (t3.ns.toNat * 256 + t3.frac.toNat : Nat) - ((t2.ns.toNat * 256 + t2.frac.toNat : Nat) : Int)
        (linkAt t.htu p).delay = BitVec.ofInt 32 (max 0 ((up - away) / 2 - linkAsym s p / 2))) ∧
    (∀ b : Beacon, ∃ t, exec (.beaconReceive p true b) s = .next t ∧ (linkAt t.htu p).beacon = some b ∧
      (4 ≤ l.exchanges →
        (linkAt t.htu p).offset = some ((b.ns.toNat * 256 + b.frac.toNat + l.delay.toNat : Nat) - (s.htu.t : Int))))

/-- [R64, R65, R66, R67, R68, R71, R73] ACQUIRE_NO_SOURCE in Acquiring with no source enters Free; HOLDOVER_EXPIRE in
Holdover with ERR_EST at 5 ns enters Adrift with scheduled sending off; BEACON_MISSING of the selected link in Locked
raises SOURCE_LOST and leads to Holdover or to another source, and of a link not selected drops its beacon alone; with
the HTU released, a PPS edge while nothing is announced raises PPS_FAULT and does no more; while announced it
increments GM_NEXT_SEC, and one in time with REF25 in tolerance whose offset is at most 1 ms gives the input's offset
and makes it valid; an edge out of time, an overdue one or REF25 out of tolerance makes the input invalid with its
event; while the input is invalid each second of hall time increments GM_NEXT_SEC; at the end of a window in which no
two links differ only the windows clear, and two links alone that differ in Locked record the pair, raise DISAGREE and
the safety event and enter Holdover. Completes: ACQUIRE_NO_SOURCE, HOLDOVER_EXPIRE, BEACON_MISSING, PPS_EDGE,
PPS_OVERDUE, REF25_INVALID, GM_SECOND_ELAPSE, DISAGREE_WINDOW_END. -/
def Obligations.HallTimeUnitChangesState : Prop :=
  ∀ (s : State),
    let h := s.htu
    (h.state = 1 → bestSource s = none → ∃ t, exec .acquireNoSource s = .next t ∧ t = { s with htu := t.htu } ∧
      t.htu.state = 0 ∧ t.htu.source = 0xF) ∧
    (h.state = 3 → 80 ≤ errNow s → ∃ t, exec .holdoverExpire s = .next t ∧ t.htu.state = 4 ∧ t.htu.schedOn = false ∧ t.htu.events.getLsbD 4 = true) ∧
    (∀ p : Fin 9, h.state = 2 → h.source = BitVec.ofNat 4 p.val → ∃ t, exec (.beaconMissing p) s = .next t ∧
      t.htu.events.getLsbD 0 = true ∧ (linkAt t.htu p).beacon = none ∧
      ((t.htu.state = 3 ∧ t.htu.source = 0xF) ∨ (t.htu.state = 2 ∧ t.htu.events.getLsbD 1 = true))) ∧
    (∀ p : Fin 9, h.source ≠ BitVec.ofNat 4 p.val → exec (.beaconMissing p) s =
      .next { s with htu := setLink h p { linkAt h p with beacon := none, missed := 0 } }) ∧
    (∀ cycles ref, htuUp s = true → h.announced = false → exec (.ppsEdge h.cfgPpsEdge cycles ref) s =
      .next { s with htu := { h with events := setBit h.events 7 true } }) ∧
    (∀ cycles, htuUp s = true → h.announced = true → ∃ t, exec (.ppsEdge h.cfgPpsEdge cycles false) s = .next t ∧
      t.htu.gmNextSec = h.gmNextSec + 1 ∧ t.htu.refValid = false ∧ t.htu.events.getLsbD 8 = true) ∧
    (∀ cycles, htuUp s = true → h.announced = true → cycles < 24999999 ∨ 25000001 < cycles → ∃ t,
      exec (.ppsEdge h.cfgPpsEdge cycles true) s = .next t ∧ t.htu.gmNextSec = h.gmNextSec + 1 ∧ t.htu.ppsValid = false ∧
      t.htu.events.getLsbD 7 = true) ∧
    (∀ cycles, htuUp s = true → h.announced = true → 24999999 ≤ cycles → cycles ≤ 25000001 →
      let off : Int := (h.gmNextSec.toNat * 256000000000 : Nat) - (h.t : Int)
      off.natAbs ≤ 256000000 → ∃ t, exec (.ppsEdge h.cfgPpsEdge cycles true) s = .next t ∧
        t.htu.gmNextSec = h.gmNextSec + 1 ∧ t.htu.ppsValid = true ∧ t.htu.refValid = true ∧ (linkAt t.htu 9).offset = some off) ∧
    (∃ t, exec .ppsOverdue s = .next t ∧ t.htu.ppsValid = false ∧ t.htu.events.getLsbD 7 = true) ∧
    (∃ t, exec .ref25Invalid s = .next t ∧ t.htu.refValid = false ∧ t.htu.events.getLsbD 8 = true) ∧
    (h.announced = true → (h.ppsValid && h.refValid) = false → exec .gmSecondElapse s =
      .next { s with htu := { h with gmNextSec := h.gmNextSec + 1 } }) ∧
    (firstPair (windowMeans s) = none → exec .disagreeWindowEnd s = .next { s with htu := clearWindows h }) ∧
    (∀ a b d, firstPair (windowMeans s) = some (a, b, d) → (windowMeans s).length < 3 → h.state = 2 →
      ∃ t, exec .disagreeWindowEnd s = .next t ∧ t.htu.state = 3 ∧ t.htu.events.getLsbD 2 = true ∧ t.htu.disA = BitVec.ofNat 4 a ∧
        t.htu.disB = BitVec.ofNat 4 b ∧ t.safety.events.getLsbD 8 = true)

/-- [R56, R61, R64, R73, R107, R557] A write of HT.GM_NEXT_SEC by firmware or the owner sets it and ANNOUNCED; a write
of HT.CFG sets its fields and, with GM_EN 0, clears ANNOUNCED; the MGC may write neither, and its write changes no
register and ends with Unsupported Request; a read of HT.NOW by an agent that may read answers NS and latches FRAC.
An enabled alarm whose time has come sets FIRED, clears ENABLE and, where its object is allocated to its context,
raises the object's count by one. Completes: HT_GM_NEXT_SEC_WRITE, HT_CFG_WRITE, HT_NOW_READ, ALARM_FIRE. -/
def Obligations.HallTimeRegisters : Prop :=
  (∀ (s : State) (a : Agent) (v : W64), ownerWrite s a = true →
    (∃ t, exec (.htGmNextSecWrite a v) s = .next t ∧ t = { s with htu := t.htu, free := t.free } ∧ t.htu.gmNextSec = v ∧
      t.htu.announced = true) ∧
    (∃ t, exec (.htCfgWrite a v) s = .next t ∧ t = { s with htu := t.htu, free := t.free } ∧ t.htu.cfgGmEn = v.getLsbD 0 ∧
      t.htu.cfgGmPrio = v.extractLsb' 1 3 ∧ t.htu.cfgPpsEdge = v.getLsbD 4 ∧ t.htu.cfgSrcMask = v.extractLsb' 8 9 ∧
      t.htu.announced = (s.htu.announced && v.getLsbD 0))) ∧
  (∀ (s : State) (v : W64), exec (.htGmNextSecWrite .mgc v) s = .next { s with out := .unsupported .mgc :: s.out } ∧
    exec (.htCfgWrite .mgc v) s = .next { s with out := .unsupported .mgc :: s.out }) ∧
  (∀ (s : State) (a : Agent), mayRead s a = true → exec (.htNowRead a) s = .next { s with
    htu := { s.htu with nowFrac := BitVec.ofNat 8 (s.htu.t % 256) }, out := .value a (BitVec.ofNat 64 (s.htu.t / 256)) :: s.out }) ∧
  (∀ (s : State) (d : Fin 8) (n : Fin 64), let k := deckAt s d
    let x : Alarm := mapGet {} k.alarms n.val
    x.enable = true → x.time.toNat ≤ hallNs s → ∃ t, exec (.alarmFire d n) s = .next t ∧
      mapGet {} (deckAt t d).alarms n.val = { x with enable := false, fired := true } ∧
      (objAlloc k x.sync.toNat = true → objCtx k x.sync.toNat = x.ctx → syncUp k = true → objWaited k x.sync.toNat = false →
        (objAt k x.sync.toNat).count.toNat + 1 < 2 ^ 32 →
        (objAt (deckAt t d) x.sync.toNat).count = (objAt k x.sync.toNat).count + 1))

/-- [R74, R81, R82, R88, R92, R94, R100, R102, R103, R104, R257] At the epoch of the next step an armed timetable takes
that step: a pending variant whose step has come becomes active, and a pending disarm whose step has come ends the
armed state and scheduled sending. A TIME sailing of an UP port sends a TIME_REQ; a COLL sailing with packets to
forward, while no collective runs, departs with them; one with nothing to carry, at a port whose replay buffer has
room and that may carry its tag, sends a vacancy notice and counts it. A LAUNCH record whose stream has no entry ready
counts a missed event and starts no kernel (StreamEntriesRunInOrder says where one starts); on a deck not in reset
SCRUB opens its window, to the record's end, on each masked stack and on no other, and SHADOW opens the deck's; a RAMP
record on a running deck hands its rows to the governor; a shadow check outside any window does nothing, and inside
one without a difference advances the pen's sweep. Completes: STEP_EPOCH, SAILING_DEPART, SCHED_SCRUB, SCHED_SHADOW,
SCHED_RAMP, SHADOW_CHECK. -/
def Obligations.StepEpochsAndSailings : Prop :=
  ∀ (s : State),
    let n := nextStep s.tt
    (s.tt.armed = true → epochNs s.tt n ≤ hallNs s → (∀ d e, e ∈ (deckAt s d).launches → ∀ l, e.2 = some l → l.sched = false) →
      ∃ t, exec .stepEpoch s = .next t ∧ t.tt.step = BitVec.ofNat 64 n ∧
        (s.tt.disarmPending = true → s.tt.disarmStep ≤ n → t.tt.armed = false ∧ t.htu.schedOn = false ∧ t.tt.pendingValid = false) ∧
        (s.tt.disarmPending = false → t.tt.armed = true ∧
          (s.tt.pendingValid = true → s.tt.pendingStep.toNat ≤ n → t.tt.activeVar = s.tt.pendingVar ∧ t.tt.pendingValid = false) ∧
          (s.tt.pendingValid = false → t.tt.activeVar = s.tt.activeVar))) ∧
    (∀ (p : Fin 9) (r : Nat) (x : Sailing), (activeRecords s p 0)[r]? = some x → runsNow s x.start x.len = true →
      (x.kind = 3 → portUp s p = true → (portAt s p).schedWait = false → portTrained (portAt s p) = true →
        ∃ t, exec (.sailingDepart p r) s = .next t ∧ t = { s with htu := t.htu, out := .timeReq p (stampNow s) :: s.out }) ∧
      (x.kind = 1 → sendsSched s p = true → s.churn.colls = [] → forwardItems s p x ≠ [] → exec (.sailingDepart p r) s =
        .next (setPort s p { portAt s p with sail := some (sailRun s x (forwardItems s p x)) })) ∧
      (x.kind = 1 → sendsSched s p = true → s.churn.forward = [] → s.churn.colls = [] → (portAt s p).replayBuf.length < 8192 →
        ((portAt s p).lpl ≠ 3 ∨ x.tag = 0) → ∃ t, exec (.sailingDepart p r) s = .next t ∧
          (portAt t p).tt.vacantSent = satInc (portAt s p).tt.vacantSent ∧ t.decks = s.decks)) ∧
    (∀ (d : Fin 8) (r : Nat) (x : SchedRec),
      (schedNow s d r 1 = some x → streamHead (deckAt s d) x.arg = none →
        ∃ t, exec (.schedLaunch d r) s = .next t ∧ (deckAt t d).missed = satInc (deckAt s d).missed ∧
          (deckAt t d).launches = (deckAt s d).launches) ∧
      (schedNow s d r 2 = some x → (deckAt s d).reset = .none → ∃ t, exec (.schedScrub d r) s = .next t ∧ onlyDeck s t d ∧
        ∀ i, i < 4 → mapGet 0 (deckAt t d).scrubUntil i =
          if bits x.arg i 1 = 1 then epochNs s.tt s.tt.step.toNat + 5 * (x.start + x.len)
          else mapGet 0 (deckAt s d).scrubUntil i) ∧
      (schedNow s d r 3 = some x → (deckAt s d).reset = .none → ∃ t, exec (.schedShadow d r) s = .next t ∧ onlyDeck s t d ∧
        (deckAt t d).shadowUntil = epochNs s.tt s.tt.step.toNat + 5 * (x.start + x.len)) ∧
      (schedNow s d r 4 = some x → (deckAt s d).power = .run → (deckAt s d).reset = .none → (deckAt s d).outOfService = false → ∃ t, exec (.schedRamp d r) s = .next t ∧
        ∀ i, i < 13 → bits x.arg i 1 = 1 → (deckAt s d).admitted.getLsbD i = false → 16 * d.val + i ∈ t.power.waitRows)) ∧
    (∀ (d : Fin 8) (pen : Fin 200),
      (∀ miss, shadowOn s d = false → exec (.shadowCheck d pen miss) s = .next s) ∧
      (shadowOn s d = true → ∃ t, exec (.shadowCheck d pen []) s = .next t ∧ onlyDeck s t d ∧
        (mapGet ({} : PenShadow) (deckAt t d).shadow pen.val).check = (mapGet ({} : PenShadow) (deckAt s d).shadow pen.val).check + 1))

/-- [R25, R340, R341, R342, R343, R345, R352, R353, R355, R356, R358, R464] With the links released and light for the
port, a DOWN port enters TRAINING on lane signal, and on a retry one second after it went down, and so does a
QUARANTINED one after 10 s: full width, no failed lanes, sequence numbers 0, an empty replay buffer, a TRAIN frame
sent. A port that trains or is trained goes DOWN at a port loss, with its event, an empty replay buffer and no beacon
kept. TRAINING ends in DOWN after 100 ms. A TRAIN frame with a bad CRC is counted and discarded; one with a good CRC
of a peer at level 4 takes a TRAINING port to IDENTIFIED while no map is armed; while one is armed the
port goes UP where module and port match what is expected and nothing is known of the fibre, and MISWIRED where the
module differs. LNK.CTL: RETRAIN loses and trains the port, DISABLE 1 holds it DISABLED, DISABLE 0 trains it again;
the MGC's write ends with Unsupported Request. Inserting a connector reads its record; removing it forgets the
record and retrains a MISWIRED or INCOMPATIBLE port. Completes: PORT_RETRY, LANE_SIGNAL, QUARANTINE_EXPIRE,
PORT_LOSS, TRAINING_TIMEOUT, TRAIN_FRAME_RECEIVE, LNK_RETRAIN, LNK_DISABLE, FIBRE_CONNECTOR_INSERT,
FIBRE_CONNECTOR_REMOVE. -/
def Obligations.PortsTrainAndLeave : Prop :=
  ∀ (s : State) (p : Fin 9),
    let q := portAt s p
    let trains := fun i => ∃ t, exec i s = .next t ∧ (portAt t p).state = 1 ∧ (portAt t p).widthTx = 0 ∧ (portAt t p).widthRx = 0 ∧
      (portAt t p).failedTx = 0 ∧ (portAt t p).failedRx = 0 ∧ (portAt t p).txSeq = 0 ∧ (portAt t p).rxSeq = 0 ∧
      (portAt t p).replayBuf = [] ∧ t.out.head? = some (.train p (ownTrain s p)) ∧ t.decks = s.decks
    (linksReleased s = true → portLit s p = true →
      (q.state = 0 → trains (.laneSignal p) ∧ (portSince s p 1000 = true → trains (.portRetry p))) ∧
      (q.state = 6 → portSince s p 10000 = true → trains (.quarantineExpire p)) ∧
      (portLive q = true → ∃ t, exec (.lnkRetrain .fw p) s = .next t ∧ (portAt t p).state = 1 ∧
        (portAt t p).events.getLsbD 1 = true) ∧
      (q.state = 7 → q.disable = true → s.net.armed = false ∨ q.enabled = true → ∃ t,
        exec (.lnkDisable .fw p false) s = .next t ∧ (portAt t p).state = 1 ∧ (portAt t p).disable = false) ∧
      (q.state = 4 ∨ q.state = 5 → ∃ t, exec (.fibreConnectorRemove p) s = .next t ∧ (portAt t p).state = 1 ∧
        (portAt t p).fibreId = none)) ∧
    (portLive q = true → ∃ t, exec (.portLoss p) s = .next t ∧ (portAt t p).state = 0 ∧ (portAt t p).events = setBit q.events 1 true ∧
      (portAt t p).replayBuf = [] ∧ (linkAt t.htu p).beacon = none ∧ t.mgmt = s.mgmt) ∧
    (q.state = 1 → portSince s p 100 = true →
      exec (.trainingTimeout p) s = .next (setPort s p { q with state := 0, since := clockNs s })) ∧
    (∀ f : TrainFrame, portLive q = true → f.crcOk = false →
      exec (.trainFrameReceive p f) s = .next (setPort s p { q with crcErr := satInc q.crcErr })) ∧
    (∀ f : TrainFrame, q.state = 1 → f.lpl = 4 → f.crcOk = true →
      (s.net.armed = false → ∃ t, exec (.trainFrameReceive p f) s = .next t ∧ t = { s with ports := t.ports } ∧
        (portAt t p).state = 2 ∧ (portAt t p).lpl = 4 ∧ (portAt t p).peerModule = f.module ∧ (portAt t p).peerDigests = f.digests) ∧
      (s.net.armed = true → q.expLpl.toNat ≤ 4 → f.module ≠ 0x1FFFF →
        (f.module = q.expModule → f.port = q.expPort → expFibre s p = 0 → q.fibreId = none → ∃ t,
          exec (.trainFrameReceive p f) s = .next t ∧ t = { s with ports := t.ports } ∧ (portAt t p).state = 3 ∧
          (portAt t p).events = setBit q.events 0 true ∧ (portAt t p).schedWait = s.tt.armed) ∧
        (f.module ≠ q.expModule → ∃ t, exec (.trainFrameReceive p f) s = .next t ∧ (portAt t p).state = 4 ∧
          (portAt t p).events = setBit q.events 4 true))) ∧
    (∃ t, exec (.lnkDisable .fw p true) s = .next t ∧ (portAt t p).state = 7 ∧ (portAt t p).disable = true) ∧
    (∀ v, exec (.lnkDisable .mgc p v) s = .next { s with out := .unsupported .mgc :: s.out } ∧
      exec (.lnkRetrain .mgc p) s = .next { s with out := .unsupported .mgc :: s.out }) ∧
    (∀ rec, exec (.fibreConnectorInsert p rec) s = .next { s with
      ports := mapSet {} s.ports p { q with plugged := true, fibreId := fibreOf rec, fibre := ((fibreOf rec).map (·.serial)).getD 0,
                                            events := if (fibreOf rec).isNone then setBit q.events 8 true else q.events },
      mgmt := { s.mgmt with fibreValid := setBit s.mgmt.fibreValid p (fibreOf rec).isSome } }) ∧
    (q.state ≠ 4 → q.state ≠ 5 → exec (.fibreConnectorRemove p) s = .next { s with
      ports := mapSet {} s.ports p { q with plugged := false, fibreId := none },
      mgmt := { s.mgmt with fibreValid := setBit s.mgmt.fibreValid p false } })

/-- [R336, R337, R338, R339, R341, R347, R348, R352, R361] On an IDENTIFIED or UP port a PKT frame with a bad CRC is
counted and answered by a NAK with the expected SEQ, one out of order by that NAK alone, one with a reserved
encoding counts a violation; an UP port takes a good frame in order: SEQ advances, what it acknowledges leaves the
replay buffer, packets for this module arrive in order, the others join the port's transit queue, and the frame is
acknowledged. An idle frame frees what it acknowledges. A NAK replays from the named frame on and counts, and a frame
replayed eight times takes the port down. A lane failure marks the lane, and the direction keeps the widest width its
working lanes fill, a receiver telling the sender; with less than a quarter the port goes down. Completes:
PKT_FRAME_RECEIVE, IDLE_FRAME_RECEIVE, NAK_RECEIVE, LANE_FAIL. -/
def Obligations.FramesLanesAndReplay : Prop :=
  ∀ (s : State) (p : Fin 9),
    let q := portAt s p
    (∀ f : PktFrame, q.state = 2 ∨ q.state = 3 →
      (f.crcOk = false → exec (.pktFrameReceive p f) s =
        .next { setPort s p { q with crcErr := satInc q.crcErr } with out := .nak p q.rxSeq :: s.out }) ∧
      (f.crcOk = true → f.ftype = 0 → f.formOk = false → q.violTimes = [] → 0 < s.net.violLimit.toNat → ∃ t,
        exec (.pktFrameReceive p f) s = .next t ∧ (portAt t p).violation = satInc q.violation ∧ (portAt t p).rxSeq = q.rxSeq ∧
        t.net = s.net) ∧
      (f.crcOk = true → f.ftype = 0 → frameForm f = true → f.seq ≠ q.rxSeq →
        exec (.pktFrameReceive p f) s = .next { s with out := .nak p q.rxSeq :: s.out }) ∧
      (f.crcOk = true → f.ftype = 0 → frameForm f = true → f.seq = q.rxSeq → q.state = 3 → ∃ t,
        exec (.pktFrameReceive p f) s = .next t ∧ (portAt t p).rxSeq = q.rxSeq + 1 ∧
        (portAt t p).replayBuf = (ackFrames q f.ack).replayBuf ∧
        t = { s with ports := t.ports, net := t.net, out := .idle p f.seq :: s.out } ∧
        t.net.arrived = s.net.arrived ++ f.pkts.filter (fun k => decide (k.dst = ownModule s ∨ k.cls = .s)) ∧
        mapGet [] t.net.queues p = mapGet [] s.net.queues p ++
          (f.pkts.filter (fun k => !decide (k.dst = ownModule s ∨ k.cls = .s))).map (fun k => { pk := k, since := clockNs s }))) ∧
    (∀ (ack : BitVec 16) (a b : List ReplayFrame) (x : ReplayFrame), portTrained q = true → q.replayBuf = a ++ x :: b → x.seq = ack →
      (∀ y ∈ a, y.seq ≠ ack) → exec (.idleFrameReceive p ack) s = .next (setPort s p { q with replayBuf := b })) ∧
    (∀ (seq : BitVec 16) (a b : List ReplayFrame) (x : ReplayFrame), q.replayBuf = a ++ x :: b → x.seq = seq → (∀ y ∈ a, y.seq ≠ seq) →
      (x.tries < 8 → ∃ t, exec (.nakReceive p seq) s = .next t ∧ (portAt t p).replay = satInc q.replay ∧
        (portAt t p).replayBuf = (x :: b).map (fun f => { f with tries := f.tries + 1 }) ∧
        t.out = ((x :: b).map (fun f => Output.frame p f.seq (q.rxSeq - 1) f.pkts)).reverse ++ s.out) ∧
      (8 ≤ x.tries → portLive q = true → ∃ t, exec (.nakReceive p seq) s = .next t ∧ (portAt t p).state = 0)) ∧
    (∀ (lane : Fin 34), portTrained q = true → lane.val < activeLanes p + 2 →
      (q.failedTx.getLsbD lane = false →
        (∀ w, widthFor p (setBit q.failedTx lane true) = some w → ∃ t, exec (.laneFail p 0 lane) s = .next t ∧
          t = { s with ports := t.ports } ∧ (portAt t p).failedTx = setBit q.failedTx lane true ∧
          (portAt t p).widthTx.toNat = max q.widthTx.toNat w ∧ (portAt t p).failedRx = q.failedRx ∧ (portAt t p).widthRx = q.widthRx) ∧
        (widthFor p (setBit q.failedTx lane true) = none → ∃ t, exec (.laneFail p 0 lane) s = .next t ∧ (portAt t p).state = 0)) ∧
      (q.failedRx.getLsbD lane = false → ∀ w, widthFor p (setBit q.failedRx lane true) = some w → ∃ t,
        exec (.laneFail p 1 lane) s = .next t ∧ t = { s with ports := t.ports, out := .laneFailed p lane :: s.out } ∧
        (portAt t p).failedRx = setBit q.failedRx lane true ∧ (portAt t p).widthRx.toNat = max q.widthRx.toNat w ∧
        (portAt t p).failedTx = q.failedTx ∧ (portAt t p).widthTx = q.widthTx))

/-- [R24, R25, R29, R31, R43, R44, R344, R465, R531] An ELS that supplied its pair and fails gives way to a usable
partner, and each of the pair's ports sets ELS_SWITCH; with neither usable, every live port of the pair goes down,
and with one usable nothing changes. An ELS inserted with a valid record that covers its engines is usable, with its
serial number; an invalid record sets ELS_ID_BAD. A flit error counts detector 9 and, with action 0 and naming a
collective that has gone, does no more; on a running collective it gives the member ISOLATED; it ends the started
mover transfer that it names. A failed hub link puts the deck out of service. A clearing that is done leaves the
deck's stack memory zero and not clearing. Completes: ELS_FAIL, ELS_PAIR_LOST, ELS_INSERT, FABRIC_FLIT_UE,
DECK_HUB_LINK_FAIL, DECK_CLEAR_DONE. -/
def Obligations.LasersAndLinksFail : Prop :=
  ∀ (s : State),
    (∀ (n : Fin 4), ∃ t, exec (.elsFail n) s = .next t ∧ t.mgmt.elsFailed = setBit s.mgmt.elsFailed n true ∧ t.decks = s.decks ∧
      let partner := 2 * (n.val / 2) + (1 - n.val % 2)
      (elsActive s.mgmt (n.val / 2) = n.val → elsUsable s.mgmt partner = true → elsActive t.mgmt (n.val / 2) = partner ∧
        ∀ p ∈ pairPorts (n.val / 2), (portAt t p).events.getLsbD 7 = true ∧ (portAt t p).state = (portAt s p).state)) ∧
    (∀ (pair : Fin 2),
      (elsUsable s.mgmt (2 * pair) = true → exec (.elsPairLost pair) s = .next s) ∧
      (elsUsable s.mgmt (2 * pair) = false → elsUsable s.mgmt (2 * pair + 1) = false → ∃ t,
        exec (.elsPairLost pair) s = .next t ∧ ∀ p ∈ pairPorts pair, portLive (portAt s p) = true → (portAt t p).state = 0)) ∧
    (∀ (n : Fin 4) (rec : List Byte),
      (recordValid 2 rec = true → (pairPorts (n.val / 2)).length ≤ readNat (bytesCells rec) 3 1 → ∃ t,
        exec (.elsInsert n rec) s = .next t ∧ t = { s with mgmt := t.mgmt } ∧ elsUsable t.mgmt n = true ∧
        mapGet 0 t.mgmt.elsSerial n = BitVec.ofNat 64 (readNat (bytesCells rec) 4 8)) ∧
      (recordValid 2 rec = false → ∃ t, exec (.elsInsert n rec) s = .next t ∧ t.mgmt.elsPresent = setBit s.mgmt.elsPresent n true ∧
        t.mgmt.elsValid = setBit s.mgmt.elsValid n false ∧ t.mgmt.events.getLsbD 4 = true ∧ mapGet 0 t.mgmt.elsSerial n = 0)) ∧
    (∀ (d : Fin 8), actionOf s 9 = 0 →
      (∀ k : CollRef, collAt s k = none → exec (.fabricFlitUe d (.coll k)) s = .next { s with rst := { s.rst with
        detCount := mapMod 0 s.rst.detCount 9 satInc, detLast := mapSet 0 s.rst.detLast 9 0 } }) ∧
      (∀ (k : CollRef) (c : Coll), collAt s k = some c → c.silent = false → c.done = false → ∃ t,
        exec (.fabricFlitUe d (.coll k)) s = .next t ∧ ∃ c', collAt t k = some c' ∧ c'.learned = c.learned ++ [stIsolated]) ∧
      (∀ (c : CoreRef) (e : MovEntry), (coreOf s c).xq = [e] → e.started = true → ∃ t,
        exec (.fabricFlitUe d (.mover c e.seq)) s = .next t ∧ (coreOf t c).xq = [])) ∧
    (∀ (d : Fin 8), exec (.deckHubLinkFail d) s =
      .next (setDeck s d { deckAt s d with hubLinkFailed := true, outOfService := true })) ∧
    (∀ (d : Fin 8), (deckAt s d).clearing = true → s.host.binds = [] → ∃ t, exec (.deckClearDone d) s = .next t ∧
      (deckAt t d).clearing = false ∧ (deckAt t d).mem = [] ∧ (deckAt t d).memBad = [])

/-- [R342, R347, R361, R363, R364, R365, R368, R373] Where the packets of an input share one class and VC (and, for a
deck's, its hub link works), PACKET_FORWARD takes the oldest: one for this module arrives; one whose T coordinate
differs leaves on the T port that the exclusive or of the two coordinates names where that port is UP in open water,
in a frame with the next SEQ, kept for replay; one whose next port is down however many credits the outputs hold is
discarded and counted there. PACKET_AGE_OUT discards and counts the oldest packet of a transit buffer once it has
waited more than 12 µs. FENCE_ENTRY_EXPIRE frees an entry untouched for 4 ms; FENCE_WAIT_EXPIRE of the one held
packet, once FENCE_WAIT_US has passed, counts the discard and answers it with LINK_LOST. Completes: PACKET_FORWARD,
PACKET_AGE_OUT, FENCE_ENTRY_EXPIRE, FENCE_WAIT_EXPIRE. -/
def Obligations.PacketsMoveThroughTheRouter : Prop :=
  ∀ (s : State) (r : RouteIn) (x : Queued) (rest : List Queued), inputQueue s r = x :: rest →
    let pk := x.pk
    let alone := (∀ y ∈ rest, bufferOf y.pk = bufferOf pk) ∧ ∀ d, r = .deck d → (deckAt s d).hubLinkFailed = false
    (alone → pk.dst = ownModule s → ∃ t, exec (.packetForward r) s = .next t ∧ inputQueue t r = rest ∧
      t.net.arrived = s.net.arrived ++ [pk] ∧ t.ports = s.ports ∧ t.out = s.out) ∧
    (let x := (ownModule s).extractLsb' 0 2 ^^^ pk.dst.extractLsb' 0 2
     let o := x.toNat - 1
     alone → x ≠ 0 → portUp s o = true → (portAt s o).replayBuf.length < 8192 → (portAt s o).lpl ≠ 3 → openWater s o = true →
     controlPort s pk = none → ∃ t vc,
      exec (.packetForward r) s = .next t ∧ inputQueue t r = rest ∧
      t.out = .frame o (portAt s o).txSeq ((portAt s o).rxSeq - 1) [{ pk with vc := vc }] :: s.out ∧
      (portAt t o).txSeq = (portAt s o).txSeq + 1 ∧
      (portAt t o).replayBuf = (portAt s o).replayBuf ++ [{ seq := (portAt s o).txSeq, pkts := [{ pk with vc := vc }] }]) ∧
    (∀ o, alone → pk.dst ≠ ownModule s → (∀ credits, nextHop s (inputPort r) pk credits = (o, none)) → ∃ t,
      exec (.packetForward r) s = .next t ∧ inputQueue t r = rest ∧ (portAt t o).downDrop = satInc (portAt s o).downDrop ∧
      t.out = s.out) ∧
    (∀ p : Fin 9, r = .port p → x.since + 12000 < clockNs s → ∃ t, exec (.packetAgeOut r) s = .next t ∧ inputQueue t r = rest ∧
      (portAt t p).ageDrop = satInc (portAt s p).ageDrop ∧ t.out = s.out) ∧
    (∀ n e, s.net.tracker[n]? = some e → e.last + 4000000 ≤ clockNs s → exec (.fenceEntryExpire n) s = .next { s with net := { s.net with tracker := s.net.tracker.eraseIdx n } }) ∧
    (∀ y : Queued, s.net.fenceHold = [y] → y.since + 1000 * s.net.fenceWaitUs.toNat ≤ clockNs s → ∃ t a,
      exec (.fenceWaitExpire 0) s = .next t ∧ t.net.fenceHold = [] ∧ t.net.fenceDiscard = satInc s.net.fenceDiscard ∧
      mapGet [] t.net.queues 9 = mapGet [] s.net.queues 9 ++ [{ pk := a, since := clockNs s }] ∧ a.cls = .p ∧ a.type = 0 ∧
      a.dst = y.pk.src ∧ a.srcCore = y.pk.srcCore ∧ a.txn = y.pk.txn ∧ a.status = stLinkLost ∧ a.retry = false)

/-- [R7, R47, R131, R145, R282, R302, R311, R369, R374, R375, R399] For a request packet addressed to this module with
nothing held, places in the tracker and no channel in training or row being copied in its way: a refusal of its deck or partition (out of reach, not bound, tag) is the
status of its reply and nothing is written; an untracked WRITE into stack memory writes its bytes and is answered by
ACK; one that reaches beyond the deck's memory is answered by BAD_PARAM and nothing is written; a closed gate
answers VOTE_FAILED and counts; where no memory error stands, READ is answered by one DATA packet per 512 bytes, in
order, and ATOM adds its granules; SIG on a signal word raises the object's count by IMM; RESEND of a chunk that a
member here has asked for puts its 512 bytes in the landing; a fenced packet whose window has not counted enough is
held with no reply and no effect. Completes: PKT_WRITE, PKT_READ, PKT_ATOM, PKT_SIG, PKT_RESEND. -/
def Obligations.RequestPacketsAreServed : Prop :=
  ∀ (s : State) (pk : Packet), pk.cls = .q → pk.dst = ownModule s → s.net.fenceHold = [] → s.net.tracker.length ≤ 16382 →
    reqHeld s pk = false →
    let d := pk.dstDeck.toNat
    let k := deckAt s d
    let a := pk.offset.toNat
    let cmd : Instr := if pk.type = 0 then .pktWrite pk else if pk.type = 1 then .pktRead pk [] else if pk.type = 2 then .pktAtom pk
      else if pk.type = 3 then .pktSig pk else .pktResend pk
    let answers := fun (t : State) (st : Status) => ∃ r : Packet, mapGet [] t.net.queues 9 = mapGet [] s.net.queues 9 ++ [{ pk := r, since := clockNs s }] ∧
      r.cls = .p ∧ r.type = 0 ∧ r.dst = pk.src ∧ r.dstDeck = pk.srcDeck ∧ r.srcCore = pk.srcCore ∧ r.txn = pk.txn ∧ r.status = st ∧ r.retry = false
    (pk.trk = false →
      (∀ st, pk.type.toNat ≤ 3 → destRefusal s pk = some st → ∃ t, exec cmd s = .next t ∧ answers t st ∧ t.decks = s.decks ∧ t.host = s.host) ∧
      (pk.type.toNat ≤ 1 → pk.space = 0 → destRefusal s pk = none →
        memEnd < a + (if pk.type = 0 then pk.len else pk.imm.toNat) →
        ∃ t, exec cmd s = .next t ∧ answers t stBadParam ∧ t.decks = s.decks ∧ t.host = s.host) ∧
      (pk.type = 0 → pk.space = 0 → destRefusal s pk = none → a + pk.len ≤ memEnd →
        (gateRefuses k a pk.len = false → ∃ t, exec cmd s = .next t ∧ answers t (memWriteSt k a pk.len) ∧ onlyDeck { s with net := t.net } t d ∧
          (memWriteSt k a pk.len = stGood → ∀ x, deckByte t d x =
            if a ≤ x ∧ x < a + pk.len then cellGet pk.payload (x - a) else deckByte s d x)) ∧
        (gateRefuses k a pk.len = true → ∃ t, exec cmd s = .next t ∧ answers t stVoteFailed ∧ (deckAt t d).mem = k.mem ∧
          (deckAt t d).gateDrop = satInc k.gateDrop)) ∧
      (pk.type = 1 → pk.space = 0 → destRefusal s pk = none → a + pk.imm.toNat ≤ memEnd → k.latent = [] →
        ∀ m, memRead k a pk.imm.toNat = some m →
        ∃ t, ∃ ps : List Packet, exec cmd s = .next t ∧
          mapGet [] t.net.queues 9 = mapGet [] s.net.queues 9 ++ ps.map (fun p => { pk := p, since := clockNs s }) ∧
          ps.length = (pk.imm.toNat + 511) / 512 ∧ (deckAt t d).mem = k.mem ∧ ∀ j (p : Packet), ps[j]? = some p → p.cls = .p ∧ p.type = 1 ∧
            p.dst = pk.src ∧ p.txn = pk.txn ∧ p.offset = BitVec.ofNat 40 (512 * j) ∧ p.len = min 512 (pk.imm.toNat - 512 * j) ∧
            p.payload = mapSlice m (512 * j) p.len) ∧
      (pk.type = 2 → pk.space = 0 → destRefusal s pk = none → a + pk.len ≤ memEnd → gateRefuses k a pk.len = false →
        k.latent = [] → let r := adderRun pk.atype.toNat pk.payload a (pk.len / 64) (touch k a pk.len)
        ∃ t, exec cmd s = .next t ∧ deckAt t d = r.1 ∧ answers t (if r.2 then stMemPoison else stGood)) ∧
      (∀ o, pk.type = 3 → pk.space = 2 → destRefusal s pk = none → syncWordAt a = some (.signal o) → objAlloc k o = true →
        objWaited k o = false → (objAt k o).count.toNat + pk.imm.toNat < 2 ^ 32 → ∃ t, exec cmd s = .next t ∧ answers t stGood ∧
          (objAt (deckAt t d) o).count = (objAt k o).count + pk.imm ∧ (deckAt t d).mem = k.mem) ∧
      (∀ p c l off left b, pk.type = 4 → (List.range 9).find? (fun p => (portAt s p).peerModule == pk.src && portUp s p) = some p →
        s.churn.colls.find? (fun c => c.desc.slot == pk.txn && mapGet false c.asked (chunkKey p pk.imm.toNat)) = some c →
        landingOf s p pk.txn pk.imm.toNat (2 ^ (12 + c.desc.chunkLog)) = some (l, off, left) → tagLd s pk.tag = some l →
        (ldAt s l).bind = some b → pk.offset.toNat + 512 ≤ left → ∃ t, exec cmd s = .next t ∧ answers t stGood ∧
          winMem t l = mapSplice b.mem (off + pk.offset.toNat) 512 pk.payload)) ∧
    (pk.type.toNat ≤ 3 → pk.trk = true → pk.f = true → (∀ e ∈ s.net.tracker, fenceKey pk pk.fepoch e = false) → pk.fcount ≠ 0 →
      ∃ t, exec cmd s = .next t ∧ t.net.fenceHold = [{ pk := pk, since := clockNs s }] ∧ t.net.queues = s.net.queues ∧ t.decks = s.decks ∧ t.host = s.host)

/-- [R47, R82, R86, R131, R135, R365, R366, R367, R371, R372, R377, R410] An ACK or a DATA packet for a deck that holds
another tag is counted and nothing of it consumed; one that no request awaits is counted as a late reply; an ACK with
RETRY marks its request, and RETRY_RESEND sends that packet again 2 µs later. A DATA packet of a GET into stack memory
that is not its last writes its bytes. The last reply of a transfer with an allocated completion object that nobody
waits on signals it by AMT, or with an error status, or when the request times out, poisons it. A vacancy notice is
counted, and with reason 0 or 4 does no more. A CONTROL packet enters the CMDP inbox or, when that is full, is
counted. A broadcast's root notes a report that it awaits, with the members not reached; one that no root awaits does
nothing more. A class-S packet outside a sailing of its slot is counted; in one, a packet of an accepted collective
whose landing fits its tag writes its 512 bytes there, and one without such a landing is dropped and counted. A window
without a send for 1 ms is abandoned; the release of fenced sends sends the one request that can go. Completes:
PKT_ACK, PKT_DATA, PKT_VACANCY, PKT_CONTROL, PKT_MC_REPORT, PKT_CHUNK, RETRY_RESEND, REQUEST_TIMEOUT,
FENCE_WINDOW_ABANDON, FENCED_SEND_RELEASE. -/
def Obligations.RepliesChunksAndNotices : Prop :=
  ∀ (s : State) (pk : Packet),
    let taken := { s with net := { s.net with arrived := s.net.arrived.erase pk } }
    let here := fun (cls : PClass) (ty : BitVec 4) => pk.cls = cls ∧ pk.type = ty ∧ pk.dst = ownModule s
    let d := pk.dstDeck.toNat
    let k := deckAt s d
    let i := pk.srcCore.toNat
    let late := .next { taken with net := { taken.net with lateReply := satInc s.net.lateReply } }
    (here .p 0 → pk.srcCore ≠ 0xFFF → memUp k = true → replyBound s pk = false →
      exec (.pktAck pk) s = .next { taken with net := { taken.net with notBound := satInc s.net.notBound } }) ∧
    (here .p 1 → memUp k = true → replyBound s pk = false →
      exec (.pktData pk) s = .next { taken with net := { taken.net with notBound := satInc s.net.notBound } }) ∧
    (∀ x e, here .p 1 → memUp k = true → replyBound s pk = true → mapGet none (coreAt k i).txns pk.txn.toNat = some x → 2 ≤ x.left →
      movAt (coreAt k i) x.seq = some e → e.op = opGET → pk.status = stGood →
      let a := e.dst.toNat + pk.offset.toNat
      placeOf (coreEnv s d) a pk.len = .stack → memWriteSt k a pk.len = stGood → ∃ t, exec (.pktData pk) s = .next t ∧
        (deckAt t d).mem = (memWrite k a pk.len pk.payload).mem ∧
        mapGet none (coreAt (deckAt t d) i).txns pk.txn.toNat = some { x with left := x.left - 1 }) ∧
    (here .p 0 → pk.srcCore ≠ 0xFFF → memUp k = true → replyBound s pk = true → (∀ e ∈ k.ctxs, e.2.life ≠ .quarantine) →
      mapGet none (coreAt k i).txns pk.txn.toNat = none → exec (.pktAck pk) s = late) ∧
    (here .p 1 → memUp k = true → replyBound s pk = true → (∀ e ∈ k.ctxs, e.2.life ≠ .quarantine) → mapGet none (coreAt k i).txns pk.txn.toNat = none →
      exec (.pktData pk) s = late) ∧
    (∀ x, here .p 0 → pk.srcCore ≠ 0xFFF → memUp k = true → replyBound s pk = true →
      mapGet none (coreAt k i).txns pk.txn.toNat = some x → pk.retry = true → ∃ t, exec (.pktAck pk) s = .next t ∧
        mapGet none (coreAt (deckAt t d) i).txns pk.txn.toNat = some { x with retry := true, retryAt := clockNs s }) ∧
    (∀ x e, here .p 0 → pk.srcCore ≠ 0xFFF → memUp k = true → replyBound s pk = true → mapGet none (coreAt k i).txns pk.txn.toNat = some x → pk.retry = false →
      (coreAt k i).xq = [e] → e.seq = x.seq → e.rest = 1 → e.err = 0 → e.op ≠ opSYNCRD → ∀ o, e.cobj = some o →
      objAlloc k o.toNat = true → objWaited k o.toNat = false → ∃ t, exec (.pktAck pk) s = .next t ∧ (coreAt (deckAt t d) i).xq = [] ∧
        (pk.status = 0 → (objAt k o.toNat).count.toNat + e.amt.toNat < 2 ^ 32 →
          (objAt (deckAt t d) o.toNat).count.toNat = (objAt k o.toNat).count.toNat + e.amt.toNat) ∧
        (pk.status ≠ 0 → (objAt (deckAt t d) o.toNat).poison = true)) ∧
    (∀ (c : CoreRef) (txn : BitVec 16) (x : TxnRec), mapGet none (coreOf s c).txns txn.toNat = some x →
      (x.retry = true → x.retryAt + 2000 ≤ clockNs s → ∃ t, exec (.retryResend c txn) s = .next t ∧ onlyDeck s t c.deck ∧
        (deckAt t c.deck).txq = (deckAt s c.deck).txq ++ [{ pk := x.packet, since := clockNs s }] ∧
        mapGet none (coreOf t c).txns txn.toNat = some { x with retry := false, sentAt := clockNs s }) ∧
      (∀ e o, x.sentAt + 1000 * s.net.reqTimeoutUs.toNat ≤ clockNs s → (coreOf s c).xq = [e] → e.seq = x.seq → e.rest = 1 → e.err = 0 → e.cobj = some o → e.op ≠ opSYNCRD →
        objAlloc (deckAt s c.deck) o.toNat = true → objWaited (deckAt s c.deck) o.toNat = false → ∃ t,
        exec (.requestTimeout c txn) s = .next t ∧ (coreOf t c).xq = [] ∧ (objAt (deckAt t c.deck) o.toNat).poison = true)) ∧
    (∀ p : Fin 9, here .m 0 → pk.reason = 0 ∨ pk.reason = 4 → ∃ t, exec (.pktVacancy p pk) s = .next t ∧
      t = { taken with ports := t.ports } ∧ (portAt t p).tt.vacantRecv = satInc (portAt s p).tt.vacantRecv) ∧
    (here .m 1 → exec (.pktControl pk) s = .next { s with net := if s.net.inbox.length < Config.inboxPlaces then
      { taken.net with inbox := s.net.inbox ++ [pk] } else { taken.net with inboxDrop := satInc s.net.inboxDrop } }) ∧
    (here .m 2 → s.churn.colls.filter (fun c => c.desc.slot == pk.slot && c.desc.op == 4 && !c.done) = [] →
      exec (.pktMcReport pk) s = .next taken) ∧
    (∀ (p : Nat) (r : CollRef) (c : Coll), here .m 2 → reportPort s pk.src = some p → collAt s r = some c →
      s.churn.colls.filter (fun c => c.desc.slot == pk.slot && c.desc.op == 4 && !c.done) = [c] →
      (reportsDue s c).contains (chunkKey p pk.chunk.toNat) = true → mapGet false c.reports (chunkKey p pk.chunk.toNat) = false →
      ∃ t c', exec (.pktMcReport pk) s = .next t ∧ collAt t r = some c' ∧
        mapGet false c'.reports (chunkKey p pk.chunk.toNat) = true ∧ c'.undel = c.undel ||| pk.undel) ∧
    (∀ p : Fin 9, pk.cls = .s →
      (inSailing s p pk.slot = false → ∃ t, exec (.pktChunk p pk) s = .next t ∧ t = { taken with ports := t.ports } ∧
        (portAt t p).tt.unexpected = satInc (portAt s p).tt.unexpected) ∧
      (∀ n, inSailing s p pk.slot = true → retiredSlot s pk.slot = none → slotChunk s pk.slot = some n → pk.mc = false →
        (∀ l off b, landPlace s p pk n = some (l, off) → (ldAt s l).bind = some b → ∃ t,
          exec (.pktChunk p pk) s = .next t ∧ winMem t l = mapSplice b.mem off 512 pk.payload ∧ t.decks = s.decks) ∧
        (landPlace s p pk n = none → ∃ t, exec (.pktChunk p pk) s = .next t ∧ t.host = s.host ∧ t.decks = s.decks ∧
          (portAt t p).tt.tagDrop = satInc (portAt s p).tt.tagDrop))) ∧
    (∀ (c : CoreRef) (dst : BitVec 17) (w : SendWin), (coreOf s c).xq = [] → winAt (coreOf s c) dst = some w →
      w.last + 1000000 ≤ clockNs s → ∃ t, exec (.fenceWindowAbandon c dst) s = .next t ∧ onlyDeck s t c.deck ∧
        mapGet none (coreOf t c).wins dst.toNat = none ∧ sameRegs (coreOf s c) (coreOf t c)) ∧
    (∀ (c : CoreRef) (e : MovEntry), (coreOf s c).xq = [e] → e.started = false → e.value = none → e.remote = true →
      e.op = opGET ∨ e.op = opSIG ∨ e.op = opSYNCRD → canStart (coreEnv s c.deck) (coreOf s c) e = true → ∃ t,
        exec (.fencedSendRelease c) s = .next t ∧ onlyDeck s t c.deck ∧ sameRegs (coreOf s c) (coreOf t c) ∧
        ∃ q : Packet, (deckAt t c.deck).txq = (deckAt s c.deck).txq ++ [{ pk := q, since := clockNs s }] ∧ q.dst = e.target ∧ q.f = e.f)

/-- [R281, R386, R393, R396, R399, R400, R402, R404, R405, R407, R408, R531] For a collective whose buffers no channel in
training and no row being copied holds up: with room for its send buffers and every member of its module there, buffers
granted mark it and the local level gives its sums, and a member of another digest gives MISMATCH; a chunk that becomes
ready in a free buffer of its direction stands there with its header; a chunk that has wholly landed, and whose turn it
is to be added, is counted and dropped where it is of another step, gives MISMATCH where it is of another digest, is
asked for again once where it fails its CRC, and else is used; a request for a chunk no longer held does nothing but
leave the inbox, and one for a held chunk sends it packet by packet; an abort notice for nothing running is counted once
the deadline has passed, and one for a running collective is learned. Complete in time, it has its result at DST, is
done and signals its object by AMT; a VOTE with no bad member moves STEP on and sets ATTEMPT 0, one with a bad member
raises ATTEMPT and poisons its object. COLL_DEADLINE before the deadline does nothing; from then on a done one leaves,
any other ends with the status R407 chooses (CHECK_FAILED among them where a chunk asked for again has not come) and
poisons its object. COLL_SLACK_EXPIRE fires detector 4 once COLL_SLACK_US has passed since the deadline and it has not
ended, and before that does nothing. Completes: COLL_BUFFERS_GRANTED, CHUNK_READY, CHUNK_LANDED,
CHURN_RESEND_REQ, CHURN_ABORT, COLL_COMPLETE, COLL_DEADLINE, COLL_SLACK_EXPIRE. -/
def Obligations.CollectivesGrantLandAndEnd : Prop :=
  ∀ (s : State) (k : CollRef) (c : Coll), collAt s k = some c → collWaits s k = false →
    let d := deckAt s c.deck
    let g := geoOf s c.deck
    let ms := localMembers s c
    let pl := collPlan s c
    let live := c.granted = true ∧ c.learned = [] ∧ c.silent = false
    let fits := (((ctxAt d c.ctx.toNat).pailSize.toNat - (ctxAt d c.ctx.toNat).recv.toNat) * 0x10000) ≥ heldBuffers s c + sendBytes g c.desc
    let free := fun o => objAlloc d o = true ∧ objWaited d o = false
    let o := c.desc.cobj.toNat
    (c.granted = false → c.learned = [] → c.silent = false → c.done = false → ms.length = (groupDecks c.desc).length → fits →
      (ms.any (fun e => e.digest != c.digest) = false → c.summed = true ∨ (localLevel s c ms).1 = stGood → ∃ t c',
        exec (.collBuffersGranted k) s = .next t ∧ collAt t k = some c' ∧ c'.granted = true ∧
        (inPlace c.desc = false → c'.learned = [])) ∧
      (ms.any (fun e => e.digest != c.digest) = true → ∃ t c', exec (.collBuffersGranted k) s = .next t ∧ collAt t k = some c' ∧
        c'.learned = [stMismatch])) ∧
    (∀ (p : Fin 9) (chunk : BitVec 32) i n, locate c.desc (portItems pl.sends p) chunk.toNat = some (i, n) → live →
      (groupDecks c.desc).head? = some c.deck → earlierUsed c.desc pl c i = true →
      let key := chunkKey p chunk.toNat
      chunkGone c key = false → c.buffered.contains key = false →
      (c.buffered.filter (fun x => x / 2 ^ 32 == key / 2 ^ 32)).length < 8 → ∃ t c', exec (.chunkReady k p chunk []) s = .next t ∧
        collAt t k = some c' ∧ c'.buffered = c.buffered ++ [key] ∧
        mapGet [] c'.ready key = chunkBytes c.digest (wireType c.desc i) i
          (positionOf g c.desc c.deck) c.tstep (toWire (wireType c.desc i) ((chunkIndexes c.desc i n).map (spaceGet c.desc c.acc))).1) ∧
    (∀ (p : Fin 9) (chunk : BitVec 32) ld off left i n, landingOf s p c.desc.slot chunk.toNat (2 ^ (12 + c.desc.chunkLog)) = some (ld, off, left) →
      locate c.desc (portItems pl.recvs p) chunk.toNat = some (i, n) → live → c.done = false →
      mapGet false c.used (chunkKey p chunk.toNat) = false → (landedAt s p c.desc.slot chunk.toNat).whole = true →
      (reduces c.desc i = true → earlierUsed c.desc pl c i = true) →
      let h := mapSlice (winMem s ld) off 32
      let data := mapSlice (winMem s ld) (off + 512) (readNat h 8 3)
      (readNat h 24 8 ≠ c.tstep → ∃ t, exec (.chunkLanded k p chunk) s = .next t ∧ t.churn.stepDrop = satInc s.churn.stepDrop ∧
        t.churn.colls = s.churn.colls ∧ landedAt t p c.desc.slot chunk.toNat = {} ∧ t.decks = s.decks) ∧
      (readNat h 24 8 = c.tstep → readNat h 0 4 ≠ c.digest.toNat → ∃ t c', exec (.chunkLanded k p chunk) s = .next t ∧
        t.churn.digestDrop = satInc s.churn.digestDrop ∧ collAt t k = some c' ∧ c'.learned = [stMismatch]) ∧
      (readNat h 24 8 = c.tstep → readNat h 0 4 = c.digest.toNat → (crc32c (readBytes data 0 (readNat h 8 3))).toNat ≠ readNat h 4 4 →
        s.churn.resendEn = true → mapGet false c.asked (chunkKey p chunk.toNat) = false → ∃ t c', exec (.chunkLanded k p chunk) s = .next t ∧
        t.churn.requested = satInc s.churn.requested ∧ collAt t k = some c' ∧ mapGet false c'.asked (chunkKey p chunk.toNat) = true) ∧
      (readNat h 24 8 = c.tstep → readNat h 0 4 = c.digest.toNat → (crc32c (readBytes data 0 (readNat h 8 3))).toNat = readNat h 4 4 →
        ∃ t c', exec (.chunkLanded k p chunk) s = .next t ∧ collAt t k = some c' ∧ mapGet false c'.used (chunkKey p chunk.toNat) = true)) ∧
    (∀ (p : Fin 9) (n : Notice), n.slot = k.slot → n.tstep = k.tstep →
      let key := chunkKey p n.chunk.toNat
      let here := s.churn.colls.filter (fun x => x.desc.slot == n.slot && x.tstep == n.tstep.toNat)
      ((∀ x ∈ here, mapGet [] x.ready key = []) → ∃ t, exec (.churnResendReq p n) s = .next t ∧
        t = { s with net := { s.net with inbox := t.net.inbox } }) ∧
      (here = [c] →
        (mapGet [] c.ready key ≠ [] → c.learned = [] → c.silent = false → c.done = false → ∃ t, ∃ ps : List Packet,
          exec (.churnResendReq p n) s = .next t ∧
          mapGet [] t.net.queues 9 = mapGet [] s.net.queues 9 ++ ps.map (fun x => { pk := x, since := clockNs s }) ∧
          ps.length = chunkPackets (mapGet [] c.ready key) ∧ ∀ x ∈ ps, x.cls = .q ∧ x.type = 4 ∧
            x.dst = (portAt s p).peerModule ∧ x.txn = n.slot ∧ x.imm = n.chunk) ∧
        (c.done = false → c.silent = false → c.learned.contains n.status = false → holdsFinal s c = false → ∃ t c',
          exec (.churnAbort p n) s = .next t ∧ collAt t k = some c' ∧ c'.learned = c.learned ++ [n.status]))) ∧
    (∀ (p : Fin 9) (n : Notice), s.churn.colls.filter (fun x => x.desc.slot == n.slot && x.tstep == n.tstep.toNat) = [] → ∃ t,
      exec (.churnAbort p n) s = .next t ∧ t.churn.colls = s.churn.colls ∧ t.churn.abortLate =
        if hallNs s < deadlineNs s n.slot n.tstep.toNat then s.churn.abortLate else satInc s.churn.abortLate) ∧
    (live → c.done = false → c.used.length = recvChunks c.desc pl → (reportsDue s c).all (fun r => mapGet false c.reports r) = true →
      hallNs s ≤ deadlineNs s c.desc.slot c.tstep →
      (c.desc.op ≠ 6 → c.desc.op ≠ 7 → c.undel = 0 →
        (inPlace c.desc = false → c.desc.dst + dstBytes g c.desc ≤ memEnd ∧ memUp d = true ∧
          gateRefuses d c.desc.dst (dstBytes g c.desc) = false ∧ memWriteSt d c.desc.dst (dstBytes g c.desc) = stGood) → ∃ t c',
          exec (.collComplete k) s = .next t ∧ collAt t k = some c' ∧ c'.done = true ∧
          (inPlace c.desc = false → ∀ x, x < dstBytes g c.desc →
            deckByte t c.deck (c.desc.dst + x) = cellGet (resultBytes g c) x) ∧
          (free o → (objAt d o).count.toNat + c.desc.amt.toNat < 2 ^ 32 →
            (objAt (deckAt t c.deck) o).count.toNat = (objAt d o).count.toNat + c.desc.amt.toNat)) ∧
      (c.desc.op = 6 → (∃ t, exec (.collComplete k) s = .next t ∧
        (bits (readNat c.acc 0 16) 0 32 = 0 → (ctxAt (deckAt t c.deck) c.ctx.toNat).hold.step = (ctxAt d c.ctx.toNat).hold.step + 1 ∧
          (ctxAt (deckAt t c.deck) c.ctx.toNat).hold.attempt = 0) ∧
        (bits (readNat c.acc 0 16) 0 32 ≠ 0 →
          (ctxAt (deckAt t c.deck) c.ctx.toNat).hold.attempt = (ctxAt d c.ctx.toNat).hold.attempt + 1 ∧
          (free o → (objAt (deckAt t c.deck) o).poison = true ∧ (objAt (deckAt t c.deck) o).status = stVoteFailed))))) ∧
    (hallNs s < deadlineNs s c.desc.slot c.tstep → exec (.collDeadline k) s = .next s) ∧
    (deadlineNs s c.desc.slot c.tstep ≤ hallNs s → ∃ t, exec (.collDeadline k) s = .next t ∧ collAt t k = none ∧
      (c.done = true → t.decks = s.decks) ∧
      (c.done = false → c.silent = false → c.desc.op ≠ 6 →
        (ctxAt (deckAt t c.deck) c.ctx.toNat).lastStatus =
          finalStatus (if awaitsResend c then c.learned ++ [stCheckFailed] else c.learned) ∧
        (ctxAt (deckAt t c.deck) c.ctx.toNat).lastSlot = c.desc.slot ∧ (free o → (objAt (deckAt t c.deck) o).poison = true))) ∧
    (c.done = true ∨ c.silent = true ∨ hallNs s ≤ deadlineNs s c.desc.slot c.tstep + 1000 * s.rst.collSlackUs.toNat →
      exec (.collSlackExpire k) s = .next s) ∧
    (c.done = false → c.silent = false → deadlineNs s c.desc.slot c.tstep + 1000 * s.rst.collSlackUs.toNat < hallNs s →
      actionOf s 4 = 0 → exec (.collSlackExpire k) s = .next { s with rst := { s.rst with
      detCount := mapMod 0 s.rst.detCount 4 satInc, detLast := mapSet 0 s.rst.detLast 4 0 } })

/-- [R55, R301, R302, R315, R319, R329, R420, R449] Completes: cxlMemRead, cxlMemWrite. A read inside the LD's range,
with nothing for ECC to find and no channel or row that it waits for, answers, byte for byte, what the deck holds that
R55 gives each offset, for every sector of a reachable deck that is not poisoned; no byte of memory changes. A write
stores its bytes at the addresses R55 gives, on reachable decks without poison or dead pages, and changes no other byte.
An access that a retraining channel or a row copy holds up waits. An LD without decks gets poison for every sector and
one violation is counted; beyond its range a read gets poison and a write changes nothing. -/
def Obligations.HostMemoryAccesses : Prop :=
  ∀ (s : State) (l : LdRef) (off : Nat),
    (heldBind (ldAt s (ldKey l)) = none → (∀ n, ∃ t, exec (.cxlMemRead l off n []) s = .next t ∧ t.decks = s.decks ∧
        .cxlData l [] (rangeSectors off n) ∈ t.out ∧ (ldAt t (ldKey l)).viol = satInc (ldAt s (ldKey l)).viol) ∧
      ∀ bs, ∃ t, exec (.cxlMemWrite l off bs []) s = .next t ∧ t.decks = s.decks ∧ (ldAt t (ldKey l)).viol = satInc (ldAt s (ldKey l)).viol) ∧
    (∀ b : Binding, heldBind (ldAt s (ldKey l)) = some b →
      (∀ n, hdmFits b off n = false → exec (.cxlMemRead l off n []) s = .next { s with out := .cxlData l [] (rangeSectors off n) :: s.out }) ∧
      (∀ bs, hdmFits b off bs.length = false → exec (.cxlMemWrite l off bs []) s = .next s) ∧
      (∀ n errs, hdmFits b off n = true → hdmHeld s b off n = true → exec (.cxlMemRead l off n errs) s =
        .next { s with host := { s.host with held := s.host.held ++ [.cxlMemRead l off n errs] } }) ∧
      (∀ bs errs, hdmFits b off bs.length = true → hdmHeld s b off bs.length = true → exec (.cxlMemWrite l off bs errs) s =
        .next { s with host := { s.host with held := s.host.held ++ [.cxlMemWrite l off bs errs] } }) ∧
      (∀ n, memClean s → hdmHeld s b off n = false → hdmFits b off n = true → ∃ t data poison,
        exec (.cxlMemRead l off n []) s = .next t ∧
        t = { s with decks := t.decks, out := .cxlData l data poison :: s.out } ∧ (∀ d a, deckByte t d a = deckByte s d a) ∧
        ∀ i d a, i < n → hdmAt b (off + i) = some (d, a) →
          (memUp (deckAt s d) = true → memReadOk (deckAt s d) (a / 32 * 32) 32 = true → cellGet data i = deckByte s d a ∧
            (off + i) / 32 ∉ poison) ∧
          (memUp (deckAt s d) = false ∨ memReadOk (deckAt s d) (a / 32 * 32) 32 = false → (off + i) / 32 ∈ poison)) ∧
      (∀ bs, memClean s → hdmHeld s b off bs.length = false → hdmFits b off bs.length = true → ∃ t,
        exec (.cxlMemWrite l off bs []) s = .next t ∧
        t = { s with decks := t.decks, out := .cxlWritten l :: s.out } ∧
        (∀ d a, (∀ i, i < bs.length → hdmAt b (off + i) ≠ some (d, a)) → deckByte t d a = deckByte s d a) ∧
        ∀ i d a, i < bs.length → hdmAt b (off + i) = some (d, a) → memUp (deckAt s d) = true → (deckAt s d).memBad = [] →
          deadPages (deckAt s d) 0 memEnd = [] → deckByte t d a = bs[i]?.getD 0))

/-- [R35, R310, R314, R316, R320, R321, R323, R324, R325, R326, R327, R329] Completes: rowCopyDone, remapFlashWrite,
patrolRead, scrubAgeLate, readAgePromote, parityError, channelRetrainDone, stackTempReport, warmGraceExpire,
stackSensorLost, selfRefreshEnter, memCfgWrite. With nothing waiting for the row or channel and nothing for ECC to find,
a row copy that ends leaves the list without changing a byte, and one that does not run ends nothing; a flash write
stores the remap table, the stored one becoming the older copy; patrol that may not run does nothing, and else reads the
next row without changing a byte, the last row of a pass ending the pass; an AGE_S above 43,200 s sets its event and
safety function 9 once in a pass, and at or below it SCRUB_AGE_LATE does nothing; READ_AGE_PROMOTE counts; on a channel
that retrains or has failed a parity error does nothing; a retraining that succeeds brings the channel back, one that
fails makes the channel fail. A temperature report on a Normal stack records the temperature, and moves it to Warm above
WARM_C, to Hot above HOT_C, and any stack above 105 °C to Shutdown, which takes the deck down with safety function 4; the
grace of Warm ends; a Normal stack whose sensor is lost counts as Hot; self-refresh is entered only on a docked deck.
MEM.CFG: the MGC sets the four limits clipped and nothing above bit 23, firmware changes MEM.CFG alone, a host gets
Unsupported Request. -/
def Obligations.StacksAndTheirControllers : Prop :=
  (∀ (s : State) (st : Fin 32),
    let d := st.val / 4
    let x := stkAt s st
    let put := fun y : Stack => Host.Outcome.next (setDeck s d (setStack (deckAt s d) (st.val % 4) y))
    let warm : Int := bits s.mem.cfg.toNat 0 8
    let hot : Int := bits s.mem.cfg.toNat 8 8
    (∀ (ch : BitVec 4) row, noneHeld s →
      (x.copying.contains (rowKey ch.toNat row) = true → (deckAt s d).latent = [] → ∃ t, exec (.rowCopyDone st ch row) s = .next t ∧
        onlyDeck s t d ∧ stkAt t st = { x with copying := x.copying.erase (rowKey ch.toNat row) } ∧ ∀ a, deckByte t d a = deckByte s d a) ∧
      (x.copying.contains (rowKey ch.toNat row) = false → exec (.rowCopyDone st ch row) s = .next s)) ∧
    exec (.remapFlashWrite st) s = put { x with remapOlder := x.remapFlash, remapFlash := x.remap } ∧
    (∀ errs, patrolRuns s st = false → exec (.patrolRead st errs) s = .next s) ∧
    (patrolRuns s st = true → rangeHeld (deckAt s d) (4096 * rowPage (st.val % 4) (x.patrol % 16) (x.patrol / 16)) 4096 = false →
      (deckAt s d).latent = [] → ∃ t, exec (.patrolRead st []) s = .next t ∧ onlyDeck s t d ∧ (∀ a, deckByte t d a = deckByte s d a) ∧
      (x.patrol + 1 ≠ 0x180000 * 16 → (stkAt t st).patrol = x.patrol + 1) ∧
      (x.patrol + 1 = 0x180000 * 16 → (stkAt t st).patrol = 0 ∧ (stkAt t st).ageS = 0 ∧ (stkAt t st).passes = satInc x.passes)) ∧
    (43200 < x.ageS.toNat → x.scrubLate = false → ∃ t, exec (.scrubAgeLate st) s = .next t ∧ t.mem.events.getLsbD 10 = true ∧
      t.safety.events.getLsbD 9 = true ∧ stkAt t st = { x with scrubLate := true }) ∧
    (x.ageS.toNat ≤ 43200 ∨ x.scrubLate = true → exec (.scrubAgeLate st) s = .next s) ∧
    exec (.readAgePromote st) s = put { x with aged := satInc x.aged } ∧
    (∀ ch : BitVec 4, (x.chFailed.getLsbD ch.toNat = true ∨ x.chRetrain.getLsbD ch.toNat = true → exec (.parityError st ch) s = .next s) ∧
      (x.chFailed.getLsbD ch.toNat = false → x.chRetrain.getLsbD ch.toNat = false → mapGet [] x.retrainTimes ch.toNat = [] → ∃ t,
        exec (.parityError st ch) s = .next t ∧ (stkAt t st).chFailed = x.chFailed ∧ ∀ a, deckByte t d a = deckByte s d a) ∧
      (noneHeld s → x.chRetrain.getLsbD ch.toNat = true →
        exec (.channelRetrainDone st ch true) s = put { x with chRetrain := setBit x.chRetrain ch.toNat false }) ∧
      (noneHeld s → x.chRetrain.getLsbD ch.toNat = true → actionOf s 8 = 0 → ∃ t, exec (.channelRetrainDone st ch false) s = .next t ∧
        (stkAt t st).chFailed = setBit x.chFailed ch.toNat true ∧ t.mem.events.getLsbD 5 = true)) ∧
    (∀ temp : BitVec 8,
      (x.level = 0 → temp.toInt ≤ warm → temp.toInt ≤ hot → temp.toInt ≤ 105 → ∃ t, exec (.stackTempReport st temp) s = .next t ∧
        onlyDeck s t d ∧ (stkAt t st).temp = temp ∧ (stkAt t st).level = 0 ∧ (stkAt t st).sensorLost = false) ∧
      (x.level = 0 → warm < temp.toInt → temp.toInt ≤ hot → temp.toInt ≤ 105 → ∃ t, exec (.stackTempReport st temp) s = .next t ∧
        (stkAt t st).level = 1 ∧ (stkAt t st).refresh2x = true ∧ (stkAt t st).grace = true ∧ t.mem.events.getLsbD 6 = true ∧
        (stkAt t st).warmEntries = satInc x.warmEntries) ∧
      (x.level = 0 → hot < temp.toInt → temp.toInt ≤ 105 → ∃ t, exec (.stackTempReport st temp) s = .next t ∧ (stkAt t st).level = 2 ∧
        t.mem.events.getLsbD 7 = true ∧ (stkAt t st).hotEntries = satInc x.hotEntries) ∧
      (x.level ≠ 3 → 105 < temp.toInt → ∃ t, exec (.stackTempReport st temp) s = .next t ∧ (stkAt t st).level = 3 ∧
        (deckAt t d).power = .shutdown ∧ t.mem.events.getLsbD 8 = true ∧ t.safety.events.getLsbD 4 = true)) ∧
    exec (.warmGraceExpire st) s = put { x with grace := false } ∧
    (x.sensorLost = false → x.level = 0 → ∃ t, exec (.stackSensorLost st) s = .next t ∧ (stkAt t st).level = 2 ∧
      (stkAt t st).sensorLost = true ∧ t.mem.events.getLsbD 9 = true) ∧
    ((deckAt s d).power = .dock → exec (.selfRefreshEnter st) s = put { x with selfRefresh := true }) ∧
    ((deckAt s d).power ≠ .dock → exec (.selfRefreshEnter st) s = .next s)) ∧
  (∀ (s : State) (v : W64), (∃ t, exec (.memCfgWrite .mgc v) s = .next t ∧ t = { s with mem := t.mem } ∧
      70 ≤ (t.mem.cfg.extractLsb' 0 8).toNat ∧ (t.mem.cfg.extractLsb' 0 8).toNat ≤ 85 ∧
      (t.mem.cfg.extractLsb' 0 8).toNat + 5 ≤ (t.mem.cfg.extractLsb' 8 8).toNat ∧ t.mem.cfg >>> 24 = s.mem.cfg >>> 24) ∧
    (∃ t, exec (.memCfgWrite .fw v) s = .next t ∧ t = { s with mem := { s.mem with cfg := t.mem.cfg } }) ∧
    ∀ l : LdRef, ∃ t, exec (.memCfgWrite (.host l) v) s = .next t ∧ t.mem = s.mem ∧ .unsupported (.host l) ∈ t.out)

/-- [R422, R423, R424, R425, R427, R428, R429, R430, R449, R531] Completes: cmdDoorbell, cmdTake, cmdTimeout, cmdResume. A
doorbell that moves back or more than 256 ahead of HEAD counts a violation and leaves the ring; any other sets TAIL and
queues its packets in doorbell order. CMD_TAKE of a ring whose turn it is moves HEAD and the expected SEQ: an unknown
opcode is answered BAD_OPCODE, a packet with a bit in error BAD_PACKET with the lowest byte in error as the result, each a
violation; a good one waits with the command that its bytes spell, for its opcode's row; of any other ring CMD_TAKE does
nothing. The first command of a ring without a final reply within the limit of its opcode's group is marked and fires
detector 5; where none has overrun, nothing happens. A paused LD resumes no earlier than 1 s after its pause. -/
def Obligations.RingsTakeCommandsInOrder : Prop :=
  ∀ (s : State) (l : LdRef) (r : Fin 2),
    let k := ldKey l
    let q := ringAt s k r
    (∀ tail : BitVec 32, let n := (tail - q.crHead).toNat
      let posted := (q.crTail - q.crHead).toNat
      (n < posted ∨ 256 < n → ∃ t, exec (.cmdDoorbell l r tail) s = .next t ∧ ringAt t k r = q ∧
        (ldAt t k).viol = satInc (ldAt s k).viol ∧ t.host.doorbells = s.host.doorbells) ∧
      (posted ≤ n → n ≤ 256 → ∃ t, exec (.cmdDoorbell l r tail) s = .next t ∧ t = { s with host := t.host } ∧
        ringAt t k r = { q with crTail := tail } ∧
        t.host.doorbells = s.host.doorbells ++ List.replicate (n - posted) (k, r.val))) ∧
    ((ringReady s k r && ringFirst s k r) = false → exec (.cmdTake l r) s = .next s) ∧
    (ringReady s k r = true → ringFirst s k r = true →
      let w := readNat (ldAt s k).mem (0x10000 * r.val + 256 * (q.crHead.toNat % 256)) 64
      let h := packetHdr l r w
      ∃ t, exec (.cmdTake l r) s = .next t ∧ (ringAt t k r).crHead = q.crHead + 1 ∧ (ringAt t k r).expectSeq = h.seq + 1 ∧
        t.host.doorbells = s.host.doorbells.erase (k, r.val) ∧
        (opLayout h.opcode.toNat = none → muted s h = false →
          replied s t h stBadOpcode 0 ∧ (ldAt t k).viol = satInc (ldAt s k).viol) ∧
        (∀ len mask, opLayout h.opcode.toNat = some (len, mask) →
          (∀ i, lowestByte (packetErrors w q.expectSeq.toNat len mask) = some i → muted s h = false →
            replied s t h stBadPacket i ∧ (ldAt t k).viol = satInc (ldAt s k).viol) ∧
          (lowestByte (packetErrors w q.expectSeq.toNat len mask) = none →
            (ringAt t k r).srTail = q.srTail ∧ ∃ c, decodeCmd h w = some c ∧ (ringAt t k r).taken =
              q.taken ++ [{ hdr := h, cmd := c, takenAt := clockNs s, order := s.host.takes }]))) ∧
    (let late := fun (x : TakenCmd) => !x.timedOut && !x.mute &&
        decide (x.takenAt + 1000000 * groupLimit (ldAt s k) x.hdr.opcode < clockNs s)
      ∀ c, (q.taken.find? late = none → exec (.cmdTimeout l r) s = .next s) ∧
        (q.taken.find? late = some c → actionOf s 5 = 0 → ∃ t, exec (.cmdTimeout l r) s = .next t ∧
        (ringAt t k r).taken = q.taken.map (fun x => if x = c then { x with timedOut := true } else x) ∧
        mapGet 0 t.rst.detCount 5 = satInc (mapGet 0 s.rst.detCount 5))) ∧
    ((ldAt s k).paused = true → (ldAt s k).pausedAt + 1000000000 ≤ clockNs s →
      exec (.cmdResume l) s = .next (setLd s k { ldAt s k with paused := false })) ∧
    (clockNs s < (ldAt s k).pausedAt + 1000000000 → exec (.cmdResume l) s = .next s)

/-- [R38, R40, R42, R43, R44, R418, R421, R427, R430, R441, R442, R443] Completes: identify, health, timeStatus, bindLd,
ctxCreate, ctxDestroy, ctxDrainEnd, ctxQuarantineEnd, cxlPerst, cxlLinkTrained. A command whose packet has been taken and
whose turn it is has its effect once; one that no taken packet asks for does nothing. IDENTIFY and HEALTH answer GOOD with
serial number, module number and deck states, TIME_STATUS with hall time, NOT_BOUND for an unbound LD. BIND_LD of an
unbound LD with ready decks binds it and answers with its host slot; with no decks it unbinds: the LD holds no deck and no
owner right from then on, answered with the slot it held (the slot in that reply is the model's choice, log entry 65).
CTX_CREATE makes the lowest free context LIVE with the lowest place for its pail; CTX_DESTROY makes it drain, and its
command is owed the reply; the drain ends once the context is idle or DRAIN_US has passed, in quarantine; the quarantine
ends after its time and frees the id with the hold registers at their Reset values; earlier neither ends. A CXL port's
reset takes every deck from the port's LDs and its link down, and leaves the other port's LDs; a trained link is up. -/
def Obligations.BindingsAndContextsChange : Prop :=
  ∀ (s : State) (h : CmdHdr),
    let k := ldKey h.ld
    (runnable s h (.identify h) = false → exec (.identify h) s = .next s) ∧
    (cmdOpen s h = true →
      (runnable s h (.identify h) = true → ∃ t, exec (.identify h) s = .next t ∧ replied s t h stGood 0 ∧ t = { s with host := t.host, out := t.out } ∧
        readNat (ldAt t k).mem (slotBase s h + 32) 8 = Config.moduleSerial.toNat ∧
        readNat (ldAt t k).mem (slotBase s h + 40) 4 = (ownModule s).toNat) ∧
      (runnable s h (.health h) = true → ∃ t, exec (.health h) s = .next t ∧ replied s t h stGood 0 ∧ t = { s with host := t.host, out := t.out } ∧
        ∀ d, d < 8 → cellGet (ldAt t k).mem (slotBase s h + 16 + d) = BitVec.ofNat 8 (deckHealth (deckAt s d))) ∧
      (runnable s h (.timeStatus h) = true → (heldBind (ldAt s k)).isSome = true → ∃ t, exec (.timeStatus h) s = .next t ∧ replied s t h stGood 0 ∧
        t = { s with host := t.host, out := t.out } ∧ readNat (ldAt t k).mem (slotBase s h + 24) 8 = hallNs s % 2 ^ 64) ∧
      (runnable s h (.timeStatus h) = true → heldBind (ldAt s k) = none → ∃ t, exec (.timeStatus h) s = .next t ∧ replied s t h stNotBound 0 ∧
        t = { s with host := t.host, out := t.out }) ∧
      (∀ q : BindLdP, let n := 16 * q.port.toNat + q.ld.toNat
        runnable s h (.bindLd h q) = true → mayBind s h.ld = true → ldExists s q.port.toNat q.ld.toNat = true →
        (maskDecks (q.decks ||| (((ldAt s n).bind).map bindDecks).getD 0)).any (fun d => faultRuns s d none) = false →
        (q.decks ≠ 0 → (ldAt s n).bind = none → bindRefused s n q = false → s.host.binds = [] →
          (∀ d ∈ maskDecks q.decks, (deckAt s d).clearing = false ∧ (deckAt s d).power ≠ .dock ∧ (deckAt s d).power ≠ .waking) →
          (∀ e ∈ s.host.lds, ∀ b, e.2.bind = some b → b.leaving = 0) → ∃ t b, exec (.bindLd h q) s = .next t ∧
          (ldAt t n).bind = some b ∧ b.decks = q.decks ∧ b.tag = q.tag ∧ b.window = q.window.toNat ∧ b.owner = q.owner ∧
          b.mem = [] ∧ replied s t h stGood b.slot) ∧
        (∀ b, q.decks = 0 → (ldAt s n).bind = some b → b.decks ≠ 0 → b.leaving = 0 → ∃ t b', exec (.bindLd h q) s = .next t ∧
          replied s t h stGood b.slot ∧ (ldAt t n).bind = some b' ∧ b'.decks = 0 ∧ b'.owner = false))) ∧
    (∀ q : CtxCreateP, runnable s h (.ctxCreate h q) = true → deckOpen s h q.deck none = true → let d := q.deck.toNat
      ∀ b x a, heldBind (ldAt s k) = some b → (List.range 16).find? (fun x => decide ((ctxAt (deckAt s d) x).life = .free)) = some x →
      let size := if q.pail = 0 then 64 else q.pail.toNat
      pailPlace (pailRanges s b) (b.window * 16) size = some a → q.recv.toNat ≤ size → ∃ t, exec (.ctxCreate h q) s = .next t ∧
        replied s t h stGood x ∧ (ctxAt (deckAt t d) x).life = .live ∧ (ctxAt (deckAt t d) x).pailBase = BitVec.ofNat 16 a ∧
        (ctxAt (deckAt t d) x).pailSize = BitVec.ofNat 16 size ∧ (ctxAt (deckAt t d) x).recv = q.recv) ∧
    (∀ q : CtxDestroyP, runnable s h (.ctxDestroy h q) = true → deckOpen s h q.deck (some q.ctx) = true → ctxLive s q.deck.toNat q.ctx = true → ∃ t,
      exec (.ctxDestroy h q) s = .next t ∧ (ctxAt (deckAt t q.deck.toNat) q.ctx.toNat).life = .draining ∧
      (ctxAt (deckAt t q.deck.toNat) q.ctx.toNat).destroyer = some h ∧ (ctxAt (deckAt t q.deck.toNat) q.ctx.toNat).drainUntil =
        clockNs s + 1000 * (if q.drainUs = 0 then (ldAt s k).drainUs.toNat else q.drainUs.toNat) ∧
      (ringAt t k h.ring.val).srTail = (ringAt s k h.ring.val).srTail ∧
      ∃ c ∈ (ringAt t k h.ring.val).taken, c.hdr = h ∧ c.started = true) ∧
    (∀ (d : Fin 8) (x : BitVec 4), let y := ctxAt (deckAt s d) x.toNat
      (y.life = .draining → ctxIdle s d x = true ∨ y.drainUntil ≤ clockNs s → ∃ t, exec (.ctxDrainEnd d x) s = .next t ∧
        (ctxAt (deckAt t d) x.toNat).life = .quarantine ∧ (ctxAt (deckAt t d) x.toNat).quarAt = clockNs s) ∧
      (y.life ≠ .draining ∨ (ctxIdle s d x = false ∧ clockNs s < y.drainUntil) → exec (.ctxDrainEnd d x) s = .next s) ∧
      (y.life = .quarantine → y.quarAt + quarantineNs s ≤ clockNs s → ∃ t, exec (.ctxQuarantineEnd d x) s = .next t ∧ onlyDeck s t d ∧
        (ctxAt (deckAt t d) x.toNat).life = .free ∧ (ctxAt (deckAt t d) x.toNat).hold = {}) ∧
      (y.life ≠ .quarantine ∨ clockNs s < y.quarAt + quarantineNs s → exec (.ctxQuarantineEnd d x) s = .next s)) ∧
    (∀ (p : Fin 2), ∃ t, exec (.cxlPerst p) s = .next t ∧ mapGet false t.host.cxlUp p = false ∧
      (∀ n, n / 16 = p.val → heldBind (ldAt t n) = none) ∧ ∀ n, n / 16 ≠ p.val → ldAt t n = ldAt s n) ∧
    (∀ (p : Fin 2) width rate, exec (.cxlLinkTrained p width rate) s = .next { s with host := { s.host with
      cxlUp := mapSet false s.host.cxlUp p true, cxlWidth := mapSet 0 s.host.cxlWidth p width.toNat,
      cxlRate := mapSet 0 s.host.cxlRate p rate.toNat } })

/-- [R101, R143, R144, R430, R432, R437, R438, R439, R441, R450, R451, R453] Completes: streamOpen, streamClose, launch,
syncAlloc, syncPoison, memMap, qpOpen, qpClose. For a command taken whose turn it is, of an LD that holds the deck with no
fault action on it, and a LIVE context: STREAM_OPEN opens a stream that was free, with its entries and base, and answers
its number; STREAM_CLOSE frees an idle one with nothing published, and one that runs closes later; LAUNCH publishes
its entries, answering GOOD, or PENDING where START is given; SYNC_ALLOC gives the lowest free groups to the context
with every field at its start, and freeing gives them back with their objects zero; SYNC_POISON poisons the object;
MEM_MAP makes a region under a free key and unmaps it; QP_OPEN and QP_CLOSE likewise with queue pairs. -/
def Obligations.StreamsGroupsRegionsAndQueuePairs : Prop :=
  ∀ (s : State) (h : CmdHdr),
    let k := ldKey h.ld
    (∀ q : StreamOpenP, runnable s h (.streamOpen h q) = true → deckOpen s h q.deck (some q.ctx) = true → ctxLive s q.deck.toNat q.ctx = true →
      (∃ n, q.entries.toNat = 2 ^ n ∧ 4 ≤ n ∧ n ≤ 16) → q.base.toNat % 128 = 0 → q.base.toNat + 128 * q.entries.toNat ≤ memEnd →
      (deckAt s q.deck.toNat).streams.length < 8192 → ∃ t i, exec (.streamOpen h q) s = .next t ∧ replied s t h stGood i ∧ i < 8192 ∧
        (∀ e ∈ (deckAt s q.deck.toNat).streams, e.1 ≠ i) ∧ streamAt (deckAt t q.deck.toNat) i =
          some { ctx := q.ctx.setWidth 4, entries := q.entries.toNat, base := q.base.setWidth 40 }) ∧
    (∀ (q : StreamCloseP) (x : Stream), runnable s h (.streamClose h q) = true → streamAt (deckAt s q.deck.toNat) q.stream.toNat = some x →
      deckOpen s h q.deck (some (x.ctx.setWidth 8)) = true → x.closing = none → x.pubs = [] →
      (x.run = .none → ∃ t, exec (.streamClose h q) s = .next t ∧ replied s t h stGood 0 ∧
        streamAt (deckAt t q.deck.toNat) q.stream.toNat = none) ∧
      (x.run ≠ .none → ∃ t, exec (.streamClose h q) s = .next t ∧
        streamAt (deckAt t q.deck.toNat) q.stream.toNat = some { x with closing := some h })) ∧
    (∀ (q : LaunchP) (x : Stream), let d := deckAt s q.deck.toNat
      runnable s h (.launch h q) = true → streamAt d q.stream.toNat = some x →
      deckOpen s h q.deck (some (x.ctx.setWidth 8)) = true → x.closing = none → (ctxAt d x.ctx.toNat).life = .live → x.pubs.length + q.publish.toNat ≤ x.entries →
      (q.start = 0 → ∃ t y, exec (.launch h q) s = .next t ∧ replied s t h stGood 0 ∧
        streamAt (deckAt t q.deck.toNat) q.stream.toNat = some y ∧ y.pubs.take x.pubs.length = x.pubs ∧
        y.pubs.length = x.pubs.length + q.publish.toNat ∧ y.next = (x.next + q.publish.toNat) % x.entries) ∧
      (q.start ≠ 0 → (newPubs d x q.publish.toNat q.start.toNat (hallNs s) h).any (fun p => p.hdr.isSome) = true → ∃ t y,
        exec (.launch h q) s = .next t ∧ replied s t h stPending 0 ∧ streamAt (deckAt t q.deck.toNat) q.stream.toNat = some y ∧
        y.pubs.length = x.pubs.length + q.publish.toNat)) ∧
    (∀ q : SyncAllocP, runnable s h (.syncAlloc h q) = true → deckOpen s h q.deck (some q.ctx) = true → ctxLive s q.deck.toNat q.ctx = true →
      let d := deckAt s q.deck.toNat
      (q.free = false → 0 < q.count.toNat → q.count.toNat ≤ (freeGroups d).length → ∃ t, exec (.syncAlloc h q) s = .next t ∧
        replied s t h stGood (((freeGroups d).take q.count.toNat).headD 0) ∧
        ∀ g, groupAt (deckAt t q.deck.toNat) g = if g ∈ (freeGroups d).take q.count.toNat then { ctx := q.ctx.setWidth 4, alloc := true }
          else groupAt d g) ∧
      (q.free = true → (∀ g, g < 64 → q.mask.getLsbD g = true → (groupAt d g).alloc = true ∧ (groupAt d g).ctx = q.ctx.setWidth 4) → ∃ t,
        exec (.syncAlloc h q) s = .next t ∧ replied s t h stGood 0 ∧ ∀ g, g < 64 → q.mask.getLsbD g = true →
          groupAt (deckAt t q.deck.toNat) g = {} ∧ ∀ o, o / 64 = g → objAt (deckAt t q.deck.toNat) o = {})) ∧
    (∀ q : SyncPoisonP, runnable s h (.syncPoison h q) = true → deckOpen s h q.deck (some q.ctx) = true → ctxLive s q.deck.toNat q.ctx = true → q.status ≠ 0 →
      objRefused (deckAt s q.deck.toNat) (q.ctx.setWidth 4) q.obj = none → objWaited (deckAt s q.deck.toNat) q.obj.toNat = false →
      ∃ t, exec (.syncPoison h q) s = .next t ∧ replied s t h stGood 0 ∧
        (objAt (deckAt t q.deck.toNat) q.obj.toNat).poison = true ∧ (objAt (deckAt t q.deck.toNat) q.obj.toNat).status = q.status) ∧
    (∀ q : MemMapP, runnable s h (.memMap h q) = true → deckOpen s h q.deck (some q.ctx) = true →
      (q.access.getLsbD 3 = false → ctxLive s q.deck.toNat q.ctx = true → q.base.toNat % 4096 = 0 → q.length.toNat % 4096 = 0 → q.length ≠ 0 →
        q.base.toNat + q.length.toNat ≤ memEnd → s.host.regions.length < 4096 → ∃ t key r, exec (.memMap h q) s = .next t ∧
        replied s t h stGood key ∧ (∀ e ∈ s.host.regions, e.1 ≠ key) ∧ mapGet none t.host.regions key = some r ∧
        r.port = h.ld.port ∧ r.ld = h.ld.ld ∧ r.deck = q.deck.toNat ∧ r.base = q.base.toNat ∧ r.length = q.length.toNat ∧
        r.access = q.access.setWidth 3) ∧
      (∀ r, q.access.getLsbD 3 = true → mapGet none s.host.regions q.rkey.toNat = some r → r.port = h.ld.port → r.ld = h.ld.ld → ∃ t,
        exec (.memMap h q) s = .next t ∧ replied s t h stGood q.rkey.toNat ∧ mapGet none t.host.regions q.rkey.toNat = none)) ∧
    (cmdOpen s h = true → (heldBind (ldAt s k)).isSome = true → ∀ q : QpOpenP, runnable s h (.qpOpen h q) = true → q.port.toNat ≤ 1 → 3 ≤ q.mtu.toNat → q.mtu.toNat ≤ 5 →
      q.retry.toNat ≤ 7 → s.host.qps.length < 1024 → ∃ t n x, exec (.qpOpen h q) s = .next t ∧ replied s t h stGood n ∧
        (∀ e ∈ s.host.qps, e.1 ≠ n) ∧ n < 2 ^ 24 ∧ mapGet none t.host.qps n = some x ∧ x.port = h.ld.port ∧ x.ld = h.ld.ld ∧
        x.eth = q.port.toNat ∧ x.remoteQpn = q.remoteQpn ∧ x.err = false) ∧
    (∀ (n : BitVec 32) (x : Qp), runnable s h (.qpClose h n) = true → cmdOpen s h = true → mapGet none s.host.qps n.toNat = some x →
      (x.port = h.ld.port → x.ld = h.ld.ld → ∃ t, exec (.qpClose h n) s = .next t ∧ replied s t h stGood 0 ∧
        mapGet none t.host.qps n.toNat = none) ∧
      (x.ld ≠ h.ld.ld → ∃ t, exec (.qpClose h n) s = .next t ∧ replied s t h stNotBound 0 ∧ t.host.qps = s.host.qps))

/-- [R84, R88, R90, R92, R276, R283, R294, R295, R431, R472, R480, R525] Completes: ttLoad, ttArm, ttSelectVariant, jobEpoch,
snapshot, snapshotCopyDone, snapshotShipDone, reset, quiesce, quiesceEnd, fwStage, fwActivate, attest. Of commands taken
whose turn it is and whose memory accesses wait for nothing, by the owner LD: TT_LOAD puts records, landing entries,
schedules and the map in place; TT_ARM of a loaded variant that passes every check arms it with its E0, P and variant, and
with DISARM it notes the disarm; TT_SELECT_VARIANT notes the pending variant. JOB_EPOCH gives a LIVE context its step,
regions and an empty stack, gate closed, step status GOOD, and zeroes the fingerprint area. SNAPSHOT answers PENDING and
copies; a copy whose source meets poison fails with MEM_POISON, one beyond memory with BAD_PARAM (the model's choice, log
entry 46); a copy that stands ships where its queue pair takes it, byte for byte what the master region held, and fails
with LINK_LOST where it does not; once shipped it is valid. RESET of levels 3 and 4 puts the deck in that reset; of level
5, by the owner alone on the module, it answers GOOD and is due 10 µs later. QUIESCE stops the decks, and ends with GOOD
once they are idle, with LATE once its time has passed; until then QUIESCE_END does nothing; RELEASE lets them go.
FW_STAGE takes a first chunk, FW_ACTIVATE starts the write of a verified object, ATTEST answers AUTH_FAILED where the unit
may not sign. -/
def Obligations.TimetableJobsSnapshotsAndResets : Prop :=
  ∀ (s : State) (h : CmdHdr),
    let k := ldKey h.ld
    let owns := cmdOpen s h = true ∧ isOwner s k = true
    (∀ (q : TtLoadP) (m : Cells), runnable s h (.ttLoad h q) = true → owns → memClean s →
      cmdHeld s k q.source.toNat (ttBytes q) = false → (q.kind = 2 → faultRuns s q.portOrDeck.toNat none = false) → s.tt.armed = false → 0 < q.count.toNat →
      let v := q.variant.toNat
      let u := q.portOrDeck.toNat
      (q.kind.toNat ≤ 2 → v < 4 → hdmRead s k q.source.toNat ((ttShape q.kind.toNat).1 * q.count.toNat) = (stGood, m) →
        q.base.toNat + q.count.toNat ≤ (ttShape q.kind.toNat).2.1 → u < (ttShape q.kind.toNat).2.2 → ∃ t, exec (.ttLoad h q) s = .next t ∧
        (q.kind = 0 → q.dir.toNat ≤ 1 → replied s t h stGood 0 ∧
          ttRange (portAt t u).tt v q.dir.toNat = (q.base.toNat, q.count.toNat) ∧
          (portAt t u).tt.mem = mapSplice (portAt s u).tt.mem (16 * q.base.toNat) (16 * q.count.toNat) m) ∧
        (q.kind = 1 → replied s t h stGood 0 ∧ (portAt t u).tt.land =
          mapSplice (portAt s u).tt.land (32768 * v + 8 * q.base.toNat) (8 * q.count.toNat) m) ∧
        (q.kind = 2 → replied s t h stGood 0 ∧ schedRange (deckAt t u) v = (q.base.toNat, q.count.toNat) ∧
          (deckAt t u).sched = mapSplice (deckAt s u).sched (16 * q.base.toNat) (16 * q.count.toNat) m)) ∧
      (q.kind = 3 → q.variant = 0 → q.portOrDeck = 0 → q.dir = 0 → q.base = 0 → q.count = 1 →
        hdmRead s k q.source.toNat 256 = (stGood, m) → ∃ t, exec (.ttLoad h q) s = .next t ∧ replied s t h stGood 0 ∧
        t.net = { s.net with mapLoaded := m })) ∧
    (∀ q : TtArmP, runnable s h (.ttArm h q) = true → owns →
      (q.disarm = false → s.tt.armed = false → s.htu.state = 2 → mapRefusal s s.net.mapLoaded = 0 →
        armFail s (mapBits s.net.mapLoaded 49 9) q.p.toNat = none → q.e0.toNat % 5 = 0 → hallNs s + 1000000 ≤ q.e0.toNat → q.p ≠ 0 →
        q.variant.toNat < 4 → variantLoaded s q.variant.toNat = true → ∃ t, exec (.ttArm h q) s = .next t ∧ replied s t h stGood 0 ∧
        t.tt.armed = true ∧ t.tt.e0 = q.e0 ∧ t.tt.p = q.p ∧ t.tt.activeVar.toNat = q.variant.toNat ∧ t.tt.begun = false ∧
        t.net.armed = true ∧ t.net.mapArmed = s.net.mapLoaded) ∧
      (q.disarm = false → s.htu.state ≠ 2 → ∃ t, exec (.ttArm h q) s = .next t ∧ replied s t h stAdrift 0 ∧ t.tt = s.tt) ∧
      (q.disarm = true → s.tt.armed = true → s.tt.disarmPending = false → ∃ t, exec (.ttArm h q) s = .next t ∧ replied s t h stGood 0 ∧
        t.tt.disarmPending = true ∧ (s.tt.p ≠ 0 → hallNs s + 20000 ≤ epochNs s.tt t.tt.disarmStep))) ∧
    (∀ q : TtSelectP, runnable s h (.ttSelectVariant h q) = true → owns → s.tt.armed = true → q.variant.toNat < 4 → variantLoaded s q.variant.toNat = true →
      hallNs s + 20000 ≤ epochNs s.tt q.step.toNat → ∃ t, exec (.ttSelectVariant h q) s = .next t ∧ replied s t h stGood 0 ∧
      t.tt = { s.tt with pendingVar := BitVec.ofNat 2 q.variant.toNat, pendingValid := true, pendingStep := q.step }) ∧
    (∀ q : JobEpochP, runnable s h (.jobEpoch h q) = true → deckOpen s h q.deck (some q.ctx) = true → ctxLive s q.deck.toNat q.ctx = true →
      jobRefused s q = false → rangeHeld (deckAt s q.deck.toNat) (fpArea q).1 (fpArea q).2 = false →
      memWriteSt (deckAt s q.deck.toNat) (fpArea q).1 (fpArea q).2 = stGood → ∃ t, exec (.jobEpoch h q) s = .next t ∧ replied s t h stGood 0 ∧
      (∀ a, deckByte t q.deck.toNat a = if (fpArea q).1 ≤ a ∧ a < (fpArea q).1 + (fpArea q).2 then 0 else deckByte s q.deck.toNat a) ∧
      let y := (ctxAt (deckAt t q.deck.toNat) q.ctx.toNat).hold
      y.step = q.step ∧ y.attempt = 0 ∧ y.status = 0 ∧ y.gate = 0 ∧ y.top = 0 ∧ y.entries = 0 ∧ y.applyObj = q.applyObj ∧
        y.mbase = q.mbase.setWidth 40 ∧ y.msize = q.msize.setWidth 40 ∧ y.base = q.hbase.setWidth 40 ∧ y.size = q.hsize.setWidth 40 ∧
        y.fpSlots = q.fpSlots.setWidth 13) ∧
    (∀ q : SnapshotP, runnable s h (.snapshot h q) = true → deckOpen s h q.deck (some q.ctx) = true →
      ctxLive s q.deck.toNat q.ctx = true → snapRefused s q = false → ∃ t, exec (.snapshot h q) s = .next t ∧
      replied s t h stPending 0 ∧ (ctxAt (deckAt t q.deck.toNat) q.ctx.toNat).hold.snapState = 1) ∧
    (∀ (d : Fin 8) (x : BitVec 4) (j : SnapJob), let c := ctxAt (deckAt s d) x.toNat
      c.snap = some j →
      let n := j.length.toNat
      let dst := j.dst.toNat
      let ended := fun (t : State) (st : Status) => (ctxAt (deckAt t d) x.toNat).hold.snapState = 4 ∧
        (ctxAt (deckAt t d) x.toNat).hold.snapStatus = st ∧ (ctxAt (deckAt t d) x.toNat).snap = none
      (c.hold.snapState = 1 → rangeHeld (deckAt s d) c.hold.mbase.toNat n = false → rangeHeld (deckAt s d) dst (32 + n) = false →
        (deckAt s d).latent = [] → ∃ t, exec (.snapshotCopyDone d x) s = .next t ∧
        (memEnd < dst + 32 + n → ended t stBadParam) ∧
        (dst + 32 + n ≤ memEnd → memRead (deckAt s d) c.hold.mbase.toNat n = none → ended t stMemPoison) ∧
        (dst + 32 + n ≤ memEnd → (memRead (deckAt s d) c.hold.mbase.toNat n).isSome = true → (deckAt s d).memBad = [] →
          memWriteSt (deckAt s d) dst (32 + n) = stGood →
          (∀ i, i < n → deckByte t d (dst + 32 + i) = deckByte s d (c.hold.mbase.toNat + i)) ∧
          (qpShips s j.hdr.ld j.qpn.toNat = true → (ctxAt (deckAt t d) x.toNat).hold.snapState = 2 ∧
            (ctxAt (deckAt t d) x.toNat).snap = some j) ∧
          (qpShips s j.hdr.ld j.qpn.toNat = false → ended t stLinkLost))) ∧
      (c.hold.snapState = 2 → qpShips s j.hdr.ld j.qpn.toNat = true → ∃ t,
        exec (.snapshotShipDone d x true) s = .next t ∧ onlyDeck s t d ∧ (ctxAt (deckAt t d) x.toNat).hold.snapState = 3 ∧
        (ctxAt (deckAt t d) x.toNat).snap = none)) ∧
    (∀ q : ResetP, runnable s h (.reset h q) = true → (deckOpen s h q.deck none = true → (∀ r ∈ s.rst.running, r.scope ≠ .module) → (deckAt s q.deck.toNat).reset = .none →
        resetRuns s (.compute (Fin.ofNat 8 q.deck.toNat)) = false →
        (q.level = 3 → ∃ t, exec (.reset h q) s = .next t ∧ (deckAt t q.deck.toNat).reset = .compute) ∧
        (q.level = 4 → ∃ t, exec (.reset h q) s = .next t ∧ (deckAt t q.deck.toNat).reset = .full ∧ (deckAt t q.deck.toNat).mem = [])) ∧
      (q.level = 5 → owns → boundLds s = [k] → s.mgmt.stageState ≠ 4 → resetRuns s .module = false → ∃ t,
        exec (.reset h q) s = .next t ∧ replied s t h stGood 0 ∧ t.rst = { s.rst with resetDue := some (clockNs s + 10000) } ∧
        t.decks = s.decks)) ∧
    (∀ q : QuiesceP, runnable s h (.quiesce h q) = true → cmdOpen s h = true → holdsAll s k q.decks = true → (maskDecks q.decks).any (fun d => faultRuns s d none) = false →
      ∃ t, exec (.quiesce h q) s = .next t ∧ (∀ d, d < 8 → (deckAt t d).quiesced = if q.decks.getLsbD d then !q.release else (deckAt s d).quiesced) ∧
        (q.release = false → replied s t h stPending 0 ∧ t.host.quiesces = s.host.quiesces ++
          [{ hdr := h, decks := q.decks, since := clockNs s, timeoutUs := q.timeoutUs.toNat }])) ∧
    (∀ (j : QuiesceJob) (c : TakenCmd), s.host.quiesces = [j] → j.hdr = h → (ringAt s k h.ring.val).taken = [c] → c.hdr = h → c.mute = false →
      let idle := (maskDecks j.decks).all (deckIdle s)
      (idle = true ∨ j.since + 1000 * j.timeoutUs ≤ clockNs s → ∃ t, exec (.quiesceEnd h.ld h.ring) s = .next t ∧
        t.host.quiesces = [] ∧ replied s t h (if idle then stGood else stLate) 0) ∧
      (idle = false → clockNs s < j.since + 1000 * j.timeoutUs → exec (.quiesceEnd h.ld h.ring) s = .next s)) ∧
    (∀ (q : FwStageP) (m : Cells), runnable s h (.fwStage h q) = true → memClean s →
      cmdHeld s k q.source.toNat q.length.toNat = false → owns → s.mgmt.recovery = false → s.mgmt.stageOwner = 0 → q.offset = 0 → q.length.toNat ≤ 0x1000000 →
      hdmRead s k q.source.toNat q.length.toNat = (stGood, m) → ∃ t, exec (.fwStage h q) s = .next t ∧ t.mgmt.stageOwner = 1 ∧
      t.mgmt.stageBytes.toNat = q.length.toNat ∧ t.mgmt.stageState = (if q.last then 2 else 1) ∧ t.mgmt.stageLd = some h.ld) ∧
    (runnable s h (.fwActivate h) = true → owns → s.mgmt.recovery = false → s.mgmt.stageState = 3 → ∃ t, exec (.fwActivate h) s = .next t ∧ replied s t h stPending 0 ∧
      t.mgmt.stageState = 4 ∧ t.mgmt.stageCmd = some h) ∧
    (∀ q : AttestP, runnable s h (.attest h q) = true → cmdHeld s k q.dest.toNat q.destLen.toNat = false → cmdOpen s h = true → (heldBind (ldAt s k)).isSome = true → maySign s = false → ∃ t, exec (.attest h q) s = .next t ∧
      t = { s with host := t.host, out := t.out } ∧ (ringAt t k h.ring.val).srTail = (ringAt s k h.ring.val).srTail + 2 ∧
      readNat (ldAt t k).mem (0x20000 + 0x2000 * h.ring.val + 16 * (((ringAt s k h.ring.val).srTail + 1).toNat % 512)) 2 = stAuthFailed.toNat)

/-- [R100, R101, R116, R118, R150, R383, R384, R435, R436, R437, R438] Completes: streamNop, streamKernel, launchStartTime,
schedLaunch, streamWait, streamSignal, streamColl, kernelComplete. For the head entry of an idle stream of a LIVE context
on a deck that runs, read with nothing for ECC to find and no row or channel that it waits for: NOP ends and signals its
object by AMT; KERNEL with a good image and free cores in no fenced pen takes them all: each becomes ready at word 0 with
the launch arguments in s1 to s8 and its image in instruction memory; one with a START waits for it, and LAUNCH_START_TIME
then starts it; a LAUNCH record starts the head whose cores are zeroed; WAIT ends at once where the target is reached and
otherwise the stream waits; SIGNAL adds its amount to its object; COLL hands its descriptor to Churn; a KERNEL entry that
its check refuses, the last one published, ends with its object poisoned by BAD_PARAM. A launch whose cores have all ended
completes: they are free again, its object is signalled, its stream runs on. -/
def Obligations.StreamEntriesRunInOrder : Prop :=
  ∀ (s : State) (d : Fin 8) (n : BitVec 13) (x : Stream) (p : PubEntry) (rest : List PubEntry),
    let k := deckAt s d
    let e := kernelEntry k x p.slot
    let w := entryField k x p.slot 16 8
    let head := fun (kind : Nat) => streamAt k n.toNat = some x ∧ x.run = .none ∧ x.pubs = p :: rest ∧ x.closing = none ∧ p.hdr = none ∧
      deckRuns k = true ∧ (ctxAt k x.ctx.toNat).life = .live ∧ memReadOk k (entryAddr x p.slot) 128 = true ∧
      entryKind k x p.slot = kind ∧ k.waiters = [] ∧ entryCheck k x p.slot = none ∧ k.latent = [] ∧ headHeld k n.toNat = false
    let popped := fun (t : State) => streamAt (deckAt t d) n.toNat = some { x with pubs := rest }
    let signals := fun (t : State) => ∀ o, entryCobj k x p.slot = some o →
      (objAt k o.toNat).count.toNat + (entryAmt k x p.slot).toNat < 2 ^ 32 →
      (objAt (deckAt t d) o.toNat).count.toNat = (objAt k o.toNat).count.toNat + (entryAmt k x p.slot).toNat
    let started := fun (t : State) (m : Cells) => (∃ y, streamAt (deckAt t d) n.toNat = some y ∧ y.run = .kernel k.nextLaunch) ∧
      ∀ i ∈ kernelCores e, (coreAt (deckAt t d) i).run = .ready ∧ (coreAt (deckAt t d) i).pc = 0 ∧
        (coreAt (deckAt t d) i).ctx = x.ctx ∧ (coreAt (deckAt t d) i).launch = some k.nextLaunch ∧
        (∀ r, 1 ≤ r → r ≤ 8 → mapGet 0 (coreAt (deckAt t d) i).s r = BitVec.ofNat 64 (entryField k x p.slot (24 + 8 * r) 8)) ∧
        ∀ j, j < e.words → mapGet 0 (coreAt (deckAt t d) i).imem j = BitVec.ofNat 64 (readNat m (8 * j) 8)
    (head 0 → ∃ t, exec (.streamNop d n) s = .next t ∧ onlyDeck s t d ∧ popped t ∧ signals t) ∧
    (∀ m, head 1 → kernelOk e = true → fencedPen k (kernelCores e) = false → e.sched = false → p.start = 0 ∨ p.due = true →
      kernelReady k n.toNat x p = true →
      memRead k e.image (8 * e.words) = some m → ∃ t, exec (.streamKernel d n) s = .next t ∧ started t m) ∧
    (∀ m, head 1 → kernelOk e = true → fencedPen k (kernelCores e) = false → e.sched = false → p.start ≠ 0 → p.due = false →
      kernelReady k n.toNat x p = true →
      memRead k e.image (8 * e.words) = some m → p.start ≤ hallNs s → ∃ t, exec (.launchStartTime d n) s = .next t ∧ started t m) ∧
    (∀ m r q, schedNow s d r 1 = some q → q.arg = n.toNat → head 1 → kernelOk e = true → fencedPen k (kernelCores e) = false →
      kernelReady k n.toNat x p = true → zeroDone (coreEnv s d) x.ctx (kernelCores e) k = true →
      memRead k e.image (8 * e.words) = some m → ∃ t, exec (.schedLaunch d r) s = .next t ∧ started t m) ∧
    (head 1 → kernelOk e = true → kernelReady k n.toNat x p = false → ∃ t, exec (.streamKernel d n) s = .next t ∧
      (∀ i, coreAt (deckAt t d) i = coreAt k i) ∧ streamAt (deckAt t d) n.toNat = some x) ∧
    (head 2 → objRefused k x.ctx (BitVec.ofNat 12 (bits w 0 12)) = none →
      (released (objAt k (bits w 0 12)) (BitVec.ofNat 64 (bits w 32 32)) = some stGood → ∃ t, exec (.streamWait d n) s = .next t ∧
        onlyDeck s t d ∧ popped t ∧ signals t) ∧
      (released (objAt k (bits w 0 12)) (BitVec.ofNat 64 (bits w 32 32)) = none → ∃ t y, exec (.streamWait d n) s = .next t ∧
        onlyDeck s t d ∧ streamAt (deckAt t d) n.toNat = some y ∧ y.run = .wait ∧ y.pubs = rest ∧ (deckAt t d).objs = k.objs ∧
        ∃ a, (deckAt t d).waiters = [a] ∧ a.who = .stream n.toNat ∧ a.obj.toNat = bits w 0 12 ∧ a.target.toNat = bits w 32 32)) ∧
    (head 3 → objAlloc k (bits w 0 12) = true → entryCobj k x p.slot = none → (objAt k (bits w 0 12)).count.toNat + bits w 32 32 < 2 ^ 32 →
      ∃ t, exec (.streamSignal d n) s = .next t ∧ onlyDeck s t d ∧ popped t ∧
        (objAt (deckAt t d) (bits w 0 12)).count.toNat = (objAt k (bits w 0 12)).count.toNat + bits w 32 32) ∧
    (let m := mapSlice k.mem (entryAddr x p.slot + 64) 64
     head 4 → (ctxAt k x.ctx.toNat).running.length < (coreEnv s d).maxActive → collCheck k x p.slot = none →
      collRefused s d x.ctx m = none → (collDesc m).op ≠ 6 → ∃ t c, exec (.streamColl d n) s = .next t ∧ popped t ∧
        c ∈ t.churn.colls ∧ c.deck = d.val ∧ c.ctx = x.ctx ∧ c.desc = collDesc m ∧
        (s.churn.early = [] → s.churn.unplaced = [] → t.churn.colls = s.churn.colls ++ [c])) ∧
    (head 1 → rest = [] → kernelOk e = false → ∃ t, exec (.streamKernel d n) s = .next t ∧ onlyDeck s t d ∧ popped t ∧
      ∀ o, entryCobj k x p.slot = some o → (objAt (deckAt t d) o.toNat).poison = true ∧
        ((objAt k o.toNat).poison = false → (objAt (deckAt t d) o.toNat).status = stBadParam)) ∧
    (∀ (id : Nat) (l : Launch) (y : Stream), launchAt k id = some l → l.faulted = none → l.hdr = none →
      (∀ i ∈ l.cores, (coreAt k i).run = .ended) → streamAt k l.stream = some y → y.closing = none → k.waiters = [] → ∃ t,
      exec (.kernelComplete d id) s = .next t ∧ onlyDeck s t d ∧ launchAt (deckAt t d) id = none ∧
      streamAt (deckAt t d) l.stream = some { y with run := .none } ∧
      (∀ i ∈ l.cores, (coreAt (deckAt t d) i).run = .idle ∧ (coreAt (deckAt t d) i).launch = none) ∧
      ∀ o, l.cobj = some o → objAlloc k o.toNat = true → (objAt k o.toNat).count.toNat + l.amt.toNat < 2 ^ 32 →
        (objAt (deckAt t d) o.toNat).count.toNat = (objAt k o.toNat).count.toNat + l.amt.toNat)

/-- [R226, R444, R445, R446, R447, R448] Completes: mbxRing, mbxDeliver, lckRead, lckWrite, tlyClear, tlyClearDone. MBX_RING:
Completer Abort where the receiving deck is in Dock; NOT_BOUND for a
sender that the mailbox does not take; PENDING with nothing queued when 16 notices wait; else the staged notice is
queued whole and the read returns GOOD. MBX_DELIVER, where the area's row and channel can be written, puts the oldest notice
at BASE + 16 × (n mod 16) and signals SYNC by one. LCK_READ of a free lock returns 0 and makes the reader the owner, else it returns the owner; LCK_WRITE
of the owner's own number by the owner frees it, any other write is counted; a lock that is not open to the host
ends with Unsupported Request. TLY_CLEAR zeroes the context's Tallies and takes HBIAS; TLY_CLEAR_DONE ends it. -/
def Obligations.MailboxesLocksAndTallyClear : Prop :=
  ∀ (s : State) (a : Agent),
    (∀ m : Fin 10, let b : Mailbox := mapGet {} s.host.mbx m
      let ring := exec (.mbxRing a m) s
      (mbxDown s m = true → ring = .next (emit s (.aborted a))) ∧
      (mbxDown s m = false → mbxSender s a m = false → ring = .next (emit s (.value a (stNotBound.setWidth 64)))) ∧
      (mbxDown s m = false → mbxSender s a m = true → (m.val < 8 → (deckAt s m).mbxValid = true) →
        (b.queue.length < 16 → ∃ t, ring = .next t ∧ t = { s with host := t.host, out := .value a 0 :: s.out } ∧
          (mapGet {} t.host.mbx m).queue = b.queue ++ [stagedNotice s a m] ∧ ∀ j, j ≠ m.val → mapGet {} t.host.mbx j = mapGet {} s.host.mbx j) ∧
        (16 ≤ b.queue.length → ∃ t, ring = .next t ∧ t = { s with host := t.host, out := .value a (stPending.setWidth 64) :: s.out } ∧
          (mapGet {} t.host.mbx m).queue = b.queue ∧ (mapGet {} t.host.mbx m).full = satInc b.full))) ∧
    (∀ (d : Fin 8) (q : W64 × W64) (rest : List (W64 × W64)), let k := deckAt s d
      let at_ := k.mbxBase.toNat + 16 * (mapGet 0 s.host.delivered d % 16)
      (mapGet {} s.host.mbx d).queue = q :: rest → k.mbxValid = true → syncUp k = true → objAlloc k k.mbxSync.toNat = true →
      objCtx k k.mbxSync.toNat = k.mbxCtx → objWaited k k.mbxSync.toNat = false → memWriteSt k at_ 16 = stGood → rangeHeld k at_ 16 = false →
      (objAt k k.mbxSync.toNat).count.toNat + 1 < 2 ^ 32 → ∃ t, exec (.mbxDeliver d) s = .next t ∧
        (mapGet {} t.host.mbx d).queue = rest ∧ mapGet 0 t.host.delivered d = mapGet 0 s.host.delivered d + 1 ∧
        (objAt (deckAt t d) k.mbxSync.toNat).count.toNat = (objAt k k.mbxSync.toNat).count.toNat + 1 ∧
        ∀ y, deckByte t d y = if at_ ≤ y ∧ y < at_ + 16 then cellGet (bytesCells (natBytes 8 q.1.toNat ++ natBytes 8 q.2.toNat)) (y - at_)
          else deckByte s d y) ∧
    (∀ n : Fin 80, let o := mapGet 0 s.host.locks n
      (lockOpen s a n = true →
        (∃ t, exec (.lckRead a n) s = .next t ∧ t = { s with host := t.host, out := .value a (BitVec.ofNat 64 o) :: s.out } ∧
          mapGet 0 t.host.locks n = (if o = 0 then ownerNumber s a else o) ∧ ∀ j, j ≠ n.val → mapGet 0 t.host.locks j = mapGet 0 s.host.locks j) ∧
        (∀ v, o ≠ 0 → o = ownerNumber s a → v.toNat % 64 = o → ∃ t, exec (.lckWrite a n v) s = .next t ∧
          mapGet 0 t.host.locks n = 0 ∧ t = { s with host := { s.host with locks := t.host.locks } }) ∧
        (∀ v, o ≠ ownerNumber s a → exec (.lckWrite a n v) s =
          .next { s with host := { s.host with lckIgnored := satInc s.host.lckIgnored } })) ∧
      (lockOpen s a n = false → exec (.lckRead a n) s = .next (unsupported s a) ∧ ∀ v, exec (.lckWrite a n v) s = .next (unsupported s a))) ∧
    (∀ (d : Fin 8) (x : BitVec 4) (v : BitVec 64), let c := fun (t : State) => ctxAt (deckAt t d) x.toNat
      (deckWriter s a d = true → ∃ t, exec (.tlyClear a d x v) s = .next t ∧ onlyDeck s t d ∧ (c t).hbias = v.extractLsb' 8 8 ∧
        (v.getLsbD 0 = true → (c t).clearing = true ∧ ∀ i, i < 256 → mapGet {} (deckAt t d).tallies (256 * x.toNat + i) = {}) ∧
        (v.getLsbD 0 = false → (deckAt t d).tallies = (deckAt s d).tallies ∧ (c t).clearing = (c s).clearing)) ∧
      (∃ t, exec (.tlyClearDone d x) s = .next t ∧ onlyDeck s t d ∧ (c t).clearing = false ∧ (deckAt t d).tallies = (deckAt s d).tallies))

/-- [R282, R301, R316, R330, R450, R451, R452, R453] Completes: rdmaWrite, rdmaWriteImmediate, rdmaRead, rdmaUnsupportedOp,
qpRetryExhausted, congestionNotificationPacket, priorityFlowControlFrame. On a queue pair that takes traffic, with no row
or channel that the access waits for and nothing for ECC to find: RDMA WRITE inside a region that grants writes, on
ungated memory, writes its bytes and is acknowledged; with Immediate it then signals the object of bits 11:0 by bits
31:16, and counts one whose object is not allocated; a write that a retired row or a failed channel discards gets a NAK of
Remote Operational Error, the queue pair then in error; RDMA READ answers with the bytes, and of a poisoned sector with
that NAK, the queue pair then in error; a request that the key, the range or the access refuses is answered with a NAK of
Remote Access Error, one that the gate refuses likewise and counted in HOLD.DROP, and nothing is written; an unsupported
operation gets a NAK of Invalid Request. A queue pair whose retries are exhausted enters the error state and takes no more
traffic; a congestion notification is counted on it. A pause frame pauses or releases its port. -/
def Obligations.EthernetRequestsReachTheirRegion : Prop :=
  ∀ (s : State) (n : Nat) (q : Qp) (rkey : BitVec 32) (addr len : Nat) (data : List Byte) (imm : BitVec 32), liveQp s n = some q →
    let ok := fun (bit len : Nat) => regionFor s q rkey addr len bit
    let nak := fun (t : State) (code : Nat) => t.out = .rdmaNak n code :: s.out ∧ t.decks = s.decks ∧
      (ldAt t (qpLd q)).nakSent = satInc (ldAt s (qpLd q)).nakSent
    let wrote := fun (t : State) (d : Nat) => t.out = .rdmaAck n :: s.out ∧
      ∀ x, deckByte t d x = if addr ≤ x ∧ x < addr + data.length then data.getD (x - addr) 0 else deckByte s d x
    (ok 0 data.length = none → (∃ t, exec (.rdmaWrite n rkey addr data []) s = .next t ∧ nak t 1) ∧
      ∃ t, exec (.rdmaWriteImmediate n rkey addr data imm []) s = .next t ∧ nak t 1) ∧
    (ok 1 len = none → ∃ t, exec (.rdmaRead n rkey addr len []) s = .next t ∧ nak t 1) ∧
    (∀ r, ok 0 data.length = some r → rdmaHeld s n rkey addr data.length 0 = false → (deckAt s r.deck).latent = [] →
      let k := deckAt s r.deck
      (gateRefuses k addr data.length = true → ∃ t, exec (.rdmaWrite n rkey addr data []) s = .next t ∧
        t.out = .rdmaNak n 1 :: s.out ∧ (deckAt t r.deck).mem = k.mem ∧ (deckAt t r.deck).gateDrop = satInc k.gateDrop) ∧
      (gateRefuses k addr data.length = false → memUp k = true → k.memBad = [] → memWriteSt k addr data.length = stGood →
        (∃ t, exec (.rdmaWrite n rkey addr data []) s = .next t ∧ onlyDeck { s with out := t.out } t r.deck ∧ wrote t r.deck) ∧
        (let o := imm.toNat % 4096
         r.access.getLsbD 2 = true → syncUp k = true →
          (objAlloc k o = true → objCtx k o = r.ctx → objWaited k o = false → (objAt k o).count.toNat + imm.toNat / 2 ^ 16 < 2 ^ 32 → ∃ t,
            exec (.rdmaWriteImmediate n rkey addr data imm []) s = .next t ∧ wrote t r.deck ∧
            (objAt (deckAt t r.deck) o).count.toNat = (objAt k o).count.toNat + imm.toNat / 2 ^ 16) ∧
          (objAlloc k o = false → ∃ t, exec (.rdmaWriteImmediate n rkey addr data imm []) s = .next t ∧ wrote t r.deck ∧
            (deckAt t r.deck).objs = k.objs ∧
            (ldAt t (16 * r.port.val + r.ld.val)).immBad = satInc (ldAt s (16 * r.port.val + r.ld.val)).immBad)))) ∧
    (∀ r, ok 0 data.length = some r → rdmaHeld s n rkey addr data.length 0 = false → (deckAt s r.deck).latent = [] →
      gateRefuses (deckAt s r.deck) addr data.length = false → memUp (deckAt s r.deck) = true →
      memWriteSt (deckAt s r.deck) addr data.length ≠ stGood → ∃ t, exec (.rdmaWrite n rkey addr data []) s = .next t ∧
        t.out = .rdmaNak n 2 :: s.out ∧ mapGet none t.host.qps n = some { q with err := true }) ∧
    (∀ r, ok 1 len = some r → memUp (deckAt s r.deck) = true → rangeHeld (deckAt s r.deck) addr len = false →
      (deckAt s r.deck).latent = [] →
      (∀ m, memRead (deckAt s r.deck) addr len = some m → ∃ t, exec (.rdmaRead n rkey addr len []) s = .next t ∧
        t.out = .rdmaData n m :: s.out ∧ (deckAt t r.deck).mem = (deckAt s r.deck).mem) ∧
      (memRead (deckAt s r.deck) addr len = none → ∃ t, exec (.rdmaRead n rkey addr len []) s = .next t ∧
        t.out = .rdmaNak n 2 :: s.out ∧ mapGet none t.host.qps n = some { q with err := true })) ∧
    (∀ u, ∃ t, exec (.rdmaUnsupportedOp n u) s = .next t ∧ nak t 0) ∧
    (∃ t, exec (.qpRetryExhausted n) s = .next t ∧ mapGet none t.host.qps n = some { q with err := true } ∧ liveQp t n = none) ∧
    (∃ t, exec (.congestionNotificationPacket n) s = .next t ∧ t = { s with host := { s.host with qps := t.host.qps } } ∧
      mapGet none t.host.qps n = some { q with cnps := q.cnps + 1 }) ∧
    (∀ (e : Fin 2) (b : Bool), exec (.priorityFlowControlFrame e b) s =
      .next { s with host := { s.host with pfcPaused := mapSet false s.host.pfcPaused e b } })

/-- [R456, R457, R458, R459, R460, R461, R466, R489, R494, R546, R555] Completes: setEndpointId, getEndpointId,
getMctpVersionSupport, getMessageTypeSupport, mctpUnsupportedType, getPdrRepositoryInfo, getPdr, getSensorReading,
getStateSensorReadings, getNumericEffecterValue, setNumericEffecterValue, pollForPlatformEventMessage, entdaa,
presentChange. Where the MGC hears a transport: Set and Get
Endpoint ID keep an EID for each transport; the three types carried are listed, others are counted; the PDR
repository, sensors, state sensors and effecters answer from the registers they mirror, a handle beyond the
repository with an error; setting the power limit clips it to 6,000 to 15,000 W and answers the clipped value; a
poll takes the oldest PLDM event. Over CXL, setting an effecter and polling are refused and change nothing else.
Without standby power nothing answers. ENTDAA gives the I3C address. PRESENT_n rising puts a powered module in Off. -/
def Obligations.ManagementTransportsAndMonitoring : Prop :=
  ∀ (s : State) (t : Transport),
    let say := fun (s : State) (c : MctpCode) (b : List Byte) => Host.Outcome.next (emit s (.mctp t c b))
    (mgcHears s t = true →
      (∀ e, ∃ u, exec (.setEndpointId t e) s = .next u ∧ u = { s with mgmt := u.mgmt, out := .mctp t .success [e] :: s.out } ∧
        exec (.getEndpointId t) u = say u .success [e] ∧
        (t = .i3c → u.mgmt = { s.mgmt with eidI3c := e }) ∧ (t = .cxl → u.mgmt = { s.mgmt with eidCxl := e })) ∧
      exec (.getMessageTypeSupport t) s = say s .success [0x00, 0x01, 0x05] ∧
      (∀ ty, typeCarried ty = false → exec (.getMctpVersionSupport t ty) s = say s .invalidRequest [] ∧
        exec (.mctpUnsupportedType t ty) s = .next { s with mgmt := { s.mgmt with mctpDrop := s.mgmt.mctpDrop + 1 } }) ∧
      (∀ ty, typeCarried ty = true → ∃ u b, exec (.getMctpVersionSupport t ty) s = .next u ∧ u.out = .mctp t .success b :: s.out ∧
        u.mgmt = s.mgmt ∧ b.length = 4) ∧
      exec (.getPdrRepositoryInfo t) s = say s .success (natBytes 4 73 ++ natBytes 8 s.mgmt.pdrTime.toNat) ∧
      (∀ h : BitVec 32, exec (.getPdr t h) s =
        if h.toNat < 73 then say s .success (Config.pdrRecord s.mgmt.build.toNat h.toNat) else say s .badParam []) ∧
      exec (.getSensorReading t .inputPower) s = say s .success (natBytes 2 s.power.sampleW.toNat) ∧
      (∀ n : Fin 9, exec (.getSensorReading t (.dieTemp n)) s = say s .success [(mapGet ({} : Die) s.thermal.dies n).temp]) ∧
      (∀ i, ∃ u b, exec (.getSensorReading t i) s = .next u ∧ u.out = .mctp t .success b :: s.out ∧ u.mgmt = s.mgmt) ∧
      exec (.getStateSensorReadings t .htu) s = say s .success [s.htu.state.setWidth 8] ∧
      (∀ i, exec (.getStateSensorReadings t i) s = say s .success [stateSensor s i]) ∧
      (∀ i, exec (.getNumericEffecterValue t i) s = say s .success (natBytes 2 (effecterValue s i))) ∧
      (∀ v : BitVec 16, t = .i3c → ∃ u, exec (.setNumericEffecterValue t .powerLimit v) s = .next u ∧
        u.power.mgcW.toNat = max 6000 (min 15000 v.toNat) ∧ u.out = .mctp t .success (natBytes 2 (max 6000 (min 15000 v.toNat))) :: s.out ∧
        u.power.effW = s.power.effW ∧ u.mem = s.mem) ∧
      (∀ e rest, t = .i3c → s.mgmt.pldm = e :: rest → ∃ u, exec (.pollForPlatformEventMessage t) s = .next u ∧
        u.mgmt = { s.mgmt with pldm := rest } ∧ u.out = .mctp t .success (natBytes 4 e) :: s.out) ∧
      (t = .cxl → exec (.pollForPlatformEventMessage t) s = say s .unsupportedPldmCmd [] ∧
        ∀ i v, exec (.setNumericEffecterValue t i v) s = say s .unsupportedPldmCmd [])) ∧
    (s.power.island = false → (∀ e, exec (.setEndpointId t e) s = .next s) ∧ exec (.getEndpointId t) s = .next s ∧
      exec (.getMessageTypeSupport t) s = .next s ∧ (∀ i v, exec (.setNumericEffecterValue t i v) s = .next s)) ∧
    (∀ a, s.power.island = true → exec (.entdaa a) s = .next { s with mgmt := { s.mgmt with i3cAddr := a } }) ∧
    (∀ rec, s.power.island = true →
      (∃ u, exec (.presentChange false rec) s = .next u ∧ u.mgmt.presentHigh = false ∧ u.power = s.power ∧
        u.mgmt.trayValid = recordValid 3 rec ∧ (recordValid 3 rec = true → u.mgmt.bay.toNat = readNat (bytesCells rec) 3 1 % 4)) ∧
      (s.power.moduleState ≠ 2 → ∃ u, exec (.presentChange true rec) s = .next u ∧ u.mgmt.presentHigh = true ∧ u.power.moduleState = 2 ∧
        u.power.events.getLsbD 7 = true))

/-- [R456, R457, R468, R469, R470, R471, R472] Completes: getVersion, getCapabilities, negotiateAlgorithms, getDigests,
getCertificate, challenge, getMeasurements, spdmUnsupported. Where the MGC hears a transport: GET_VERSION answers 1.2;
NEGOTIATE_ALGORITHMS accepts RSASSA-3072 with SHA-256 alone; GET_CERTIFICATE answers the part asked of slot 0's
chain and refuses every other slot; CHALLENGE of slot 0 answers a signature of 384 bytes' worth where the identity
key may sign and AUTH_FAILED where it may not; GET_MEASUREMENTS answers their number for index 0, one measurement
for 1 to 4, all for 0xFF, refuses other indexes, and signs only where the key may sign; any other request draws
UnsupportedRequest. Apart from the answer and the model's free values nothing changes. How version, capabilities and
algorithms are coded in bytes is the model's own. -/
def Obligations.SpdmRequestsAreAnswered : Prop :=
  ∀ (s : State) (t : Transport), mgcHears s t = true →
    let say := fun (c : MctpCode) (b : List Byte) => Host.Outcome.next (emit s (.mctp t c b))
    let signed := fun (i : Instr) (b : List Byte) => ∃ u d, exec i s = .next u ∧ u = { s with free := u.free, out := u.out } ∧
      u.out = .mctp t .success (b ++ Config.signature d) :: s.out
    exec (.getVersion t) s = say .success [0x12] ∧ exec (.getCapabilities t) s = say .success [0x07] ∧
    (∀ rsa sha, exec (.negotiateAlgorithms t rsa sha) s = if rsa && sha then say .success [0x01, 0x01] else say .invalidRequest []) ∧
    (∃ b, exec (.getDigests t) s = say .success (1 :: b) ∧ b.length = 32) ∧
    (∀ slot off len : Nat, slot < 256 → off < 2 ^ 16 → len < 2 ^ 16 →
      exec (.getCertificate t (BitVec.ofNat 8 slot) (BitVec.ofNat 16 off) (BitVec.ofNat 16 len)) s =
        if slot = 0 then say .success ((Config.certChain.drop off).take len) else say .invalidRequest []) ∧
    (∀ slot n, (slot ≠ 0 → exec (.challenge t slot n) s = say .invalidRequest []) ∧
      (slot = 0 → maySign s = false → exec (.challenge t slot n) s = say .authFailed []) ∧
      (slot = 0 → maySign s = true → signed (.challenge t slot n) [])) ∧
    (∀ (i : BitVec 8) sg n, 4 < i.toNat → i.toNat < 255 → exec (.getMeasurements t i sg n) s = say .invalidRequest []) ∧
    (∀ (i : BitVec 8) n b, (i = 0 ∧ b = [4]) ∨ (1 ≤ i.toNat ∧ i.toNat ≤ 4 ∧ b = measurement s i.toNat) ∨
        (i = 0xFF ∧ b = measurement s 1 ++ measurement s 2 ++ measurement s 3 ++ measurement s 4) →
      exec (.getMeasurements t i false n) s = say .success b ∧
      (maySign s = false → exec (.getMeasurements t i true n) s = say .authFailed []) ∧
      (maySign s = true → signed (.getMeasurements t i true n) b)) ∧
    (∀ c, exec (.spdmUnsupported t c) s = say .unsupportedRequest [])

/-- [R458, R474, R478, R479, R480, R481, R482, R484] Completes: queryDeviceIdentifiers, getFirmwareParameters,
requestUpdate, passComponentTable, updateComponent, requestFirmwareData, verifyComplete, flashWriteDone, stageTimeout,
activateFirmware, getStatus, cancelUpdateComponent, cancelUpdate. Over I3C with standby power: REQUEST_UPDATE takes free staging, and
of owned staging answers ALREADY_IN_UPDATE_MODE and changes nothing; UPDATE_COMPONENT of an offered component makes
the module pull data; each response is appended, and the last starts verification; VERIFY_COMPLETE records the
status of R474: GOOD makes the object VERIFIED and the write begin, with the marker set for an image, otherwise
staging ends in FAILED and is released; FLASH_WRITE_DONE puts the object in flash, clears the marker and sets
PENDING; ACTIVATE_FIRMWARE is accepted only when WRITTEN; CANCEL_UPDATE and 60 s without a transfer end in FAILED, and
STAGE_TIMEOUT before that does nothing.
Over CXL every request of the update is refused. A cancelled write of an image leaves the marker set. -/
def Obligations.FirmwareUpdatesOverI3c : Prop :=
  ∀ (s : State), s.power.island = true →
    let m := s.mgmt
    let say := fun (s : State) (c : MctpCode) (b : List Byte) => Host.Outcome.next (emit s (.mctp .i3c c b))
    let mgmt := fun (u : State) (o : List Output) => u = { s with mgmt := u.mgmt, out := o ++ s.out }
    let st := verifyObject s m.stageMem m.stageBytes.toNat
    exec (.queryDeviceIdentifiers .i3c) s = say s .success Config.deviceIds ∧
    exec (.getFirmwareParameters .i3c) s = say s .success (natBytes 4 m.build.toNat ++
      natBytes 4 (if m.fwPending then objField m.flashImage 8 4 else 0)) ∧
    exec (.getStatus .i3c) s = say s .success [m.stageState.setWidth 8] ∧
    (m.stageOwner ≠ 0 → exec (.requestUpdate .i3c) s = say s .alreadyInUpdateMode []) ∧
    (m.stageOwner = 0 → ∃ u, exec (.requestUpdate .i3c) s = .next u ∧ mgmt u [.mctp .i3c .success []] ∧ u.mgmt.stageOwner = 2 ∧
      u.mgmt.stageState = 1 ∧ u.mgmt.stageBytes = 0) ∧
    (m.stageOwner = 2 → (∀ c : BitVec 16, exec (.passComponentTable .i3c c) s =
        say s (if c = 1 ∨ c = 2 then .success else .badParam) []) ∧
      (∀ (c : BitVec 16) (n : BitVec 32), m.stageState = 1 → c = 1 ∨ c = 2 → n.toNat ≤ 0x1000000 → ∃ u,
        exec (.updateComponent .i3c c n) s = .next u ∧ mgmt u [.pldmRequestData, .mctp .i3c .success []] ∧ u.mgmt.updComp = c ∧
        u.mgmt.stageBytes = 0) ∧
      (∀ (bs : List Byte) (last : Bool), m.stageState = 1 → m.updComp ≠ 0 → m.updSize.toNat ≤ 0x1000000 →
        m.stageBytes.toNat + bs.length ≤ m.updSize.toNat → ∃ u,
        exec (.requestFirmwareData bs last) s = .next u ∧
        mgmt u [if last then .pldmTransferComplete else .pldmRequestData] ∧
        u.mgmt.stageBytes.toNat = m.stageBytes.toNat + bs.length ∧ u.mgmt.stageState = (if last then 2 else 1) ∧
        (∀ a, a < bs.length → cellGet u.mgmt.stageMem (m.stageBytes.toNat + a) = bs.getD a 0) ∧
        ∀ a, a < m.stageBytes.toNat → cellGet u.mgmt.stageMem a = cellGet m.stageMem a) ∧
      (∃ u, exec (.cancelUpdateComponent .i3c) s = .next u ∧ mgmt u [.mctp .i3c .success []] ∧ u.mgmt.stageBytes = 0 ∧
        u.mgmt.stageState = 1 ∧ u.mgmt.stageOwner = 2) ∧
      (∃ u, exec (.cancelUpdate .i3c) s = .next u ∧ mgmt u [.mctp .i3c .success []] ∧ u.mgmt.stageState = 6 ∧ u.mgmt.stageOwner = 0 ∧
        (m.stageState = 4 → m.stageKind = false → u.mgmt.writeMarker = true))) ∧
    (m.stageState = 2 → m.stageOwner = 2 → m.stageCmd = none →
      (st = stGood → ∃ u, exec .verifyComplete s = .next u ∧ mgmt u [.pldmVerifyComplete 0] ∧ u.mgmt.stageState = 4 ∧
        u.mgmt.stageStatus = stGood ∧ (isImage m.stageMem = true → u.mgmt.writeMarker = true)) ∧
      (st ≠ stGood → ∃ u, exec .verifyComplete s = .next u ∧
        mgmt u [.pldmVerifyComplete (if st = stRollback then 3 else 1)] ∧ u.mgmt.stageState = 6 ∧ u.mgmt.stageOwner = 0 ∧
        u.mgmt.stageStatus = st)) ∧
    (m.stageState = 4 → m.stageOwner = 2 → m.stageCmd = none → m.recovery = false → ∃ u, exec .flashWriteDone s = .next u ∧
      mgmt u [.pldmApplyComplete] ∧ u.mgmt.stageState = 5 ∧ u.mgmt.stageOwner = 0 ∧ u.mgmt.fwPending = true ∧ u.mgmt.build = m.build ∧
      (m.stageKind = false → u.mgmt.flashImage = m.stageMem ∧ u.mgmt.writeMarker = false ∧ u.mgmt.flashRecord = m.flashRecord) ∧
      (m.stageKind = true → u.mgmt.flashRecord = m.stageMem ∧ u.mgmt.flashImage = m.flashImage)) ∧
    (clockNs s < m.stageAt + 60000000000 → exec .stageTimeout s = .next s) ∧
    (m.stageAt + 60000000000 ≤ clockNs s → m.stageOwner ≠ 0 → m.stageState = 1 ∨ m.stageState = 3 → ∃ u, exec .stageTimeout s = .next u ∧ u.mgmt.stageState = 6 ∧
      u.mgmt.stageOwner = 0 ∧ u.mgmt.events.getLsbD 7 = true ∧ u.mgmt.flashImage = m.flashImage) ∧
    exec (.activateFirmware .i3c) s = say s (if m.stageState = 5 then .success else .notInUpdateMode) [] ∧
    (mgcHears s .cxl = true → ∀ c n, ∀ i ∈ [Instr.queryDeviceIdentifiers .cxl, .getFirmwareParameters .cxl, .requestUpdate .cxl,
        .passComponentTable .cxl c, .updateComponent .cxl c n, .activateFirmware .cxl, .getStatus .cxl, .cancelUpdateComponent .cxl,
        .cancelUpdate .cxl], exec i s = .next (emit s (.mctp .cxl .unsupportedPldmCmd [])))

/-- [R467, R468, R485, R486, R487, R488, R489, R490, R491, R493, R494, R512] Completes: standbyPowerGood, standbyPowerLoss,
feedAFail, feedAReturn, efuseTrip, efuseReclose, powerLoss, powerOn, powerSample, powerWindowEnd, powerLimitWrite.
STANDBY_POWER_GOOD starts the island: Off, release step 1, PUF_OK as given; STANDBY_POWER_LOSS clears the safety latch and
keeps only what K7 keeps. A failing feed A hands over to B; feed A takes over again once it has stood between 50 V and
58 V for 100 ms by the samples taken, not earlier; a trip opens its eFuse, the third in 60 minutes latches it, and with
both open the module enters the safe state; a reclose closes an eFuse that is not latched once its feed has stood in that
range for 1 s, not earlier; a sample records what it measured, and since when each feed has stood in range.
POWER_LOSS puts the module in Off; POWER_ON starts a cold reset, and does nothing while the latch is set. Each
window the duty falls by 1 to 4 above the limit, and rises by 1 to 16 below 90 % of it after 10 calm windows. Limits
are clipped, firmware's at or below the management plane's. -/
def Obligations.FeedsFusesAndTheDutyGovernor : Prop :=
  ∀ (s : State),
    let p := s.power
    let clipW := fun (v : Nat) => max 6000 (min 15000 v)
    (∀ puf, p.island = false → ∃ t, exec (.standbyPowerGood puf) s = .next t ∧ t.power.island = true ∧ t.power.moduleState = 2 ∧
      t.mgmt.pufOk = puf ∧ t.rst.phase = 1 ∧ t.safety = { s.safety with safeN := s.safety.latched } ∧
      (puf = false → t.mgmt.events.getLsbD 6 = true)) ∧
    (∃ t, exec .standbyPowerLoss s = .next t ∧ t.safety.latched = false ∧ t.safety.safeN = true ∧ t.power.island = false ∧
      t.power.moduleState = 2 ∧ t.mgmt.counter = s.mgmt.counter ∧ t.mgmt.flashRecord = s.mgmt.flashRecord ∧
      t.mgmt.storedSeq = s.mgmt.storedSeq ∧ t.rst.bkp = [] ∧ t.rst.retained = [] ∧ t.pending = s.pending ∧ (∀ d, (deckAt t d).mem = []) ∧
      (s.mgmt.stageState ≠ 4 → t.mgmt.flashImage = s.mgmt.flashImage ∧ t.mgmt.writeMarker = s.mgmt.writeMarker)) ∧
    (p.activeFeed = 1 → p.efuseB = false → exec .feedAFail s =
      .next { s with power := { p with activeFeed := 2, goodA := none, events := setBit p.events 0 true } }) ∧
    (∀ x, p.activeFeed = 2 → p.efuseA = false → p.goodA = some x → x + 100000000 ≤ clockNs s → exec .feedAReturn s =
      .next { s with power := { p with activeFeed := 1, events := setBit p.events 1 true } }) ∧
    (p.goodA = none ∨ (∃ x, p.goodA = some x ∧ clockNs s < x + 100000000) → exec .feedAReturn s = .next s) ∧
    (p.efuseA = false → p.efuseB = false → ∃ t, exec (.efuseTrip .a) s = .next t ∧ t.power.efuseA = true ∧ t.power.efuseB = false ∧
      t.power.activeFeed = (if p.activeFeed = 1 then 2 else p.activeFeed) ∧ t.power.moduleState = p.moduleState ∧
      t.power.events.getLsbD 4 = true ∧ t.power.latchedA =
        (p.latchedA || decide (2 ≤ (p.tripTimesA.filter (fun x => decide (clockNs s < x + 3600000000000))).length))) ∧
    (p.efuseA = true → p.efuseB = false → ∃ t, exec (.efuseTrip .b) s = .next t ∧ t.power.moduleState = 2 ∧ t.safety.latched = true ∧
      t.safety.safeN = true ∧ (s.safety.latched = false → t.safety.cause = 1)) ∧
    (∀ x, (p.latchedA = false → p.goodA = some x → x + 1000000000 ≤ clockNs s → exec (.efuseReclose .a) s =
        .next { s with power := { p with efuseA := false } }) ∧
      (p.latchedA = true ∨ p.goodA = none ∨ (p.goodA = some x ∧ clockNs s < x + 1000000000) → exec (.efuseReclose .a) s = .next s) ∧
      (p.latchedB = false → p.goodB = some x → x + 1000000000 ≤ clockNs s → exec (.efuseReclose .b) s =
        .next { s with power := { p with efuseB := false } }) ∧
      (p.latchedB = true ∨ p.goodB = none ∨ (p.goodB = some x ∧ clockNs s < x + 1000000000) → exec (.efuseReclose .b) s = .next s)) ∧
    (p.moduleState ≠ 2 → (p.efuseA && p.efuseB) = false → ∃ t, exec .powerLoss s = .next t ∧ t.power.moduleState = 2 ∧
      t.power.events.getLsbD 7 = true ∧ t.safety = s.safety ∧ (∀ d, (deckAt t d).mem = []) ∧ t.rst.bkp = s.rst.bkp) ∧
    (p.island = true → p.moduleState = 2 → s.mgmt.presentHigh = false → (p.efuseA && p.efuseB) = false →
      (s.safety.latched = true → exec .powerOn s = .next s) ∧
      (s.safety.latched = false → s.rst.hold = false → ∃ t, exec .powerOn s = .next t ∧ t.power.moduleState = 0 ∧ t.rst.phase = 2 ∧
        (t.power.activeFeed = 1 ∨ t.power.activeFeed = 2) ∧
        (p.efuseA = false → 4600 ≤ p.voltsA.toNat → t.power.activeFeed = 1) ∧
        (p.efuseA = true → t.power.activeFeed = 2) ∧ t.rst.last = BitVec.ofNat 32 (causeWord 7 0 0 0 0 false (nextReset s)))) ∧
    (∀ w va ia vb ib : BitVec 16, p.island = true → ∃ t, exec (.powerSample w va ia vb ib) s = .next t ∧ t = { s with power := t.power } ∧
      t.power.sampleW = w ∧ t.power.voltsA = va ∧ t.power.ampsA = ia ∧ t.power.voltsB = vb ∧ t.power.ampsB = ib ∧
      t.power.peakW.toNat = max p.peakW.toNat w.toNat ∧ t.power.activeFeed = p.activeFeed ∧
      (t.power.goodA = if 5000 ≤ va.toNat ∧ va.toNat ≤ 5800 then some (p.goodA.getD (clockNs s)) else none) ∧
      (t.power.goodB = if 5000 ≤ vb.toNat ∧ vb.toNat ≤ 5800 then some (p.goodB.getD (clockNs s)) else none)) ∧
    (p.moduleState ≠ 2 → p.winCount ≠ 0 → ∃ t, exec .powerWindowEnd s = .next t ∧ t = { s with power := t.power } ∧
      let avg := p.winSum / p.winCount
      (avg < 2 ^ 16 → t.power.avgW.toNat = avg) ∧ t.power.effW.toNat = min p.mgcW.toNat p.fwW.toNat ∧ t.power.winCount = 0 ∧
      (p.effW.toNat < avg → p.overCnt.toNat < 9 → t.power.duty.toNat = (if p.duty.toNat ≤ 4 then 4 else p.duty.toNat - 1)) ∧
      (p.effW.toNat < avg → 9 ≤ p.overCnt.toNat → t.power.duty = 4 ∧ t.power.events.getLsbD 10 = true) ∧
      (avg * 10 < p.effW.toNat * 9 → 10 ≤ p.calm → p.duty.toNat < 16 → t.power.duty.toNat = p.duty.toNat + 1) ∧
      (p.effW.toNat * 9 ≤ avg * 10 → avg ≤ p.effW.toNat → t.power.duty = p.duty)) ∧
    (∀ v : BitVec 64,
      (∃ t, exec (.powerLimitWrite .mgc v) s = .next t ∧ t = { s with power := t.power } ∧ t.power.mgcW.toNat = clipW (v.toNat % 2 ^ 16) ∧
        t.power.fwW.toNat = clipW (v.toNat / 2 ^ 16 % 2 ^ 16) ∧ t.power.effW = p.effW) ∧
      (∃ t, exec (.powerLimitWrite .fw v) s = .next t ∧ t = { s with power := t.power } ∧ t.power.mgcW = p.mgcW ∧
        t.power.fwW.toNat = min (clipW (v.toNat / 2 ^ 16 % 2 ^ 16)) p.mgcW.toNat ∧ t.power.effW = p.effW) ∧
      (∀ l, exec (.powerLimitWrite (.host l) v) s = .next (unsupported s (.host l))))

/-- [R497, R498, R499, R500, R502, R503, R506, R507, R508, R509, R514, R515] Completes: dockReqWrite, deckDock,
dockIdleExpire, deckWake, standbyReqWrite, moduleStandbyEnter, rampWindow, rowPark, dieTempSample, thermalWindowEnd,
throttleCWrite, cmdpLockstepDiverge, spadScrubUnit, spadScrubLate. DOCK_REQ of an idle deck docks it and clearing it wakes
the deck; an idle deck that has been unbound for DOCK_IDLE_MS docks by itself, not earlier; a waking deck comes to Run,
its stacks out of self-refresh; Standby is entered when it is requested and every deck is docked, and left when the request
is cleared. A ramp window admits the first 12 waiting rows in milking order; a row without work parks. A temperature sample
sets the die's reading; the second running sample above 115 °C of a deck puts it in Shutdown with its contents lost, of the
hub the module in the safe state. At a window's end each duty falls or rises by one. THROTTLE_C is clipped to 85 to 110 and
only the MGC writes it. A lockstep divergence stops the CMDP. The scrubber moves on over a unit, a corrected one is
counted, an uncorrectable one stays poisoned; a pass older than 10 minutes is reported by safety function 10, and a younger
one is not. -/
def Obligations.DockRampsHeatAndSafetyFunctions : Prop :=
  ∀ (s : State) (d : Fin 8),
    let k := deckAt s d
    (∀ a v, deckWriter s a d = false → exec (.dockReqWrite a d v) s = .next (unsupported s a)) ∧
    (∀ a, deckWriter s a d = true → (∃ t, exec (.dockReqWrite a d true) s = .next t ∧ t = setDeck s d { k with dockReq := true }) ∧
      ∃ t, exec (.dockReqWrite a d false) s = .next t ∧ onlyDeck s t d ∧ (deckAt t d).dockReq = false ∧
        (deckAt t d).power = if k.power = .dock then .waking else k.power) ∧
    (k.dockReq = true → dockable s d = true → ∃ t, exec (.deckDock d) s = .next t ∧ onlyDeck s t d ∧ (deckAt t d).power = .dock ∧
      (deckAt t d).mem = k.mem ∧ (∀ i, (coreAt (deckAt t d) i).s = []) ∧ ∀ g, (groupAt (deckAt t d) g).alloc = false) ∧
    (k.unboundAt + 1000000 * s.power.dockIdleMs.toNat ≤ clockNs s → deckLd s d = none → k.clearing = false → s.host.binds = [] →
      dockable s d = true → ∃ t, exec (.dockIdleExpire d) s = .next t ∧ onlyDeck s t d ∧ (deckAt t d).power = .dock) ∧
    (clockNs s < k.unboundAt + 1000000 * s.power.dockIdleMs.toNat → exec (.dockIdleExpire d) s = .next s) ∧
    (k.power = .waking → k.reset = .none → s.host.binds = [] → ∃ t, exec (.deckWake d) s = .next t ∧ onlyDeck s t d ∧
      (deckAt t d).power = .run ∧ (deckAt t d).mem = k.mem ∧ ∀ i, i < 4 → (stackAt (deckAt t d) i).selfRefresh = false) ∧
    (∃ t, exec (.standbyReqWrite .mgc true) s = .next t ∧ t = { s with power := { s.power with standbyReq := true } }) ∧
    (∃ t, exec (.standbyReqWrite .mgc false) s = .next t ∧ t.power.standbyReq = false ∧
      (s.power.moduleState = 1 → t.power.moduleState = 0) ∧ (s.power.moduleState ≠ 1 → t.power.moduleState = s.power.moduleState)) ∧
    (s.power.standbyReq = true → s.power.moduleState = 0 → (∀ e, e < 8 → (deckAt s e).power = .dock) → ∃ t,
      exec .moduleStandbyEnter s = .next t ∧ t = { s with decks := t.decks, power := { s.power with moduleState := 1 } } ∧
      (deckAt t d).power = .dock ∧ (deckAt t d).mem = k.mem ∧ (deckAt t d).objs = [] ∧ (deckAt t d).alarms = [] ∧
      (deckAt t d).tallies = [] ∧ ∀ g, (groupAt (deckAt t d) g).alloc = false) ∧
    (∃ t, exec .rampWindow s = .next t ∧ t = { s with decks := t.decks, power := t.power } ∧
      (∀ r : Fin 13, 16 * d.val + r.val ∈ (rampOrder s.power.waitRows).take 12 → (deckAt t d).admitted.getLsbD r.val = true) ∧
      (∀ x, x ∈ t.power.waitRows ↔ x ∈ s.power.waitRows ∧ x ∉ (rampOrder s.power.waitRows).take 12)) ∧
    (∀ r : Fin 13, (∀ e ∈ k.cores, coreRow k e.1 = r.val → e.2.vq = [] ∧ e.2.mq = []) → ∃ t, exec (.rowPark d r) s = .next t ∧
      onlyDeck s t d ∧ (deckAt t d).admitted.getLsbD r.val = false ∧
      ∀ j, j ≠ r.val → (deckAt t d).admitted.getLsbD j = k.admitted.getLsbD j) ∧
    (∀ (n : Fin 9) (a : BitVec 8), s.power.moduleState ≠ 2 →
      let x : Die := mapGet {} s.thermal.dies n
      (a.toInt ≤ 115 → ∃ t, exec (.dieTempSample n [some a]) s = .next t ∧
        t = { s with thermal := t.thermal, decks := t.decks } ∧
        (∀ e, deckAt t e = { deckAt s e with hotAt := (deckAt t e).hotAt }) ∧
        (mapGet {} t.thermal.dies n).temp = a ∧ (∀ j, j ≠ n.val → mapGet {} t.thermal.dies j = mapGet {} s.thermal.dies j)) ∧
      (115 < a.toInt → x.hot = [true] →
        (n.val < 8 → (deckAt s n).power ≠ .shutdown → ∃ t, exec (.dieTempSample n [some a]) s = .next t ∧
          (deckAt t n).power = .shutdown ∧ (deckAt t n).mem = [] ∧ t.safety.events.getLsbD 2 = true ∧ t.safety.latched = s.safety.latched) ∧
        (n.val = 8 → ∃ t, exec (.dieTempSample n [some a]) s = .next t ∧ t.power.moduleState = 2 ∧ t.safety.latched = true ∧
          t.safety.safeN = true))) ∧
    (s.power.moduleState ≠ 2 → ∃ t, exec .thermalWindowEnd s = .next t ∧
      let x : Die := mapGet {} s.thermal.dies d
      (mapGet {} t.thermal.dies d).duty.toNat = (if x.above then (if x.duty.toNat ≤ 4 then 4 else x.duty.toNat - 1)
        else if x.notBelow = false ∧ x.duty.toNat < 16 then x.duty.toNat + 1 else x.duty.toNat) ∧
      (mapGet {} t.thermal.dies d).above = false) ∧
    (∀ v : BitVec 64, (∃ t, exec (.throttleCWrite .mgc v) s = .next t ∧ t = { s with thermal := t.thermal } ∧
        t.thermal.throttleC.toNat = max 85 (min 110 (v.toNat % 256))) ∧
      ∀ a, a ≠ .mgc → exec (.throttleCWrite a v) s = .next (unsupported s a)) ∧
    (s.host.lds = [] → actionOf s 10 = 0 → ∃ t, exec .cmdpLockstepDiverge s = .next t ∧ t.rst.cmdpStopped = true ∧
      t.safety.diverge = satInc s.safety.diverge ∧ t.decks = s.decks ∧ t.churn = s.churn ∧ t.ports = s.ports) ∧
    (∀ c : CoreRef, let u := mapGet 0 (deckAt s c.deck).scrubPos c.core
      (∀ f, f = .clean ∨ f = .corrected → ∃ t, exec (.spadScrubUnit c f) s = .next t ∧ onlyDeck s t c.deck ∧
        coreOf t c = (if f = .corrected then { coreOf s c with spadCe := (coreOf s c).spadCe + 1 } else coreOf s c) ∧
        mapGet 0 (deckAt t c.deck).scrubPos c.core = if u = 8191 then 0 else u + 1) ∧
      (actionOf s 7 = 0 → ∃ t, exec (.spadScrubUnit c .uncorrectable) s = .next t ∧ mapGet false (coreOf t c).spadBad u = true ∧
        (coreOf t c).spad = (coreOf s c).spad ∧ mapGet 0 t.rst.detCount 7 = satInc (mapGet 0 s.rst.detCount 7))) ∧
    (600 < spadAge k → ∃ t, exec (.spadScrubLate d) s = .next t ∧ t.safety.events.getLsbD 10 = true ∧ t.decks = s.decks) ∧
    (spadAge k ≤ 600 → exec (.spadScrubLate d) s = .next s)

/-- [R519, R521, R523, R526, R527, R528, R531, R533, R535] Completes: swrstCtx, swrstEngine, swrstCompute, swrstFull,
swrstCmdpRestart, resetComplete, resetTimeLimit, cmdpRestartTimeout, watchdogExpire, shutdownRecovery. Only CMDP firmware writes the reset bits; from anyone else
each ends with Unsupported Request. With no collective on the module, a context, engine, compute or full reset that
no running one absorbs records a cause word with its level and source 6, moves the old one up and counts the reset,
runs on its scope, and leaves the other decks and, but for the full reset, the stack memory as they are; an absorbed
one is recorded and does nothing more. RESET_COMPLETE, with nothing waiting for a channel or row, opens the scope; a compute
reset that exceeds its limit of 2 ms becomes a full one, escalated, where MAX_AUTO allows it, and within the limit
RESET_TIME_LIMIT does nothing. A CMDP restart stops the CMDP alone, and ends; one that exceeds 100 ms becomes a warm module
reset, earlier its timeout does nothing. The watchdog acts as detector 1 on a core that runs a kernel and does not wait, and
the recovery of a Shutdown deck as detector 11 once the deck has been cool for 10 s, not earlier. -/
def Obligations.ResetsOfDecksAndTheCmdp : Prop :=
  ∀ (s : State) (d : Fin 8) (x : BitVec 4) (core : BitVec 12),
    let k := deckAt s d
    let n := nextReset s
    let old := (mapGet 0 s.rst.bkp 0).toNat % 2 ^ 32
    let recorded := fun (t : State) (w : Nat) => t.rst.last = BitVec.ofNat 32 w ∧
      (mapGet 0 t.rst.bkp 0).toNat = w + 2 ^ 32 * old ∧ (mapGet 0 t.rst.bkp 1).toNat % 2 ^ 32 = n % 2 ^ 32
    let runs := fun (t : State) (z : Scope) => ∃ e ∈ t.rst.running, e.scope = z
    let others := fun (t : State) => ∀ e, e ≠ d.val → deckAt t e = deckAt s e
    (∀ a, a ≠ .fw → ∀ i ∈ [Instr.swrstCtx a d x, .swrstEngine a d x core, .swrstCompute a d, .swrstFull a d, .swrstCmdpRestart a,
      .swrstEth a 0, .swrstModuleWarm a], exec i s = .next (unsupported s a)) ∧
    (s.churn.colls = [] →
      (resetRuns s (.ctx d x) = false → ∃ t, exec (.swrstCtx .fw d x) s = .next t ∧
        recorded t (causeWord 1 6 0 d x.toNat false n) ∧ runs t (.ctx d x) ∧ others t ∧ (deckAt t d).mem = k.mem) ∧
      (resetRuns s (.engine d x (core.setWidth 16)) = false → ∃ t, exec (.swrstEngine .fw d x core) s = .next t ∧
        recorded t (causeWord 2 6 0 d 0 false n) ∧ runs t (.engine d x (core.setWidth 16)) ∧ others t ∧ (deckAt t d).mem = k.mem) ∧
      (resetRuns s (.compute d) = false → ∃ t, exec (.swrstCompute .fw d) s = .next t ∧
        recorded t (causeWord 3 6 0 d 0 false n) ∧ runs t (.compute d) ∧ others t ∧ (deckAt t d).mem = k.mem ∧
        (deckAt t d).reset = .compute ∧ (∀ g, (groupAt (deckAt t d) g).alloc = false) ∧ (deckAt t d).penMap = k.penFlash) ∧
      (resetRuns s (.full d) = false → ∃ t, exec (.swrstFull .fw d) s = .next t ∧
        recorded t (causeWord 4 6 0 d 0 false n) ∧ runs t (.full d) ∧ others t ∧ (deckAt t d).mem = [] ∧ (deckAt t d).reset = .full) ∧
      (∀ e : RunningReset, s.rst.running = [e] → e.scope = .compute d → e.since + 2000000 ≤ clockNs s → 4 ≤ s.rst.maxAuto.toNat → ∃ t,
        exec (.resetTimeLimit (.compute d)) s = .next t ∧ recorded t (causeWord 4 7 0 d 0 true n) ∧ runs t (.full d) ∧ others t ∧
        (deckAt t d).reset = .full ∧ t.rst.events.getLsbD 1 = true) ∧
      (k.hotAt + 10000000000 ≤ clockNs s → k.power = .shutdown → k.outOfService = false → deckCool s d = true → actionOf s 11 = 4 → s.rst.past = [] →
        resetRuns s (.full d) = false → ∃ t, exec (.shutdownRecovery d) s = .next t ∧
        recorded t (causeWord 4 3 11 d 0 false n) ∧ (deckAt t d).reset = .full ∧ (deckAt t d).power = .waking)) ∧
    (clockNs s < k.hotAt + 10000000000 → exec (.shutdownRecovery d) s = .next s) ∧
    (resetRuns s (.full d) = true → exec (.swrstFull .fw d) s =
      .next (recordCause s (causeWord 4 6 0 d 0 false n))) ∧
    (∀ e : RunningReset, s.rst.running = [e] → s.host.binds = [] → noneHeld s →
      (e.scope = .compute d → ∃ t, exec (.resetComplete (.compute d)) s = .next t ∧ t.rst.running = [] ∧ onlyDeck { s with rst := t.rst } t d ∧
        (deckAt t d).reset = .none) ∧
      (e.scope = .full d → ∃ t, exec (.resetComplete (.full d)) s = .next t ∧ t.rst.running = [] ∧ (deckAt t d).reset = .none ∧
        (deckAt t d).power = if k.power = .waking then .run else k.power) ∧
      (e.scope = .cmdp → ∃ t, exec (.resetComplete .cmdp) s = .next t ∧ t.rst.running = [] ∧ t.rst.cmdpRestart = false ∧
        t.rst.cmdpStopped = false ∧ t.decks = s.decks) ∧
      (e.scope ≠ .compute d → ∃ t, exec (.resetTimeLimit (.compute d)) s = .next t ∧ t = s) ∧
      (e.scope = .compute d → clockNs s < e.since + 2000000 → exec (.resetTimeLimit (.compute d)) s = .next s) ∧
      (e.scope = .compute d → e.since + 2000000 ≤ clockNs s → s.rst.maxAuto.toNat < 4 → ∃ t, exec (.resetTimeLimit (.compute d)) s = .next t ∧
        t = { s with rst := t.rst } ∧ t.rst.events.getLsbD 2 = true ∧ t.rst.running = [e])) ∧
    (resetRuns s .cmdp = false → s.rst.cmdpTimes = [] → ∃ t, exec (.swrstCmdpRestart .fw) s = .next t ∧
      recorded t (causeWord 0 6 0 0 0 false n) ∧ runs t .cmdp ∧ t.rst.cmdpRestart = true ∧ t.rst.cmdpStopped = true ∧
      t.decks = s.decks ∧ t.churn = s.churn ∧ t.ports = s.ports ∧ t.net = s.net) ∧
    (∀ e : RunningReset, s.rst.running = [e] → e.scope = .cmdp →
      (clockNs s < e.since + 100000000 → exec .cmdpRestartTimeout s = .next s) ∧
      (e.since + 100000000 ≤ clockNs s → s.rst.hold = false → s.power.moduleState ≠ 2 → ∃ t, exec .cmdpRestartTimeout s = .next t ∧ recorded t (causeWord 5 7 0 0 0 true n) ∧ t.rst.phase = 3 ∧ t.rst.events.getLsbD 1 = true)) ∧
    (∀ c : CoreRef, (coreOf s c).launch ≠ none → actionOf s 1 = 0 →
      (∀ z, (coreOf s c).run = .ready ∨ (coreOf s c).run = .fence z → ∃ t, exec (.watchdogExpire c) s = .next t ∧
        t = { s with rst := t.rst } ∧ mapGet 0 t.rst.detCount 1 = satInc (mapGet 0 s.rst.detCount 1) ∧ t.rst.running = s.rst.running) ∧
      (∀ z z', (coreOf s c).run = .object ∨ (coreOf s c).run = .time z z' → exec (.watchdogExpire c) s = .next s))

/-- [R512, R520, R523, R524, R529, R532, R533, R536, R538, R539, R540, R541] Completes: swrstModuleWarm, swrstEth, mrst,
releaseStep, pwrcycTimeout, rstLegacyWarm, legacyWindowExpire. With power and no hold: a warm module reset
by firmware puts every deck in reset with its memory lost, keeps the verified build and the flash, and starts at
step 3; MRST_n low for 1 µs is a cold one that starts at step 2, a pulse below 500 ns is ignored, and while the
latch is set MRST_n does nothing; the rising edge lets the release order go on. RELEASE_STEP goes from step to step:
a failed image leads to recovery, which leaves out decks and links; decks in service come up in Run at step 5; step
8 ends the reset. The reset of an Ethernet port puts its queue pairs in error and releases its pause. A power-cycle request
is a cold reset once PWRCYC_WAIT_MS have passed, not earlier. The Slack-water key outside its window, which closes 1 ms
after the reply that opened it, is refused with BAD_PARAM, with two LDs bound with NOT_BOUND, while flash is written with
BUSY_RESET; accepted it keeps the stacks above 256 MiB; that the low 256 MiB, which boot firmware overwrites, then read as
zero is the model's choice (log entry 101). -/
def Obligations.ModuleResetsAndTheReleaseOrder : Prop :=
  ∀ (s : State),
    let n := nextReset s
    let on := s.rst.hold = false ∧ s.power.moduleState ≠ 2
    let said := fun (t : State) (w : Nat) => t.rst.last = BitVec.ofNat 32 w ∧ (mapGet 0 t.rst.bkp 0).toNat % 2 ^ 32 = w
    (on → resetRuns s .module = false → ∃ t, exec (.swrstModuleWarm .fw) s = .next t ∧ t.rst.phase = 3 ∧
      said t (causeWord 5 6 0 0 0 false n) ∧ (∀ d, d < 8 → (deckAt t d).reset = .full ∧ (deckAt t d).mem = []) ∧
      t.mgmt.build = s.mgmt.build ∧ t.mgmt.verified = s.mgmt.verified ∧ t.mgmt.flashRecord = s.mgmt.flashRecord ∧
      t.rst.action = s.rst.action ∧ t.tt.armed = false ∧ t.htu.state = 0 ∧ t.host.lds = []) ∧
    (∀ e : Fin 2, ∃ t, exec (.swrstEth .fw e) s = .next t ∧ mapGet false t.host.pfcPaused e = false ∧ t.net = s.net) ∧
    (∀ (e : Fin 2) (m : Nat) (q : Qp), mapGet none s.host.qps m = some q → q.eth = e.val → ∃ t, exec (.swrstEth .fw e) s = .next t ∧
      mapGet none t.host.qps m = some { q with err := true }) ∧
    (∀ (low : Bool) (ns : Nat), s.power.island = true →
      (s.safety.latched = true → exec (.mrst low ns) s = .next s) ∧
      (s.safety.latched = false →
        (s.rst.mrstLow = true → exec (.mrst low ns) s = .next { s with rst := { s.rst with mrstLow := low } }) ∧
        (s.rst.mrstLow = false → ns < 500 → exec (.mrst low ns) s = .next s) ∧
        (s.rst.mrstLow = false → 1000 ≤ ns → on → ∃ t, exec (.mrst low ns) s = .next t ∧ t.rst.phase = 2 ∧ t.rst.mrstLow = low ∧
          said t (causeWord 7 1 0 0 0 false n) ∧ t.mgmt.build = 0 ∧ ∀ d, d < 8 → (deckAt t d).mem = []))) ∧
    (∀ b,
      (s.rst.mrstLow = true → exec (.releaseStep b) s = .next s) ∧
      (s.rst.hold = false → s.rst.mrstLow = false →
        (s.rst.phase = 1 → s.power.moduleState ≠ 2 → ∃ t, exec (.releaseStep b) s = .next t ∧ t.rst.phase = 2) ∧
        (s.rst.phase = 2 → ∃ t, exec (.releaseStep b) s = .next t ∧ t.rst.phase = 3 ∧
          (s.mgmt.writeMarker = false → b = .ok → t.mgmt.recovery = false ∧ t.mgmt.verified = true ∧
            t.mgmt.build.toNat = objField s.mgmt.flashImage 8 4) ∧
          (s.mgmt.writeMarker = true ∨ b ≠ .ok → t.mgmt.recovery = true ∧ t.mgmt.build = 0 ∧ t.mgmt.verified = false) ∧
          (s.mgmt.writeMarker = true → t.mgmt.events.getLsbD 2 = true)) ∧
        (s.rst.phase = 3 → ∃ t, exec (.releaseStep b) s = .next t ∧ t.rst.phase = if s.mgmt.recovery then 7 else 4) ∧
        (s.rst.phase = 4 → ∃ t, exec (.releaseStep b) s = .next t ∧ t.rst.phase = 5) ∧
        (s.rst.phase = 5 → s.host.binds = [] → ∃ t, exec (.releaseStep b) s = .next t ∧ t.rst.phase = 6 ∧
          ∀ d, d < 8 → (deckAt s d).outOfService = false → (deckAt t d).reset = .none ∧ (deckAt t d).power = .run) ∧
        (s.rst.phase = 6 → ∃ t, exec (.releaseStep b) s = .next t ∧ t.rst.phase = if s.rst.slack then 8 else 7) ∧
        (s.rst.phase = 7 → ∃ t, exec (.releaseStep b) s = .next t ∧ t.rst.phase = 8) ∧
        (s.rst.phase = 8 → ∃ t, exec (.releaseStep b) s = .next t ∧ t.rst.phase = 0 ∧ ∀ e ∈ t.rst.running, e.scope ≠ .module))) ∧
    (clockNs s < s.rst.pwrcycAt + 1000000 * s.rst.pwrcycWaitMs.toNat → exec .pwrcycTimeout s = .next s) ∧
    (s.rst.pwrcycAt + 1000000 * s.rst.pwrcycWaitMs.toNat ≤ clockNs s → s.rst.pwrcycReq = true → s.power.island = true → on → ∃ t, exec .pwrcycTimeout s = .next t ∧ t.rst.phase = 2 ∧ t.rst.pwrcycReq = false ∧
      said t (causeWord 7 12 0 0 0 false n) ∧ t.rst.events.getLsbD 3 = true) ∧
    (∀ (l : LdRef) (key : BitVec 16), let w := fun (key : BitVec 16) => exec (.rstLegacyWarm (.host l) key) s
      (heldBind (ldAt s (ldKey l))).isSome = true → (ldAt s (ldKey l)).legacyWindow = true →
      let refused := fun (st : Status) => Host.Outcome.next (legacyStatus s st)
      (key ≠ 0x5EA1 → w key = refused stBadParam) ∧
      (1 < (boundLds s).length → w 0x5EA1 = refused stNotBound) ∧
      (boundLds s = [ldKey l] → s.mgmt.stageState = 4 → w 0x5EA1 = refused stBusyReset) ∧
      (boundLds s = [ldKey l] → s.mgmt.stageState ≠ 4 → (List.range 8).any (deckTraffic s) = true → on → ∃ t, w 0x5EA1 = .next t ∧
        t.rst.phase = 2 ∧ said t (causeWord 7 9 0 0 0 false n) ∧ t.rst.legacyStatus = stBusyReset) ∧
      (boundLds s = [ldKey l] → s.mgmt.stageState ≠ 4 → (List.range 8).any (deckTraffic s) = false → on → resetRuns s .module = false →
        ∃ t, w 0x5EA1 = .next t ∧ t.rst.phase = 3 ∧ said t (causeWord 5 8 0 0 0 false n) ∧ t.rst.legacyStatus = stGood ∧
        ∀ d a, d < 8 → deckByte t d a = if a < 0x10000000 then 0 else deckByte s d a)) ∧
    (∃ t, exec .legacyWindowExpire s = .next t ∧ t = { s with host := t.host } ∧ ∀ k, (ldAt t k).legacyWindow =
      ((ldAt s k).legacyWindow && decide (clockNs s < (ldAt s k).legacyAt + 1000000))) ∧
    (∀ l key, (ldAt s (ldKey l)).legacyWindow = false → legacyOpen s = false → (heldBind (ldAt s (ldKey l))).isSome = true →
      exec (.rstLegacyWarm (.host l) key) s = .next (legacyStatus s stBadParam)) ∧
    (∀ a key, (∀ l, a ≠ .host l) → exec (.rstLegacyWarm a key) s = .next (unsupported s a))

/-- [R12, R34, R335, R420, R517, R518, R534, R535, R542, R557] Completes: rcRegisterRead, registerWrite. RC_REGISTER_READ answers the register's word to an agent
that may read it and clears its read-clear fields, here the error counters of a stack and a deck's gate drops; from
anyone else it ends with Unsupported Request and changes no register. REGISTER_WRITE: the read-only registers of the
timetable and the stacks take no value; RST.CFG is written by firmware and the MGC alone, MAX_AUTO clipped to 1 to
6; the reserved bits of RST.ACTION take no value; BKP2 to 7 by firmware, BKP8 to 15 by the MGC, every other write of a
backup register is ignored, or ends with Unsupported Request for an agent that may not reach it; a reserved register
reads 0 and takes no value; retained memory
by firmware from 0xE100; event bits are cleared by writing 1: MGT.EVENTS by the MGC alone. LNK.CFG clips its two
times from below. -/
def Obligations.RegisterWritesAndReadClears : Prop :=
  ∀ (s : State) (v : BitVec 64),
    let w := fun (a : Agent) (r : Reg) => exec (.registerWrite a r v) s
    (∀ (a : Agent) (n : Fin 32), (mayReadReg s a (.memEcc n) = true → ∃ t, exec (.rcRegisterRead a (.memEcc n)) s = .next t ∧
        t.out = .value a (regWord s a (.memEcc n)) :: s.out ∧ (stkAt t n).ce = 0 ∧ (stkAt t n).ue = 0 ∧ (stkAt t n).temp = (stkAt s n).temp) ∧
      (mayReadReg s a (.memEcc n) = false → exec (.rcRegisterRead a (.memEcc n)) s = .next (unsupported s a))) ∧
    (∀ (a : Agent) (d : Fin 8), mayReadReg s a (.holdDrop d) = true → ∃ t, exec (.rcRegisterRead a (.holdDrop d)) s = .next t ∧
      t.out = .value a (regWord s a (.holdDrop d)) :: s.out ∧ onlyDeck { s with out := t.out } t d ∧ (deckAt t d).gateDrop = 0 ∧
      (deckAt t d).mem = (deckAt s d).mem) ∧
    (∀ a, mayReadReg s a .rstCfg = true → exec (.rcRegisterRead a .rstCfg) s = .next (emit s (.value a (regWord s a .rstCfg)))) ∧
    (∀ r ∈ [Reg.ttStatus, .ttEpoch, .ttPeriod, .ttStep, .ttArmErr], ∀ a, a ≠ .mgc →
      w a r = .next (if mayReadReg s a r then s else unsupported s a)) ∧
    (∀ l, w (.host l) .rstCfg = .next (unsupported s (.host l))) ∧
    (∀ a, (∀ l, a ≠ .host l) → ∃ t, w a .rstCfg = .next t ∧ t = { s with rst := t.rst } ∧
      t.rst.maxAuto.toNat = max 1 (min 6 (v.toNat % 16)) ∧ t.rst.pwrcycEn = v.getLsbD 20 ∧ t.rst.action = s.rst.action) ∧
    (∀ (a : Agent) (n : Fin 16), ((a = .fw ∧ 2 ≤ n.val ∧ n.val ≤ 7) ∨ (a = .mgc ∧ 8 ≤ n.val) → ∃ t, w a (.bkp n) = .next t ∧
        t = { s with rst := t.rst } ∧ mapGet 0 t.rst.bkp n = v ∧ ∀ j, j ≠ n.val → mapGet 0 t.rst.bkp j = mapGet 0 s.rst.bkp j) ∧
      (¬ ((a = .fw ∧ 2 ≤ n.val ∧ n.val ≤ 7) ∨ (a = .mgc ∧ 8 ≤ n.val)) → w a (.bkp n) =
        .next (if mayReadReg s a (.bkp n) then s else unsupported s a))) ∧
    (∀ a x, regWord s a (.reserved x) = 0 ∧ (a ≠ .mgc → mayReadReg s a (.reserved x) = true → w a (.reserved x) = .next s)) ∧
    (∀ a, (∀ l, a ≠ .host l) → w a .rstAction = .next { s with rst := { s.rst with action := v &&& 0x000FFFFFFFFFFFF0 } }) ∧
    (∀ off, (8 * off.toNat < 0xE100 → w .fw (.retained off) = .next s) ∧
      (0xE100 ≤ 8 * off.toNat → ∃ t, w .fw (.retained off) = .next t ∧ t = { s with rst := t.rst } ∧
        readNat t.rst.retained (8 * off.toNat) 8 = v.toNat)) ∧
    (∃ t, w .mgc .mgtEvents = .next t ∧ t = { s with mgmt := t.mgmt } ∧ ∀ i, i < 8 →
      t.mgmt.events.getLsbD i = (s.mgmt.events.getLsbD i && !v.getLsbD i)) ∧
    (∀ a, a ≠ .mgc → w a .mgtEvents = .next (unsupported s a)) ∧
    (w .mgc .rstEvents = .next (unsupported s .mgc)) ∧
    (∀ l, w (.host l) .pwrCfg = .next (unsupported s (.host l))) ∧
    (∃ t, w .mgc .pwrCfg = .next t ∧ t = { s with power := t.power } ∧ t.power.parkUs.toNat = max 50 (min 10000 (v.toNat % 2 ^ 16))) ∧
    (lnkWriter s .fw = true → ∃ t, w .fw .lnkCfg = .next t ∧ t = { s with net := t.net } ∧
      t.net.fenceWaitUs.toNat = max 1200 (v.toNat % 2 ^ 16) ∧ t.net.reqTimeoutUs.toNat = max 2500 (v.toNat / 2 ^ 16 % 2 ^ 16)) ∧
    (∀ (a : Agent) (d : Fin 8) (c : BitVec 4), deckWriter s a d = true → ∃ t, w a (.holdFault d c) = .next t ∧ onlyDeck s t d ∧
      (ctxAt (deckAt t d) c.toNat).hold.faultValid = ((ctxAt (deckAt s d) c.toNat).hold.faultValid && !v.getLsbD 63) ∧
      (ctxAt (deckAt t d) c.toNat).hold.status = (ctxAt (deckAt s d) c.toNat).hold.status)

/-- [R116, R278, R327, R429, R507, R531, R535, R536, 02: HT register summary, 09: LNK register summary, 14: RST register
summary] In the state after reset the registers read as the summaries' Reset columns say: HT.CFG, LNK.CFG, CHN.CFG,
MEM.CFG, PWR.LIMIT, RST.CFG, RST.ACTION, RST.LIMITS, RST.SAMPLE, THM.CFG, the low half of HT.STATUS,
HOLD.STEP_STATUS and TLY.CTL of every context; the s, v, k and accumulator registers and the PC of every core are 0,
no kernel runs; every port is DOWN; no LD is bound, nothing is armed; the safety latch is clear; the queue is empty;
memory is in its canonical form and, by the model's own choice, holds zeros. -/
def Obligations.ResetLeavesTheSpecsValues : Prop :=
  let r := regWord State.reset .fw
  r .htCfg = 0x1FF0E ∧ (r .htStatus).setWidth 32 = (0x0EFFFFF0 : BitVec 32) ∧
  r .lnkCfg = BitVec.ofNat 64 (1500 + 2 ^ 16 * 3000 + 2 ^ 32 * 1024) ∧ r .chnCfg = 0x801 ∧
  r .memCfg = State.reset.mem.cfg ∧ (r .memCfg).setWidth 8 = (85 : BitVec 8) ∧
  r .pwrLimit = BitVec.ofNat 64 (15000 + 2 ^ 16 * 15000 + 2 ^ 32 * 15000) ∧ r .pwrGov = 16 ∧
  r .rstCfg = BitVec.ofNat 64 (4 + 2 ^ 4 * 1000 + 2 ^ 32 * 5000) ∧ r .rstAction = 0x0000470400000010 ∧
  r .rstLimits = BitVec.ofNat 64 (24 + 2 ^ 16 * 20) ∧ r .rstSample = 0x18 ∧ r .thmCfg = 105 ∧ r .ttStatus = 0 ∧ r .rstLast = 0 ∧
  (∀ (d : Fin 8) (c : BitVec 4), r (.holdStepStatus d c) = 0x0307 ∧ r (.tlyCtl d c) = 0x1400) ∧
  (∀ n : Fin 16, r (.bkp n) = 0) ∧
  (∀ (c : CoreRef) (n : BitVec 5), sreg State.reset c n = 0 ∧ (coreOf State.reset c).pc = 0 ∧ (coreOf State.reset c).run = .idle ∧
    (coreOf State.reset c).v = [] ∧ (coreOf State.reset c).k = [] ∧ (coreOf State.reset c).acc = []) ∧
  (∀ p, (portAt State.reset p).state = 0) ∧ (∀ k, heldBind (ldAt State.reset k) = none) ∧ State.reset.tt.armed = false ∧
  State.reset.net.armed = false ∧ State.reset.safety.latched = false ∧ State.reset.pending = [] ∧
  latchedOff State.reset = true ∧ memoryWf State.reset = true ∧ ∀ d a, deckByte State.reset d a = 0

/-- [04_instruction_encoding: formats, R161, R162, R163, R165, R173, R176, R180] One word or more of each format, its
fields written out from the format tables of chapter 04 and its worked examples, decodes to the instruction and the
operands it stands for: END, CSRW LC0, s2, LOOP lc0, 6, FENCE of the vector engine, ADD, ADDI s1, s1, 4, LDW s4,
0(s1), VADD of one FP32 row, MMUL, MOV. -/
def Obligations.WordsOfTheWorkedExamples : Prop :=
  ∀ c : CoreRef,
    decodeCore c 0x1 = some (.endKernel c { body := 0 }) ∧
    decodeCore c 0x0000002000004003 = some (.csrw c { body := 0x00000020000040 }) ∧
    decodeCore c 0x0000000500000004 = some (.loop c { body := 0x00000005000000 }) ∧
    decodeCore c 0x805 = some (.fence c { body := 0x8 }) ∧
    decodeCore c 0x0000000000084310 = some (.add c { rd := 3, rs1 := 2, rs2 := 2, rs3 := 0, res := 0 }) ∧
    decodeCore c 0x0000000400002120 = some (.addi c { rd := 1, rs1 := 1, rs2 := 0, res := 0, imm := 4 }) ∧
    decodeCore c 0x2432 = some (.ldw c { rd := 4, rs1 := 1, rs2 := 0, res := 0, imm := 0 }) ∧
    decodeCore c 0x00000000000400084400280000440080 =
      some (.vadd c { nm1 := 0, dfmt := 4, sfmt := 4, km := 0, men := 0, res := 0, d := 0x2800, a := 0x2200, b := 0x10002, c := 0, ext := 0 }) ∧
    decodeCore c 0x30002000100000007FA1 =
      some (.mmul c { nm1 := 63, acc := 1, arow := 0, fmt := 0, accum := 0, pair := 0, frozen := 0, gang := 0, res := 0, x := 0x1000,
                      s := 0x2000, tb := 0x3000, dfmt := 0, sen := 0, clr := 0, res2 := 0 }) ∧
    decodeCore c 0xC41B0 =
      some (.mov c { rd := 1, rs := 2, rl := 3, f := 0, cen := 0, cobj := 0, amt := 0, prio := 0, atype := 0, efmt := 0, hall := 0,
                     res := 0, htag := 0, res2 := 0 })

/-- [R160, R161, R162, R163, R165, R173, R176, R180, R190] For each of the 94 core instructions, with every operand at
every value its fields admit: the words that the encoder gives decode to the instruction again, and a 64-bit
instruction leaves the upper half 0. Whatever words decode to an instruction, the encoder gives those words back,
their upper half cleared where the opcode is below 0x80. So no bit of an encoding is dropped and no two instructions
share words. -/
def Obligations.DecodeAndEncodeAgree : Prop :=
  (∀ (c : CoreRef) (i : Instr), instrCore i = some c → ∃ w, encodeCore i = some w ∧ decodeCore c w = some i ∧
    ((w.extractLsb' 0 8).toNat < 0x80 → w.extractLsb' 64 64 = 0)) ∧
  (∀ (c : CoreRef) (w : BitVec 128) (i : Instr), decodeCore c w = some i → instrCore i = some c ∧
    encodeCore i = some (if (w.extractLsb' 0 8).toNat < 0x80 then (w.extractLsb' 0 64).setWidth 128 else w))

/-- [R490, R508, R509, R511, R512, R524] From every state: a step whose next command, if any, is not STANDBY_POWER_LOSS
leaves a set latch set; and if main conversion is off whenever the latch is set, it is so after the step, whatever
the command: no feed, eFuse, MRST_n, request, reset or idle tick powers the module on. -/
def Obligations.TheSafetyLatchHolds : Prop :=
  ∀ s t : State, step s = .next t →
    (s.safety.latched = true → s.pending.head? ≠ some .standbyPowerLoss → t.safety.latched = true) ∧
    (latchedOff s = true → latchedOff t = true)

/-- [00_overview: how the block is driven] Whatever command runs in whatever state: the queue of waiting commands is the
same afterwards, resets and power losses included, and so is the model's clock. The queue and the clock are the
model's own parts (log entry 4): that commands wait first in, first out, and that a tick passes only while none
waits, is its design. -/
def Obligations.NoCommandTouchesTheQueue : Prop :=
  ∀ (c : Instr) (s t : State), exec c s = .next t → t.pending = s.pending ∧ t.clock = s.clock
end

