-- ==== Sys2Proof/Laws/Maps.lean ====
section
/-! SUPPORT. Sparse maps and byte stores: reading after writing, and every operation keeps the canonical form. -/
namespace Sys2Proof.Machine
open Sys2Proof

variable {α : Type}

/-- Every listed key is at least `n`. -/
def mapFrom (n : Nat) (m : SMap α) : Prop := ∀ e ∈ m, n ≤ e.1

/-! ### Reading -/

theorem mapGet_absent (d : α) (m : SMap α) (i : Nat) (h : ∀ e ∈ m, e.1 ≠ i) : mapGet d m i = d := by
  induction m with
  | nil => rfl
  | cons e rest ih =>
    have h0 := h e (by simp)
    simp only [mapGet, if_neg h0]
    exact ih (fun x hx => h x (by simp [hx]))

theorem mapGet_erase_same (d : α) (m : SMap α) (i : Nat) : mapGet d (mapErase m i) i = d := by
  apply mapGet_absent
  intro e he
  simp only [mapErase, List.mem_filter, bne_iff_ne, ne_eq] at he
  exact he.2

theorem mapGet_erase_other (d : α) (m : SMap α) (i j : Nat) (h : j ≠ i) : mapGet d (mapErase m i) j = mapGet d m j := by
  induction m with
  | nil => rfl
  | cons e rest ih =>
    simp only [mapErase] at ih ⊢
    rw [List.filter_cons]
    by_cases he : e.1 = i
    · have hj : ¬ e.1 = j := fun x => h (x.symm.trans he)
      simp [he, mapGet, ih, h.symm]
    · have hb : (e.1 != i) = true := by simpa using he
      simp [hb, mapGet, ih]

theorem mapGet_insert_same (d : α) (m : SMap α) (i : Nat) (v : α) : mapGet d (mapInsert m i v) i = v := by
  induction m with
  | nil => simp [mapInsert, mapGet]
  | cons e rest ih =>
    obtain ⟨k, w⟩ := e
    simp only [mapInsert]
    split
    · simp [mapGet]
    · split
      · simp [mapGet]
      · rename_i h; simp [mapGet, h, ih]

theorem mapGet_insert_other (d : α) (m : SMap α) (i j : Nat) (v : α) (h : j ≠ i) :
    mapGet d (mapInsert m i v) j = mapGet d m j := by
  induction m with
  | nil => simp [mapInsert, mapGet, h.symm]
  | cons e rest ih =>
    obtain ⟨k, w⟩ := e
    simp only [mapInsert]
    split
    · simp [mapGet, h.symm]
    · split
      · rename_i h1; simp [mapGet, h1, h.symm]
      · by_cases hk : k = j <;> simp [mapGet, hk, ih]

variable [DecidableEq α]

/-- A read after a write to the same key gives the value written. -/
@[simp] theorem mapGet_set_same (d : α) (m : SMap α) (i : Nat) (v : α) : mapGet d (mapSet d m i v) i = v := by
  unfold mapSet
  split
  · rename_i h; rw [mapGet_erase_same, h]
  · exact mapGet_insert_same d m i v

/-- A write leaves every other key alone. -/
theorem mapGet_set_other (d : α) (m : SMap α) (i j : Nat) (v : α) (h : j ≠ i) :
    mapGet d (mapSet d m i v) j = mapGet d m j := by
  unfold mapSet
  split
  · exact mapGet_erase_other d m i j h
  · exact mapGet_insert_other d m i j v h

/-- A read after a write, in one equation. -/
theorem mapGet_set (d : α) (m : SMap α) (i j : Nat) (v : α) :
    mapGet d (mapSet d m i v) j = if j = i then v else mapGet d m j := by
  split
  · rename_i h; rw [h, mapGet_set_same]
  · rename_i h; exact mapGet_set_other d m i j v h

/-! ### The canonical form -/

theorem mapWf_cons (d : α) (k : Nat) (v : α) (m : SMap α) :
    mapWf d ((k, v) :: m) = true ↔ v ≠ d ∧ (∀ e ∈ m, k < e.1) ∧ mapWf d m = true := by
  simp [mapWf, and_assoc]

theorem mapWf_filter (d : α) (m : SMap α) (p : Nat × α → Bool) (h : mapWf d m = true) : mapWf d (m.filter p) = true := by
  induction m with
  | nil => rfl
  | cons e rest ih =>
    obtain ⟨k, v⟩ := e
    rw [mapWf_cons] at h
    simp only [List.filter_cons]
    split
    · rw [mapWf_cons]
      exact ⟨h.1, fun x hx => h.2.1 x (List.mem_of_mem_filter hx), ih h.2.2⟩
    · exact ih h.2.2

theorem mapWf_erase (d : α) (m : SMap α) (i : Nat) (h : mapWf d m = true) : mapWf d (mapErase m i) = true :=
  mapWf_filter d m _ h

theorem mem_mapInsert (m : SMap α) (i : Nat) (v : α) (e : Nat × α) (h : e ∈ mapInsert m i v) : e = (i, v) ∨ e ∈ m := by
  induction m with
  | nil => simp [mapInsert] at h; exact .inl h
  | cons x rest ih =>
    obtain ⟨k, w⟩ := x
    simp only [mapInsert] at h
    split at h
    · simp at h; simp; tauto
    · split at h
      · simp at h; simp; tauto
      · simp at h
        rcases h with h | h
        · simp [h]
        · rcases ih h with h | h
          · exact .inl h
          · simp [h]

theorem mapWf_insert (d : α) (m : SMap α) (i : Nat) (v : α) (hv : v ≠ d) (h : mapWf d m = true) :
    mapWf d (mapInsert m i v) = true := by
  induction m with
  | nil => simp [mapInsert, mapWf, hv]
  | cons x rest ih =>
    obtain ⟨k, w⟩ := x
    have hc := h
    rw [mapWf_cons] at hc
    simp only [mapInsert]
    split
    · rename_i hik
      rw [mapWf_cons]
      refine ⟨hv, ?_, h⟩
      intro e he
      rcases List.mem_cons.1 he with rfl | he
      · exact hik
      · exact Nat.lt_trans hik (hc.2.1 e he)
    · split
      · rename_i hki
        rw [mapWf_cons]
        exact ⟨hv, fun e he => hki ▸ hc.2.1 e he, hc.2.2⟩
      · rename_i h1 h2
        rw [mapWf_cons]
        refine ⟨hc.1, ?_, ih hc.2.2⟩
        intro e he
        rcases mem_mapInsert rest i v e he with rfl | he
        · simp; omega
        · exact hc.2.1 e he

/-- A write keeps the canonical form. -/
theorem mapWf_set (d : α) (m : SMap α) (i : Nat) (v : α) (h : mapWf d m = true) : mapWf d (mapSet d m i v) = true := by
  unfold mapSet
  split
  · exact mapWf_erase d m i h
  · rename_i hv; exact mapWf_insert d m i v hv h

theorem mapWf_append (d : α) (m n : SMap α) (b : Nat) (hm : mapWf d m = true) (hn : mapWf d n = true)
    (h1 : ∀ e ∈ m, e.1 < b) (h2 : ∀ e ∈ n, b ≤ e.1) : mapWf d (m ++ n) = true := by
  induction m with
  | nil => exact hn
  | cons x rest ih =>
    obtain ⟨k, w⟩ := x
    rw [mapWf_cons] at hm
    rw [List.cons_append, mapWf_cons]
    refine ⟨hm.1, ?_, ih hm.2.2 (fun e he => h1 e (by simp [he]))⟩
    intro e he
    rcases List.mem_append.1 he with he | he
    · exact hm.2.1 e he
    · exact Nat.lt_of_lt_of_le (h1 (k, w) (by simp)) (h2 e he)

theorem mapWf_shift (d : α) (m : SMap α) (g : Nat → Nat) (hg : ∀ x ∈ m, ∀ y ∈ m, x.1 < y.1 → g x.1 < g y.1)
    (h : mapWf d m = true) : mapWf d (m.map (fun e => (g e.1, e.2))) = true := by
  induction m with
  | nil => rfl
  | cons x rest ih =>
    obtain ⟨k, w⟩ := x
    rw [mapWf_cons] at h
    rw [List.map_cons, mapWf_cons]
    refine ⟨h.1, ?_, ih (fun x hx y hy => hg x (by simp [hx]) y (by simp [hy])) h.2.2⟩
    intro e he
    obtain ⟨y, hy, rfl⟩ := List.mem_map.1 he
    exact hg (k, w) (by simp) y (by simp [hy]) (h.2.1 y hy)

theorem mapWf_slice (d : α) (m : SMap α) (a n : Nat) (h : mapWf d m = true) : mapWf d (mapSlice m a n) = true := by
  apply mapWf_shift d _ (fun k => k - a)
  · intro x hx y hy hlt
    simp at hx hy ⊢
    omega
  · exact mapWf_filter d m _ h

/-- A block copy keeps the canonical form. -/
theorem mapWf_splice (d : α) (m src : SMap α) (a n : Nat) (h : mapWf d m = true) (hs : mapWf d src = true) :
    mapWf d (mapSplice m a n src) = true := by
  unfold mapSplice
  have hsrc : mapWf d ((src.filter (fun e => decide (e.1 < n))).map (fun e => (e.1 + a, e.2))) = true := by
    apply mapWf_shift d _ (fun k => k + a)
    · intro x _ y _ hlt; exact Nat.add_lt_add_right hlt a
    · exact mapWf_filter d src _ hs
  apply mapWf_append d _ _ a (mapWf_filter d m _ h)
  · apply mapWf_append d _ _ (a + n) hsrc (mapWf_filter d m _ h)
    · intro e he
      simp at he
      obtain ⟨x, y, hx, rfl⟩ := he
      simp; omega
    · intro e he; simp at he; exact he.2
  · intro e he; simp at he; exact he.2
  · intro e he
    rcases List.mem_append.1 he with he | he
    · simp at he; obtain ⟨x, y, hx, rfl⟩ := he; simp
    · simp at he; omega

/-! ### Filters, slices, splices -/

/-- A filter by key keeps what it names. -/
theorem mapGet_filter (d : α) (m : SMap α) (p : Nat → Bool) (j : Nat) :
    mapGet d (m.filter (fun e => p e.1)) j = if p j then mapGet d m j else d := by
  induction m with
  | nil => simp [mapGet]
  | cons e rest ih =>
    obtain ⟨k, v⟩ := e
    by_cases hp : p k = true
    · simp only [List.filter_cons_of_pos (p := fun e : Nat × α => p e.1) (a := (k, v)) (l := rest) hp, mapGet]
      by_cases hk : k = j
      · subst hk; simp [hp]
      · simp [hk, ih]
    · simp only [List.filter_cons_of_neg (p := fun e : Nat × α => p e.1) (a := (k, v)) (l := rest) hp, mapGet]
      by_cases hk : k = j
      · subst hk; simp [ih, hp]
      · simp [hk, ih]

/-- Reading two maps one after the other. -/
theorem mapGet_append (d : α) (m n : SMap α) (j : Nat) : mapGet d (m ++ n) j = mapGet (mapGet d n j) m j := by
  induction m with
  | nil => rfl
  | cons e rest ih => simp only [List.cons_append, mapGet, ih]

/-- Keys moved up by `a`. -/
theorem mapGet_shiftUp (d : α) (m : SMap α) (a j : Nat) :
    mapGet d (m.map (fun e => (e.1 + a, e.2))) j = if a ≤ j then mapGet d m (j - a) else d := by
  induction m with
  | nil => simp [mapGet]
  | cons e rest ih =>
    simp only [List.map_cons, mapGet, ih]
    by_cases h : a ≤ j
    · by_cases hk : e.1 + a = j
      · simp [h, show e.1 = j - a by omega]
      · simp [hk, h, show e.1 ≠ j - a by omega]
    · simp [h, show e.1 + a ≠ j by omega]

/-- Keys moved down by `a`, none of which lies below it. -/
theorem mapGet_shiftDown (d : α) (m : SMap α) (a j : Nat) (h : ∀ e ∈ m, a ≤ e.1) :
    mapGet d (m.map (fun e => (e.1 - a, e.2))) j = mapGet d m (a + j) := by
  induction m with
  | nil => simp [mapGet]
  | cons e rest ih =>
    have he := h e (by simp)
    have ih' := ih (fun x hx => h x (by simp [hx]))
    simp only [List.map_cons, mapGet, ih']
    by_cases hk : e.1 - a = j
    · simp [show e.1 = a + j by omega]
    · simp [hk, show e.1 ≠ a + j by omega]

/-- What a slice lists. -/
theorem mapGet_slice (d : α) (m : SMap α) (a n j : Nat) :
    mapGet d (mapSlice m a n) j = if j < n then mapGet d m (a + j) else d := by
  unfold mapSlice
  rw [mapGet_shiftDown d _ a j (by intro e he; simp at he; omega)]
  rw [mapGet_filter d m (fun k => decide (a ≤ k) && decide (k < a + n))]
  by_cases h : j < n <;> simp [h]

/-- What a splice lists: `src` inside the range, `m` outside it. -/
theorem mapGet_splice (d : α) (m src : SMap α) (a n j : Nat) :
    mapGet d (mapSplice m a n src) j = if j < a ∨ a + n ≤ j then mapGet d m j else mapGet d src (j - a) := by
  unfold mapSplice
  rw [mapGet_append, mapGet_append, mapGet_shiftUp,
    mapGet_filter _ m (fun k => decide (k < a)), mapGet_filter _ src (fun k => decide (k < n)),
    mapGet_filter d m (fun k => decide (a + n ≤ k))]
  by_cases h1 : j < a
  · simp [h1, show ¬ a + n ≤ j by omega, show ¬ a ≤ j by omega]
  · by_cases h2 : a + n ≤ j
    · simp [h1, h2, show a ≤ j by omega, show ¬ j - a < n by omega]
    · simp [h1, h2, show a ≤ j by omega, show j - a < n by omega]

/-! ### Byte stores -/

theorem cellSet_wf (m : Cells) (a : Nat) (b : Byte) (h : mapWf 0 m = true) : mapWf 0 (cellSet m a b) = true :=
  mapWf_set 0 m a b h

theorem writeBytes_wf (bs : List Byte) (m : Cells) (a : Nat) (h : mapWf 0 m = true) : mapWf 0 (writeBytes m a bs) = true := by
  induction bs generalizing m a with
  | nil => exact h
  | cons b rest ih => exact ih _ _ (cellSet_wf m a b h)

theorem writeNat_wf (m : Cells) (a n v : Nat) (h : mapWf 0 m = true) : mapWf 0 (writeNat m a n v) = true :=
  writeBytes_wf _ m a h

theorem bytesCells_wf (bs : List Byte) : mapWf 0 (bytesCells bs) = true := writeBytes_wf bs [] 0 rfl

@[simp] theorem cellGet_set_same (m : Cells) (a : Nat) (b : Byte) : cellGet (cellSet m a b) a = b := mapGet_set_same 0 m a b

theorem cellGet_set_other (m : Cells) (a x : Nat) (b : Byte) (h : x ≠ a) : cellGet (cellSet m a b) x = cellGet m x :=
  mapGet_set_other 0 m a x b h

/-- Bytes outside a write are unchanged. -/
theorem cellGet_writeBytes_other (bs : List Byte) (m : Cells) (a x : Nat) (h : x < a ∨ a + bs.length ≤ x) :
    cellGet (writeBytes m a bs) x = cellGet m x := by
  induction bs generalizing m a with
  | nil => rfl
  | cons b rest ih =>
    simp only [List.length_cons] at h
    rw [writeBytes, ih _ _ (by omega), cellGet_set_other _ _ _ _ (by omega)]

/-- A byte inside a write reads as written. -/
theorem cellGet_writeBytes_in (bs : List Byte) (m : Cells) (a i : Nat) (h : i < bs.length) :
    cellGet (writeBytes m a bs) (a + i) = bs[i] := by
  induction bs generalizing m a i with
  | nil => simp at h
  | cons b rest ih =>
    cases i with
    | zero => rw [writeBytes, Nat.add_zero, cellGet_writeBytes_other _ _ _ _ (by omega)]; simp
    | succ j =>
      have e : a + (j + 1) = (a + 1) + j := by omega
      rw [writeBytes, e, ih _ _ _ (by simpa using h)]
      simp

@[simp] theorem natBytes_length (n v : Nat) : (natBytes n v).length = n := by
  induction n generalizing v with
  | zero => rfl
  | succ k ih => simp [natBytes, ih]

/-- Bytes outside the `n` written are unchanged. -/
theorem cellGet_writeNat_other (m : Cells) (a n v x : Nat) (h : x < a ∨ a + n ≤ x) :
    cellGet (writeNat m a n v) x = cellGet m x := by
  apply cellGet_writeBytes_other
  simpa using h

theorem readNat_congr (m m' : Cells) (n a : Nat) (h : ∀ i, i < n → cellGet m (a + i) = cellGet m' (a + i)) :
    readNat m a n = readNat m' a n := by
  induction n generalizing a with
  | zero => rfl
  | succ k ih =>
    have h0 := h 0 (by omega)
    simp only [Nat.add_zero] at h0
    rw [readNat, readNat, h0, ih (a + 1) (fun i hi => by
      have := h (i + 1) (by omega)
      simpa [Nat.add_assoc, Nat.add_comm 1 i] using this)]

/-- A number written is read back. -/
theorem readNat_writeNat (m : Cells) (a n v : Nat) : readNat (writeNat m a n v) a n = v % 256 ^ n := by
  induction n generalizing m a v with
  | zero => simp [readNat, Nat.mod_one]
  | succ k ih =>
    have h1 : cellGet (writeNat m a (k + 1) v) a = BitVec.ofNat 8 v := by
      simpa [writeNat, natBytes] using cellGet_writeBytes_in (natBytes (k + 1) v) m a 0 (by simp)
    have h2 := ih (cellSet m a (BitVec.ofNat 8 v)) (a + 1) (v / 256)
    simp only [readNat, h1]
    have h3 : readNat (writeNat m a (k + 1) v) (a + 1) k = v / 256 % 256 ^ k := by
      rw [← h2]; rfl
    have h4 : 256 ^ (k + 1) = 256 * 256 ^ k := by rw [Nat.pow_succ, Nat.mul_comm]
    rw [h3, BitVec.toNat_ofNat, h4]
    exact (Nat.mod_mul (x := v) (a := 256) (b := 256 ^ k)).symm

end Sys2Proof.Machine
end

