-- ==== Sys2Proof/Laws/State.lean ====
section
/-! SUPPORT. What each setter of the state and of a deck leaves: one equation for each field, and reading back what was
written. -/
namespace Sys2Proof.Machine
open Sys2Proof

/-! ### setDeck -/

@[simp] theorem setDeck_decks (s : State) (d : Nat) (k : Deck) : (setDeck s d k).decks = mapSet {} s.decks d k := rfl
@[simp] theorem setDeck_htu (s : State) (d : Nat) (k : Deck) : (setDeck s d k).htu = s.htu := rfl
@[simp] theorem setDeck_tt (s : State) (d : Nat) (k : Deck) : (setDeck s d k).tt = s.tt := rfl
@[simp] theorem setDeck_ports (s : State) (d : Nat) (k : Deck) : (setDeck s d k).ports = s.ports := rfl
@[simp] theorem setDeck_net (s : State) (d : Nat) (k : Deck) : (setDeck s d k).net = s.net := rfl
@[simp] theorem setDeck_churn (s : State) (d : Nat) (k : Deck) : (setDeck s d k).churn = s.churn := rfl
@[simp] theorem setDeck_host (s : State) (d : Nat) (k : Deck) : (setDeck s d k).host = s.host := rfl
@[simp] theorem setDeck_mem (s : State) (d : Nat) (k : Deck) : (setDeck s d k).mem = s.mem := rfl
@[simp] theorem setDeck_mgmt (s : State) (d : Nat) (k : Deck) : (setDeck s d k).mgmt = s.mgmt := rfl
@[simp] theorem setDeck_power (s : State) (d : Nat) (k : Deck) : (setDeck s d k).power = s.power := rfl
@[simp] theorem setDeck_thermal (s : State) (d : Nat) (k : Deck) : (setDeck s d k).thermal = s.thermal := rfl
@[simp] theorem setDeck_safety (s : State) (d : Nat) (k : Deck) : (setDeck s d k).safety = s.safety := rfl
@[simp] theorem setDeck_rst (s : State) (d : Nat) (k : Deck) : (setDeck s d k).rst = s.rst := rfl
@[simp] theorem setDeck_pending (s : State) (d : Nat) (k : Deck) : (setDeck s d k).pending = s.pending := rfl
@[simp] theorem setDeck_clock (s : State) (d : Nat) (k : Deck) : (setDeck s d k).clock = s.clock := rfl
@[simp] theorem setDeck_free (s : State) (d : Nat) (k : Deck) : (setDeck s d k).free = s.free := rfl
@[simp] theorem setDeck_out (s : State) (d : Nat) (k : Deck) : (setDeck s d k).out = s.out := rfl

/-! ### modDeck -/

@[simp] theorem modDeck_decks (s : State) (d : Nat) (f : Deck → Deck) : (modDeck s d f).decks = mapSet {} s.decks d (f (deckAt s d)) := rfl
@[simp] theorem modDeck_htu (s : State) (d : Nat) (f : Deck → Deck) : (modDeck s d f).htu = s.htu := rfl
@[simp] theorem modDeck_tt (s : State) (d : Nat) (f : Deck → Deck) : (modDeck s d f).tt = s.tt := rfl
@[simp] theorem modDeck_ports (s : State) (d : Nat) (f : Deck → Deck) : (modDeck s d f).ports = s.ports := rfl
@[simp] theorem modDeck_net (s : State) (d : Nat) (f : Deck → Deck) : (modDeck s d f).net = s.net := rfl
@[simp] theorem modDeck_churn (s : State) (d : Nat) (f : Deck → Deck) : (modDeck s d f).churn = s.churn := rfl
@[simp] theorem modDeck_host (s : State) (d : Nat) (f : Deck → Deck) : (modDeck s d f).host = s.host := rfl
@[simp] theorem modDeck_mem (s : State) (d : Nat) (f : Deck → Deck) : (modDeck s d f).mem = s.mem := rfl
@[simp] theorem modDeck_mgmt (s : State) (d : Nat) (f : Deck → Deck) : (modDeck s d f).mgmt = s.mgmt := rfl
@[simp] theorem modDeck_power (s : State) (d : Nat) (f : Deck → Deck) : (modDeck s d f).power = s.power := rfl
@[simp] theorem modDeck_thermal (s : State) (d : Nat) (f : Deck → Deck) : (modDeck s d f).thermal = s.thermal := rfl
@[simp] theorem modDeck_safety (s : State) (d : Nat) (f : Deck → Deck) : (modDeck s d f).safety = s.safety := rfl
@[simp] theorem modDeck_rst (s : State) (d : Nat) (f : Deck → Deck) : (modDeck s d f).rst = s.rst := rfl
@[simp] theorem modDeck_pending (s : State) (d : Nat) (f : Deck → Deck) : (modDeck s d f).pending = s.pending := rfl
@[simp] theorem modDeck_clock (s : State) (d : Nat) (f : Deck → Deck) : (modDeck s d f).clock = s.clock := rfl
@[simp] theorem modDeck_free (s : State) (d : Nat) (f : Deck → Deck) : (modDeck s d f).free = s.free := rfl
@[simp] theorem modDeck_out (s : State) (d : Nat) (f : Deck → Deck) : (modDeck s d f).out = s.out := rfl

/-! ### setPort -/

@[simp] theorem setPort_decks (s : State) (p : Nat) (k : Port) : (setPort s p k).decks = s.decks := rfl
@[simp] theorem setPort_htu (s : State) (p : Nat) (k : Port) : (setPort s p k).htu = s.htu := rfl
@[simp] theorem setPort_tt (s : State) (p : Nat) (k : Port) : (setPort s p k).tt = s.tt := rfl
@[simp] theorem setPort_ports (s : State) (p : Nat) (k : Port) : (setPort s p k).ports = mapSet {} s.ports p k := rfl
@[simp] theorem setPort_net (s : State) (p : Nat) (k : Port) : (setPort s p k).net = s.net := rfl
@[simp] theorem setPort_churn (s : State) (p : Nat) (k : Port) : (setPort s p k).churn = s.churn := rfl
@[simp] theorem setPort_host (s : State) (p : Nat) (k : Port) : (setPort s p k).host = s.host := rfl
@[simp] theorem setPort_mem (s : State) (p : Nat) (k : Port) : (setPort s p k).mem = s.mem := rfl
@[simp] theorem setPort_mgmt (s : State) (p : Nat) (k : Port) : (setPort s p k).mgmt = s.mgmt := rfl
@[simp] theorem setPort_power (s : State) (p : Nat) (k : Port) : (setPort s p k).power = s.power := rfl
@[simp] theorem setPort_thermal (s : State) (p : Nat) (k : Port) : (setPort s p k).thermal = s.thermal := rfl
@[simp] theorem setPort_safety (s : State) (p : Nat) (k : Port) : (setPort s p k).safety = s.safety := rfl
@[simp] theorem setPort_rst (s : State) (p : Nat) (k : Port) : (setPort s p k).rst = s.rst := rfl
@[simp] theorem setPort_pending (s : State) (p : Nat) (k : Port) : (setPort s p k).pending = s.pending := rfl
@[simp] theorem setPort_clock (s : State) (p : Nat) (k : Port) : (setPort s p k).clock = s.clock := rfl
@[simp] theorem setPort_free (s : State) (p : Nat) (k : Port) : (setPort s p k).free = s.free := rfl
@[simp] theorem setPort_out (s : State) (p : Nat) (k : Port) : (setPort s p k).out = s.out := rfl

/-! ### modPort -/

@[simp] theorem modPort_decks (s : State) (p : Nat) (f : Port → Port) : (modPort s p f).decks = s.decks := rfl
@[simp] theorem modPort_htu (s : State) (p : Nat) (f : Port → Port) : (modPort s p f).htu = s.htu := rfl
@[simp] theorem modPort_tt (s : State) (p : Nat) (f : Port → Port) : (modPort s p f).tt = s.tt := rfl
@[simp] theorem modPort_ports (s : State) (p : Nat) (f : Port → Port) : (modPort s p f).ports = mapSet {} s.ports p (f (portAt s p)) := rfl
@[simp] theorem modPort_net (s : State) (p : Nat) (f : Port → Port) : (modPort s p f).net = s.net := rfl
@[simp] theorem modPort_churn (s : State) (p : Nat) (f : Port → Port) : (modPort s p f).churn = s.churn := rfl
@[simp] theorem modPort_host (s : State) (p : Nat) (f : Port → Port) : (modPort s p f).host = s.host := rfl
@[simp] theorem modPort_mem (s : State) (p : Nat) (f : Port → Port) : (modPort s p f).mem = s.mem := rfl
@[simp] theorem modPort_mgmt (s : State) (p : Nat) (f : Port → Port) : (modPort s p f).mgmt = s.mgmt := rfl
@[simp] theorem modPort_power (s : State) (p : Nat) (f : Port → Port) : (modPort s p f).power = s.power := rfl
@[simp] theorem modPort_thermal (s : State) (p : Nat) (f : Port → Port) : (modPort s p f).thermal = s.thermal := rfl
@[simp] theorem modPort_safety (s : State) (p : Nat) (f : Port → Port) : (modPort s p f).safety = s.safety := rfl
@[simp] theorem modPort_rst (s : State) (p : Nat) (f : Port → Port) : (modPort s p f).rst = s.rst := rfl
@[simp] theorem modPort_pending (s : State) (p : Nat) (f : Port → Port) : (modPort s p f).pending = s.pending := rfl
@[simp] theorem modPort_clock (s : State) (p : Nat) (f : Port → Port) : (modPort s p f).clock = s.clock := rfl
@[simp] theorem modPort_free (s : State) (p : Nat) (f : Port → Port) : (modPort s p f).free = s.free := rfl
@[simp] theorem modPort_out (s : State) (p : Nat) (f : Port → Port) : (modPort s p f).out = s.out := rfl

/-! ### setLd -/

@[simp] theorem setLd_decks (s : State) (k : Nat) (x : Ld) : (setLd s k x).decks = s.decks := rfl
@[simp] theorem setLd_htu (s : State) (k : Nat) (x : Ld) : (setLd s k x).htu = s.htu := rfl
@[simp] theorem setLd_tt (s : State) (k : Nat) (x : Ld) : (setLd s k x).tt = s.tt := rfl
@[simp] theorem setLd_ports (s : State) (k : Nat) (x : Ld) : (setLd s k x).ports = s.ports := rfl
@[simp] theorem setLd_net (s : State) (k : Nat) (x : Ld) : (setLd s k x).net = s.net := rfl
@[simp] theorem setLd_churn (s : State) (k : Nat) (x : Ld) : (setLd s k x).churn = s.churn := rfl
@[simp] theorem setLd_host (s : State) (k : Nat) (x : Ld) : (setLd s k x).host = { s.host with lds := mapSet {} s.host.lds k x } := rfl
@[simp] theorem setLd_mem (s : State) (k : Nat) (x : Ld) : (setLd s k x).mem = s.mem := rfl
@[simp] theorem setLd_mgmt (s : State) (k : Nat) (x : Ld) : (setLd s k x).mgmt = s.mgmt := rfl
@[simp] theorem setLd_power (s : State) (k : Nat) (x : Ld) : (setLd s k x).power = s.power := rfl
@[simp] theorem setLd_thermal (s : State) (k : Nat) (x : Ld) : (setLd s k x).thermal = s.thermal := rfl
@[simp] theorem setLd_safety (s : State) (k : Nat) (x : Ld) : (setLd s k x).safety = s.safety := rfl
@[simp] theorem setLd_rst (s : State) (k : Nat) (x : Ld) : (setLd s k x).rst = s.rst := rfl
@[simp] theorem setLd_pending (s : State) (k : Nat) (x : Ld) : (setLd s k x).pending = s.pending := rfl
@[simp] theorem setLd_clock (s : State) (k : Nat) (x : Ld) : (setLd s k x).clock = s.clock := rfl
@[simp] theorem setLd_free (s : State) (k : Nat) (x : Ld) : (setLd s k x).free = s.free := rfl
@[simp] theorem setLd_out (s : State) (k : Nat) (x : Ld) : (setLd s k x).out = s.out := rfl

/-! ### modLd -/

@[simp] theorem modLd_decks (s : State) (k : Nat) (f : Ld → Ld) : (modLd s k f).decks = s.decks := rfl
@[simp] theorem modLd_htu (s : State) (k : Nat) (f : Ld → Ld) : (modLd s k f).htu = s.htu := rfl
@[simp] theorem modLd_tt (s : State) (k : Nat) (f : Ld → Ld) : (modLd s k f).tt = s.tt := rfl
@[simp] theorem modLd_ports (s : State) (k : Nat) (f : Ld → Ld) : (modLd s k f).ports = s.ports := rfl
@[simp] theorem modLd_net (s : State) (k : Nat) (f : Ld → Ld) : (modLd s k f).net = s.net := rfl
@[simp] theorem modLd_churn (s : State) (k : Nat) (f : Ld → Ld) : (modLd s k f).churn = s.churn := rfl
@[simp] theorem modLd_host (s : State) (k : Nat) (f : Ld → Ld) : (modLd s k f).host = { s.host with lds := mapSet {} s.host.lds k (f (ldAt s k)) } := rfl
@[simp] theorem modLd_mem (s : State) (k : Nat) (f : Ld → Ld) : (modLd s k f).mem = s.mem := rfl
@[simp] theorem modLd_mgmt (s : State) (k : Nat) (f : Ld → Ld) : (modLd s k f).mgmt = s.mgmt := rfl
@[simp] theorem modLd_power (s : State) (k : Nat) (f : Ld → Ld) : (modLd s k f).power = s.power := rfl
@[simp] theorem modLd_thermal (s : State) (k : Nat) (f : Ld → Ld) : (modLd s k f).thermal = s.thermal := rfl
@[simp] theorem modLd_safety (s : State) (k : Nat) (f : Ld → Ld) : (modLd s k f).safety = s.safety := rfl
@[simp] theorem modLd_rst (s : State) (k : Nat) (f : Ld → Ld) : (modLd s k f).rst = s.rst := rfl
@[simp] theorem modLd_pending (s : State) (k : Nat) (f : Ld → Ld) : (modLd s k f).pending = s.pending := rfl
@[simp] theorem modLd_clock (s : State) (k : Nat) (f : Ld → Ld) : (modLd s k f).clock = s.clock := rfl
@[simp] theorem modLd_free (s : State) (k : Nat) (f : Ld → Ld) : (modLd s k f).free = s.free := rfl
@[simp] theorem modLd_out (s : State) (k : Nat) (f : Ld → Ld) : (modLd s k f).out = s.out := rfl

/-! ### emit -/

@[simp] theorem emit_decks (s : State) (o : Output) : (emit s o).decks = s.decks := rfl
@[simp] theorem emit_htu (s : State) (o : Output) : (emit s o).htu = s.htu := rfl
@[simp] theorem emit_tt (s : State) (o : Output) : (emit s o).tt = s.tt := rfl
@[simp] theorem emit_ports (s : State) (o : Output) : (emit s o).ports = s.ports := rfl
@[simp] theorem emit_net (s : State) (o : Output) : (emit s o).net = s.net := rfl
@[simp] theorem emit_churn (s : State) (o : Output) : (emit s o).churn = s.churn := rfl
@[simp] theorem emit_host (s : State) (o : Output) : (emit s o).host = s.host := rfl
@[simp] theorem emit_mem (s : State) (o : Output) : (emit s o).mem = s.mem := rfl
@[simp] theorem emit_mgmt (s : State) (o : Output) : (emit s o).mgmt = s.mgmt := rfl
@[simp] theorem emit_power (s : State) (o : Output) : (emit s o).power = s.power := rfl
@[simp] theorem emit_thermal (s : State) (o : Output) : (emit s o).thermal = s.thermal := rfl
@[simp] theorem emit_safety (s : State) (o : Output) : (emit s o).safety = s.safety := rfl
@[simp] theorem emit_rst (s : State) (o : Output) : (emit s o).rst = s.rst := rfl
@[simp] theorem emit_pending (s : State) (o : Output) : (emit s o).pending = s.pending := rfl
@[simp] theorem emit_clock (s : State) (o : Output) : (emit s o).clock = s.clock := rfl
@[simp] theorem emit_free (s : State) (o : Output) : (emit s o).free = s.free := rfl
@[simp] theorem emit_out (s : State) (o : Output) : (emit s o).out = o :: s.out := rfl

/-! ### memEvent -/

@[simp] theorem memEvent_decks (s : State) (n : Nat) : (memEvent s n).decks = s.decks := rfl
@[simp] theorem memEvent_htu (s : State) (n : Nat) : (memEvent s n).htu = s.htu := rfl
@[simp] theorem memEvent_tt (s : State) (n : Nat) : (memEvent s n).tt = s.tt := rfl
@[simp] theorem memEvent_ports (s : State) (n : Nat) : (memEvent s n).ports = s.ports := rfl
@[simp] theorem memEvent_net (s : State) (n : Nat) : (memEvent s n).net = s.net := rfl
@[simp] theorem memEvent_churn (s : State) (n : Nat) : (memEvent s n).churn = s.churn := rfl
@[simp] theorem memEvent_host (s : State) (n : Nat) : (memEvent s n).host = s.host := rfl
@[simp] theorem memEvent_mem (s : State) (n : Nat) : (memEvent s n).mem = { s.mem with events := setBit s.mem.events n true } := rfl
@[simp] theorem memEvent_mgmt (s : State) (n : Nat) : (memEvent s n).mgmt = s.mgmt := rfl
@[simp] theorem memEvent_power (s : State) (n : Nat) : (memEvent s n).power = s.power := rfl
@[simp] theorem memEvent_thermal (s : State) (n : Nat) : (memEvent s n).thermal = s.thermal := rfl
@[simp] theorem memEvent_safety (s : State) (n : Nat) : (memEvent s n).safety = s.safety := rfl
@[simp] theorem memEvent_rst (s : State) (n : Nat) : (memEvent s n).rst = s.rst := rfl
@[simp] theorem memEvent_pending (s : State) (n : Nat) : (memEvent s n).pending = s.pending := rfl
@[simp] theorem memEvent_clock (s : State) (n : Nat) : (memEvent s n).clock = s.clock := rfl
@[simp] theorem memEvent_free (s : State) (n : Nat) : (memEvent s n).free = s.free := rfl
@[simp] theorem memEvent_out (s : State) (n : Nat) : (memEvent s n).out = s.out := rfl

/-! ### setHtu -/

@[simp] theorem setHtu_decks (s : State) (h : Htu) : (setHtu s h).decks = s.decks := rfl
@[simp] theorem setHtu_htu (s : State) (h : Htu) : (setHtu s h).htu = h := rfl
@[simp] theorem setHtu_tt (s : State) (h : Htu) : (setHtu s h).tt = s.tt := rfl
@[simp] theorem setHtu_ports (s : State) (h : Htu) : (setHtu s h).ports = s.ports := rfl
@[simp] theorem setHtu_net (s : State) (h : Htu) : (setHtu s h).net = s.net := rfl
@[simp] theorem setHtu_churn (s : State) (h : Htu) : (setHtu s h).churn = s.churn := rfl
@[simp] theorem setHtu_host (s : State) (h : Htu) : (setHtu s h).host = s.host := rfl
@[simp] theorem setHtu_mem (s : State) (h : Htu) : (setHtu s h).mem = s.mem := rfl
@[simp] theorem setHtu_mgmt (s : State) (h : Htu) : (setHtu s h).mgmt = s.mgmt := rfl
@[simp] theorem setHtu_power (s : State) (h : Htu) : (setHtu s h).power = s.power := rfl
@[simp] theorem setHtu_thermal (s : State) (h : Htu) : (setHtu s h).thermal = s.thermal := rfl
@[simp] theorem setHtu_safety (s : State) (h : Htu) : (setHtu s h).safety = s.safety := rfl
@[simp] theorem setHtu_rst (s : State) (h : Htu) : (setHtu s h).rst = s.rst := rfl
@[simp] theorem setHtu_pending (s : State) (h : Htu) : (setHtu s h).pending = s.pending := rfl
@[simp] theorem setHtu_clock (s : State) (h : Htu) : (setHtu s h).clock = s.clock := rfl
@[simp] theorem setHtu_free (s : State) (h : Htu) : (setHtu s h).free = s.free := rfl
@[simp] theorem setHtu_out (s : State) (h : Htu) : (setHtu s h).out = s.out := rfl

/-! ### setTt -/

@[simp] theorem setTt_decks (s : State) (t : Timetable) : (setTt s t).decks = s.decks := rfl
@[simp] theorem setTt_htu (s : State) (t : Timetable) : (setTt s t).htu = s.htu := rfl
@[simp] theorem setTt_tt (s : State) (t : Timetable) : (setTt s t).tt = t := rfl
@[simp] theorem setTt_ports (s : State) (t : Timetable) : (setTt s t).ports = s.ports := rfl
@[simp] theorem setTt_net (s : State) (t : Timetable) : (setTt s t).net = s.net := rfl
@[simp] theorem setTt_churn (s : State) (t : Timetable) : (setTt s t).churn = s.churn := rfl
@[simp] theorem setTt_host (s : State) (t : Timetable) : (setTt s t).host = s.host := rfl
@[simp] theorem setTt_mem (s : State) (t : Timetable) : (setTt s t).mem = s.mem := rfl
@[simp] theorem setTt_mgmt (s : State) (t : Timetable) : (setTt s t).mgmt = s.mgmt := rfl
@[simp] theorem setTt_power (s : State) (t : Timetable) : (setTt s t).power = s.power := rfl
@[simp] theorem setTt_thermal (s : State) (t : Timetable) : (setTt s t).thermal = s.thermal := rfl
@[simp] theorem setTt_safety (s : State) (t : Timetable) : (setTt s t).safety = s.safety := rfl
@[simp] theorem setTt_rst (s : State) (t : Timetable) : (setTt s t).rst = s.rst := rfl
@[simp] theorem setTt_pending (s : State) (t : Timetable) : (setTt s t).pending = s.pending := rfl
@[simp] theorem setTt_clock (s : State) (t : Timetable) : (setTt s t).clock = s.clock := rfl
@[simp] theorem setTt_free (s : State) (t : Timetable) : (setTt s t).free = s.free := rfl
@[simp] theorem setTt_out (s : State) (t : Timetable) : (setTt s t).out = s.out := rfl

/-! ### setNet -/

@[simp] theorem setNet_decks (s : State) (n : Net) : (setNet s n).decks = s.decks := rfl
@[simp] theorem setNet_htu (s : State) (n : Net) : (setNet s n).htu = s.htu := rfl
@[simp] theorem setNet_tt (s : State) (n : Net) : (setNet s n).tt = s.tt := rfl
@[simp] theorem setNet_ports (s : State) (n : Net) : (setNet s n).ports = s.ports := rfl
@[simp] theorem setNet_net (s : State) (n : Net) : (setNet s n).net = n := rfl
@[simp] theorem setNet_churn (s : State) (n : Net) : (setNet s n).churn = s.churn := rfl
@[simp] theorem setNet_host (s : State) (n : Net) : (setNet s n).host = s.host := rfl
@[simp] theorem setNet_mem (s : State) (n : Net) : (setNet s n).mem = s.mem := rfl
@[simp] theorem setNet_mgmt (s : State) (n : Net) : (setNet s n).mgmt = s.mgmt := rfl
@[simp] theorem setNet_power (s : State) (n : Net) : (setNet s n).power = s.power := rfl
@[simp] theorem setNet_thermal (s : State) (n : Net) : (setNet s n).thermal = s.thermal := rfl
@[simp] theorem setNet_safety (s : State) (n : Net) : (setNet s n).safety = s.safety := rfl
@[simp] theorem setNet_rst (s : State) (n : Net) : (setNet s n).rst = s.rst := rfl
@[simp] theorem setNet_pending (s : State) (n : Net) : (setNet s n).pending = s.pending := rfl
@[simp] theorem setNet_clock (s : State) (n : Net) : (setNet s n).clock = s.clock := rfl
@[simp] theorem setNet_free (s : State) (n : Net) : (setNet s n).free = s.free := rfl
@[simp] theorem setNet_out (s : State) (n : Net) : (setNet s n).out = s.out := rfl

/-! ### modNet -/

@[simp] theorem modNet_decks (s : State) (f : Net → Net) : (modNet s f).decks = s.decks := rfl
@[simp] theorem modNet_htu (s : State) (f : Net → Net) : (modNet s f).htu = s.htu := rfl
@[simp] theorem modNet_tt (s : State) (f : Net → Net) : (modNet s f).tt = s.tt := rfl
@[simp] theorem modNet_ports (s : State) (f : Net → Net) : (modNet s f).ports = s.ports := rfl
@[simp] theorem modNet_net (s : State) (f : Net → Net) : (modNet s f).net = f s.net := rfl
@[simp] theorem modNet_churn (s : State) (f : Net → Net) : (modNet s f).churn = s.churn := rfl
@[simp] theorem modNet_host (s : State) (f : Net → Net) : (modNet s f).host = s.host := rfl
@[simp] theorem modNet_mem (s : State) (f : Net → Net) : (modNet s f).mem = s.mem := rfl
@[simp] theorem modNet_mgmt (s : State) (f : Net → Net) : (modNet s f).mgmt = s.mgmt := rfl
@[simp] theorem modNet_power (s : State) (f : Net → Net) : (modNet s f).power = s.power := rfl
@[simp] theorem modNet_thermal (s : State) (f : Net → Net) : (modNet s f).thermal = s.thermal := rfl
@[simp] theorem modNet_safety (s : State) (f : Net → Net) : (modNet s f).safety = s.safety := rfl
@[simp] theorem modNet_rst (s : State) (f : Net → Net) : (modNet s f).rst = s.rst := rfl
@[simp] theorem modNet_pending (s : State) (f : Net → Net) : (modNet s f).pending = s.pending := rfl
@[simp] theorem modNet_clock (s : State) (f : Net → Net) : (modNet s f).clock = s.clock := rfl
@[simp] theorem modNet_free (s : State) (f : Net → Net) : (modNet s f).free = s.free := rfl
@[simp] theorem modNet_out (s : State) (f : Net → Net) : (modNet s f).out = s.out := rfl

/-! ### setChurn -/

@[simp] theorem setChurn_decks (s : State) (c : Churn) : (setChurn s c).decks = s.decks := rfl
@[simp] theorem setChurn_htu (s : State) (c : Churn) : (setChurn s c).htu = s.htu := rfl
@[simp] theorem setChurn_tt (s : State) (c : Churn) : (setChurn s c).tt = s.tt := rfl
@[simp] theorem setChurn_ports (s : State) (c : Churn) : (setChurn s c).ports = s.ports := rfl
@[simp] theorem setChurn_net (s : State) (c : Churn) : (setChurn s c).net = s.net := rfl
@[simp] theorem setChurn_churn (s : State) (c : Churn) : (setChurn s c).churn = c := rfl
@[simp] theorem setChurn_host (s : State) (c : Churn) : (setChurn s c).host = s.host := rfl
@[simp] theorem setChurn_mem (s : State) (c : Churn) : (setChurn s c).mem = s.mem := rfl
@[simp] theorem setChurn_mgmt (s : State) (c : Churn) : (setChurn s c).mgmt = s.mgmt := rfl
@[simp] theorem setChurn_power (s : State) (c : Churn) : (setChurn s c).power = s.power := rfl
@[simp] theorem setChurn_thermal (s : State) (c : Churn) : (setChurn s c).thermal = s.thermal := rfl
@[simp] theorem setChurn_safety (s : State) (c : Churn) : (setChurn s c).safety = s.safety := rfl
@[simp] theorem setChurn_rst (s : State) (c : Churn) : (setChurn s c).rst = s.rst := rfl
@[simp] theorem setChurn_pending (s : State) (c : Churn) : (setChurn s c).pending = s.pending := rfl
@[simp] theorem setChurn_clock (s : State) (c : Churn) : (setChurn s c).clock = s.clock := rfl
@[simp] theorem setChurn_free (s : State) (c : Churn) : (setChurn s c).free = s.free := rfl
@[simp] theorem setChurn_out (s : State) (c : Churn) : (setChurn s c).out = s.out := rfl

/-! ### modChurn -/

@[simp] theorem modChurn_decks (s : State) (f : Churn → Churn) : (modChurn s f).decks = s.decks := rfl
@[simp] theorem modChurn_htu (s : State) (f : Churn → Churn) : (modChurn s f).htu = s.htu := rfl
@[simp] theorem modChurn_tt (s : State) (f : Churn → Churn) : (modChurn s f).tt = s.tt := rfl
@[simp] theorem modChurn_ports (s : State) (f : Churn → Churn) : (modChurn s f).ports = s.ports := rfl
@[simp] theorem modChurn_net (s : State) (f : Churn → Churn) : (modChurn s f).net = s.net := rfl
@[simp] theorem modChurn_churn (s : State) (f : Churn → Churn) : (modChurn s f).churn = f s.churn := rfl
@[simp] theorem modChurn_host (s : State) (f : Churn → Churn) : (modChurn s f).host = s.host := rfl
@[simp] theorem modChurn_mem (s : State) (f : Churn → Churn) : (modChurn s f).mem = s.mem := rfl
@[simp] theorem modChurn_mgmt (s : State) (f : Churn → Churn) : (modChurn s f).mgmt = s.mgmt := rfl
@[simp] theorem modChurn_power (s : State) (f : Churn → Churn) : (modChurn s f).power = s.power := rfl
@[simp] theorem modChurn_thermal (s : State) (f : Churn → Churn) : (modChurn s f).thermal = s.thermal := rfl
@[simp] theorem modChurn_safety (s : State) (f : Churn → Churn) : (modChurn s f).safety = s.safety := rfl
@[simp] theorem modChurn_rst (s : State) (f : Churn → Churn) : (modChurn s f).rst = s.rst := rfl
@[simp] theorem modChurn_pending (s : State) (f : Churn → Churn) : (modChurn s f).pending = s.pending := rfl
@[simp] theorem modChurn_clock (s : State) (f : Churn → Churn) : (modChurn s f).clock = s.clock := rfl
@[simp] theorem modChurn_free (s : State) (f : Churn → Churn) : (modChurn s f).free = s.free := rfl
@[simp] theorem modChurn_out (s : State) (f : Churn → Churn) : (modChurn s f).out = s.out := rfl

/-! ### setMgmt -/

@[simp] theorem setMgmt_decks (s : State) (m : Mgmt) : (setMgmt s m).decks = s.decks := rfl
@[simp] theorem setMgmt_htu (s : State) (m : Mgmt) : (setMgmt s m).htu = s.htu := rfl
@[simp] theorem setMgmt_tt (s : State) (m : Mgmt) : (setMgmt s m).tt = s.tt := rfl
@[simp] theorem setMgmt_ports (s : State) (m : Mgmt) : (setMgmt s m).ports = s.ports := rfl
@[simp] theorem setMgmt_net (s : State) (m : Mgmt) : (setMgmt s m).net = s.net := rfl
@[simp] theorem setMgmt_churn (s : State) (m : Mgmt) : (setMgmt s m).churn = s.churn := rfl
@[simp] theorem setMgmt_host (s : State) (m : Mgmt) : (setMgmt s m).host = s.host := rfl
@[simp] theorem setMgmt_mem (s : State) (m : Mgmt) : (setMgmt s m).mem = s.mem := rfl
@[simp] theorem setMgmt_mgmt (s : State) (m : Mgmt) : (setMgmt s m).mgmt = m := rfl
@[simp] theorem setMgmt_power (s : State) (m : Mgmt) : (setMgmt s m).power = s.power := rfl
@[simp] theorem setMgmt_thermal (s : State) (m : Mgmt) : (setMgmt s m).thermal = s.thermal := rfl
@[simp] theorem setMgmt_safety (s : State) (m : Mgmt) : (setMgmt s m).safety = s.safety := rfl
@[simp] theorem setMgmt_rst (s : State) (m : Mgmt) : (setMgmt s m).rst = s.rst := rfl
@[simp] theorem setMgmt_pending (s : State) (m : Mgmt) : (setMgmt s m).pending = s.pending := rfl
@[simp] theorem setMgmt_clock (s : State) (m : Mgmt) : (setMgmt s m).clock = s.clock := rfl
@[simp] theorem setMgmt_free (s : State) (m : Mgmt) : (setMgmt s m).free = s.free := rfl
@[simp] theorem setMgmt_out (s : State) (m : Mgmt) : (setMgmt s m).out = s.out := rfl

/-! ### setPower -/

@[simp] theorem setPower_decks (s : State) (p : Power) : (setPower s p).decks = s.decks := rfl
@[simp] theorem setPower_htu (s : State) (p : Power) : (setPower s p).htu = s.htu := rfl
@[simp] theorem setPower_tt (s : State) (p : Power) : (setPower s p).tt = s.tt := rfl
@[simp] theorem setPower_ports (s : State) (p : Power) : (setPower s p).ports = s.ports := rfl
@[simp] theorem setPower_net (s : State) (p : Power) : (setPower s p).net = s.net := rfl
@[simp] theorem setPower_churn (s : State) (p : Power) : (setPower s p).churn = s.churn := rfl
@[simp] theorem setPower_host (s : State) (p : Power) : (setPower s p).host = s.host := rfl
@[simp] theorem setPower_mem (s : State) (p : Power) : (setPower s p).mem = s.mem := rfl
@[simp] theorem setPower_mgmt (s : State) (p : Power) : (setPower s p).mgmt = s.mgmt := rfl
@[simp] theorem setPower_power (s : State) (p : Power) : (setPower s p).power = p := rfl
@[simp] theorem setPower_thermal (s : State) (p : Power) : (setPower s p).thermal = s.thermal := rfl
@[simp] theorem setPower_safety (s : State) (p : Power) : (setPower s p).safety = s.safety := rfl
@[simp] theorem setPower_rst (s : State) (p : Power) : (setPower s p).rst = s.rst := rfl
@[simp] theorem setPower_pending (s : State) (p : Power) : (setPower s p).pending = s.pending := rfl
@[simp] theorem setPower_clock (s : State) (p : Power) : (setPower s p).clock = s.clock := rfl
@[simp] theorem setPower_free (s : State) (p : Power) : (setPower s p).free = s.free := rfl
@[simp] theorem setPower_out (s : State) (p : Power) : (setPower s p).out = s.out := rfl

/-! ### setRst -/

@[simp] theorem setRst_decks (s : State) (r : Rst) : (setRst s r).decks = s.decks := rfl
@[simp] theorem setRst_htu (s : State) (r : Rst) : (setRst s r).htu = s.htu := rfl
@[simp] theorem setRst_tt (s : State) (r : Rst) : (setRst s r).tt = s.tt := rfl
@[simp] theorem setRst_ports (s : State) (r : Rst) : (setRst s r).ports = s.ports := rfl
@[simp] theorem setRst_net (s : State) (r : Rst) : (setRst s r).net = s.net := rfl
@[simp] theorem setRst_churn (s : State) (r : Rst) : (setRst s r).churn = s.churn := rfl
@[simp] theorem setRst_host (s : State) (r : Rst) : (setRst s r).host = s.host := rfl
@[simp] theorem setRst_mem (s : State) (r : Rst) : (setRst s r).mem = s.mem := rfl
@[simp] theorem setRst_mgmt (s : State) (r : Rst) : (setRst s r).mgmt = s.mgmt := rfl
@[simp] theorem setRst_power (s : State) (r : Rst) : (setRst s r).power = s.power := rfl
@[simp] theorem setRst_thermal (s : State) (r : Rst) : (setRst s r).thermal = s.thermal := rfl
@[simp] theorem setRst_safety (s : State) (r : Rst) : (setRst s r).safety = s.safety := rfl
@[simp] theorem setRst_rst (s : State) (r : Rst) : (setRst s r).rst = r := rfl
@[simp] theorem setRst_pending (s : State) (r : Rst) : (setRst s r).pending = s.pending := rfl
@[simp] theorem setRst_clock (s : State) (r : Rst) : (setRst s r).clock = s.clock := rfl
@[simp] theorem setRst_free (s : State) (r : Rst) : (setRst s r).free = s.free := rfl
@[simp] theorem setRst_out (s : State) (r : Rst) : (setRst s r).out = s.out := rfl

/-! ### modRst -/

@[simp] theorem modRst_decks (s : State) (f : Rst → Rst) : (modRst s f).decks = s.decks := rfl
@[simp] theorem modRst_htu (s : State) (f : Rst → Rst) : (modRst s f).htu = s.htu := rfl
@[simp] theorem modRst_tt (s : State) (f : Rst → Rst) : (modRst s f).tt = s.tt := rfl
@[simp] theorem modRst_ports (s : State) (f : Rst → Rst) : (modRst s f).ports = s.ports := rfl
@[simp] theorem modRst_net (s : State) (f : Rst → Rst) : (modRst s f).net = s.net := rfl
@[simp] theorem modRst_churn (s : State) (f : Rst → Rst) : (modRst s f).churn = s.churn := rfl
@[simp] theorem modRst_host (s : State) (f : Rst → Rst) : (modRst s f).host = s.host := rfl
@[simp] theorem modRst_mem (s : State) (f : Rst → Rst) : (modRst s f).mem = s.mem := rfl
@[simp] theorem modRst_mgmt (s : State) (f : Rst → Rst) : (modRst s f).mgmt = s.mgmt := rfl
@[simp] theorem modRst_power (s : State) (f : Rst → Rst) : (modRst s f).power = s.power := rfl
@[simp] theorem modRst_thermal (s : State) (f : Rst → Rst) : (modRst s f).thermal = s.thermal := rfl
@[simp] theorem modRst_safety (s : State) (f : Rst → Rst) : (modRst s f).safety = s.safety := rfl
@[simp] theorem modRst_rst (s : State) (f : Rst → Rst) : (modRst s f).rst = f s.rst := rfl
@[simp] theorem modRst_pending (s : State) (f : Rst → Rst) : (modRst s f).pending = s.pending := rfl
@[simp] theorem modRst_clock (s : State) (f : Rst → Rst) : (modRst s f).clock = s.clock := rfl
@[simp] theorem modRst_free (s : State) (f : Rst → Rst) : (modRst s f).free = s.free := rfl
@[simp] theorem modRst_out (s : State) (f : Rst → Rst) : (modRst s f).out = s.out := rfl

/-! ### setCore -/

@[simp] theorem setCore_cores (k : Deck) (i : Nat) (c : Core) : (setCore k i c).cores = mapSet {} k.cores i c := rfl
@[simp] theorem setCore_objs (k : Deck) (i : Nat) (c : Core) : (setCore k i c).objs = k.objs := rfl
@[simp] theorem setCore_groups (k : Deck) (i : Nat) (c : Core) : (setCore k i c).groups = k.groups := rfl
@[simp] theorem setCore_waiters (k : Deck) (i : Nat) (c : Core) : (setCore k i c).waiters = k.waiters := rfl
@[simp] theorem setCore_tallies (k : Deck) (i : Nat) (c : Core) : (setCore k i c).tallies = k.tallies := rfl
@[simp] theorem setCore_tlyQueue (k : Deck) (i : Nat) (c : Core) : (setCore k i c).tlyQueue = k.tlyQueue := rfl
@[simp] theorem setCore_binSat (k : Deck) (i : Nat) (c : Core) : (setCore k i c).binSat = k.binSat := rfl
@[simp] theorem setCore_ctxs (k : Deck) (i : Nat) (c : Core) : (setCore k i c).ctxs = k.ctxs := rfl
@[simp] theorem setCore_gateDrop (k : Deck) (i : Nat) (c : Core) : (setCore k i c).gateDrop = k.gateDrop := rfl
@[simp] theorem setCore_ctxDrop (k : Deck) (i : Nat) (c : Core) : (setCore k i c).ctxDrop = k.ctxDrop := rfl
@[simp] theorem setCore_streams (k : Deck) (i : Nat) (c : Core) : (setCore k i c).streams = k.streams := rfl
@[simp] theorem setCore_launches (k : Deck) (i : Nat) (c : Core) : (setCore k i c).launches = k.launches := rfl
@[simp] theorem setCore_nextLaunch (k : Deck) (i : Nat) (c : Core) : (setCore k i c).nextLaunch = k.nextLaunch := rfl
@[simp] theorem setCore_nextOrder (k : Deck) (i : Nat) (c : Core) : (setCore k i c).nextOrder = k.nextOrder := rfl
@[simp] theorem setCore_mem (k : Deck) (i : Nat) (c : Core) : (setCore k i c).mem = k.mem := rfl
@[simp] theorem setCore_memBad (k : Deck) (i : Nat) (c : Core) : (setCore k i c).memBad = k.memBad := rfl
@[simp] theorem setCore_stks (k : Deck) (i : Nat) (c : Core) : (setCore k i c).stks = k.stks := rfl
@[simp] theorem setCore_sched (k : Deck) (i : Nat) (c : Core) : (setCore k i c).sched = k.sched := rfl
@[simp] theorem setCore_dschedBase (k : Deck) (i : Nat) (c : Core) : (setCore k i c).dschedBase = k.dschedBase := rfl
@[simp] theorem setCore_dschedCount (k : Deck) (i : Nat) (c : Core) : (setCore k i c).dschedCount = k.dschedCount := rfl
@[simp] theorem setCore_missed (k : Deck) (i : Nat) (c : Core) : (setCore k i c).missed = k.missed := rfl
@[simp] theorem setCore_alarmDrops (k : Deck) (i : Nat) (c : Core) : (setCore k i c).alarmDrops = k.alarmDrops := rfl
@[simp] theorem setCore_alarms (k : Deck) (i : Nat) (c : Core) : (setCore k i c).alarms = k.alarms := rfl
@[simp] theorem setCore_mbxBase (k : Deck) (i : Nat) (c : Core) : (setCore k i c).mbxBase = k.mbxBase := rfl
@[simp] theorem setCore_mbxCtx (k : Deck) (i : Nat) (c : Core) : (setCore k i c).mbxCtx = k.mbxCtx := rfl
@[simp] theorem setCore_mbxSync (k : Deck) (i : Nat) (c : Core) : (setCore k i c).mbxSync = k.mbxSync := rfl
@[simp] theorem setCore_mbxValid (k : Deck) (i : Nat) (c : Core) : (setCore k i c).mbxValid = k.mbxValid := rfl
@[simp] theorem setCore_penMap (k : Deck) (i : Nat) (c : Core) : (setCore k i c).penMap = k.penMap := rfl
@[simp] theorem setCore_penFlash (k : Deck) (i : Nat) (c : Core) : (setCore k i c).penFlash = k.penFlash := rfl
@[simp] theorem setCore_penOlder (k : Deck) (i : Nat) (c : Core) : (setCore k i c).penOlder = k.penOlder := rfl
@[simp] theorem setCore_pensBad (k : Deck) (i : Nat) (c : Core) : (setCore k i c).pensBad = k.pensBad := rfl
@[simp] theorem setCore_shadow (k : Deck) (i : Nat) (c : Core) : (setCore k i c).shadow = k.shadow := rfl
@[simp] theorem setCore_scrubUntil (k : Deck) (i : Nat) (c : Core) : (setCore k i c).scrubUntil = k.scrubUntil := rfl
@[simp] theorem setCore_shadowUntil (k : Deck) (i : Nat) (c : Core) : (setCore k i c).shadowUntil = k.shadowUntil := rfl
@[simp] theorem setCore_rampRows (k : Deck) (i : Nat) (c : Core) : (setCore k i c).rampRows = k.rampRows := rfl
@[simp] theorem setCore_outOfService (k : Deck) (i : Nat) (c : Core) : (setCore k i c).outOfService = k.outOfService := rfl
@[simp] theorem setCore_maint (k : Deck) (i : Nat) (c : Core) : (setCore k i c).maint = k.maint := rfl
@[simp] theorem setCore_hubLinkFailed (k : Deck) (i : Nat) (c : Core) : (setCore k i c).hubLinkFailed = k.hubLinkFailed := rfl
@[simp] theorem setCore_reset (k : Deck) (i : Nat) (c : Core) : (setCore k i c).reset = k.reset := rfl
@[simp] theorem setCore_clearing (k : Deck) (i : Nat) (c : Core) : (setCore k i c).clearing = k.clearing := rfl
@[simp] theorem setCore_power (k : Deck) (i : Nat) (c : Core) : (setCore k i c).power = k.power := rfl
@[simp] theorem setCore_dockReq (k : Deck) (i : Nat) (c : Core) : (setCore k i c).dockReq = k.dockReq := rfl
@[simp] theorem setCore_admitted (k : Deck) (i : Nat) (c : Core) : (setCore k i c).admitted = k.admitted := rfl
@[simp] theorem setCore_quiesced (k : Deck) (i : Nat) (c : Core) : (setCore k i c).quiesced = k.quiesced := rfl
@[simp] theorem setCore_scrubRun (k : Deck) (i : Nat) (c : Core) : (setCore k i c).scrubRun = k.scrubRun := rfl
@[simp] theorem setCore_scrubStart (k : Deck) (i : Nat) (c : Core) : (setCore k i c).scrubStart = k.scrubStart := rfl
@[simp] theorem setCore_scrubPos (k : Deck) (i : Nat) (c : Core) : (setCore k i c).scrubPos = k.scrubPos := rfl
@[simp] theorem setCore_holdQ (k : Deck) (i : Nat) (c : Core) : (setCore k i c).holdQ = k.holdQ := rfl
@[simp] theorem setCore_txq (k : Deck) (i : Nat) (c : Core) : (setCore k i c).txq = k.txq := rfl
@[simp] theorem setCore_latent (k : Deck) (i : Nat) (c : Core) : (setCore k i c).latent = k.latent := rfl
@[simp] theorem setCore_clearedAt (k : Deck) (i : Nat) (c : Core) : (setCore k i c).clearedAt = k.clearedAt := rfl
@[simp] theorem setCore_unboundAt (k : Deck) (i : Nat) (c : Core) : (setCore k i c).unboundAt = k.unboundAt := rfl
@[simp] theorem setCore_hotAt (k : Deck) (i : Nat) (c : Core) : (setCore k i c).hotAt = k.hotAt := rfl

/-! ### setCtx -/

@[simp] theorem setCtx_cores (k : Deck) (i : Nat) (c : Ctx) : (setCtx k i c).cores = k.cores := rfl
@[simp] theorem setCtx_objs (k : Deck) (i : Nat) (c : Ctx) : (setCtx k i c).objs = k.objs := rfl
@[simp] theorem setCtx_groups (k : Deck) (i : Nat) (c : Ctx) : (setCtx k i c).groups = k.groups := rfl
@[simp] theorem setCtx_waiters (k : Deck) (i : Nat) (c : Ctx) : (setCtx k i c).waiters = k.waiters := rfl
@[simp] theorem setCtx_tallies (k : Deck) (i : Nat) (c : Ctx) : (setCtx k i c).tallies = k.tallies := rfl
@[simp] theorem setCtx_tlyQueue (k : Deck) (i : Nat) (c : Ctx) : (setCtx k i c).tlyQueue = k.tlyQueue := rfl
@[simp] theorem setCtx_binSat (k : Deck) (i : Nat) (c : Ctx) : (setCtx k i c).binSat = k.binSat := rfl
@[simp] theorem setCtx_ctxs (k : Deck) (i : Nat) (c : Ctx) : (setCtx k i c).ctxs = mapSet {} k.ctxs i c := rfl
@[simp] theorem setCtx_gateDrop (k : Deck) (i : Nat) (c : Ctx) : (setCtx k i c).gateDrop = k.gateDrop := rfl
@[simp] theorem setCtx_ctxDrop (k : Deck) (i : Nat) (c : Ctx) : (setCtx k i c).ctxDrop = k.ctxDrop := rfl
@[simp] theorem setCtx_streams (k : Deck) (i : Nat) (c : Ctx) : (setCtx k i c).streams = k.streams := rfl
@[simp] theorem setCtx_launches (k : Deck) (i : Nat) (c : Ctx) : (setCtx k i c).launches = k.launches := rfl
@[simp] theorem setCtx_nextLaunch (k : Deck) (i : Nat) (c : Ctx) : (setCtx k i c).nextLaunch = k.nextLaunch := rfl
@[simp] theorem setCtx_nextOrder (k : Deck) (i : Nat) (c : Ctx) : (setCtx k i c).nextOrder = k.nextOrder := rfl
@[simp] theorem setCtx_mem (k : Deck) (i : Nat) (c : Ctx) : (setCtx k i c).mem = k.mem := rfl
@[simp] theorem setCtx_memBad (k : Deck) (i : Nat) (c : Ctx) : (setCtx k i c).memBad = k.memBad := rfl
@[simp] theorem setCtx_stks (k : Deck) (i : Nat) (c : Ctx) : (setCtx k i c).stks = k.stks := rfl
@[simp] theorem setCtx_sched (k : Deck) (i : Nat) (c : Ctx) : (setCtx k i c).sched = k.sched := rfl
@[simp] theorem setCtx_dschedBase (k : Deck) (i : Nat) (c : Ctx) : (setCtx k i c).dschedBase = k.dschedBase := rfl
@[simp] theorem setCtx_dschedCount (k : Deck) (i : Nat) (c : Ctx) : (setCtx k i c).dschedCount = k.dschedCount := rfl
@[simp] theorem setCtx_missed (k : Deck) (i : Nat) (c : Ctx) : (setCtx k i c).missed = k.missed := rfl
@[simp] theorem setCtx_alarmDrops (k : Deck) (i : Nat) (c : Ctx) : (setCtx k i c).alarmDrops = k.alarmDrops := rfl
@[simp] theorem setCtx_alarms (k : Deck) (i : Nat) (c : Ctx) : (setCtx k i c).alarms = k.alarms := rfl
@[simp] theorem setCtx_mbxBase (k : Deck) (i : Nat) (c : Ctx) : (setCtx k i c).mbxBase = k.mbxBase := rfl
@[simp] theorem setCtx_mbxCtx (k : Deck) (i : Nat) (c : Ctx) : (setCtx k i c).mbxCtx = k.mbxCtx := rfl
@[simp] theorem setCtx_mbxSync (k : Deck) (i : Nat) (c : Ctx) : (setCtx k i c).mbxSync = k.mbxSync := rfl
@[simp] theorem setCtx_mbxValid (k : Deck) (i : Nat) (c : Ctx) : (setCtx k i c).mbxValid = k.mbxValid := rfl
@[simp] theorem setCtx_penMap (k : Deck) (i : Nat) (c : Ctx) : (setCtx k i c).penMap = k.penMap := rfl
@[simp] theorem setCtx_penFlash (k : Deck) (i : Nat) (c : Ctx) : (setCtx k i c).penFlash = k.penFlash := rfl
@[simp] theorem setCtx_penOlder (k : Deck) (i : Nat) (c : Ctx) : (setCtx k i c).penOlder = k.penOlder := rfl
@[simp] theorem setCtx_pensBad (k : Deck) (i : Nat) (c : Ctx) : (setCtx k i c).pensBad = k.pensBad := rfl
@[simp] theorem setCtx_shadow (k : Deck) (i : Nat) (c : Ctx) : (setCtx k i c).shadow = k.shadow := rfl
@[simp] theorem setCtx_scrubUntil (k : Deck) (i : Nat) (c : Ctx) : (setCtx k i c).scrubUntil = k.scrubUntil := rfl
@[simp] theorem setCtx_shadowUntil (k : Deck) (i : Nat) (c : Ctx) : (setCtx k i c).shadowUntil = k.shadowUntil := rfl
@[simp] theorem setCtx_rampRows (k : Deck) (i : Nat) (c : Ctx) : (setCtx k i c).rampRows = k.rampRows := rfl
@[simp] theorem setCtx_outOfService (k : Deck) (i : Nat) (c : Ctx) : (setCtx k i c).outOfService = k.outOfService := rfl
@[simp] theorem setCtx_maint (k : Deck) (i : Nat) (c : Ctx) : (setCtx k i c).maint = k.maint := rfl
@[simp] theorem setCtx_hubLinkFailed (k : Deck) (i : Nat) (c : Ctx) : (setCtx k i c).hubLinkFailed = k.hubLinkFailed := rfl
@[simp] theorem setCtx_reset (k : Deck) (i : Nat) (c : Ctx) : (setCtx k i c).reset = k.reset := rfl
@[simp] theorem setCtx_clearing (k : Deck) (i : Nat) (c : Ctx) : (setCtx k i c).clearing = k.clearing := rfl
@[simp] theorem setCtx_power (k : Deck) (i : Nat) (c : Ctx) : (setCtx k i c).power = k.power := rfl
@[simp] theorem setCtx_dockReq (k : Deck) (i : Nat) (c : Ctx) : (setCtx k i c).dockReq = k.dockReq := rfl
@[simp] theorem setCtx_admitted (k : Deck) (i : Nat) (c : Ctx) : (setCtx k i c).admitted = k.admitted := rfl
@[simp] theorem setCtx_quiesced (k : Deck) (i : Nat) (c : Ctx) : (setCtx k i c).quiesced = k.quiesced := rfl
@[simp] theorem setCtx_scrubRun (k : Deck) (i : Nat) (c : Ctx) : (setCtx k i c).scrubRun = k.scrubRun := rfl
@[simp] theorem setCtx_scrubStart (k : Deck) (i : Nat) (c : Ctx) : (setCtx k i c).scrubStart = k.scrubStart := rfl
@[simp] theorem setCtx_scrubPos (k : Deck) (i : Nat) (c : Ctx) : (setCtx k i c).scrubPos = k.scrubPos := rfl
@[simp] theorem setCtx_holdQ (k : Deck) (i : Nat) (c : Ctx) : (setCtx k i c).holdQ = k.holdQ := rfl
@[simp] theorem setCtx_txq (k : Deck) (i : Nat) (c : Ctx) : (setCtx k i c).txq = k.txq := rfl
@[simp] theorem setCtx_latent (k : Deck) (i : Nat) (c : Ctx) : (setCtx k i c).latent = k.latent := rfl
@[simp] theorem setCtx_clearedAt (k : Deck) (i : Nat) (c : Ctx) : (setCtx k i c).clearedAt = k.clearedAt := rfl
@[simp] theorem setCtx_unboundAt (k : Deck) (i : Nat) (c : Ctx) : (setCtx k i c).unboundAt = k.unboundAt := rfl
@[simp] theorem setCtx_hotAt (k : Deck) (i : Nat) (c : Ctx) : (setCtx k i c).hotAt = k.hotAt := rfl

/-! ### setObj -/

@[simp] theorem setObj_cores (k : Deck) (i : Nat) (c : SyncObj) : (setObj k i c).cores = k.cores := rfl
@[simp] theorem setObj_objs (k : Deck) (i : Nat) (c : SyncObj) : (setObj k i c).objs = mapSet {} k.objs i c := rfl
@[simp] theorem setObj_groups (k : Deck) (i : Nat) (c : SyncObj) : (setObj k i c).groups = k.groups := rfl
@[simp] theorem setObj_waiters (k : Deck) (i : Nat) (c : SyncObj) : (setObj k i c).waiters = k.waiters := rfl
@[simp] theorem setObj_tallies (k : Deck) (i : Nat) (c : SyncObj) : (setObj k i c).tallies = k.tallies := rfl
@[simp] theorem setObj_tlyQueue (k : Deck) (i : Nat) (c : SyncObj) : (setObj k i c).tlyQueue = k.tlyQueue := rfl
@[simp] theorem setObj_binSat (k : Deck) (i : Nat) (c : SyncObj) : (setObj k i c).binSat = k.binSat := rfl
@[simp] theorem setObj_ctxs (k : Deck) (i : Nat) (c : SyncObj) : (setObj k i c).ctxs = k.ctxs := rfl
@[simp] theorem setObj_gateDrop (k : Deck) (i : Nat) (c : SyncObj) : (setObj k i c).gateDrop = k.gateDrop := rfl
@[simp] theorem setObj_ctxDrop (k : Deck) (i : Nat) (c : SyncObj) : (setObj k i c).ctxDrop = k.ctxDrop := rfl
@[simp] theorem setObj_streams (k : Deck) (i : Nat) (c : SyncObj) : (setObj k i c).streams = k.streams := rfl
@[simp] theorem setObj_launches (k : Deck) (i : Nat) (c : SyncObj) : (setObj k i c).launches = k.launches := rfl
@[simp] theorem setObj_nextLaunch (k : Deck) (i : Nat) (c : SyncObj) : (setObj k i c).nextLaunch = k.nextLaunch := rfl
@[simp] theorem setObj_nextOrder (k : Deck) (i : Nat) (c : SyncObj) : (setObj k i c).nextOrder = k.nextOrder := rfl
@[simp] theorem setObj_mem (k : Deck) (i : Nat) (c : SyncObj) : (setObj k i c).mem = k.mem := rfl
@[simp] theorem setObj_memBad (k : Deck) (i : Nat) (c : SyncObj) : (setObj k i c).memBad = k.memBad := rfl
@[simp] theorem setObj_stks (k : Deck) (i : Nat) (c : SyncObj) : (setObj k i c).stks = k.stks := rfl
@[simp] theorem setObj_sched (k : Deck) (i : Nat) (c : SyncObj) : (setObj k i c).sched = k.sched := rfl
@[simp] theorem setObj_dschedBase (k : Deck) (i : Nat) (c : SyncObj) : (setObj k i c).dschedBase = k.dschedBase := rfl
@[simp] theorem setObj_dschedCount (k : Deck) (i : Nat) (c : SyncObj) : (setObj k i c).dschedCount = k.dschedCount := rfl
@[simp] theorem setObj_missed (k : Deck) (i : Nat) (c : SyncObj) : (setObj k i c).missed = k.missed := rfl
@[simp] theorem setObj_alarmDrops (k : Deck) (i : Nat) (c : SyncObj) : (setObj k i c).alarmDrops = k.alarmDrops := rfl
@[simp] theorem setObj_alarms (k : Deck) (i : Nat) (c : SyncObj) : (setObj k i c).alarms = k.alarms := rfl
@[simp] theorem setObj_mbxBase (k : Deck) (i : Nat) (c : SyncObj) : (setObj k i c).mbxBase = k.mbxBase := rfl
@[simp] theorem setObj_mbxCtx (k : Deck) (i : Nat) (c : SyncObj) : (setObj k i c).mbxCtx = k.mbxCtx := rfl
@[simp] theorem setObj_mbxSync (k : Deck) (i : Nat) (c : SyncObj) : (setObj k i c).mbxSync = k.mbxSync := rfl
@[simp] theorem setObj_mbxValid (k : Deck) (i : Nat) (c : SyncObj) : (setObj k i c).mbxValid = k.mbxValid := rfl
@[simp] theorem setObj_penMap (k : Deck) (i : Nat) (c : SyncObj) : (setObj k i c).penMap = k.penMap := rfl
@[simp] theorem setObj_penFlash (k : Deck) (i : Nat) (c : SyncObj) : (setObj k i c).penFlash = k.penFlash := rfl
@[simp] theorem setObj_penOlder (k : Deck) (i : Nat) (c : SyncObj) : (setObj k i c).penOlder = k.penOlder := rfl
@[simp] theorem setObj_pensBad (k : Deck) (i : Nat) (c : SyncObj) : (setObj k i c).pensBad = k.pensBad := rfl
@[simp] theorem setObj_shadow (k : Deck) (i : Nat) (c : SyncObj) : (setObj k i c).shadow = k.shadow := rfl
@[simp] theorem setObj_scrubUntil (k : Deck) (i : Nat) (c : SyncObj) : (setObj k i c).scrubUntil = k.scrubUntil := rfl
@[simp] theorem setObj_shadowUntil (k : Deck) (i : Nat) (c : SyncObj) : (setObj k i c).shadowUntil = k.shadowUntil := rfl
@[simp] theorem setObj_rampRows (k : Deck) (i : Nat) (c : SyncObj) : (setObj k i c).rampRows = k.rampRows := rfl
@[simp] theorem setObj_outOfService (k : Deck) (i : Nat) (c : SyncObj) : (setObj k i c).outOfService = k.outOfService := rfl
@[simp] theorem setObj_maint (k : Deck) (i : Nat) (c : SyncObj) : (setObj k i c).maint = k.maint := rfl
@[simp] theorem setObj_hubLinkFailed (k : Deck) (i : Nat) (c : SyncObj) : (setObj k i c).hubLinkFailed = k.hubLinkFailed := rfl
@[simp] theorem setObj_reset (k : Deck) (i : Nat) (c : SyncObj) : (setObj k i c).reset = k.reset := rfl
@[simp] theorem setObj_clearing (k : Deck) (i : Nat) (c : SyncObj) : (setObj k i c).clearing = k.clearing := rfl
@[simp] theorem setObj_power (k : Deck) (i : Nat) (c : SyncObj) : (setObj k i c).power = k.power := rfl
@[simp] theorem setObj_dockReq (k : Deck) (i : Nat) (c : SyncObj) : (setObj k i c).dockReq = k.dockReq := rfl
@[simp] theorem setObj_admitted (k : Deck) (i : Nat) (c : SyncObj) : (setObj k i c).admitted = k.admitted := rfl
@[simp] theorem setObj_quiesced (k : Deck) (i : Nat) (c : SyncObj) : (setObj k i c).quiesced = k.quiesced := rfl
@[simp] theorem setObj_scrubRun (k : Deck) (i : Nat) (c : SyncObj) : (setObj k i c).scrubRun = k.scrubRun := rfl
@[simp] theorem setObj_scrubStart (k : Deck) (i : Nat) (c : SyncObj) : (setObj k i c).scrubStart = k.scrubStart := rfl
@[simp] theorem setObj_scrubPos (k : Deck) (i : Nat) (c : SyncObj) : (setObj k i c).scrubPos = k.scrubPos := rfl
@[simp] theorem setObj_holdQ (k : Deck) (i : Nat) (c : SyncObj) : (setObj k i c).holdQ = k.holdQ := rfl
@[simp] theorem setObj_txq (k : Deck) (i : Nat) (c : SyncObj) : (setObj k i c).txq = k.txq := rfl
@[simp] theorem setObj_latent (k : Deck) (i : Nat) (c : SyncObj) : (setObj k i c).latent = k.latent := rfl
@[simp] theorem setObj_clearedAt (k : Deck) (i : Nat) (c : SyncObj) : (setObj k i c).clearedAt = k.clearedAt := rfl
@[simp] theorem setObj_unboundAt (k : Deck) (i : Nat) (c : SyncObj) : (setObj k i c).unboundAt = k.unboundAt := rfl
@[simp] theorem setObj_hotAt (k : Deck) (i : Nat) (c : SyncObj) : (setObj k i c).hotAt = k.hotAt := rfl

/-! ### setGroup -/

@[simp] theorem setGroup_cores (k : Deck) (i : Nat) (c : SyncGroup) : (setGroup k i c).cores = k.cores := rfl
@[simp] theorem setGroup_objs (k : Deck) (i : Nat) (c : SyncGroup) : (setGroup k i c).objs = k.objs := rfl
@[simp] theorem setGroup_groups (k : Deck) (i : Nat) (c : SyncGroup) : (setGroup k i c).groups = mapSet {} k.groups i c := rfl
@[simp] theorem setGroup_waiters (k : Deck) (i : Nat) (c : SyncGroup) : (setGroup k i c).waiters = k.waiters := rfl
@[simp] theorem setGroup_tallies (k : Deck) (i : Nat) (c : SyncGroup) : (setGroup k i c).tallies = k.tallies := rfl
@[simp] theorem setGroup_tlyQueue (k : Deck) (i : Nat) (c : SyncGroup) : (setGroup k i c).tlyQueue = k.tlyQueue := rfl
@[simp] theorem setGroup_binSat (k : Deck) (i : Nat) (c : SyncGroup) : (setGroup k i c).binSat = k.binSat := rfl
@[simp] theorem setGroup_ctxs (k : Deck) (i : Nat) (c : SyncGroup) : (setGroup k i c).ctxs = k.ctxs := rfl
@[simp] theorem setGroup_gateDrop (k : Deck) (i : Nat) (c : SyncGroup) : (setGroup k i c).gateDrop = k.gateDrop := rfl
@[simp] theorem setGroup_ctxDrop (k : Deck) (i : Nat) (c : SyncGroup) : (setGroup k i c).ctxDrop = k.ctxDrop := rfl
@[simp] theorem setGroup_streams (k : Deck) (i : Nat) (c : SyncGroup) : (setGroup k i c).streams = k.streams := rfl
@[simp] theorem setGroup_launches (k : Deck) (i : Nat) (c : SyncGroup) : (setGroup k i c).launches = k.launches := rfl
@[simp] theorem setGroup_nextLaunch (k : Deck) (i : Nat) (c : SyncGroup) : (setGroup k i c).nextLaunch = k.nextLaunch := rfl
@[simp] theorem setGroup_nextOrder (k : Deck) (i : Nat) (c : SyncGroup) : (setGroup k i c).nextOrder = k.nextOrder := rfl
@[simp] theorem setGroup_mem (k : Deck) (i : Nat) (c : SyncGroup) : (setGroup k i c).mem = k.mem := rfl
@[simp] theorem setGroup_memBad (k : Deck) (i : Nat) (c : SyncGroup) : (setGroup k i c).memBad = k.memBad := rfl
@[simp] theorem setGroup_stks (k : Deck) (i : Nat) (c : SyncGroup) : (setGroup k i c).stks = k.stks := rfl
@[simp] theorem setGroup_sched (k : Deck) (i : Nat) (c : SyncGroup) : (setGroup k i c).sched = k.sched := rfl
@[simp] theorem setGroup_dschedBase (k : Deck) (i : Nat) (c : SyncGroup) : (setGroup k i c).dschedBase = k.dschedBase := rfl
@[simp] theorem setGroup_dschedCount (k : Deck) (i : Nat) (c : SyncGroup) : (setGroup k i c).dschedCount = k.dschedCount := rfl
@[simp] theorem setGroup_missed (k : Deck) (i : Nat) (c : SyncGroup) : (setGroup k i c).missed = k.missed := rfl
@[simp] theorem setGroup_alarmDrops (k : Deck) (i : Nat) (c : SyncGroup) : (setGroup k i c).alarmDrops = k.alarmDrops := rfl
@[simp] theorem setGroup_alarms (k : Deck) (i : Nat) (c : SyncGroup) : (setGroup k i c).alarms = k.alarms := rfl
@[simp] theorem setGroup_mbxBase (k : Deck) (i : Nat) (c : SyncGroup) : (setGroup k i c).mbxBase = k.mbxBase := rfl
@[simp] theorem setGroup_mbxCtx (k : Deck) (i : Nat) (c : SyncGroup) : (setGroup k i c).mbxCtx = k.mbxCtx := rfl
@[simp] theorem setGroup_mbxSync (k : Deck) (i : Nat) (c : SyncGroup) : (setGroup k i c).mbxSync = k.mbxSync := rfl
@[simp] theorem setGroup_mbxValid (k : Deck) (i : Nat) (c : SyncGroup) : (setGroup k i c).mbxValid = k.mbxValid := rfl
@[simp] theorem setGroup_penMap (k : Deck) (i : Nat) (c : SyncGroup) : (setGroup k i c).penMap = k.penMap := rfl
@[simp] theorem setGroup_penFlash (k : Deck) (i : Nat) (c : SyncGroup) : (setGroup k i c).penFlash = k.penFlash := rfl
@[simp] theorem setGroup_penOlder (k : Deck) (i : Nat) (c : SyncGroup) : (setGroup k i c).penOlder = k.penOlder := rfl
@[simp] theorem setGroup_pensBad (k : Deck) (i : Nat) (c : SyncGroup) : (setGroup k i c).pensBad = k.pensBad := rfl
@[simp] theorem setGroup_shadow (k : Deck) (i : Nat) (c : SyncGroup) : (setGroup k i c).shadow = k.shadow := rfl
@[simp] theorem setGroup_scrubUntil (k : Deck) (i : Nat) (c : SyncGroup) : (setGroup k i c).scrubUntil = k.scrubUntil := rfl
@[simp] theorem setGroup_shadowUntil (k : Deck) (i : Nat) (c : SyncGroup) : (setGroup k i c).shadowUntil = k.shadowUntil := rfl
@[simp] theorem setGroup_rampRows (k : Deck) (i : Nat) (c : SyncGroup) : (setGroup k i c).rampRows = k.rampRows := rfl
@[simp] theorem setGroup_outOfService (k : Deck) (i : Nat) (c : SyncGroup) : (setGroup k i c).outOfService = k.outOfService := rfl
@[simp] theorem setGroup_maint (k : Deck) (i : Nat) (c : SyncGroup) : (setGroup k i c).maint = k.maint := rfl
@[simp] theorem setGroup_hubLinkFailed (k : Deck) (i : Nat) (c : SyncGroup) : (setGroup k i c).hubLinkFailed = k.hubLinkFailed := rfl
@[simp] theorem setGroup_reset (k : Deck) (i : Nat) (c : SyncGroup) : (setGroup k i c).reset = k.reset := rfl
@[simp] theorem setGroup_clearing (k : Deck) (i : Nat) (c : SyncGroup) : (setGroup k i c).clearing = k.clearing := rfl
@[simp] theorem setGroup_power (k : Deck) (i : Nat) (c : SyncGroup) : (setGroup k i c).power = k.power := rfl
@[simp] theorem setGroup_dockReq (k : Deck) (i : Nat) (c : SyncGroup) : (setGroup k i c).dockReq = k.dockReq := rfl
@[simp] theorem setGroup_admitted (k : Deck) (i : Nat) (c : SyncGroup) : (setGroup k i c).admitted = k.admitted := rfl
@[simp] theorem setGroup_quiesced (k : Deck) (i : Nat) (c : SyncGroup) : (setGroup k i c).quiesced = k.quiesced := rfl
@[simp] theorem setGroup_scrubRun (k : Deck) (i : Nat) (c : SyncGroup) : (setGroup k i c).scrubRun = k.scrubRun := rfl
@[simp] theorem setGroup_scrubStart (k : Deck) (i : Nat) (c : SyncGroup) : (setGroup k i c).scrubStart = k.scrubStart := rfl
@[simp] theorem setGroup_scrubPos (k : Deck) (i : Nat) (c : SyncGroup) : (setGroup k i c).scrubPos = k.scrubPos := rfl
@[simp] theorem setGroup_holdQ (k : Deck) (i : Nat) (c : SyncGroup) : (setGroup k i c).holdQ = k.holdQ := rfl
@[simp] theorem setGroup_txq (k : Deck) (i : Nat) (c : SyncGroup) : (setGroup k i c).txq = k.txq := rfl
@[simp] theorem setGroup_latent (k : Deck) (i : Nat) (c : SyncGroup) : (setGroup k i c).latent = k.latent := rfl
@[simp] theorem setGroup_clearedAt (k : Deck) (i : Nat) (c : SyncGroup) : (setGroup k i c).clearedAt = k.clearedAt := rfl
@[simp] theorem setGroup_unboundAt (k : Deck) (i : Nat) (c : SyncGroup) : (setGroup k i c).unboundAt = k.unboundAt := rfl
@[simp] theorem setGroup_hotAt (k : Deck) (i : Nat) (c : SyncGroup) : (setGroup k i c).hotAt = k.hotAt := rfl

/-! ### setStream -/

@[simp] theorem setStream_cores (k : Deck) (i : Nat) (c : Option Stream) : (setStream k i c).cores = k.cores := rfl
@[simp] theorem setStream_objs (k : Deck) (i : Nat) (c : Option Stream) : (setStream k i c).objs = k.objs := rfl
@[simp] theorem setStream_groups (k : Deck) (i : Nat) (c : Option Stream) : (setStream k i c).groups = k.groups := rfl
@[simp] theorem setStream_waiters (k : Deck) (i : Nat) (c : Option Stream) : (setStream k i c).waiters = k.waiters := rfl
@[simp] theorem setStream_tallies (k : Deck) (i : Nat) (c : Option Stream) : (setStream k i c).tallies = k.tallies := rfl
@[simp] theorem setStream_tlyQueue (k : Deck) (i : Nat) (c : Option Stream) : (setStream k i c).tlyQueue = k.tlyQueue := rfl
@[simp] theorem setStream_binSat (k : Deck) (i : Nat) (c : Option Stream) : (setStream k i c).binSat = k.binSat := rfl
@[simp] theorem setStream_ctxs (k : Deck) (i : Nat) (c : Option Stream) : (setStream k i c).ctxs = k.ctxs := rfl
@[simp] theorem setStream_gateDrop (k : Deck) (i : Nat) (c : Option Stream) : (setStream k i c).gateDrop = k.gateDrop := rfl
@[simp] theorem setStream_ctxDrop (k : Deck) (i : Nat) (c : Option Stream) : (setStream k i c).ctxDrop = k.ctxDrop := rfl
@[simp] theorem setStream_streams (k : Deck) (i : Nat) (c : Option Stream) : (setStream k i c).streams = mapSet none k.streams i c := rfl
@[simp] theorem setStream_launches (k : Deck) (i : Nat) (c : Option Stream) : (setStream k i c).launches = k.launches := rfl
@[simp] theorem setStream_nextLaunch (k : Deck) (i : Nat) (c : Option Stream) : (setStream k i c).nextLaunch = k.nextLaunch := rfl
@[simp] theorem setStream_nextOrder (k : Deck) (i : Nat) (c : Option Stream) : (setStream k i c).nextOrder = k.nextOrder := rfl
@[simp] theorem setStream_mem (k : Deck) (i : Nat) (c : Option Stream) : (setStream k i c).mem = k.mem := rfl
@[simp] theorem setStream_memBad (k : Deck) (i : Nat) (c : Option Stream) : (setStream k i c).memBad = k.memBad := rfl
@[simp] theorem setStream_stks (k : Deck) (i : Nat) (c : Option Stream) : (setStream k i c).stks = k.stks := rfl
@[simp] theorem setStream_sched (k : Deck) (i : Nat) (c : Option Stream) : (setStream k i c).sched = k.sched := rfl
@[simp] theorem setStream_dschedBase (k : Deck) (i : Nat) (c : Option Stream) : (setStream k i c).dschedBase = k.dschedBase := rfl
@[simp] theorem setStream_dschedCount (k : Deck) (i : Nat) (c : Option Stream) : (setStream k i c).dschedCount = k.dschedCount := rfl
@[simp] theorem setStream_missed (k : Deck) (i : Nat) (c : Option Stream) : (setStream k i c).missed = k.missed := rfl
@[simp] theorem setStream_alarmDrops (k : Deck) (i : Nat) (c : Option Stream) : (setStream k i c).alarmDrops = k.alarmDrops := rfl
@[simp] theorem setStream_alarms (k : Deck) (i : Nat) (c : Option Stream) : (setStream k i c).alarms = k.alarms := rfl
@[simp] theorem setStream_mbxBase (k : Deck) (i : Nat) (c : Option Stream) : (setStream k i c).mbxBase = k.mbxBase := rfl
@[simp] theorem setStream_mbxCtx (k : Deck) (i : Nat) (c : Option Stream) : (setStream k i c).mbxCtx = k.mbxCtx := rfl
@[simp] theorem setStream_mbxSync (k : Deck) (i : Nat) (c : Option Stream) : (setStream k i c).mbxSync = k.mbxSync := rfl
@[simp] theorem setStream_mbxValid (k : Deck) (i : Nat) (c : Option Stream) : (setStream k i c).mbxValid = k.mbxValid := rfl
@[simp] theorem setStream_penMap (k : Deck) (i : Nat) (c : Option Stream) : (setStream k i c).penMap = k.penMap := rfl
@[simp] theorem setStream_penFlash (k : Deck) (i : Nat) (c : Option Stream) : (setStream k i c).penFlash = k.penFlash := rfl
@[simp] theorem setStream_penOlder (k : Deck) (i : Nat) (c : Option Stream) : (setStream k i c).penOlder = k.penOlder := rfl
@[simp] theorem setStream_pensBad (k : Deck) (i : Nat) (c : Option Stream) : (setStream k i c).pensBad = k.pensBad := rfl
@[simp] theorem setStream_shadow (k : Deck) (i : Nat) (c : Option Stream) : (setStream k i c).shadow = k.shadow := rfl
@[simp] theorem setStream_scrubUntil (k : Deck) (i : Nat) (c : Option Stream) : (setStream k i c).scrubUntil = k.scrubUntil := rfl
@[simp] theorem setStream_shadowUntil (k : Deck) (i : Nat) (c : Option Stream) : (setStream k i c).shadowUntil = k.shadowUntil := rfl
@[simp] theorem setStream_rampRows (k : Deck) (i : Nat) (c : Option Stream) : (setStream k i c).rampRows = k.rampRows := rfl
@[simp] theorem setStream_outOfService (k : Deck) (i : Nat) (c : Option Stream) : (setStream k i c).outOfService = k.outOfService := rfl
@[simp] theorem setStream_maint (k : Deck) (i : Nat) (c : Option Stream) : (setStream k i c).maint = k.maint := rfl
@[simp] theorem setStream_hubLinkFailed (k : Deck) (i : Nat) (c : Option Stream) : (setStream k i c).hubLinkFailed = k.hubLinkFailed := rfl
@[simp] theorem setStream_reset (k : Deck) (i : Nat) (c : Option Stream) : (setStream k i c).reset = k.reset := rfl
@[simp] theorem setStream_clearing (k : Deck) (i : Nat) (c : Option Stream) : (setStream k i c).clearing = k.clearing := rfl
@[simp] theorem setStream_power (k : Deck) (i : Nat) (c : Option Stream) : (setStream k i c).power = k.power := rfl
@[simp] theorem setStream_dockReq (k : Deck) (i : Nat) (c : Option Stream) : (setStream k i c).dockReq = k.dockReq := rfl
@[simp] theorem setStream_admitted (k : Deck) (i : Nat) (c : Option Stream) : (setStream k i c).admitted = k.admitted := rfl
@[simp] theorem setStream_quiesced (k : Deck) (i : Nat) (c : Option Stream) : (setStream k i c).quiesced = k.quiesced := rfl
@[simp] theorem setStream_scrubRun (k : Deck) (i : Nat) (c : Option Stream) : (setStream k i c).scrubRun = k.scrubRun := rfl
@[simp] theorem setStream_scrubStart (k : Deck) (i : Nat) (c : Option Stream) : (setStream k i c).scrubStart = k.scrubStart := rfl
@[simp] theorem setStream_scrubPos (k : Deck) (i : Nat) (c : Option Stream) : (setStream k i c).scrubPos = k.scrubPos := rfl
@[simp] theorem setStream_holdQ (k : Deck) (i : Nat) (c : Option Stream) : (setStream k i c).holdQ = k.holdQ := rfl
@[simp] theorem setStream_txq (k : Deck) (i : Nat) (c : Option Stream) : (setStream k i c).txq = k.txq := rfl
@[simp] theorem setStream_latent (k : Deck) (i : Nat) (c : Option Stream) : (setStream k i c).latent = k.latent := rfl
@[simp] theorem setStream_clearedAt (k : Deck) (i : Nat) (c : Option Stream) : (setStream k i c).clearedAt = k.clearedAt := rfl
@[simp] theorem setStream_unboundAt (k : Deck) (i : Nat) (c : Option Stream) : (setStream k i c).unboundAt = k.unboundAt := rfl
@[simp] theorem setStream_hotAt (k : Deck) (i : Nat) (c : Option Stream) : (setStream k i c).hotAt = k.hotAt := rfl

/-! ### setLaunch -/

@[simp] theorem setLaunch_cores (k : Deck) (i : Nat) (c : Option Launch) : (setLaunch k i c).cores = k.cores := rfl
@[simp] theorem setLaunch_objs (k : Deck) (i : Nat) (c : Option Launch) : (setLaunch k i c).objs = k.objs := rfl
@[simp] theorem setLaunch_groups (k : Deck) (i : Nat) (c : Option Launch) : (setLaunch k i c).groups = k.groups := rfl
@[simp] theorem setLaunch_waiters (k : Deck) (i : Nat) (c : Option Launch) : (setLaunch k i c).waiters = k.waiters := rfl
@[simp] theorem setLaunch_tallies (k : Deck) (i : Nat) (c : Option Launch) : (setLaunch k i c).tallies = k.tallies := rfl
@[simp] theorem setLaunch_tlyQueue (k : Deck) (i : Nat) (c : Option Launch) : (setLaunch k i c).tlyQueue = k.tlyQueue := rfl
@[simp] theorem setLaunch_binSat (k : Deck) (i : Nat) (c : Option Launch) : (setLaunch k i c).binSat = k.binSat := rfl
@[simp] theorem setLaunch_ctxs (k : Deck) (i : Nat) (c : Option Launch) : (setLaunch k i c).ctxs = k.ctxs := rfl
@[simp] theorem setLaunch_gateDrop (k : Deck) (i : Nat) (c : Option Launch) : (setLaunch k i c).gateDrop = k.gateDrop := rfl
@[simp] theorem setLaunch_ctxDrop (k : Deck) (i : Nat) (c : Option Launch) : (setLaunch k i c).ctxDrop = k.ctxDrop := rfl
@[simp] theorem setLaunch_streams (k : Deck) (i : Nat) (c : Option Launch) : (setLaunch k i c).streams = k.streams := rfl
@[simp] theorem setLaunch_launches (k : Deck) (i : Nat) (c : Option Launch) : (setLaunch k i c).launches = mapSet none k.launches i c := rfl
@[simp] theorem setLaunch_nextLaunch (k : Deck) (i : Nat) (c : Option Launch) : (setLaunch k i c).nextLaunch = k.nextLaunch := rfl
@[simp] theorem setLaunch_nextOrder (k : Deck) (i : Nat) (c : Option Launch) : (setLaunch k i c).nextOrder = k.nextOrder := rfl
@[simp] theorem setLaunch_mem (k : Deck) (i : Nat) (c : Option Launch) : (setLaunch k i c).mem = k.mem := rfl
@[simp] theorem setLaunch_memBad (k : Deck) (i : Nat) (c : Option Launch) : (setLaunch k i c).memBad = k.memBad := rfl
@[simp] theorem setLaunch_stks (k : Deck) (i : Nat) (c : Option Launch) : (setLaunch k i c).stks = k.stks := rfl
@[simp] theorem setLaunch_sched (k : Deck) (i : Nat) (c : Option Launch) : (setLaunch k i c).sched = k.sched := rfl
@[simp] theorem setLaunch_dschedBase (k : Deck) (i : Nat) (c : Option Launch) : (setLaunch k i c).dschedBase = k.dschedBase := rfl
@[simp] theorem setLaunch_dschedCount (k : Deck) (i : Nat) (c : Option Launch) : (setLaunch k i c).dschedCount = k.dschedCount := rfl
@[simp] theorem setLaunch_missed (k : Deck) (i : Nat) (c : Option Launch) : (setLaunch k i c).missed = k.missed := rfl
@[simp] theorem setLaunch_alarmDrops (k : Deck) (i : Nat) (c : Option Launch) : (setLaunch k i c).alarmDrops = k.alarmDrops := rfl
@[simp] theorem setLaunch_alarms (k : Deck) (i : Nat) (c : Option Launch) : (setLaunch k i c).alarms = k.alarms := rfl
@[simp] theorem setLaunch_mbxBase (k : Deck) (i : Nat) (c : Option Launch) : (setLaunch k i c).mbxBase = k.mbxBase := rfl
@[simp] theorem setLaunch_mbxCtx (k : Deck) (i : Nat) (c : Option Launch) : (setLaunch k i c).mbxCtx = k.mbxCtx := rfl
@[simp] theorem setLaunch_mbxSync (k : Deck) (i : Nat) (c : Option Launch) : (setLaunch k i c).mbxSync = k.mbxSync := rfl
@[simp] theorem setLaunch_mbxValid (k : Deck) (i : Nat) (c : Option Launch) : (setLaunch k i c).mbxValid = k.mbxValid := rfl
@[simp] theorem setLaunch_penMap (k : Deck) (i : Nat) (c : Option Launch) : (setLaunch k i c).penMap = k.penMap := rfl
@[simp] theorem setLaunch_penFlash (k : Deck) (i : Nat) (c : Option Launch) : (setLaunch k i c).penFlash = k.penFlash := rfl
@[simp] theorem setLaunch_penOlder (k : Deck) (i : Nat) (c : Option Launch) : (setLaunch k i c).penOlder = k.penOlder := rfl
@[simp] theorem setLaunch_pensBad (k : Deck) (i : Nat) (c : Option Launch) : (setLaunch k i c).pensBad = k.pensBad := rfl
@[simp] theorem setLaunch_shadow (k : Deck) (i : Nat) (c : Option Launch) : (setLaunch k i c).shadow = k.shadow := rfl
@[simp] theorem setLaunch_scrubUntil (k : Deck) (i : Nat) (c : Option Launch) : (setLaunch k i c).scrubUntil = k.scrubUntil := rfl
@[simp] theorem setLaunch_shadowUntil (k : Deck) (i : Nat) (c : Option Launch) : (setLaunch k i c).shadowUntil = k.shadowUntil := rfl
@[simp] theorem setLaunch_rampRows (k : Deck) (i : Nat) (c : Option Launch) : (setLaunch k i c).rampRows = k.rampRows := rfl
@[simp] theorem setLaunch_outOfService (k : Deck) (i : Nat) (c : Option Launch) : (setLaunch k i c).outOfService = k.outOfService := rfl
@[simp] theorem setLaunch_maint (k : Deck) (i : Nat) (c : Option Launch) : (setLaunch k i c).maint = k.maint := rfl
@[simp] theorem setLaunch_hubLinkFailed (k : Deck) (i : Nat) (c : Option Launch) : (setLaunch k i c).hubLinkFailed = k.hubLinkFailed := rfl
@[simp] theorem setLaunch_reset (k : Deck) (i : Nat) (c : Option Launch) : (setLaunch k i c).reset = k.reset := rfl
@[simp] theorem setLaunch_clearing (k : Deck) (i : Nat) (c : Option Launch) : (setLaunch k i c).clearing = k.clearing := rfl
@[simp] theorem setLaunch_power (k : Deck) (i : Nat) (c : Option Launch) : (setLaunch k i c).power = k.power := rfl
@[simp] theorem setLaunch_dockReq (k : Deck) (i : Nat) (c : Option Launch) : (setLaunch k i c).dockReq = k.dockReq := rfl
@[simp] theorem setLaunch_admitted (k : Deck) (i : Nat) (c : Option Launch) : (setLaunch k i c).admitted = k.admitted := rfl
@[simp] theorem setLaunch_quiesced (k : Deck) (i : Nat) (c : Option Launch) : (setLaunch k i c).quiesced = k.quiesced := rfl
@[simp] theorem setLaunch_scrubRun (k : Deck) (i : Nat) (c : Option Launch) : (setLaunch k i c).scrubRun = k.scrubRun := rfl
@[simp] theorem setLaunch_scrubStart (k : Deck) (i : Nat) (c : Option Launch) : (setLaunch k i c).scrubStart = k.scrubStart := rfl
@[simp] theorem setLaunch_scrubPos (k : Deck) (i : Nat) (c : Option Launch) : (setLaunch k i c).scrubPos = k.scrubPos := rfl
@[simp] theorem setLaunch_holdQ (k : Deck) (i : Nat) (c : Option Launch) : (setLaunch k i c).holdQ = k.holdQ := rfl
@[simp] theorem setLaunch_txq (k : Deck) (i : Nat) (c : Option Launch) : (setLaunch k i c).txq = k.txq := rfl
@[simp] theorem setLaunch_latent (k : Deck) (i : Nat) (c : Option Launch) : (setLaunch k i c).latent = k.latent := rfl
@[simp] theorem setLaunch_clearedAt (k : Deck) (i : Nat) (c : Option Launch) : (setLaunch k i c).clearedAt = k.clearedAt := rfl
@[simp] theorem setLaunch_unboundAt (k : Deck) (i : Nat) (c : Option Launch) : (setLaunch k i c).unboundAt = k.unboundAt := rfl
@[simp] theorem setLaunch_hotAt (k : Deck) (i : Nat) (c : Option Launch) : (setLaunch k i c).hotAt = k.hotAt := rfl

/-! ### setStack -/

@[simp] theorem setStack_cores (k : Deck) (i : Nat) (c : Stack) : (setStack k i c).cores = k.cores := rfl
@[simp] theorem setStack_objs (k : Deck) (i : Nat) (c : Stack) : (setStack k i c).objs = k.objs := rfl
@[simp] theorem setStack_groups (k : Deck) (i : Nat) (c : Stack) : (setStack k i c).groups = k.groups := rfl
@[simp] theorem setStack_waiters (k : Deck) (i : Nat) (c : Stack) : (setStack k i c).waiters = k.waiters := rfl
@[simp] theorem setStack_tallies (k : Deck) (i : Nat) (c : Stack) : (setStack k i c).tallies = k.tallies := rfl
@[simp] theorem setStack_tlyQueue (k : Deck) (i : Nat) (c : Stack) : (setStack k i c).tlyQueue = k.tlyQueue := rfl
@[simp] theorem setStack_binSat (k : Deck) (i : Nat) (c : Stack) : (setStack k i c).binSat = k.binSat := rfl
@[simp] theorem setStack_ctxs (k : Deck) (i : Nat) (c : Stack) : (setStack k i c).ctxs = k.ctxs := rfl
@[simp] theorem setStack_gateDrop (k : Deck) (i : Nat) (c : Stack) : (setStack k i c).gateDrop = k.gateDrop := rfl
@[simp] theorem setStack_ctxDrop (k : Deck) (i : Nat) (c : Stack) : (setStack k i c).ctxDrop = k.ctxDrop := rfl
@[simp] theorem setStack_streams (k : Deck) (i : Nat) (c : Stack) : (setStack k i c).streams = k.streams := rfl
@[simp] theorem setStack_launches (k : Deck) (i : Nat) (c : Stack) : (setStack k i c).launches = k.launches := rfl
@[simp] theorem setStack_nextLaunch (k : Deck) (i : Nat) (c : Stack) : (setStack k i c).nextLaunch = k.nextLaunch := rfl
@[simp] theorem setStack_nextOrder (k : Deck) (i : Nat) (c : Stack) : (setStack k i c).nextOrder = k.nextOrder := rfl
@[simp] theorem setStack_mem (k : Deck) (i : Nat) (c : Stack) : (setStack k i c).mem = k.mem := rfl
@[simp] theorem setStack_memBad (k : Deck) (i : Nat) (c : Stack) : (setStack k i c).memBad = k.memBad := rfl
@[simp] theorem setStack_stks (k : Deck) (i : Nat) (c : Stack) : (setStack k i c).stks = mapSet {} k.stks i c := rfl
@[simp] theorem setStack_sched (k : Deck) (i : Nat) (c : Stack) : (setStack k i c).sched = k.sched := rfl
@[simp] theorem setStack_dschedBase (k : Deck) (i : Nat) (c : Stack) : (setStack k i c).dschedBase = k.dschedBase := rfl
@[simp] theorem setStack_dschedCount (k : Deck) (i : Nat) (c : Stack) : (setStack k i c).dschedCount = k.dschedCount := rfl
@[simp] theorem setStack_missed (k : Deck) (i : Nat) (c : Stack) : (setStack k i c).missed = k.missed := rfl
@[simp] theorem setStack_alarmDrops (k : Deck) (i : Nat) (c : Stack) : (setStack k i c).alarmDrops = k.alarmDrops := rfl
@[simp] theorem setStack_alarms (k : Deck) (i : Nat) (c : Stack) : (setStack k i c).alarms = k.alarms := rfl
@[simp] theorem setStack_mbxBase (k : Deck) (i : Nat) (c : Stack) : (setStack k i c).mbxBase = k.mbxBase := rfl
@[simp] theorem setStack_mbxCtx (k : Deck) (i : Nat) (c : Stack) : (setStack k i c).mbxCtx = k.mbxCtx := rfl
@[simp] theorem setStack_mbxSync (k : Deck) (i : Nat) (c : Stack) : (setStack k i c).mbxSync = k.mbxSync := rfl
@[simp] theorem setStack_mbxValid (k : Deck) (i : Nat) (c : Stack) : (setStack k i c).mbxValid = k.mbxValid := rfl
@[simp] theorem setStack_penMap (k : Deck) (i : Nat) (c : Stack) : (setStack k i c).penMap = k.penMap := rfl
@[simp] theorem setStack_penFlash (k : Deck) (i : Nat) (c : Stack) : (setStack k i c).penFlash = k.penFlash := rfl
@[simp] theorem setStack_penOlder (k : Deck) (i : Nat) (c : Stack) : (setStack k i c).penOlder = k.penOlder := rfl
@[simp] theorem setStack_pensBad (k : Deck) (i : Nat) (c : Stack) : (setStack k i c).pensBad = k.pensBad := rfl
@[simp] theorem setStack_shadow (k : Deck) (i : Nat) (c : Stack) : (setStack k i c).shadow = k.shadow := rfl
@[simp] theorem setStack_scrubUntil (k : Deck) (i : Nat) (c : Stack) : (setStack k i c).scrubUntil = k.scrubUntil := rfl
@[simp] theorem setStack_shadowUntil (k : Deck) (i : Nat) (c : Stack) : (setStack k i c).shadowUntil = k.shadowUntil := rfl
@[simp] theorem setStack_rampRows (k : Deck) (i : Nat) (c : Stack) : (setStack k i c).rampRows = k.rampRows := rfl
@[simp] theorem setStack_outOfService (k : Deck) (i : Nat) (c : Stack) : (setStack k i c).outOfService = k.outOfService := rfl
@[simp] theorem setStack_maint (k : Deck) (i : Nat) (c : Stack) : (setStack k i c).maint = k.maint := rfl
@[simp] theorem setStack_hubLinkFailed (k : Deck) (i : Nat) (c : Stack) : (setStack k i c).hubLinkFailed = k.hubLinkFailed := rfl
@[simp] theorem setStack_reset (k : Deck) (i : Nat) (c : Stack) : (setStack k i c).reset = k.reset := rfl
@[simp] theorem setStack_clearing (k : Deck) (i : Nat) (c : Stack) : (setStack k i c).clearing = k.clearing := rfl
@[simp] theorem setStack_power (k : Deck) (i : Nat) (c : Stack) : (setStack k i c).power = k.power := rfl
@[simp] theorem setStack_dockReq (k : Deck) (i : Nat) (c : Stack) : (setStack k i c).dockReq = k.dockReq := rfl
@[simp] theorem setStack_admitted (k : Deck) (i : Nat) (c : Stack) : (setStack k i c).admitted = k.admitted := rfl
@[simp] theorem setStack_quiesced (k : Deck) (i : Nat) (c : Stack) : (setStack k i c).quiesced = k.quiesced := rfl
@[simp] theorem setStack_scrubRun (k : Deck) (i : Nat) (c : Stack) : (setStack k i c).scrubRun = k.scrubRun := rfl
@[simp] theorem setStack_scrubStart (k : Deck) (i : Nat) (c : Stack) : (setStack k i c).scrubStart = k.scrubStart := rfl
@[simp] theorem setStack_scrubPos (k : Deck) (i : Nat) (c : Stack) : (setStack k i c).scrubPos = k.scrubPos := rfl
@[simp] theorem setStack_holdQ (k : Deck) (i : Nat) (c : Stack) : (setStack k i c).holdQ = k.holdQ := rfl
@[simp] theorem setStack_txq (k : Deck) (i : Nat) (c : Stack) : (setStack k i c).txq = k.txq := rfl
@[simp] theorem setStack_latent (k : Deck) (i : Nat) (c : Stack) : (setStack k i c).latent = k.latent := rfl
@[simp] theorem setStack_clearedAt (k : Deck) (i : Nat) (c : Stack) : (setStack k i c).clearedAt = k.clearedAt := rfl
@[simp] theorem setStack_unboundAt (k : Deck) (i : Nat) (c : Stack) : (setStack k i c).unboundAt = k.unboundAt := rfl
@[simp] theorem setStack_hotAt (k : Deck) (i : Nat) (c : Stack) : (setStack k i c).hotAt = k.hotAt := rfl

/-! ### Reading back -/

@[simp] theorem deckAt_setDeck (s : State) (d : Nat) (k : Deck) : deckAt (setDeck s d k) d = k := mapGet_set_same _ s.decks d k
theorem deckAt_setDeck_other (s : State) (d e : Nat) (k : Deck) (h : e ≠ d) : deckAt (setDeck s d k) e = deckAt s e :=
  mapGet_set_other _ s.decks d e k h
@[simp] theorem portAt_setPort (s : State) (p : Nat) (k : Port) : portAt (setPort s p k) p = k := mapGet_set_same _ s.ports p k
theorem portAt_setPort_other (s : State) (p q : Nat) (k : Port) (h : q ≠ p) : portAt (setPort s p k) q = portAt s q :=
  mapGet_set_other _ s.ports p q k h
@[simp] theorem ldAt_setLd (s : State) (k : Nat) (x : Ld) : ldAt (setLd s k x) k = x := mapGet_set_same _ s.host.lds k x
theorem ldAt_setLd_other (s : State) (k j : Nat) (x : Ld) (h : j ≠ k) : ldAt (setLd s k x) j = ldAt s j :=
  mapGet_set_other _ s.host.lds k j x h
@[simp] theorem coreAt_setCore (k : Deck) (i : Nat) (c : Core) : coreAt (setCore k i c) i = c := mapGet_set_same _ k.cores i c
theorem coreAt_setCore_other (k : Deck) (i j : Nat) (c : Core) (h : j ≠ i) : coreAt (setCore k i c) j = coreAt k j :=
  mapGet_set_other _ k.cores i j c h
@[simp] theorem objAt_setObj (k : Deck) (o : Nat) (x : SyncObj) : objAt (setObj k o x) o = x := mapGet_set_same _ k.objs o x
theorem objAt_setObj_other (k : Deck) (o p : Nat) (x : SyncObj) (h : p ≠ o) : objAt (setObj k o x) p = objAt k p :=
  mapGet_set_other _ k.objs o p x h
@[simp] theorem ctxAt_setCtx (k : Deck) (x : Nat) (c : Ctx) : ctxAt (setCtx k x c) x = c := mapGet_set_same _ k.ctxs x c
theorem ctxAt_setCtx_other (k : Deck) (x y : Nat) (c : Ctx) (h : y ≠ x) : ctxAt (setCtx k x c) y = ctxAt k y :=
  mapGet_set_other _ k.ctxs x y c h
@[simp] theorem streamAt_setStream (k : Deck) (n : Nat) (x : Option Stream) : streamAt (setStream k n x) n = x :=
  mapGet_set_same none k.streams n x
@[simp] theorem launchAt_setLaunch (k : Deck) (n : Nat) (x : Option Launch) : launchAt (setLaunch k n x) n = x :=
  mapGet_set_same none k.launches n x
@[simp] theorem stackAt_setStack (k : Deck) (n : Nat) (x : Stack) : stackAt (setStack k n x) n = x :=
  mapGet_set_same _ k.stks n x

end Sys2Proof.Machine
end

