-- ==== Sys2Proof/Laws/Core.lean ====
section
/-! SUPPORT. What the shared operations of a core can do: an operation of a deck that asks for nothing, retiring, issuing a
scalar or an engine instruction, faulting. -/
namespace Sys2Proof.Machine
open Sys2Proof

/-! ### Operations of a deck -/

/-- An operation that asks for nothing only replaces the deck. -/
theorem onDeck_pure (s : State) (d : Nat) (f : Deck → DeckRes) (k : Deck) (h : f (deckAt s d) = (k, [])) :
    onDeck s d f = setDeck s d k := by
  simp [onDeck, applyRes, putDeck, collsOf, fireReports, reportsOf, h]

theorem setDeck_onlyDeck (s : State) (d : Nat) (k : Deck) : onlyDeck s (setDeck s d k) d :=
  ⟨rfl, fun e he => deckAt_setDeck_other s d e k he⟩

@[simp] theorem coreOf_putCore (s : State) (c : CoreRef) (k : Core) : coreOf (putCore s c k) c = k := by
  simp [coreOf, putCore]

theorem putCore_deck (s : State) (c : CoreRef) (k : Core) :
    putCore s c k = setDeck s c.deck (setCore (deckAt s c.deck) c.core k) := rfl

/-! ### Retiring -/

/-- Away from every end word, retiring changes no loop. -/
theorem endFrames_plain (fs : List LoopFrame) (live : SMap (BitVec 32)) (w : Nat) (h : ∀ f ∈ fs, f.last ≠ w) :
    endFrames fs live w = (fs, live, w + 1) := by
  cases fs with
  | nil => rfl
  | cons f rest => simp [endFrames, h f (by simp)]

/-- An instruction whose last word `w` ends no loop body retires to the next word. -/
theorem retireOn_plain (d : Deck) (i : Nat) (c : Core) (w : Nat) (h : ∀ f ∈ c.loops, f.last ≠ w) (hw : w < 8191) :
    retireOn d i c w = setCore d i { c with pc := BitVec.ofNat 13 (w + 1) } := by
  have : ¬ 8191 < w + 1 := by omega
  simp [retireOn, retire, endFrames_plain _ _ _ h, this]

theorem plainNext_iff (k : Core) : plainNext k = true ↔ (∀ f ∈ k.loops, f.last ≠ k.pc.toNat) ∧ k.pc.toNat < 8191 := by
  simp [plainNext]

theorem wideNext_iff (k : Core) :
    wideNext k = true ↔ (∀ f ∈ k.loops, f.last ≠ k.pc.toNat ∧ f.last ≠ k.pc.toNat + 1) ∧ k.pc.toNat + 2 ≤ 8191 := by
  simp [wideNext]

theorem wideNext_fits (k : Core) (h : wideNext k = true) : wideFits k = true := by
  rw [wideNext_iff] at h
  simp only [wideFits, bne_iff_ne, ne_eq, List.all_eq_true]
  exact fun f hf => (h.1 f hf).1

theorem wideNext_pc (k : Core) (h : wideNext k = true) : k.pc ≠ 8191 := by
  rw [wideNext_iff] at h
  intro e; rw [e] at h; simp at h

theorem pc_next (p : BitVec 13) : BitVec.ofNat 13 (p.toNat + 1) = p + 1 := by
  apply BitVec.eq_of_toNat_eq; simp

theorem pc_next2 (p : BitVec 13) : BitVec.ofNat 13 (p.toNat + 1 + 1) = p + 2 := by
  apply BitVec.eq_of_toNat_eq; simp [Nat.add_assoc]

/-! ### Issuing -/

/-- A scalar instruction that goes on in sequence. -/
theorem issueScalar_seq (d : Deck) (i : Nat) (body : Core → CoreStep) (k' : Core) (h1 : scalarReady (coreAt d i) = true)
    (h2 : plainNext (coreAt d i) = true) (hb : body (coreAt d i) = .seq k') (hl : k'.loops = (coreAt d i).loops) :
    issueScalar d i true body = setCore d i { k' with pc := (coreAt d i).pc + 1 } := by
  rw [plainNext_iff] at h2
  simp only [issueScalar, h1, hb]
  rw [← pc_next]
  simp [retireOn_plain d i k' (coreAt d i).pc.toNat (by rw [hl]; exact h2.1) h2.2]

/-- A scalar instruction that faults. -/
theorem issueScalar_fault (d : Deck) (i : Nat) (body : Core → CoreStep) (st : Status) (h1 : scalarReady (coreAt d i) = true)
    (hb : body (coreAt d i) = .fault st) : issueScalar d i true body = coreFault d i st 0 (coreAt d i).pc := by
  simp [issueScalar, h1, hb]

/-- A scalar instruction whose encoding breaks R191. -/
theorem issueScalar_bad (d : Deck) (i : Nat) (body : Core → CoreStep) (h1 : scalarReady (coreAt d i) = true) :
    issueScalar d i false body = coreFault d i stBadParam 0 (coreAt d i).pc := by
  simp [issueScalar, h1]

/-- A scalar command that goes on in sequence answers the state with that core changed. -/
theorem scalarOp_seq (s : State) (c : CoreRef) (body : Core → CoreStep) (k' : Core) (h1 : canIssue s c = true)
    (h2 : plainNext (coreOf s c) = true) (hb : body (coreOf s c) = .seq k') (hl : k'.loops = (coreOf s c).loops) :
    scalarOp s c true body = .next (putCore s c { k' with pc := (coreOf s c).pc + 1 }) := by
  have h := issueScalar_seq (deckAt s c.deck) c.core body k' h1 h2 hb hl
  simp only [scalarOp, done, putCore]
  rw [onDeck_pure s c.deck _ _ (Prod.ext h rfl)]
  rfl

/-- A scalar command that faults. -/
theorem scalarOp_fault (s : State) (c : CoreRef) (body : Core → CoreStep) (st : Status) (h1 : canIssue s c = true)
    (hb : body (coreOf s c) = .fault st) :
    scalarOp s c true body = .next (setDeck s c.deck (coreFault (deckAt s c.deck) c.core st 0 (coreOf s c).pc)) := by
  have h := issueScalar_fault (deckAt s c.deck) c.core body st h1 hb
  simp only [scalarOp, done]
  rw [onDeck_pure s c.deck _ _ (Prod.ext h rfl)]
  rfl

/-- An engine instruction that passes its checks, without a result. -/
theorem issueEngine_plain (d : Deck) (i : Nat) (e : Engine) (check : Core → Option Status) (put : Core → Core)
    (hr : (coreAt d i).run = .ready) (hw : wideNext (coreAt d i) = true) (hq : queueFull (coreAt d i) e = false)
    (hc : check (coreAt d i) = none) (hp : (put (coreAt d i)).loops = (coreAt d i).loops) :
    issueEngine d i e true false check put =
      setCore d i { put (coreAt d i) with seq := (coreAt d i).seq + 1, pc := (coreAt d i).pc + 2 } := by
  have hf := wideNext_fits _ hw
  have h9 := wideNext_pc _ hw
  rw [wideNext_iff] at hw
  have hl : ∀ f ∈ ({ put (coreAt d i) with seq := (coreAt d i).seq + 1 } : Core).loops, f.last ≠ (coreAt d i).pc.toNat + 1 := by
    intro f h1; rw [show ({ put (coreAt d i) with seq := (coreAt d i).seq + 1 } : Core).loops = (coreAt d i).loops from hp] at h1
    exact (hw.1 f h1).2
  have h8 : (coreAt d i).pc.toNat + 1 < 8191 := by omega
  simp only [issueEngine, hr, hf, hq, hc]
  rw [← pc_next2]
  simp [retireOn_plain d i _ _ hl h8]
  exact fun e => absurd e h9

/-! ### Faults -/

theorem stopCore_regs (c : Core) : sameRegs c (stopCore c) ∧ (stopCore c).fault = c.fault ∧ (stopCore c).vq = c.vq ∧
    (stopCore c).xq = c.xq ∧ (stopCore c).mq.Sublist c.mq := by
  unfold stopCore sameRegs
  cases c.run <;> simp [List.filter_sublist]

/-- Stopping cores changes no register of any core. -/
theorem stopCores_core (is : List Nat) (d : Deck) (j : Nat) :
    let k := coreAt d j
    let k' := coreAt (stopCores d is) j
    sameRegs k k' ∧ k'.fault = k.fault ∧ k'.vq = k.vq ∧ k'.xq = k.xq ∧ k'.mq.Sublist k.mq := by
  have key : ∀ (is : List Nat) (d : Deck),
      let k := coreAt d j
      let k' := coreAt (is.foldl (fun d i => modCore d i stopCore) d) j
      sameRegs k k' ∧ k'.fault = k.fault ∧ k'.vq = k.vq ∧ k'.xq = k.xq ∧ k'.mq.Sublist k.mq := by
    intro is
    induction is with
    | nil => intro d; simp [sameRegs]
    | cons i rest ih =>
      intro d
      have h := ih (modCore d i stopCore)
      by_cases hj : j = i
      · subst hj
        have hs := stopCore_regs (coreAt d j)
        simp only [modCore, coreAt_setCore] at h
        simp only [List.foldl_cons, modCore]
        obtain ⟨⟨a1, a2, a3, a4, a5, a6, a7, a8, a9, a10, a11⟩, b, c, e, f⟩ := h
        obtain ⟨⟨p1, p2, p3, p4, p5, p6, p7, p8, p9, p10, p11⟩, q, r, t, u⟩ := hs
        exact ⟨⟨a1.trans p1, a2.trans p2, a3.trans p3, a4.trans p4, a5.trans p5, a6.trans p6, a7.trans p7, a8.trans p8,
          a9.trans p9, a10.trans p10, a11.trans p11⟩, b.trans q, c.trans r, e.trans t, f.trans u⟩
      · simp only [modCore, coreAt_setCore_other d i j _ hj] at h
        simpa only [List.foldl_cons, modCore] using h
  exact key is d

/-- A fault of core `i` writes CORE_FAULT unless an earlier one stands there, and changes no register and no queue but
the ganged instructions that wait. -/
theorem coreFault_core (d : Deck) (i : Nat) (st : Status) (e : BitVec 2) (pc : BitVec 13) :
    let k := coreAt d i
    let k' := coreAt (coreFault d i st e pc) i
    sameRegs k k' ∧ k'.fault = (if k.fault.valid then k.fault else { status := st, pc := pc, engine := e, valid := true }) ∧
    k'.vq = k.vq ∧ k'.xq = k.xq ∧ k'.mq.Sublist k.mq := by
  intro k k'
  have hset : ∀ (x : Core), sameRegs k x → x.vq = k.vq → x.xq = k.xq → x.mq = k.mq → ∀ (d' : Deck), coreAt d' i = x →
      ∀ is, let y := coreAt (stopCores d' is) i
        sameRegs k y ∧ y.fault = x.fault ∧ y.vq = k.vq ∧ y.xq = k.xq ∧ y.mq.Sublist k.mq := by
    intro x hx h1 h2 h3 d' hd is
    have h := stopCores_core is d' i
    simp only [hd] at h
    obtain ⟨⟨a1, a2, a3, a4, a5, a6, a7, a8, a9, a10, a11⟩, b, c, e, f⟩ := h
    obtain ⟨p1, p2, p3, p4, p5, p6, p7, p8, p9, p10, p11⟩ := hx
    exact ⟨⟨a1.trans p1, a2.trans p2, a3.trans p3, a4.trans p4, a5.trans p5, a6.trans p6, a7.trans p7, a8.trans p8,
      a9.trans p9, a10.trans p10, a11.trans p11⟩, b, c.trans h1, e.trans h2, h3 ▸ f⟩
  have hk' : k' = coreAt (coreFault d i st e pc) i := rfl
  rw [hk']
  by_cases hv : k.fault.valid = true
  · have hx := hset k (by simp [sameRegs]) rfl rfl rfl
    simp only [coreFault, show coreAt d i = k from rfl, hv, if_true]
    split
    · exact hx _ (by simp) _
    · split
      · exact hx _ (by simp) _
      · exact hx _ (by simp [setLaunch, coreAt, setCore]) _
  · have hx := hset { k with fault := { status := st, pc := pc, engine := e, valid := true } } (by simp [sameRegs]) rfl rfl rfl
    simp only [coreFault, show coreAt d i = k from rfl, hv, if_false, Bool.false_eq_true]
    split
    · exact hx _ (by simp) _
    · split
      · exact hx _ (by simp) _
      · exact hx _ (by simp [setLaunch, coreAt, setCore]) _

end Sys2Proof.Machine
end

