-- ==== Sys2Proof/Laws/Deck.lean ====
section
/-! SUPPORT. What the operations of a deck can touch: the sync unit's updates, the end of entries, launches and transfers,
and the stop of a deck reach cores, objects, waiters, hold registers, streams, launches and the hold unit's queue, and ask
for nothing but replies. -/
namespace Sys2Proof.Machine
open Sys2Proof

/-- `d'` differs from `d` at most in cores, objects, waiters, contexts, streams, launches and the hold unit's queue. -/
def workFrame (d d' : Deck) : Prop :=
  d' = { d with cores := d'.cores, objs := d'.objs, waiters := d'.waiters, ctxs := d'.ctxs, streams := d'.streams,
                launches := d'.launches, holdQ := d'.holdQ }

/-- Every request is a status reply. -/
def onlyReplies (es : List DeckEff) : Prop := ∀ e ∈ es, ∃ h st r, e = .reply h st r

/-- A deck result with both. -/
def tameRes (d : Deck) (r : DeckRes) : Prop := workFrame d r.1 ∧ onlyReplies r.2

theorem workFrame_refl (d : Deck) : workFrame d d := rfl

theorem workFrame_trans {a b c : Deck} (h1 : workFrame a b) (h2 : workFrame b c) : workFrame a c := by
  unfold workFrame at *
  rw [h2, h1]

theorem onlyReplies_nil : onlyReplies [] := by intro e he; simp at he

theorem onlyReplies_append {a b : List DeckEff} (h1 : onlyReplies a) (h2 : onlyReplies b) : onlyReplies (a ++ b) := by
  intro e he
  rcases List.mem_append.1 he with h | h
  · exact h1 e h
  · exact h2 e h

theorem onlyReplies_one (h : CmdHdr) (st : Status) (r : BitVec 64) : onlyReplies [.reply h st r] := by
  intro e he; simp at he; exact ⟨_, _, _, he⟩

theorem tame_pure {d d' : Deck} (h : workFrame d d') : tameRes d (d', []) := ⟨h, onlyReplies_nil⟩

theorem tame_refl (d : Deck) : tameRes d (d, []) := tame_pure rfl

/-- One tame operation after another. -/
theorem tame_then {d : Deck} {r q : DeckRes} (h1 : tameRes d r) (h2 : tameRes r.1 q) : tameRes d (q.1, r.2 ++ q.2) :=
  ⟨workFrame_trans h1.1 h2.1, onlyReplies_append h1.2 h2.2⟩

theorem tame_after {a b : Deck} {r : DeckRes} (h1 : workFrame a b) (h2 : tameRes b r) : tameRes a r :=
  ⟨workFrame_trans h1 h2.1, h2.2⟩

theorem workFrame_foldl {α : Type} (f : Deck → α → Deck) (hf : ∀ d x, workFrame d (f d x)) (xs : List α) (d : Deck) :
    workFrame d (xs.foldl f d) := by
  induction xs generalizing d with
  | nil => exact workFrame_refl d
  | cons x rest ih => exact workFrame_trans (hf d x) (ih _)

/-! ### Cores -/

theorem workFrame_setCore (d : Deck) (i : Nat) (c : Core) : workFrame d (setCore d i c) := rfl
theorem workFrame_modCore (d : Deck) (i : Nat) (f : Core → Core) : workFrame d (modCore d i f) := rfl
theorem workFrame_setStream (d : Deck) (n : Nat) (x : Option Stream) : workFrame d (setStream d n x) := rfl
theorem workFrame_setLaunch (d : Deck) (n : Nat) (x : Option Launch) : workFrame d (setLaunch d n x) := rfl
theorem workFrame_setHold (d : Deck) (x : Nat) (h : Hold) : workFrame d (setHold d x h) := rfl
theorem workFrame_setCtx (d : Deck) (x : Nat) (k : Ctx) : workFrame d (setCtx d x k) := rfl

theorem workFrame_stopCores (d : Deck) (is : List Nat) : workFrame d (stopCores d is) :=
  workFrame_trans (workFrame_foldl (fun d i => modCore d i stopCore) (fun d i => workFrame_modCore d i _) is d) rfl

theorem workFrame_coreFault (d : Deck) (i : Nat) (st : Status) (e : BitVec 2) (pc : BitVec 13) :
    workFrame d (coreFault d i st e pc) := by
  simp only [coreFault]
  split
  · exact workFrame_trans (workFrame_setCore d i _) (workFrame_stopCores _ _)
  · split
    · exact workFrame_trans (workFrame_setCore d i _) (workFrame_stopCores _ _)
    · exact workFrame_trans (workFrame_trans (workFrame_setCore d i _) (workFrame_setLaunch _ _ _)) (workFrame_stopCores _ _)

theorem workFrame_retireOn (d : Deck) (i : Nat) (c : Core) (w : Nat) : workFrame d (retireOn d i c w) := by
  simp only [retireOn]
  split
  · exact workFrame_trans (workFrame_setCore d i _) (workFrame_coreFault _ _ _ _ _)
  · exact workFrame_setCore d i _

theorem workFrame_releaseCore (d : Deck) (i : Nat) (sd : BitVec 5) (st : Status) : workFrame d (releaseCore d i sd st) := by
  simp only [releaseCore]
  split
  · exact workFrame_trans (workFrame_setCore d i _) (workFrame_coreFault _ _ _ _ _)
  · exact workFrame_retireOn _ _ _ _

theorem workFrame_settleEnd (d : Deck) (i : Nat) : workFrame d (settleEnd d i) := by
  simp only [settleEnd]
  split <;> rfl

theorem workFrame_giveResult (d : Deck) (i seq : Nat) (rd : BitVec 5) (v : W64) : workFrame d (giveResult d i seq rd v) := by
  simp only [giveResult]
  split
  · split
    · exact workFrame_retireOn _ _ _ _
    · rfl
  · rfl

/-! ### The sync unit -/

theorem workFrame_objUpdate (d : Deck) (u : ObjUpd) : workFrame d (objUpdate d u) := by
  simp only [objUpdate]
  split <;> rfl

theorem tame_discardPubs (d : Deck) (n : Nat) (s : Stream) (st : Status) :
    workFrame d (discardPubs d n s st).1 ∧ onlyReplies (discardPubs d n s st).2.2 := by
  refine ⟨rfl, ?_⟩
  intro e he
  simp only [discardPubs, List.mem_filterMap, Option.map_eq_some_iff] at he
  obtain ⟨p, -, h, -, rfl⟩ := he
  exact ⟨_, _, _, rfl⟩

theorem tame_endEntry (d : Deck) (n : Nat) (st : Status) (own : Option (BitVec 12)) (amt : BitVec 16) (hdr : Option CmdHdr) :
    workFrame d (endEntry d n st own amt hdr).1 ∧ onlyReplies (endEntry d n st own amt hdr).2.2 := by
  have hfin : onlyReplies (match hdr with
      | none => []
      | some h => [DeckEff.reply h st 0]) := by
    cases hdr with
    | none => exact onlyReplies_nil
    | some h => exact onlyReplies_one _ _ _
  simp only [endEntry]
  split
  · exact ⟨rfl, onlyReplies_nil⟩
  · rename_i s _
    by_cases hs : st = stGood
    · simp only [if_pos hs]
      split
      · exact ⟨workFrame_setStream d n _, onlyReplies_append hfin onlyReplies_nil⟩
      · exact ⟨workFrame_trans (workFrame_setStream d n _) (workFrame_setStream _ n _),
          onlyReplies_append (onlyReplies_append hfin onlyReplies_nil) (onlyReplies_one _ _ _)⟩
    · simp only [if_neg hs]
      have hd := tame_discardPubs (setStream d n (some { s with run := StreamRun.none })) n { s with run := StreamRun.none } st
      split
      · exact ⟨workFrame_trans (workFrame_setStream d n _) hd.1, onlyReplies_append hfin hd.2⟩
      · exact ⟨workFrame_trans (workFrame_trans (workFrame_setStream d n _) hd.1) (workFrame_setStream _ n _),
          onlyReplies_append (onlyReplies_append hfin hd.2) (onlyReplies_one _ _ _)⟩

theorem tame_evalWaiters (ws : List Waiter) (d : Deck) :
    workFrame d (evalWaiters ws d).1 ∧ onlyReplies (evalWaiters ws d).2.2 := by
  induction ws generalizing d with
  | nil => exact ⟨rfl, onlyReplies_nil⟩
  | cons w rest ih =>
    simp only [evalWaiters]
    split
    · exact ih d
    split
    · exact ih d
    · rename_i st _
      split
      · rename_i i _
        have h0 : workFrame d { d with waiters := d.waiters.filter (fun x => x.who ≠ w.who) } := rfl
        have h := ih (releaseCore { d with waiters := d.waiters.filter (fun x => x.who ≠ w.who) } i w.sd st)
        exact ⟨workFrame_trans (workFrame_trans h0 (workFrame_releaseCore _ _ _ _)) h.1, h.2⟩
      · rename_i n _
        have h0 : workFrame d { d with waiters := d.waiters.filter (fun x => x.who ≠ w.who) } := rfl
        have he := tame_endEntry { d with waiters := d.waiters.filter (fun x => x.who ≠ w.who) } n
        refine ⟨workFrame_trans (workFrame_trans h0 (he _ _ _ _).1) (ih _).1, onlyReplies_append (he _ _ _ _).2 (ih _).2⟩

theorem tame_settleFuel (fuel : Nat) (d : Deck) (ups : List ObjUpd) : tameRes d (settleFuel fuel d ups) := by
  induction fuel generalizing d ups with
  | zero => exact tame_refl d
  | succ k ih =>
    cases ups with
    | nil => exact tame_refl d
    | cons u rest =>
      simp only [settleFuel]
      have h0 := workFrame_foldl objUpdate workFrame_objUpdate (cycleOrder (u :: rest)) d
      have hw := tame_evalWaiters ((((cycleOrder (u :: rest)).foldl objUpdate d).waiters).filter
        (fun w => (u :: rest).any (fun x => decide (w.obj.toNat = x.obj)))) ((cycleOrder (u :: rest)).foldl objUpdate d)
      have h := ih (evalWaiters ((((cycleOrder (u :: rest)).foldl objUpdate d).waiters).filter
        (fun w => (u :: rest).any (fun x => decide (w.obj.toNat = x.obj)))) ((cycleOrder (u :: rest)).foldl objUpdate d)).1
        (evalWaiters ((((cycleOrder (u :: rest)).foldl objUpdate d).waiters).filter
        (fun w => (u :: rest).any (fun x => decide (w.obj.toNat = x.obj)))) ((cycleOrder (u :: rest)).foldl objUpdate d)).2.1
      exact ⟨workFrame_trans (workFrame_trans h0 hw.1) h.1, onlyReplies_append hw.2 h.2⟩

/-- Updates of objects, with all they release. -/
theorem tame_settle (d : Deck) (ups : List ObjUpd) : tameRes d (settle d ups) := tame_settleFuel _ d ups

theorem tame_finishEntry (d : Deck) (n : Nat) (st : Status) (own : Option (BitVec 12)) (amt : BitVec 16) (hdr : Option CmdHdr) :
    tameRes d (finishEntry d n st own amt hdr) := by
  have h := tame_endEntry d n st own amt hdr
  have hs := tame_settle (endEntry d n st own amt hdr).1 (endEntry d n st own amt hdr).2.1
  exact ⟨workFrame_trans h.1 hs.1, onlyReplies_append h.2 hs.2⟩

theorem objUpdate_waiters (d : Deck) (u : ObjUpd) : (objUpdate d u).waiters = d.waiters := by
  simp only [objUpdate]
  split <;> rfl

/-- An update of an allocated object writes that object and the hold registers of its context. -/
theorem objAt_objUpdate (d : Deck) (u : ObjUpd) (h : objAlloc d u.obj = true) :
    objAt (objUpdate d u) u.obj = updWord (objAt d u.obj) u := by
  simp [objUpdate, h, setHold, setCtx, setObj, objAt]

theorem objAt_objUpdate_other (d : Deck) (u : ObjUpd) (o : Nat) (h : o ≠ u.obj) : objAt (objUpdate d u) o = objAt d o := by
  simp only [objUpdate]
  split
  · simp [setHold, setCtx, setObj, objAt, mapGet_set_other _ _ _ _ _ h]
  · rfl

/-- A single update is the whole of its cycle. -/
theorem cycleOrder_one (u : ObjUpd) : cycleOrder [u] = [u] := by
  cases u <;> rfl

theorem objUpdates_waiters (ups : List ObjUpd) (d : Deck) : (ups.foldl objUpdate d).waiters = d.waiters := by
  induction ups generalizing d with
  | nil => rfl
  | cons u rest ih => rw [List.foldl_cons, ih, objUpdate_waiters]

/-- An update of an object that nobody waits on releases nobody. -/
theorem settle_quiet (d : Deck) (u : ObjUpd) (hw : objWaited d u.obj = false) : settle d [u] = (objUpdate d u, []) := by
  have hf : (objUpdate d u).waiters.filter (fun w => decide (w.obj.toNat = u.obj)) = [] := by
    rw [objUpdate_waiters]
    simpa [objWaited] using hw
  obtain ⟨n, hn⟩ : ∃ n, settleBound d [u].length = n + 2 := ⟨settleBound d [u].length - 2, by
    simp only [settleBound, List.length_cons, List.length_nil]; omega⟩
  rw [settle, hn, settleFuel]
  simp only [cycleOrder_one, List.foldl_cons, List.foldl_nil, List.any_cons, List.any_nil, Bool.or_false, hf, evalWaiters]
  simp [settleFuel]

/-- Where nobody waits, the updates of a cycle are applied in their order. -/
theorem settle_idle (d : Deck) (ups : List ObjUpd) (hw : d.waiters = []) :
    settle d ups = ((cycleOrder ups).foldl objUpdate d, []) := by
  cases ups with
  | nil => rfl
  | cons u rest =>
    obtain ⟨n, hn⟩ : ∃ n, settleBound d (u :: rest).length = n + 2 := ⟨settleBound d (u :: rest).length - 2, by
      simp only [settleBound, List.length_cons]; omega⟩
    rw [settle, hn]
    have hw' : ((cycleOrder (u :: rest)).foldl objUpdate d).waiters = [] := by rw [objUpdates_waiters, hw]
    simp only [settleFuel, hw', List.filter_nil, evalWaiters, List.append_nil]

/-! ### Transfers, launches, streams -/

theorem tame_endTransfer (d : Deck) (i : Nat) (e : MovEntry) (st : Status) : tameRes d (endTransfer d i e st) := by
  have h0 : workFrame d { modCore d i (fun c => movDrop c e.seq) with holdQ := d.holdQ.filter (fun q => q.2 != (i, e.seq)) } := rfl
  simp only [endTransfer]
  split
  · by_cases hs : st = stGood
    · simp only [if_pos hs]
      have h := tame_settle { modCore d i (fun c => movDrop c e.seq) with holdQ := d.holdQ.filter (fun q => q.2 != (i, e.seq)) }
      exact ⟨workFrame_trans (workFrame_trans h0 (h _).1) (workFrame_settleEnd _ _), (h _).2⟩
    · simp only [if_neg hs]
      have h := tame_settle { modCore d i (fun c => movDrop c e.seq) with holdQ := d.holdQ.filter (fun q => q.2 != (i, e.seq)) }
      exact ⟨workFrame_trans (workFrame_trans h0 (h _).1) (workFrame_settleEnd _ _), (h _).2⟩
  · by_cases hs : st = stGood
    · simp only [if_pos hs]
      exact tame_pure (workFrame_trans h0 (workFrame_settleEnd _ _))
    · simp only [if_neg hs]
      exact tame_pure (workFrame_trans (workFrame_trans h0 (workFrame_coreFault _ _ _ _ _)) (workFrame_settleEnd _ _))

theorem workFrame_freeCores (d : Deck) (cores : List Nat) : workFrame d (freeCores d cores) :=
  workFrame_foldl (fun d i => modCore d i (fun c => { c with run := .idle, launch := none })) (fun d i => workFrame_modCore d i _)
    cores d

theorem tame_kernelComplete (d : Deck) (id : Nat) : tameRes d (opKernelComplete d id) := by
  simp only [opKernelComplete]
  split
  · exact tame_refl d
  · rename_i l _
    split
    · have h := tame_after (workFrame_trans (workFrame_freeCores d l.cores) (workFrame_setLaunch _ id none))
        (tame_finishEntry (setLaunch (freeCores d l.cores) id none) l.stream stGood l.cobj l.amt none)
      refine ⟨h.1, onlyReplies_append h.2 ?_⟩
      split
      · exact onlyReplies_nil
      · exact onlyReplies_one _ _ _
    · exact tame_refl d

theorem tame_launchStop (d : Deck) (id : Nat) : tameRes d (opLaunchStop d id) := by
  simp only [opLaunchStop]
  split
  · exact tame_refl d
  · rename_i l _
    split
    · exact tame_refl d
    · split
      · exact tame_after (workFrame_trans (workFrame_freeCores d l.cores) (workFrame_setLaunch _ id none))
          (tame_finishEntry _ _ _ _ _ _)
      · exact tame_refl d

/-! ### The stop of a deck or of a part of it -/

theorem tame_eachDeck {α : Type} (f : α → Deck → DeckRes) (hf : ∀ x d, tameRes d (f x d)) (xs : List α) (d : Deck) :
    tameRes d (eachDeck f xs d) := by
  induction xs generalizing d with
  | nil => exact tame_refl d
  | cons x rest ih => exact tame_then (hf x d) (ih _)

theorem tame_thenDeck {d : Deck} {r : DeckRes} {f : Deck → DeckRes} (h1 : tameRes d r) (h2 : ∀ d, tameRes d (f d)) :
    tameRes d (thenDeck r f) := tame_then h1 (h2 r.1)

theorem tame_isolateCore (i : Nat) (d : Deck) : tameRes d (isolateCore i d) := by
  have h := tame_eachDeck (fun e d => endTransfer d i e stIsolated) (fun e d => tame_endTransfer d i e _) (coreAt d i).xq d
  exact ⟨workFrame_trans h.1 rfl, h.2⟩

theorem workFrame_isolateFault (i : Nat) (d : Deck) : workFrame d (isolateFault i d) := by
  simp only [isolateFault]
  split
  · exact workFrame_coreFault _ _ _ _ _
  · rfl

theorem tame_stopByReset (is : List Nat) (d : Deck) : tameRes d (stopByReset is d) := by
  have h := tame_eachDeck (fun id d => opKernelComplete d id) (fun id d => tame_kernelComplete d id) (d.launches.map (·.1)) d
  have h2 := workFrame_foldl (fun d i => isolateFault i d) (fun d i => workFrame_isolateFault i d) is
    (eachDeck (fun id d => opKernelComplete d id) (d.launches.map (·.1)) d).1
  exact tame_then (r := (is.foldl (fun d i => isolateFault i d) (eachDeck (fun id d => opKernelComplete d id)
    (d.launches.map (·.1)) d).1, _)) ⟨workFrame_trans h.1 h2, h.2⟩ (tame_eachDeck isolateCore tame_isolateCore is _)

theorem tame_endFaulted (d : Deck) : tameRes d (endFaulted d) :=
  tame_eachDeck (fun id d => opLaunchStop d id) (fun id d => tame_launchStop d id) _ d

theorem tame_discardStream (st : Status) (n : Nat) (d : Deck) : tameRes d (discardStream st n d) := by
  simp only [discardStream]
  split
  · exact tame_refl d
  · rename_i s _
    have h := tame_discardPubs d n s st
    have hs := tame_settle (discardPubs d n s st).1 (discardPubs d n s st).2.1
    exact ⟨workFrame_trans h.1 hs.1, onlyReplies_append h.2 hs.2⟩

theorem tame_releaseIsolated (w : Waiter) (d : Deck) : tameRes d (releaseIsolated w d) := by
  have h0 : workFrame d { d with waiters := d.waiters.filter (fun x => x.who ≠ w.who) } := rfl
  simp only [releaseIsolated]
  split
  · exact tame_pure (workFrame_trans h0 (workFrame_releaseCore _ _ _ _))
  · exact tame_after h0 (tame_finishEntry _ _ _ _ _ _)

/-- What every whole-deck stop does first. -/
theorem tame_stopDeck (d : Deck) : tameRes d (stopDeck d) :=
  tame_thenDeck (tame_thenDeck (tame_thenDeck (tame_stopByReset _ d)
    (fun d => tame_eachDeck (discardStream stIsolated) (tame_discardStream stIsolated) (d.streams.map (·.1)) d))
    (fun d => tame_eachDeck releaseIsolated tame_releaseIsolated d.waiters d)) tame_endFaulted

end Sys2Proof.Machine
end

