-- ==== Sys2Proof/Laws/Host.lean ====
section
/-! SUPPORT. What replies, event records and violations can touch: the host side, the management plane's event queue and what
leaves the module. What a reply puts into the status ring. -/
namespace Sys2Proof.Machine
open Sys2Proof

/-- Only the host side and what leaves the module differ. -/
def hostFrame (s t : State) : Prop := t = { s with host := t.host, out := t.out }

/-- Only the host side, the management plane and what leaves the module differ. -/
def noteFrame (s t : State) : Prop := t = { s with host := t.host, mgmt := t.mgmt, out := t.out }

theorem hostFrame_refl (s : State) : hostFrame s s := rfl

theorem hostFrame_trans {a b c : State} (h1 : hostFrame a b) (h2 : hostFrame b c) : hostFrame a c := by
  unfold hostFrame at *
  rw [h2, h1]

theorem noteFrame_trans {a b c : State} (h1 : noteFrame a b) (h2 : noteFrame b c) : noteFrame a c := by
  unfold noteFrame at *
  rw [h2, h1]

theorem hostFrame_note {a b : State} (h : hostFrame a b) : noteFrame a b := by
  unfold hostFrame at h
  unfold noteFrame
  rw [h]

theorem hostFrame_foldl {α : Type} (f : State → α → State) (hf : ∀ s x, hostFrame s (f s x)) (xs : List α) (s : State) :
    hostFrame s (xs.foldl f s) := by
  induction xs generalizing s with
  | nil => rfl
  | cons x rest ih => exact hostFrame_trans (hf s x) (ih _)

theorem noteFrame_foldl {α : Type} (f : State → α → State) (hf : ∀ s x, noteFrame s (f s x)) (xs : List α) (s : State) :
    noteFrame s (xs.foldl f s) := by
  induction xs generalizing s with
  | nil => rfl
  | cons x rest ih => exact noteFrame_trans (hf s x) (ih _)

theorem hostFrame_emit (s : State) (o : Output) : hostFrame s (emit s o) := rfl
theorem hostFrame_setLd (s : State) (k : Nat) (x : Ld) : hostFrame s (setLd s k x) := rfl
theorem hostFrame_modLd (s : State) (k : Nat) (f : Ld → Ld) : hostFrame s (modLd s k f) := rfl
theorem hostFrame_setRing (s : State) (k r : Nat) (x : Ring) : hostFrame s (setRing s k r x) := rfl

theorem hostFrame_writeReply (s : State) (h : CmdHdr) (st : Status) (res : Nat) (final : Bool) :
    hostFrame s (writeReply s h st res final) := by
  simp only [writeReply]
  split
  · rfl
  · split <;> rfl

theorem hostFrame_replyNow (s : State) (h : CmdHdr) (st : Status) (res : Nat) : hostFrame s (replyNow s h st res) :=
  hostFrame_writeReply s h st res true

theorem hostFrame_replyPending (s : State) (h : CmdHdr) : hostFrame s (replyPending s h) := by
  exact hostFrame_writeReply _ _ _ _ _

theorem hostFrame_replyLater (s : State) (h : CmdHdr) : hostFrame s (replyLater s h) := rfl

theorem hostFrame_replyFinal (s : State) (h : CmdHdr) (st : Status) (res : Nat) : hostFrame s (replyFinal s h st res) := by
  simp only [replyFinal]
  split
  · exact hostFrame_writeReply _ _ _ _ _
  · rfl

theorem hostFrame_slotWrite (s : State) (h : CmdHdr) (off : Nat) (bs : List Byte) : hostFrame s (slotWrite s h off bs) := rfl

theorem hostFrame_postEvent (s : State) (k : Nat) (st : Status) (deck a0 a1 : Nat) : hostFrame s (postEvent s k st deck a0 a1) := by
  simp only [postEvent]
  split
  · rfl
  · split <;> rfl

theorem hostFrame_postAll (s : State) (st : Status) (a0 a1 : Nat) : hostFrame s (postAll s st a0 a1) :=
  hostFrame_foldl (fun s k => postEvent s k st 0xFF a0 a1) (fun s k => hostFrame_postEvent s k st 0xFF a0 a1) _ s

theorem hostFrame_postDeck (s : State) (d : Nat) (st : Status) (a0 a1 : Nat) : hostFrame s (postDeck s d st a0 a1) := by
  simp only [postDeck]
  split
  · rfl
  · exact hostFrame_postEvent _ _ _ _ _ _

theorem noteFrame_pldmEvent (s : State) (e : Nat) : noteFrame s (pldmEvent s e) := rfl

theorem noteFrame_violation (s : State) (k : Nat) : noteFrame s (violation s k) := by
  simp only [violation]
  split <;> rfl

theorem noteFrame_unsupported (s : State) (a : Agent) : noteFrame s (unsupported s a) := by
  cases a with
  | fw => rfl
  | mgc => rfl
  | host l => exact noteFrame_trans (a := s) (b := emit s _) rfl (noteFrame_violation _ _)

theorem hostFrame_busyAll (s : State) : hostFrame s (busyAll s) :=
  hostFrame_foldl _ (fun s _ => hostFrame_foldl _ (fun s _ => hostFrame_foldl _ (fun s _ => hostFrame_replyFinal s _ _ _) _ s) _ s) _ s

/-! ### What a host frame keeps -/

theorem hostFrame_deckAt {s t : State} (h : hostFrame s t) (d : Nat) : deckAt t d = deckAt s d := by
  rw [h]; rfl

theorem hostFrame_rst {s t : State} (h : hostFrame s t) : t.rst = s.rst := by rw [h]
theorem hostFrame_churn {s t : State} (h : hostFrame s t) : t.churn = s.churn := by rw [h]
theorem hostFrame_htu {s t : State} (h : hostFrame s t) : t.htu = s.htu := by rw [h]
theorem hostFrame_tt {s t : State} (h : hostFrame s t) : t.tt = s.tt := by rw [h]
theorem hostFrame_net {s t : State} (h : hostFrame s t) : t.net = s.net := by rw [h]
theorem hostFrame_ports {s t : State} (h : hostFrame s t) : t.ports = s.ports := by rw [h]
theorem hostFrame_power {s t : State} (h : hostFrame s t) : t.power = s.power := by rw [h]
theorem hostFrame_safety {s t : State} (h : hostFrame s t) : t.safety = s.safety := by rw [h]
theorem hostFrame_decks {s t : State} (h : hostFrame s t) : t.decks = s.decks := by rw [h]
theorem hostFrame_pending {s t : State} (h : hostFrame s t) : t.pending = s.pending := by rw [h]

/-! ### Replies -/

theorem ringAt_modLd (s : State) (k r : Nat) (f : Ld → Ld) :
    ringAt (modLd s k f) k r = mapGet {} (f (ldAt s k)).rings r := by
  simp [ringAt, modLd, setLd, ldAt]

/-- The word of a status reply fits its 16 bytes. -/
theorem replyWord_lt (h : CmdHdr) (st : Status) (res : Nat) :
    st.toNat + 2 ^ 16 * h.opcode.toNat + 2 ^ 32 * h.seq.toNat + 2 ^ 64 * h.tag.toNat + 2 ^ 96 * (res % 2 ^ 32) < 256 ^ 16 := by
  have h1 := st.isLt
  have h2 := h.opcode.isLt
  have h3 := h.seq.isLt
  have h4 := h.tag.isLt
  have h5 : res % 2 ^ 32 < 2 ^ 32 := Nat.mod_lt _ (by decide)
  have h6 : (256 : Nat) ^ 16 = 2 ^ 128 := by decide
  rw [h6]
  omega

theorem writeReply_replied (s : State) (h : CmdHdr) (st : Status) (res : Nat) (final : Bool) (hm : muted s h = false) :
    replied s (writeReply s h st res final) h st res := by
  have key : ∀ s1 : State, s1.host = (modLd s (ldKey h.ld) (fun l => { l with
      mem := writeNat l.mem (0x20000 + 0x2000 * h.ring.val + 16 * ((ringAt s (ldKey h.ld) h.ring.val).srTail.toNat % 512)) 16
        (st.toNat + 2 ^ 16 * h.opcode.toNat + 2 ^ 32 * h.seq.toNat + 2 ^ 64 * h.tag.toNat + 2 ^ 96 * (res % 2 ^ 32)),
      rings := mapSet {} l.rings h.ring.val { ringAt s (ldKey h.ld) h.ring.val with
        srTail := (ringAt s (ldKey h.ld) h.ring.val).srTail + 1,
        taken := if final then (ringAt s (ldKey h.ld) h.ring.val).taken.eraseP (sameCmd h)
          else (ringAt s (ldKey h.ld) h.ring.val).taken.map (fun t => if sameCmd h t then { t with pending := true, started := true }
            else t) } })).host →
      replied s s1 h st res := by
    intro s1 hs
    refine ⟨?_, ?_⟩
    · simp only [ringAt, ldAt, hs]
      simp [modLd, setLd, ldAt]
    · simp only [ldAt, hs]
      simp only [modLd, setLd, mapGet_set_same, readNat_writeNat]
      exact Nat.mod_eq_of_lt (replyWord_lt h st res)
  simp only [writeReply, hm, Bool.false_eq_true, if_false]
  split
  · exact key _ rfl
  · exact key _ rfl

/-- A command that answers at once has its reply. -/
theorem replyNow_replied (s : State) (h : CmdHdr) (st : Status) (res : Nat) (hm : muted s h = false) :
    replied s (replyNow s h st res) h st res := writeReply_replied s h st res true hm

/-- The place of a reply depends on the rings of its LD alone. -/
theorem replied_of_lds {s s' t : State} {h : CmdHdr} {st : Status} {res : Nat} (hl : s'.host.lds = s.host.lds)
    (hr : replied s' t h st res) : replied s t h st res := by
  simpa only [replied, ringAt, ldAt, hl] using hr

theorem replyPending_replied (s : State) (h : CmdHdr) (hm : muted s h = false) : replied s (replyPending s h) h stPending 0 :=
  writeReply_replied s h stPending 0 false hm

/-- Whether a command is muted depends on the rings of its LD alone. -/
theorem muted_of_lds {s s' : State} {h : CmdHdr} (hl : s'.host.lds = s.host.lds) : muted s' h = muted s h := by
  simp only [muted, ringAt, ldAt, hl]

/-! ### Decks that ask for replies alone -/

theorem applyEff_reply (d : Nat) (s : State) (e : DeckEff) (h : ∃ c st r, e = .reply c st r) : hostFrame s (applyEff d s e) := by
  obtain ⟨c, st, r, rfl⟩ := h
  exact hostFrame_replyFinal _ _ _ _

theorem foldl_replies (d : Nat) (es : List DeckEff) (h : onlyReplies es) (s : State) : hostFrame s (es.foldl (applyEff d) s) := by
  induction es generalizing s with
  | nil => rfl
  | cons e rest ih =>
    exact hostFrame_trans (applyEff_reply d s e (h e (by simp))) (ih (fun x hx => h x (by simp [hx])) _)

/-- A deck's result with replies alone: the deck changes, and beside it the host side. -/
theorem putDeck_replies (s : State) (d : Nat) (r : DeckRes) (h : onlyReplies r.2) : hostFrame (setDeck s d r.1) (putDeck s d r) :=
  foldl_replies d r.2 h _

theorem collsOf_replies (es : List DeckEff) (h : onlyReplies es) : collsOf es = [] := by
  induction es with
  | nil => rfl
  | cons e rest ih =>
    obtain ⟨c, st, r, rfl⟩ := h e (by simp)
    simp only [collsOf, List.filterMap_cons]
    exact ih (fun x hx => h x (by simp [hx]))

theorem reportsOf_replies (es : List DeckEff) (h : onlyReplies es) : reportsOf es = [] := by
  induction es with
  | nil => rfl
  | cons e rest ih =>
    obtain ⟨c, st, r, rfl⟩ := h e (by simp)
    simp only [reportsOf, List.filterMap_cons]
    exact ih (fun x hx => h x (by simp [hx]))

/-- An operation of a deck that asks for replies alone. -/
theorem onDeck_replies (s : State) (d : Nat) (f : Deck → DeckRes) (h : onlyReplies (f (deckAt s d)).2) :
    onDeck s d f = putDeck s d (f (deckAt s d)) := by
  simp [onDeck, applyRes, collsOf_replies _ h, reportsOf_replies _ h, fireReports]

theorem onDeck_replies_frame (s : State) (d : Nat) (f : Deck → DeckRes) (h : onlyReplies (f (deckAt s d)).2) :
    hostFrame (setDeck s d (f (deckAt s d)).1) (onDeck s d f) := by
  rw [onDeck_replies s d f h]
  exact putDeck_replies s d _ h

end Sys2Proof.Machine
end

