-- ==== Sys2Proof/Laws/Memory.lean ====
section
/-! SUPPORT. What reads, writes and adds of a deck's stack memory do, and what they leave alone. -/
namespace Sys2Proof.Machine
open Sys2Proof

/-! ### Byte lists -/

theorem cellGet_bytesCells (bs : List Byte) (i : Nat) : cellGet (bytesCells bs) i = bs.getD i 0 := by
  by_cases h : i < bs.length
  · have := cellGet_writeBytes_in bs [] 0 i h
    simp only [Nat.zero_add] at this
    simp [bytesCells, this, List.getD_eq_getElem?_getD, List.getElem?_eq_getElem h]
  · rw [bytesCells, cellGet_writeBytes_other _ _ _ _ (by omega)]
    simp [List.getD_eq_getElem?_getD, List.getElem?_eq_none (Nat.not_lt.1 h), cellGet, mapGet]

theorem cellGet_splice (m src : Cells) (a n x : Nat) :
    cellGet (mapSplice m a n src) x = if a ≤ x ∧ x < a + n then cellGet src (x - a) else cellGet m x := by
  rw [cellGet, mapGet_splice]
  by_cases h : a ≤ x ∧ x < a + n
  · rw [if_pos h, if_neg (by omega)]; rfl
  · rw [if_neg h, if_pos (by omega)]; rfl

/-! ### Self-refresh -/

/-- Only the stacks of a deck differ, and of each only whether it is in self-refresh. -/
def stackFrame (d d' : Deck) : Prop :=
  d' = { d with stks := d'.stks } ∧
  ∀ k, stackAt d' k = { stackAt d k with selfRefresh := (stackAt d' k).selfRefresh }

theorem stackFrame_refl (d : Deck) : stackFrame d d := ⟨rfl, fun _ => rfl⟩

theorem stackFrame_trans {a b c : Deck} (h1 : stackFrame a b) (h2 : stackFrame b c) : stackFrame a c := by
  refine ⟨?_, ?_⟩
  · rw [h2.1, h1.1]
  · intro k
    rw [h2.2 k, h1.2 k]

/-- An access to a docked deck may end self-refresh, and does no more. -/
theorem touch_frame (d : Deck) (a n : Nat) : stackFrame d (touch d a n) := by
  have key : ∀ (xs : List Nat) (d : Deck), stackFrame d (xs.foldl (fun d i =>
      modStack d (pageStack (a / 4096 + i)) (fun s => { s with selfRefresh := false })) d) := by
    intro xs
    induction xs with
    | nil => intro d; exact stackFrame_refl d
    | cons i rest ih =>
      intro d
      refine stackFrame_trans (b := modStack d (pageStack (a / 4096 + i)) (fun s => { s with selfRefresh := false })) ⟨rfl, ?_⟩ (ih _)
      intro k
      simp only [modStack, setStack, stackAt, mapGet_set]
      split
      · rename_i h; rw [h]
      · rfl
  simp only [touch]
  split
  · exact key _ d
  · exact stackFrame_refl d

theorem stackFrame_remap {d d' : Deck} (h : stackFrame d d') (k : Nat) :
    (stackAt d' k).remap = (stackAt d k).remap ∧ (stackAt d' k).chFailed = (stackAt d k).chFailed := by
  rw [h.2 k]; exact ⟨rfl, rfl⟩

theorem deadPages_frame {d d' : Deck} (h : stackFrame d d') (a n : Nat) : deadPages d' a n = deadPages d a n := by
  have hp : ∀ p, pageDead d' p = pageDead d p := by
    intro p; simp only [pageDead, stackFrame_remap h]
  simp only [deadPages, stackFrame_remap h, hp]

theorem memReadOk_frame {d d' : Deck} (h : stackFrame d d') (a n : Nat) : memReadOk d' a n = memReadOk d a n := by
  have hb : d'.memBad = d.memBad := by rw [h.1]
  simp only [memReadOk, deadPages_frame h, hb]

theorem memWriteSt_frame {d d' : Deck} (h : stackFrame d d') (a n : Nat) : memWriteSt d' a n = memWriteSt d a n := by
  simp only [memWriteSt, deadPages_frame h]

theorem memRead_frame {d d' : Deck} (h : stackFrame d d') (a n : Nat) : memRead d' a n = memRead d a n := by
  have hm : d'.mem = d.mem := by rw [h.1]
  simp only [memRead, memReadOk_frame h, hm]

/-! ### Writes -/

theorem memWriteSt_good (d : Deck) (a n : Nat) : memWriteSt d a n = stGood ↔ deadPages d a n = [] := by
  simp only [memWriteSt, List.isEmpty_iff]
  split
  · rename_i h; simp [h]
  · rename_i h
    simp only [h, iff_false]; decide

/-- A write touches memory, poison, standing errors and self-refresh alone. -/
theorem memWrite_frame (d : Deck) (a n : Nat) (src : Cells) :
    memWrite d a n src = { d with mem := (memWrite d a n src).mem, memBad := (memWrite d a n src).memBad,
                                  latent := (memWrite d a n src).latent, stks := (memWrite d a n src).stks } := by
  simp only [memWrite]
  have h := touch_frame { d with
    mem := (deadPages d a n).foldl (fun m p => mapSplice m (4096 * p) 4096 (mapSlice d.mem (4096 * p) 4096)) (mapSplice d.mem a n src),
    memBad := d.memBad.filter (fun e => decide (e.1 * 32 < a) || decide (a + n < e.1 * 32 + 32) || (deadPages d a n).contains (e.1 / 128)),
    latent := latentOutside a n d.latent } a n
  rw [h.1]

/-- Where no page of the range is dead, the bytes of the range are the source's and every other byte stands. -/
theorem memWrite_mem (d : Deck) (a n : Nat) (src : Cells) (h : memWriteSt d a n = stGood) :
    (memWrite d a n src).mem = mapSplice d.mem a n src := by
  have hd := (memWriteSt_good d a n).1 h
  simp only [memWrite, hd, List.foldl_nil]
  rw [(touch_frame _ a n).1]

theorem cellGet_memWrite (d : Deck) (a n : Nat) (src : Cells) (h : memWriteSt d a n = stGood) (x : Nat) :
    cellGet (memWrite d a n src).mem x = if a ≤ x ∧ x < a + n then cellGet src (x - a) else cellGet d.mem x := by
  rw [memWrite_mem d a n src h, cellGet_splice]

/-- Reading a range gives its bytes, counted from 0. -/
theorem memRead_get (d : Deck) (a n : Nat) (m : Cells) (h : memRead d a n = some m) (i : Nat) :
    cellGet m i = if i < n then cellGet d.mem (a + i) else 0 := by
  simp only [memRead] at h
  split at h
  · simp only [Option.some.injEq] at h
    rw [← h, cellGet, mapGet_slice]; rfl
  · simp at h

/-- With no finding and no standing error, ECC asks for nothing. -/
theorem eccRange_nil (now a n : Nat) (d : Deck) (h : d.latent = []) : eccRange now a n [] d = (touch d a n, []) := by
  have hd : ({ d with latent := [] } : Deck) = d := by rw [← h]
  simp only [eccRange, h, standing, List.append_nil, List.filter_nil, List.foldl_nil, hd]

/-- Where no sector is poisoned, a host's or RDMA's write stores every byte. -/
theorem memWritePartial_clean (d : Deck) (a : Nat) (bs : List Byte) (hb : d.memBad = []) :
    (memWritePartial d a bs).1 = memWrite d a bs.length (bytesCells bs) := by
  have h0 : ∀ k, mapGet false d.memBad k = false := by intro k; rw [hb]; rfl
  simp [memWritePartial, h0]

/-- Only the bytes of stack memory differ. -/
def bytesFrame (d d' : Deck) : Prop := d' = { d with mem := d'.mem }

theorem bytesFrame_trans {a b c : Deck} (h1 : bytesFrame a b) (h2 : bytesFrame b c) : bytesFrame a c := by
  unfold bytesFrame at *
  rw [h2, h1]

theorem adderGranule_frame (atype : Nat) (src : Cells) (o a : Nat) (d : Deck) : bytesFrame d (adderGranule atype src o a d).1 := by
  simp only [adderGranule]
  split <;> rfl

/-- Granules of an add touch memory alone. -/
theorem adderRun_frame (atype : Nat) (src : Cells) (a n : Nat) (d : Deck) : bytesFrame d (adderRun atype src a n d).1 := by
  have key : ∀ (xs : List Nat) (r : Deck × Bool), bytesFrame r.1 (xs.foldl (fun r i =>
      let q := adderGranule atype src (64 * i) (a + 64 * i) r.1
      (q.1, r.2 || q.2)) r).1 := by
    intro xs
    induction xs with
    | nil => intro r; rfl
    | cons i rest ih =>
      intro r
      exact bytesFrame_trans (adderGranule_frame atype src (64 * i) (a + 64 * i) r.1) (ih _)
  exact key _ _

end Sys2Proof.Machine
end

