-- ==== Sys2Proof/Laws/Resets.lean ====
section
/-! SUPPORT. What the resets of a deck and its parts do to the deck, and what a reset of levels 1 to 4 does to the module where
no collective runs. -/
namespace Sys2Proof.Machine
open Sys2Proof

/-! ### On the deck -/

/-- What a context, engine or compute reset can touch of a deck: stack memory, tables and pins stand. -/
def stopFrame (d d' : Deck) : Prop :=
  d' = { d with cores := d'.cores, objs := d'.objs, groups := d'.groups, waiters := d'.waiters, tallies := d'.tallies,
                tlyQueue := d'.tlyQueue, binSat := d'.binSat, ctxs := d'.ctxs, streams := d'.streams, launches := d'.launches,
                alarms := d'.alarms, holdQ := d'.holdQ, txq := d'.txq, shadow := d'.shadow, shadowUntil := d'.shadowUntil,
                penMap := d'.penMap, reset := d'.reset }

theorem stopFrame_of_work {d d' : Deck} (h : workFrame d d') : stopFrame d d' := by
  unfold workFrame at h
  unfold stopFrame
  rw [h]

theorem stopFrame_trans {a b c : Deck} (h1 : stopFrame a b) (h2 : stopFrame b c) : stopFrame a c := by
  unfold stopFrame at *
  rw [h2, h1]

theorem workFrame_dropGang (is : List Nat) (pen : Nat) (d : Deck) : workFrame d (dropGang is pen d) := by
  simp only [dropGang]
  refine workFrame_foldl _ (fun d i => ?_) _ d
  split
  · split
    · exact workFrame_setCore _ _ _
    · exact workFrame_trans (workFrame_setCore _ _ _) (workFrame_coreFault _ _ _ _ _)
  · exact workFrame_refl d

/-- Rebuilding contexts changes them alone, and asks for what their rebuilding asks for. -/
theorem mapCtxs_frame (f : Ctx → Ctx × List DeckEff) (hf : ∀ k, onlyReplies (f k).2) (d : Deck) : tameRes d (mapCtxs f d) := by
  refine ⟨rfl, ?_⟩
  intro e he
  simp only [mapCtxs, List.mem_flatMap, List.mem_map] at he
  obtain ⟨x, ⟨y, -, rfl⟩, h⟩ := he
  exact hf _ e h

theorem failSnap_replies (st : Status) (k : Ctx) : onlyReplies (failSnap st k).2 := by
  simp only [failSnap]
  split
  · exact onlyReplies_nil
  · split
    · exact onlyReplies_one _ _ _
    · exact onlyReplies_nil

theorem ctxReset_frame (x : BitVec 4) (d : Deck) : stopFrame d (ctxReset x d).1 ∧ onlyReplies (ctxReset x d).2 := by
  have h1 := tame_stopByReset (ctxCores d x) d
  have h2 := tame_thenDeck h1 (fun d => tame_eachDeck (discardStream stIsolated) (tame_discardStream stIsolated) (ctxStreams d x) d)
  have h3 := tame_thenDeck h2 (fun e => tame_eachDeck releaseIsolated tame_releaseIsolated
    (waitersOn (fun o => objAlloc d o && objCtx d o == x) e) e)
  have h4 := tame_thenDeck h3 tame_endFaulted
  have ht : ∀ (y : Deck) (k : Ctx), workFrame y ((ctxCores d x).foldl (fun d i => modCore d i clearCoreK0) (setCtx y x.toNat k)) :=
    fun y k => workFrame_trans (workFrame_setCtx y x.toNat k)
      (workFrame_foldl (fun d i => modCore d i clearCoreK0) (fun d i => workFrame_modCore d i _) (ctxCores d x) _)
  simp only [ctxReset]
  exact ⟨stopFrame_trans (stopFrame_of_work (workFrame_trans h4.1 (ht _ _))) rfl, h4.2⟩

theorem engineReset_frame (x : BitVec 4) (is : List Nat) (d : Deck) :
    stopFrame d (engineReset x is d).1 ∧ onlyReplies (engineReset x is d).2 := by
  have h0 := workFrame_foldl (fun d p => dropGang is p d) (fun d p => workFrame_dropGang is p d) (gangedPens d is) d
  have h1 := tame_after h0 (tame_stopByReset is _)
  have h2 : tameRes d ({ (stopByReset is ((gangedPens d is).foldl (fun d p => dropGang is p d) d)).1 with
      waiters := (stopByReset is ((gangedPens d is).foldl (fun d p => dropGang is p d) d)).1.waiters.filter (fun w => match w.who with
      | .core i => !is.contains i
      | .stream _ => true) }, (stopByReset is ((gangedPens d is).foldl (fun d p => dropGang is p d) d)).2) :=
    ⟨workFrame_trans h1.1 rfl, h1.2⟩
  have h3 := tame_thenDeck h2 tame_endFaulted
  have h4 := tame_thenDeck h3 (fun e => tame_eachDeck (discardStream stIsolated) (tame_discardStream stIsolated)
    (ctxStreams e x ++ (is.filterMap (fun i => (coreAt ((gangedPens d is).foldl (fun d p => dropGang is p d) d)
      i).launch)).filterMap (fun l => (launchAt ((gangedPens d is).foldl (fun d p => dropGang is p d) d) l).map (·.stream))) e)
  refine ⟨stopFrame_trans (stopFrame_of_work h4.1) (stopFrame_trans (stopFrame_of_work (workFrame_trans
    (workFrame_foldl (fun d x => setHold d x.toNat (resetHold (ctxAt d x.toNat).hold)) (fun d x => workFrame_setHold d _ _)
      (coresCtxs d is) _)
    (workFrame_foldl (fun d i => modCore d i (fun c => { clearCoreK1 c with launch := c.launch, run := if c.launch.isSome
      then .stopped else .idle })) (fun d i => workFrame_modCore d i _) is _))) ?_), h4.2⟩
  rfl

theorem computeReset_frame (d : Deck) : stopFrame d (computeReset d).1 ∧ onlyReplies (computeReset d).2 ∧
    (computeReset d).1.reset = .compute ∧ (computeReset d).1.penMap = d.penFlash ∧ (computeReset d).1.groups = [] ∧
    (computeReset d).1.objs = [] := by
  have h := tame_thenDeck (tame_stopDeck d) (mapCtxs_frame (fun k =>
    let q := failSnap stIsolated k
    (clearCtxK2 { q.1 with hold := resetHold q.1.hold }, q.2)) (fun k => failSnap_replies _ k))
  refine ⟨stopFrame_trans (stopFrame_of_work h.1) rfl, h.2, rfl, ?_, rfl, rfl⟩
  have hp : ∀ {a b : Deck}, workFrame a b → b.penFlash = a.penFlash := by
    intro a b hw; rw [hw]
  exact hp h.1

theorem fullReset_deck (d : Deck) : onlyReplies (fullReset d).2 ∧ (fullReset d).1.reset = .full ∧ (fullReset d).1.mem = [] ∧
    (fullReset d).1.memBad = [] ∧ (fullReset d).1.power = .waking ∧ (fullReset d).1.groups = [] ∧ (fullReset d).1.objs = [] ∧
    (fullReset d).1.outOfService = d.outOfService := by
  have h := tame_thenDeck (tame_stopDeck d) (mapCtxs_frame (fun k =>
    let q := failSnap stIsolated k
    (clearCtxK3 q.1, q.2)) (fun k => failSnap_replies _ k))
  have hp : ∀ {a b : Deck}, workFrame a b → b.outOfService = a.outOfService := by
    intro a b hw; rw [hw]
  exact ⟨h.2, rfl, rfl, rfl, rfl, rfl, rfl, (hp h.1 :)⟩

/-- A deck's part of a reset asks for replies alone. -/
theorem resetOnDeck_replies (x : Scope) (cores : List Nat) (k : Deck) : onlyReplies (resetOnDeck x cores k).2 := by
  cases x with
  | ctx d c => exact (ctxReset_frame c k).2
  | engine d c core => exact (engineReset_frame _ _ k).2
  | compute d => exact (computeReset_frame k).2.1
  | full d => exact (fullReset_deck k).1
  | module => exact onlyReplies_nil
  | cmdp => exact onlyReplies_nil

/-! ### On the module -/

@[simp] theorem recordCause_decks (s : State) (w : Nat) : (recordCause s w).decks = s.decks := rfl
@[simp] theorem recordCause_churn (s : State) (w : Nat) : (recordCause s w).churn = s.churn := rfl
@[simp] theorem recordCause_last (s : State) (w : Nat) : (recordCause s w).rst.last = BitVec.ofNat 32 w := rfl
@[simp] theorem recordCause_running (s : State) (w : Nat) : (recordCause s w).rst.running = s.rst.running := rfl

/-- Cause words fit 32 bits. -/
theorem causeWord_lt (level source detector deck ctx : Nat) (esc : Bool) (seq : Nat) :
    causeWord level source detector deck ctx esc seq < 2 ^ 32 := by
  have h : boolNat esc ≤ 1 := by cases esc <;> decide
  simp only [causeWord]
  omega

/-- BKP0 after a reset is recorded: the new cause word below the old one. -/
theorem recordCause_bkp0 (s : State) (w : Nat) (h : w < 2 ^ 32) :
    (mapGet 0 (recordCause s w).rst.bkp 0).toNat = w + 2 ^ 32 * ((mapGet 0 s.rst.bkp 0).toNat % 2 ^ 32) := by
  have h2 : (mapGet 0 s.rst.bkp 0).toNat % 2 ^ 32 < 2 ^ 32 := Nat.mod_lt _ (by decide)
  simp only [recordCause, setRst]
  rw [mapGet_set_other _ _ _ _ _ (by decide), mapGet_set_same, BitVec.toNat_ofNat]
  omega

/-- BKP1 counts the reset. -/
theorem recordCause_bkp1 (s : State) (w : Nat) :
    (mapGet 0 (recordCause s w).rst.bkp 1).toNat % 2 ^ 32 = nextReset s % 2 ^ 32 := by
  simp only [recordCause, setRst, nextReset]
  rw [mapGet_set_same, BitVec.toNat_ofNat]
  omega

theorem takeSample_rst (s : State) (x : Scope) (cores : List Nat) (w : Nat) :
    takeSample s x cores w = { s with rst := { s.rst with retained := (takeSample s x cores w).rst.retained } } := by
  simp only [takeSample]
  split <;> rfl

theorem resetColls_none (s : State) (d : Nat) (p : BitVec 4 → Bool) (h : s.churn.colls = []) : resetColls s d p = s := by
  simp [resetColls, h]

theorem resetMembers_none (s : State) (d : Nat) (x : Scope) (h : s.churn.colls = []) : resetMembers s d x = s := by
  cases x <;> simp [resetMembers, resetColls_none _ _ _ h]

theorem hostFrame_dropNotices (s : State) (d : Nat) : hostFrame s (dropNotices s d) := rfl

/-- The repair option touches remap tables and the count of free values. -/
theorem repairRows_frame (s : State) (d : Nat) :
    repairRows s [d] = { s with decks := (repairRows s [d]).decks, free := (repairRows s [d]).free } ∧
    (∀ e, e ≠ d → deckAt (repairRows s [d]) e = deckAt s e) ∧
    deckAt (repairRows s [d]) d = { deckAt s d with stks := (deckAt (repairRows s [d]) d).stks } := by
  have key : ∀ (ks : List Nat) (t : State),
      let u := ks.foldl (fun s k =>
        let r := draw (stackAt (deckAt s d) k).remap.length s
        modDeck r.2 d (fun x => modStack x k (repairStack r.1.toNat))) t
      u = { t with decks := u.decks, free := u.free } ∧ (∀ e, e ≠ d → deckAt u e = deckAt t e) ∧
      deckAt u d = { deckAt t d with stks := (deckAt u d).stks } := by
    intro ks
    induction ks with
    | nil => intro t; exact ⟨rfl, fun _ _ => rfl, rfl⟩
    | cons k rest ih =>
      intro t
      obtain ⟨h1, h2, h3⟩ := ih (modDeck (draw (stackAt (deckAt t d) k).remap.length t).2 d
        (fun x => modStack x k (repairStack (draw (stackAt (deckAt t d) k).remap.length t).1.toNat)))
      simp only [List.foldl_cons]
      refine ⟨?_, ?_, ?_⟩
      · rw [h1]; rfl
      · intro e he
        rw [h2 e he]
        simp [modDeck, draw, deckAt, setDeck, mapGet_set_other _ _ _ _ _ he]
      · rw [h3]
        simp [modDeck, draw, deckAt, setDeck, modStack, setStack]
  simp only [repairRows]
  split
  · split
    · have h := key (List.range 4) (draw 1 s).2
      refine ⟨?_, ?_, ?_⟩
      · have := h.1
        simp only [List.foldl_cons, List.foldl_nil, repairDeck]
        rw [this]; rfl
      · intro e he
        simp only [List.foldl_cons, List.foldl_nil, repairDeck]
        exact (h.2.1 e he).trans rfl
      · simp only [List.foldl_cons, List.foldl_nil, repairDeck]
        exact h.2.2.trans rfl
    · exact ⟨rfl, fun _ _ => rfl, rfl⟩
  · exact ⟨rfl, fun _ _ => rfl, rfl⟩

/-- A reset of a deck or a part of it that no running one absorbs, while no collective is on the module: the cause word, the
reset that runs, the other decks, and the deck itself but for the remap tables that a full reset may repair. -/
theorem deckReset_runs (s : State) (x : Scope) (cores : List Nat) (src det d : Nat) (esc : Bool) (hdr : Option CmdHdr)
    (hd : scopeDeck x = some d) (hr : resetRuns s x = false) (hc : s.churn.colls = []) :
    let w := causeWord (scopeLevel x) src (if src = 3 then det else 0) d (if scopeLevel x = 1 then (scopeCtx x).toNat else 0) esc
      (nextReset s)
    let t := deckReset s x cores src det esc hdr
    t.rst.last = BitVec.ofNat 32 w ∧ t.rst.bkp = (recordCause s w).rst.bkp ∧
    t.rst.running = s.rst.running.filter (fun e => !scopeCovers x e.scope) ++
      [{ scope := x, detector := det, hdr := hdr, since := clockNs s }] ∧
    (∀ e, e ≠ d → deckAt t e = deckAt s e) ∧
    deckAt t d = { stampCleared (clockNs s) x (scopeCores (deckAt s d) x cores) (resetOnDeck x cores (deckAt s d)).1 with
      stks := (deckAt t d).stks } := by
  intro w t
  have hrep := resetOnDeck_replies x cores (deckAt s d)
  -- the states in turn
  let s1 := takeSample (recordCause s w) x cores w
  have h1 : s1 = { recordCause s w with rst := { (recordCause s w).rst with retained := s1.rst.retained } } :=
    takeSample_rst (recordCause s w) x cores w
  have h1d : ∀ e, deckAt s1 e = deckAt s e := by intro e; rw [h1]; rfl
  have h2 : hostFrame (setDeck s1 d (resetOnDeck x cores (deckAt s1 d)).1) (putDeck s1 d (resetOnDeck x cores (deckAt s1 d))) :=
    putDeck_replies s1 d _ (resetOnDeck_replies x cores _)
  let s2 := putDeck s1 d (resetOnDeck x cores (deckAt s1 d))
  have h2c : s2.churn.colls = [] := by
    have e1 : s2.churn = s1.churn := (hostFrame_churn h2).trans rfl
    rw [e1, h1]; exact hc
  have h2r : s2.rst = s1.rst := (hostFrame_rst h2).trans rfl
  have h2d : ∀ e, deckAt s2 e = deckAt (setDeck s1 d (resetOnDeck x cores (deckAt s1 d)).1) e := hostFrame_deckAt h2
  let stamp := stampCleared (clockNs s) x (scopeCores (deckAt s d) x cores)
  let s2c := modDeck s2 d stamp
  let s3 := if scopeLevel x = 4 then dropNotices (repairRows s2c [d]) d else s2c
  have h3 : s3.rst = s2.rst ∧ (∀ e, e ≠ d → deckAt s3 e = deckAt s2 e) ∧
      deckAt s3 d = { stamp (deckAt s2 d) with stks := (deckAt s3 d).stks } := by
    have hc1 : ∀ e, e ≠ d → deckAt s2c e = deckAt s2 e := fun e he => deckAt_setDeck_other s2 d e _ he
    have hc2 : deckAt s2c d = stamp (deckAt s2 d) := deckAt_setDeck s2 d _
    by_cases hl : scopeLevel x = 4
    · have hf := repairRows_frame s2c d
      simp only [s3, if_pos hl]
      refine ⟨?_, ?_, ?_⟩
      · show (repairRows s2c [d]).rst = s2.rst
        rw [hf.1]; rfl
      · intro e he; exact (hf.2.1 e he).trans (hc1 e he)
      · rw [← hc2]; exact hf.2.2
    · have e : s3 = s2c := if_neg hl
      rw [e, hc2]; exact ⟨rfl, hc1, rfl⟩
  have hp := hostFrame_postDeck s3 d stIsolated (scopeLevel x + 16 * (scopeCtx x).toNat) 0
  have ht : t = modRst (postDeck s3 d stIsolated (scopeLevel x + 16 * (scopeCtx x).toNat) 0) (fun r =>
      let run := r.running.filter (fun e => !scopeCovers x e.scope) ++
        [{ scope := x, detector := det, hdr := hdr, since := clockNs s }]
      { markReset r x with running := run }) := by
    have hs : deckAt (takeSample (recordCause s w) x cores w) d = deckAt s d := h1d d
    simp only [t, deckReset, hd, hr, Bool.false_eq_true, if_false]
    rw [show resetMembers (putDeck (takeSample (recordCause s w) x cores w) d (resetOnDeck x cores
      (deckAt (takeSample (recordCause s w) x cores w) d))) d x = s2 from resetMembers_none _ _ _ h2c]
    simp only [show causeWord (scopeLevel x) src (if src = 3 then det else 0) d
      (if scopeLevel x = 1 then (scopeCtx x).toNat else 0) esc (nextReset s) = w from rfl, hs]
    rfl
  have hm : ∀ r : Rst, (markReset r x).last = r.last ∧ (markReset r x).bkp = r.bkp := by
    intro r; cases x <;> (refine ⟨?_, ?_⟩ <;> rfl)
  have hrst : (postDeck s3 d stIsolated (scopeLevel x + 16 * (scopeCtx x).toNat) 0).rst = s1.rst := by
    rw [hostFrame_rst hp, h3.1, h2r]
  have hs1 : s1.rst.last = BitVec.ofNat 32 w ∧ s1.rst.bkp = (recordCause s w).rst.bkp ∧ s1.rst.running = s.rst.running := by
    rw [h1]; refine ⟨?_, ?_, ?_⟩ <;> rfl
  refine ⟨?_, ?_, ?_, ?_, ?_⟩
  · rw [ht]; simp only [modRst]; rw [(hm _).1, hrst]; exact hs1.1
  · rw [ht]; simp only [modRst]; rw [(hm _).2, hrst]; exact hs1.2.1
  · rw [ht]; simp only [modRst]; rw [hrst, hs1.2.2]
  · intro e he
    have : deckAt t e = deckAt s3 e := by rw [ht]; exact hostFrame_deckAt hp e
    rw [this, h3.2.1 e he, h2d e, deckAt_setDeck_other _ _ _ _ he, h1d e]
  · have : deckAt t d = deckAt s3 d := by rw [ht]; exact hostFrame_deckAt hp d
    rw [this, h3.2.2, h2d d, deckAt_setDeck, h1d d]

end Sys2Proof.Machine
end

