-- ==== Sys2Proof/Machine/Layout.lean ====
section
/-! DEFINITION. The tensor network's wire formats bit by bit: the packet header (R359, R360), the packet frame (R347), the link
control frame and the beacon's body (R347, R350), CRC-32. The commands carry frames and packets already parsed, with their
flags `crcOk` and `formOk`; what they stand for is read here. -/
namespace Sys2Proof.Machine
open Sys2Proof

/-! ### Fields -/

/-- A field: its lowest bit, its width and its value. -/
abbrev Field := Nat × Nat × Nat

/-- The number that has each field at its place and 0 elsewhere. -/
def placeFields (fs : List Field) : Nat := (fs.map (fun f => 2 ^ f.1 * (f.2.2 % 2 ^ f.2.1))).sum

/-- Is every bit of `w` below bit `n` that no field names 0? -/
def reservedZero (n w : Nat) (fs : List Field) : Bool :=
  w % 2 ^ n == placeFields (fs.map (fun f => (f.1, f.2.1, bits w f.1 f.2.1)))

def flagBit (b : Bool) : Nat := if b then 1 else 0

/-! ### The packet header (R359, R360) -/

def classCode (c : PClass) : Nat :=
  match c with
  | .s => 0
  | .q => 1
  | .p => 2
  | .m => 3

def classOf (n : Nat) : PClass := if n = 0 then .s else if n = 1 then .q else if n = 2 then .p else .m

/-- Bytes 0 to 15. -/
def commonFields (k : Packet) : List Field :=
  [(0, 2, classCode k.cls), (2, 1, flagBit k.vc), (3, 1, flagBit k.data), (4, 4, k.type.toNat), (8, 3, k.tag.toNat), (11, 1, flagBit k.f),
   (12, 1, flagBit k.mc), (16, 17, k.dst.toNat), (33, 3, k.dstDeck.toNat), (36, 4, k.space.toNat), (40, 17, k.src.toNat),
   (57, 3, k.srcDeck.toNat), (64, 40, k.offset.toNat), (104, 12, k.srcCore.toNat)]

/-- Bytes 16 to 31, by class; of class M, VACANCY has STEP where MC_REPORT has UNDEL. -/
def classFields (k : Packet) : List Field :=
  match k.cls with
  | .q => [(128, 16, k.txn.toNat), (144, 4, k.atype.toNat), (148, 1, flagBit k.trk), (152, 16, k.fepoch.toNat),
      (168, 16, k.nepoch.toNat), (192, 32, k.fcount.toNat), (224, 32, k.imm.toNat)]
  | .p => [(128, 16, k.txn.toNat), (144, 16, k.status.toNat), (160, 1, flagBit k.retry)]
  | .s => [(128, 16, k.slot.toNat), (144, 16, k.pkt.toNat), (160, 32, k.chunk.toNat), (192, 32, k.mcmask.toNat),
      (224, 32, k.undel.toNat)]
  | .m => [(128, 16, k.slot.toNat), (144, 4, k.reason.toNat), (160, 32, k.chunk.toNat)] ++
      (if k.type = 2 then [(192, 32, k.undel.toNat)] else [(192, 64, k.step.toNat)])

/-- The 32 bytes of a packet's header, bit 0 of byte 0 lowest. -/
def headerBits (k : Packet) : BitVec 256 := BitVec.ofNat 256 (placeFields (commonFields k ++ classFields k))

/-- A packet from its header; its payload is not in it. -/
def readHeader (h : BitVec 256) : Packet :=
  let w := h.toNat
  let c := classOf (bits w 0 2)
  let k : Packet := {
    cls := c, vc := w.testBit 2, data := w.testBit 3, type := BitVec.ofNat 4 (bits w 4 4), tag := BitVec.ofNat 3 (bits w 8 3),
    f := w.testBit 11, mc := w.testBit 12, dst := BitVec.ofNat 17 (bits w 16 17), dstDeck := BitVec.ofNat 3 (bits w 33 3),
    space := BitVec.ofNat 4 (bits w 36 4), src := BitVec.ofNat 17 (bits w 40 17), srcDeck := BitVec.ofNat 3 (bits w 57 3),
    offset := BitVec.ofNat 40 (bits w 64 40), srcCore := BitVec.ofNat 12 (bits w 104 12) }
  match c with
  | .q => { k with txn := BitVec.ofNat 16 (bits w 128 16), atype := BitVec.ofNat 4 (bits w 144 4), trk := w.testBit 148,
                   fepoch := BitVec.ofNat 16 (bits w 152 16), nepoch := BitVec.ofNat 16 (bits w 168 16),
                   fcount := BitVec.ofNat 32 (bits w 192 32), imm := BitVec.ofNat 32 (bits w 224 32) }
  | .p => { k with txn := BitVec.ofNat 16 (bits w 128 16), status := BitVec.ofNat 16 (bits w 144 16), retry := w.testBit 160 }
  | .s => { k with slot := BitVec.ofNat 16 (bits w 128 16), pkt := BitVec.ofNat 16 (bits w 144 16), chunk := BitVec.ofNat 32 (bits w 160 32),
                   mcmask := BitVec.ofNat 32 (bits w 192 32), undel := BitVec.ofNat 32 (bits w 224 32) }
  | .m =>
    let m := { k with slot := BitVec.ofNat 16 (bits w 128 16), reason := BitVec.ofNat 4 (bits w 144 4), chunk := BitVec.ofNat 32 (bits w 160 32) }
    if k.type = 2 then { m with undel := BitVec.ofNat 32 (bits w 192 32) } else { m with step := BitVec.ofNat 64 (bits w 192 64) }

/-- Are the reserved bits of a header 0 (R352)? -/
def headerOk (h : BitVec 256) : Bool :=
  let k := readHeader h
  reservedZero 256 h.toNat (commonFields k ++ classFields k)

/-! ### CRC-32 and the frames (R347) -/

/-- One byte of the reflected CRC with polynomial 0xEDB88320. -/
def ieeeByte (crc : BitVec 32) (b : Byte) : BitVec 32 :=
  (List.range 8).foldl (fun c _ => if c.getLsbD 0 then (c >>> 1) ^^^ 0xEDB88320 else c >>> 1) (crc ^^^ b.setWidth 32)

/-- CRC-32 with the IEEE 802.3 polynomial. Its bit order, its start and its end are those of that standard. (PRESUMED, log
entry 45.) -/
def crc32 (bs : List Byte) : BitVec 32 := ~~~ (bs.foldl ieeeByte 0xFFFFFFFF)

/-- The 8 bytes of a frame header. -/
def frameFields (ftype npkt seq ack : Nat) (nak : Bool) : List Field :=
  [(0, 4, ftype), (4, 5, npkt), (16, 16, seq), (32, 16, ack), (48, 1, flagBit nak)]

/-- Bytes padded with zeros to `n`. -/
def padTo (n : Nat) (bs : List Byte) : List Byte := (bs ++ List.replicate (n - bs.length) 0).take n

/-- A frame of a header, a body of `n` bytes and the CRC over both. -/
def frameBytes (n : Nat) (header : Nat) (body : List Byte) : List Byte :=
  let f := natBytes 8 header ++ padTo n body
  f ++ natBytes 4 (crc32 f).toNat

/-- A packet in a frame's body: its header, and its payload where it has one. -/
def packetBytes (k : Packet) : List Byte :=
  natBytes 32 (headerBits k).toNat ++ (if k.data then readBytes k.payload 0 512 else [])

/-- The 556 bytes of a packet frame. -/
def pktFrameBytes (f : PktFrame) (nak : Bool) : List Byte :=
  frameBytes 544 (placeFields (frameFields f.ftype.toNat f.npkt.toNat f.seq.toNat f.ack.toNat nak)) (f.pkts.flatMap packetBytes)

/-- Is the CRC of a frame of `n` bytes right? -/
def frameCrcOk (n : Nat) (bs : List Byte) : Bool := bs.length == n && bytesNat (bs.drop (n - 4)) == (crc32 (bs.take (n - 4))).toNat

/-- A packet frame as the receiver reads its bytes: one data packet where NPKT is 0, else NPKT control packets with the unused
tail zero. -/
def readPktFrame (bs : List Byte) : PktFrame :=
  let h := bytesNat (bs.take 8)
  let body := (bs.drop 8).take 544
  let n := bits h 4 5
  let header := fun i => BitVec.ofNat 256 (bytesNat ((body.drop (32 * i)).take 32))
  let heads := (List.range (max 1 n)).map header
  let pkts := if n = 0 then heads.map (fun w => { readHeader w with payload := bytesCells (body.drop 32) })
    else heads.map readHeader
  { crcOk := frameCrcOk 556 bs,
    formOk := reservedZero 64 h (frameFields 0 0 0 0 false) && heads.all headerOk &&
      (n == 0 || (body.drop (32 * n)).all (· == 0)),
    ftype := BitVec.ofNat 4 (bits h 0 4), npkt := BitVec.ofNat 5 n, seq := BitVec.ofNat 16 (bits h 16 16),
    ack := BitVec.ofNat 16 (bits h 32 16), pkts := pkts }

/-- The 64 bytes of a link control frame: BEACON 2, TIME 3, TRAIN 4. -/
def controlFrameBytes (ftype : Nat) (body : List Byte) : List Byte := frameBytes 52 (placeFields (frameFields ftype 0 0 0 false)) body

/-! ### The beacon (R350) -/

def beaconFields (b : Beacon) : List Field :=
  [(0, 64, b.ns.toNat), (64, 8, b.frac.toNat), (72, 3, b.state.toNat), (75, 8, b.errEst.toNat), (83, 8, b.hops.toNat),
   (91, 3, b.gmPrio.toNat), (94, 17, b.gmModule.toNat)]

/-- The 64 bytes of a beacon frame. -/
def beaconBytes (b : Beacon) : List Byte := controlFrameBytes 2 (natBytes 52 (placeFields (beaconFields b)))

/-- A beacon from the bytes of its frame. -/
def readBeacon (bs : List Byte) : Beacon :=
  let w := bytesNat ((bs.drop 8).take 52)
  { ns := BitVec.ofNat 64 (bits w 0 64), frac := BitVec.ofNat 8 (bits w 64 8), state := BitVec.ofNat 3 (bits w 72 3),
    errEst := BitVec.ofNat 8 (bits w 75 8), hops := BitVec.ofNat 8 (bits w 83 8), gmPrio := BitVec.ofNat 3 (bits w 91 3),
    gmModule := BitVec.ofNat 17 (bits w 94 17) }

end Sys2Proof.Machine
end

