-- ==== Sys2Proof/Tests/Slice0.lean ====
section
/-! SUPPORT. Tests: words of the spec's worked examples and encodings decode to their instructions, each encoding check
refuses a term that breaks it, single steps on small states, and a witness for the hypotheses of each statement. -/
namespace Sys2Proof.Tests
open Sys2Proof Sys2Proof.Machine

/-! ### Small states -/

def core0 : CoreRef := { deck := 0, core := 0 }
/-- `k` as core 0 of deck 0 of a module after reset. -/
def withCore (k : Core) : State := setDeck State.reset 0 (setCore {} 0 k)
def readyCore : Core := { run := .ready, s := [(1, 5)] }
def readyState : State := withCore readyCore
def lastWordState : State := withCore { readyCore with pc := 8191 }
def nanState : State := withCore { readyCore with s := [(1, 0x7FC00000)] }
def fmtR : FmtR := { rd := 3, rs1 := 1, rs2 := 2, rs3 := 0, res := 0 }
def fmtI63 : FmtI := { rd := 0, rs1 := 0, rs2 := 0, res := 0, imm := 63 }
def fmtILast : FmtI := { fmtI63 with imm := 32760 }
def fmtISpad : FmtI := { fmtI63 with imm := 262136 }
def loopCore : Core := { readyCore with
  pc := 5, loops := [{ ctr := 1, first := 3, last := 5 }, { ctr := 0, first := 1, last := 5 }], live := [(0, 3), (1, 2)] }
def loopState : State := withCore loopCore
def lastRoundState : State := withCore { loopCore with live := [(0, 3), (1, 1)] }
def countState : State := withCore { readyCore with lc := [(0, 3)] }
/-- LOOP lc0 with a body of one word. -/
def loopFmt : FmtC := { body := 0 }
def csrFmt (n : BitVec 12) : FmtC := { body := n.setWidth 56 <<< 24 }
def fenceFmt (kind : BitVec 2) (mask dst : BitVec 4) : FmtC :=
  { body := kind.setWidth 56 ||| (mask.setWidth 56 <<< 2) ||| (dst.setWidth 56 <<< 6) }
/-- WAIT s3, object, s1; and with s0. -/
def waitFmt (o : BitVec 12) : FmtC := { body := 3 ||| (1 <<< 5) ||| (o.setWidth 56 <<< 24) }
def waitFmt0 (o : BitVec 12) : FmtC := { body := (1 <<< 5) ||| (o.setWidth 56 <<< 24) }
def waittFmt (r : BitVec 5) : FmtC := { body := r.setWidth 56 <<< 5 }
/-- VADD v2, v0, v1 in FP32, one row. -/
def fmtV : FmtV :=
  { nm1 := 0, dfmt := 4, sfmt := 4, km := 0, men := 0, res := 0, d := 0x10002, a := 0x10000, b := 0x10001, c := 0, ext := 0 }
def fmtV1 : FmtV := { fmtV with b := 0 }
def fmtVcmp : FmtV := { fmtV with d := 0x10000, dfmt := 0 }
def fmtVqnt : FmtV := { fmtV with dfmt := 0, d := 0, b := 64 }
def fmtVbcst : FmtV := { fmtV with sfmt := 0, a := 0, b := 0 }
def fmtVext : FmtV := { fmtV with dfmt := 0, d := 0, b := 0, ext := 4 }
def fmtTly : FmtV := { fmtV with dfmt := 0, d := 0, b := 0 }
def fmtTlyctr : FmtV := { fmtTly with sfmt := 0, a := 0 }
def busyState : State := withCore { readyCore with vq := [vecEntry 0x80 fmtV readyCore], seq := 1 }
def fencedState : State := withCore { readyCore with run := .fence 2 }
def vextState : State := withCore { readyCore with vq := [vecEntry 0x8C fmtVext readyCore], seq := 1, run := .result .vector 0 }
def tlyctrState : State := withCore { readyCore with vq := [vecEntry 0x91 fmtTlyctr readyCore], seq := 1 }
def tallyState : State := setDeck State.reset 0 { tlyQueue := [{ core := 0, tally := 0, total := 32 }] }
def farState : State := withCore { readyCore with s := [(1, 0x10000000000)] }
def timedState : State := { withCore { readyCore with run := .time 5 5 } with htu := { t := 1280 } }
def syncDeck : Deck :=
  { setCore {} 0 readyCore with
    groups := [(1, { alloc := true })], objs := [(64, { poison := true, status := 5 }), (65, { count := 10 })] }
def syncState : State := setDeck State.reset 0 syncDeck
def waitingState : State :=
  { setDeck State.reset 0 { syncDeck with
      groups := [(1, { alloc := true, timeout := 100 })], waiters := [{ who := .core 0, sd := 0, obj := 66, target := 1 }] } with
    rst := { action := 0 }, clock := 20001 }
def fmtMlds : FmtM :=
  { nm1 := 0, acc := 0, arow := 0, fmt := 0, accum := 0, pair := 0, frozen := 0, gang := 0, res := 0, x := 0, s := 0, tb := 0,
    dfmt := 0, sen := 0, clr := 0, res2 := 0 }
def fmtMmul : FmtM := fmtMlds
def fmtMdrn : FmtM := { fmtMlds with dfmt := 4 }
def fmtMzero : FmtM := fmtMlds
def matState : State := withCore { readyCore with mq := [{ matEntry 0xA3 fmtMzero readyCore with started := true }], seq := 1 }
def matWaitState : State := withCore { readyCore with mq := [matEntry 0xA3 fmtMzero readyCore], seq := 1 }
def badPairState : State := withCore { readyCore with mq := [matEntry 0xA1 fmtMmul readyCore], seq := 1 }
def gangCore : Core :=
  { readyCore with mq := [{ matEntry 0xA0 fmtMlds readyCore with gang := true, low := 0x20000000 }], seq := 1 }
def gangState : State :=
  setDeck State.reset 0 { cores := (List.range 16).map (fun i => (i, gangCore)) }
def loneGangState : State := withCore gangCore
def fmtX : FmtX :=
  { rd := 1, rs := 2, rl := 3, f := 0, cen := 0, cobj := 0, amt := 0, prio := 0, atype := 0, efmt := 0, hall := 0, res := 0,
    htag := 0, res2 := 0 }
/-- s1 names the destination 0x1000, s2 the source 0x2000, s3 the length 32. -/
def moveCore : Core := { readyCore with s := [(1, 0x1000), (2, 0x2000), (3, 32)] }
def moveReady : State := withCore moveCore
/-- The same with a master region that covers the destination, its gate closed. -/
def gatedMove : State := setDeck moveReady 0 { deckAt moveReady 0 with ctxs := [(0, { hold := { msize := 0x10000 } })] }
/-- SIG to the signal word of object 65 on module 4. -/
def fmtSig : FmtX := { fmtX with rl := 0 }
def sigReady : State :=
  { withCore { readyCore with s := [(1, 4 * 2 ^ 47 + 2 * 2 ^ 40 + 0x10000 + 8 * 65), (2, 1)] } with
    net := { armed := true, mapArmed := bytesCells (natBytes 8 (2 ^ 16)) } }
def moveEntry : MovEntry := movEntry (coreEnv moveReady 0) opMOV fmtX moveCore
def moverState : State := withCore { moveCore with xq := [moveEntry], seq := 1 }
def movedState : State := withCore { moveCore with xq := [{ moveEntry with started := true }], seq := 1 }
def stoppedState : State :=
  setDeck State.reset 0 { launches := [(0, some { stream := 0, ctx := 0, cores := [0], cobj := none, amt := 0, hdr := none, seq := 0, faulted := some 5 })] }
def trainedState : State :=
  { State.reset with ports := [(0, { state := 2 })], htu := { links := [(0, { t1 := some 0, exchanges := 4 })] } }
/-- As trainedState, three beacons missed. -/
def missedState : State := { trainedState with htu := { links := [(0, { missed := 3 })] } }
def aBeacon : Beacon := { ns := 0, frac := 0, state := 2, errEst := 4, hops := 1, gmPrio := 1, gmModule := 5 }
def aFibre : FibreId := { group := 1, serial := 1, asym := 0 }
/-- Locked to link 0; the windows of links 0 and 1 differ by 2,000/256 ns. -/
def lockedState : State :=
  { State.reset with
    ports := [(0, { state := 3, fibreId := some aFibre }), (1, { state := 3, fibreId := some aFibre })],
    htu := { state := 2, source := 0, hops := 5, links := [
      (0, { exchanges := 4, beacon := some aBeacon, winSum := 4000, winCount := 2 }),
      (1, { exchanges := 4, beacon := some aBeacon, winSum := 0, winCount := 2 })] } }
def alarmState : State :=
  { setDeck State.reset 0 { syncDeck with alarms := [(63, { enable := true, time := 1, sync := 65 })] } with htu := { t := 1280 } }
def armedState : State :=
  { State.reset with tt := { armed := true, p := 1000000, pendingValid := true }, htu := { state := 2, schedOn := true } }
/-- In Holdover with ERR_EST at 5 ns. -/
def holdoverState : State := { State.reset with htu := { state := 3, errEst := 80 } }
/-- Announced, one second of hall time before the next edge's second. -/
def announcedState : State := { State.reset with htu := { announced := true, gmNextSec := 1, t := 256000000000 } }
def recBytes (v : Nat) : List Byte := natBytes 16 v
/-- A TIME and a COLL sailing on port 0, both running. -/
def sailState : State :=
  { armedState with
    tt := { armed := true, begun := true, p := 1000000 },
    ports := [(0, { state := 3, tt := { mem := bytesCells (recBytes (1000 * 2 ^ 32 + 3 * 2 ^ 56) ++ recBytes (1000 * 2 ^ 32 + 2 ^ 56)), count := [(0, 2)] } })] }
/-- As sailState, with a packet to forward on port 0. -/
def forwardState : State := { sailState with churn := { forward := [(0, { cls := .s, data := true, slot := 0 })] } }
/-- Records of kinds 1 to 4 on deck 0, all running. -/
def schedState : State :=
  { setDeck sailState 0
      { sched := bytesCells ((recBytes (2 ^ 56 + 5 * 2 ^ 64) ++ recBytes (1000 * 2 ^ 32 + 2 * 2 ^ 56)) ++
          (recBytes (1000 * 2 ^ 32 + 3 * 2 ^ 56) ++ recBytes (1000 * 2 ^ 32 + 4 * 2 ^ 56 + 2 ^ 64))),
        dschedCount := [(0, 4)] } with
    power := { moduleState := 0 } }

/-! Ports -/
/-- Port 0 in state `n` for 10 s, with light. -/
def portState (n : BitVec 3) : State :=
  { State.reset with
    ports := [(0, { state := n, disable := n == 7 })], mgmt := { elsValid := 1, elsChannels := [(0, 5)] }, clock := 2000000000 }
def aTrain : TrainFrame := { module := 5, port := 3, build := 1, lpl := 4, digests := [] }
def armedPort : State :=
  { State.reset with net := { armed := true }, ports := [(0, { state := 1, expModule := 5, expPort := 3, expLpl := 3 })] }
def aFrame : PktFrame := { crcOk := true, formOk := true, seq := 0, ack := 0, pkts := [{ data := true }] }
def badFrame : PktFrame := { aFrame with formOk := false }
def replayState : State :=
  let fs : List ReplayFrame := [{ seq := 5, pkts := [] }, { seq := 6, pkts := [], tries := 8 }]
  { State.reset with ports := [(0, { state := 3, failedTx := BitVec.ofNat 34 (2 ^ 27 - 1), replayBuf := fs })] }
/-- A valid ELS record with 5 channels and serial number 9. -/
def elsRecord : List Byte := natBytes 60 0x905020001 ++ natBytes 4 0xa37a7d85
def elsState : State :=
  { State.reset with mgmt := { elsPresent := 3, elsValid := 2, elsChannels := [(0, 5), (1, 5)] } }
def clearState : State := setDeck State.reset 0 { clearing := true, mem := [(0, 1)] }
def aDesc : CollDesc :=
  { op := 0, rtype := 0, skim := 0, dir := false, chunkLog := 0, axes := 0, dmask := 1, slot := 3, root := 0, count := 0, seq := 0,
    layer := 0, cobj := 0, src := 0, dst := 0, amt := 0 }
def aColl : Coll := { deck := 0, ctx := 0, desc := aDesc, tstep := 0, digest := 0 }
def collState : State := { State.reset with churn := { colls := [aColl] } }

/-! Packets -/
def routerState : State :=
  { State.reset with
    ports := [(0, { state := 3 })],
    net := { queues := [(0, [{ pk := { dst := 0x1FFFE } }]), (9, [{ pk := { dst := 0x1FFFF } }, { pk := { dst := 0x1FFFE } }])],
             tracker := [{ src := 0, deck := 0, core := 0, epoch := 0 }], fenceHold := [{ pk := { dst := 0x1FFFF } }] },
    clock := 1000000 }
def aBind : Binding := { slot := 0, decks := 1, tag := 0, window := 1, owner := true }
/-- Deck 0 bound to the first LD. -/
def servedState : State := { syncState with host := { lds := [(0, { bind := some aBind })] } }
def wrPkt : Packet := { data := true, dst := 0x1FFFF, len := 512, payload := [(0, 7)] }
def farPkt : Packet := { wrPkt with offset := 0x6000000000 }
def sigPkt : Packet := { type := 3, space := 2, dst := 0x1FFFF, offset := 0x10000 + 8 * 65, imm := 3 }
def gatedState : State :=
  { servedState with decks := [(0, { ctxs := [(0, { hold := { msize := 4096 } })] })] }
/-- A slot 3 record received on port 0 with a landing of 4 KiB at the window's start. -/
def landState : State :=
  { servedState with
    tt := { armed := true, begun := true }, churn := { colls := [aColl] },
    ports := [(0, { state := 3, peerModule := 7, tt := {
      mem := bytesCells (natBytes 16 (1000 * 2 ^ 32 + 2 ^ 56 + 3 * 2 ^ 64)), count := [(1, 1)],
      land := bytesCells (natBytes 8 (2 ^ 27 + 128 * 2 ^ 32)) } })] }
def remoteEntry : MovEntry :=
  { moveEntry with op := opPUT, cobj := some 65, amt := 1, started := true, remote := true, sent := 1, rest := 1 }
def remoteState : State :=
  setDeck State.reset 0 { syncDeck with
    cores := [(0, { moveCore with xq := [remoteEntry], seq := 1, txns := [(0, some { seq := 0, packet := {}, left := 2, retry := true })] })] }
/-- As remoteState, deck 0 bound, 3 ms later. -/
def boundRemote : State := { remoteState with host := { lds := [(0, { bind := some aBind })] }, clock := 600000 }
/-- The same with a GET, and with a GET that has not started and a window a millisecond old. -/
def getEntry : MovEntry := { remoteEntry with op := opGET }
def getState : State :=
  { setDeck boundRemote 0 (setCore (deckAt boundRemote 0) 0 { coreOf boundRemote core0 with xq := [getEntry] }) with clock := 600000 }
def unsentCore : Core := { moveCore with xq := [{ getEntry with started := false, sent := 0, rest := 0 }], wins := [(7, some {})] }
def unsentState : State := { withCore unsentCore with clock := 200000 }
def windowsState : State := { withCore { unsentCore with xq := [] } with clock := 200000 }
def ackPkt : Packet := { cls := .p, dst := 0x1FFFF }
def aRef : CollRef := { deck := 0, slot := 3, tstep := 0 }
def grantedColl : Coll := { aColl with granted := true }
def grantedState : State := { State.reset with churn := { colls := [grantedColl] } }
/-- An all-reduce of 32 FP32 words on a ring of 2 in X. -/
def ringDesc : CollDesc := { aDesc with op := 1, axes := 2, count := 32 }
def ringColl : Coll := { grantedColl with desc := ringDesc }
def ringState : State :=
  { landState with
    churn := { colls := [ringColl] }, net := { armed := true, mapArmed := bytesCells (natBytes 8 (2 ^ 16)) },
    ports := [(3, portAt landState 0), (4, portAt landState 0)] }
/-- The same ring with a broadcast from this module. -/
def castColl : Coll := { ringColl with desc := { ringDesc with op := 4 } }
def castState : State := { ringState with churn := { colls := [castColl] } }
def castReport : Packet := { cls := .m, type := 2, src := 4, slot := 3 }
def chunkPkt : Packet := { cls := .s, data := true, slot := 3 }
/-- A slot 3 whose last record is FINAL and ends 5,000 ns on. -/
def finalState : State :=
  { landState with
    ports := [(0, { state := 3, tt := {
      mem := bytesCells (natBytes 16 (1000 * 2 ^ 32 + 2 ^ 56 + 3 * 2 ^ 64 + 2 ^ 93)), count := [(1, 1)] } })] }
/-- The ring's chunk 0 has wholly landed from port 4, with the header bytes `h`, for the collective `c`. -/
def landedState (c : Coll) (h : Cells) : State :=
  { ringState with
    churn := { colls := [c], landed := [(landKey 4 3 0, { len := 2, got := 3 })] }
    host := { lds := [(0, { bind := some { aBind with mem := h } })] } }
def headOf (s : State) : Cells := mapSlice (winMem s 0) 0 32
/-- A vote of one member that has its record; a collective that holds chunk 0 for port 0. -/
def voteColl : Coll := { grantedColl with desc := { aDesc with op := 6 } }
def voteState : State := { State.reset with churn := { colls := [voteColl] } }
def readyColl : Coll := { grantedColl with ready := [(chunkKey 0 0, [(0, 1)])] }
def retrainState : State := setDeck State.reset 0 { stks := [(0, { chRetrain := 8 })] }
/-- Row 7 of channel 0 of stack 0 is being copied, channel 3 retrains; AGE_S is one second above its limit. -/
def copyState : State := setDeck State.reset 0 { stks := [(0, { copying := [rowKey 0 7], chRetrain := 8, ageS := 43201 })] }
/-- As retrainState, with every detector's action 0. -/
def quietState : State := { retrainState with rst := { action := 0 } }
/-- Deck 0 bound, every channel of its first stack in training. -/
def heldState : State := { setDeck State.reset 0 { stks := [(0, { chRetrain := 0xFFFF })] } with host := servedState.host }
def dockedState : State := setDeck State.reset 0 { power := .dock }

/-! Host commands -/
def aHdr : CmdHdr := { ld := { port := 0, ld := 0 }, ring := 0, opcode := 1, irq := true, seq := 0, tag := 9 }
def ringPosted : State := { State.reset with host := { lds := [(0, { rings := [(0, { crTail := 1 })] })], doorbells := [(0, 0)] } }
/-- An IDENTIFY packet is posted. -/
def identPosted : State :=
  { State.reset with host := { lds := [(0, { rings := [(0, { crTail := 1 })], mem := bytesCells (natBytes 16 (1 + 16 * 2 ^ 64)) })],
                               doorbells := [(0, 0)] } }
/-- An IDENTIFY was taken one tick longer ago than its group's 100 ms. -/
def takenState : State :=
  { State.reset with
    host := { lds := [(0, { rings := [(0, { taken := [{ hdr := aHdr, cmd := .identify aHdr }] })] })] }, rst := { action := 0 },
    clock := 20000001 }
/-- `s` with the command `c` taken from ring 0 of the first LD. -/
def asked (s : State) (c : Instr) : State :=
  setLd s 0 { ldAt s 0 with rings := [(0, { taken := [{ hdr := aHdr, cmd := c }] })] }
/-- The command may run there and nothing but its LD's own authority stands in its way. -/
def opens (s : State) (c : Instr) : Bool := runnable (asked s c) aHdr c && cmdOpen (asked s c) aHdr
def pausedState : State := { State.reset with host := { lds := [(0, { paused := true })] }, clock := 200000000 }
def bindP : BindLdP := { port := 0, ld := 0, decks := 3, tag := 1, window := 2, owner := true }
def aQp : Qp :=
  { port := 0, ld := 0, eth := 0, mtu := 3, vlan := 0, remoteQpn := 0, sqPsn := 0, rqPsn := 0, remoteIp := 0, nextHop := 0, retry := 0 }
def aRegion : Region := { port := 0, ld := 0, deck := 0, ctx := 0, base := 0, length := 4096, access := 7 }
def liveDeck : Deck :=
  { syncDeck with
    mem := [(0, 1)],
    ctxs := [(0, { life := .live, hold := { mbase := 0x100000, msize := 4096 } })],
    streams := [(7, some { ctx := 0, entries := 16, base := 0 }), (8, some { ctx := 0, entries := 16, base := 0, run := .wait })] }
def hostSide1 : HostSide :=
  { lds := [(0, { bind := some aBind })], regions := [(5, some aRegion)], qps := [(6, some aQp)] }
/-- Deck 0 bound to the first LD, the owner; context 0 LIVE with an idle and a waiting stream. -/
def liveState : State := { setDeck State.reset 0 liveDeck with host := hostSide1 }
/-- Context 0 drains with nothing at work, 1 is in quarantine for its time, 2 drains with an engine at work, 3 is just in quarantine. -/
def drainState : State :=
  { setDeck State.reset 0 {
      cores := [(0, { coreOf matWaitState core0 with ctx := 2, lastCtx := some 2 })]
      ctxs := [(0, { life := .draining, drainUntil := 200000000 }), (1, { life := .quarantine }),
               (2, { life := .draining, drainUntil := 200000000 }), (3, { life := .quarantine, quarAt := 1 })] } with
    clock := 20000000 }
def armedOwner : State := { liveState with tt := { armed := true, p := 1000000 }, ports := sailState.ports }
def jobP : JobEpochP :=
  { deck := 0, ctx := 0, applyObj := 65, fpSlots := 1, step := 5, mbase := 0x100000, msize := 0x1000, hbase := 0x200000, hsize := 0x2000 }
def snapP : SnapshotP := { deck := 0, ctx := 0, qpn := 6, snapBase := 0x300000, length := 4096, remoteAddr := 0, rkey := 5 }
/-- One SCRUB and one SHADOW record. -/
def scheduled : Deck :=
  { sched := bytesCells (recBytes (10 * 2 ^ 32 + 2 * 2 ^ 56 + 15 * 2 ^ 64) ++ recBytes (100 + 10 * 2 ^ 32 + 3 * 2 ^ 56)),
    dschedCount := [(0, 2)] }
/-- One TIME record and one of open water in each direction of a port. -/
def openPort : PortTt :=
  { mem := bytesCells (recBytes (10 * 2 ^ 32 + 3 * 2 ^ 56) ++ recBytes (100 + 500 * 2 ^ 32 + 2 * 2 ^ 56)), count := [(0, 2), (1, 2)] }
def readyToArm : State :=
  { State.reset with
    decks := (List.range 8).map (fun d => (d, scheduled)), ports := (List.range 9).map (fun p => (p, { tt := openPort })), host := hostSide1, htu := { state := 2 }, mgmt := { trayValid := true },
    net := { mapLoaded := [(0, 1)] } }
def aJob : SnapJob := { hdr := aHdr, qpn := 6, dst := 0x300000, length := 4096, remote := 0, rkey := 5 }
def snapState : State :=
  { liveState with decks := [(0, { ctxs := [(0, { snap := some aJob, hold := { snapState := 1, msize := 4096 } }),
    (1, { snap := some aJob, hold := { snapState := 2 } })] })] }
def quiesceCmd : TakenCmd :=
  { hdr := aHdr, cmd := .quiesce aHdr { decks := 1, release := false, timeoutUs := 5 }, pending := true, started := true }
def quiesceJob : QuiesceJob := { hdr := aHdr, decks := 1, timeoutUs := 5 }
def quiesceState : State :=
  { liveState with host := { hostSide1 with
      lds := [(0, { bind := some aBind, rings := [(0, { taken := [quiesceCmd] })] })],
      quiesces := [quiesceJob] } }
/-- As quiesceState, its deck at work and its time not yet passed. -/
def busyQuiesce : State := { quiesceState with decks := [(0, { launches := [(0, none)] })] }

/-! Streams, mailboxes, Ethernet -/
def aStream : Stream := { ctx := 0, entries := 16, base := 0, pubs := [{ slot := 0, order := 0 }] }
/-- Stream 7 with one entry published: `w0` its first 8 bytes, `w1` its bytes from 16. -/
def entryState (w0 w1 : Nat) (w2 : Nat := 0) : State :=
  setDeck State.reset 0 { syncDeck with
    mem := bytesCells (natBytes 8 w0 ++ natBytes 8 0 ++ natBytes 8 w1 ++ natBytes 8 w2),
    ctxs := [(0, { life := .live })], streams := [(7, some aStream)] }
def mbxState : State :=
  let ready : Deck := { syncDeck with mbxValid := true, mbxSync := 65 }
  let full : Mailbox := { queue := List.replicate 16 (0, 0) }
  let some_ : Mailbox := { queue := [(1, 2)] }
  { State.reset with decks := [(0, ready), (1, ready)], host := { mbx := [(0, some_), (1, full)], locks := [(0, 9)] } }
/-- As liveState with converters on and no master region. -/
def rdmaState : State := { setDeck State.reset 0 syncDeck with host := hostSide1, power := { moduleState := 0 } }
/-- As rdmaState, every channel of its deck's first stack failed. -/
def failedRdma : State := { rdmaState with decks := [(0, { stks := [(0, { chFailed := 0xFFFF })] })] }
def gatedRdma : State := { rdmaState with decks := gatedState.decks }
def poisonedRdma : State := { rdmaState with decks := [(0, { memBad := [(0, true)] })] }

/-! Management -/
/-- MCTP over CXL is on, an event waits, the key may sign. -/
def cxlMgmtState : State := { State.reset with mgmt := { record := bytesCells (List.replicate 256 255), pldm := [3], pufOk := true, verified := true } }
/-- Staging is PLDM's, in state `n`. -/
def stagedState (n : BitVec 3) : State := { State.reset with mgmt := { stageOwner := 2, stageState := n, updComp := 1, updSize := 64 } }
/-- The last chunk came 60 s ago. -/
def lateStage : State := { stagedState 1 with clock := 12000000000 }

/-! Power -/
/-- On feed A, one window sample above the limit; the module in state `n`. -/
def poweredState (n : BitVec 2) : State :=
  { State.reset with power := { activeFeed := 1, moduleState := n, winSum := 15001, winCount := 1 } }
/-- On feed B, feed A in range for a second and B for less. -/
def feedState : State := { State.reset with power := { activeFeed := 2, goodA := some 0, goodB := some 5 }, clock := 200000000 }
def latchedState : State := { State.reset with power := { moduleState := 2 }, safety := { latched := true, safeN := true } }
/-- Deck 0 idle with DOCK_REQ set and row 3 waiting, deck 1 waking, dies 2 and 8 hot, no detector acts. -/
def idleDeckState : State :=
  let hotDie : Die := { hot := [true] }
  { State.reset with
    decks := [(0, { dockReq := true, power := .run }), (1, { power := .waking })], rst := { action := 0 },
    power := { waitRows := [3] }, thermal := { dies := [(2, hotDie), (8, hotDie)] }, clock := 200000000 }
/-- The scrubber's pass is older than 10 minutes. -/
def unscrubbed : State := setDeck State.reset 0 { scrubRun := 601 }
def dockedAll : State :=
  { State.reset with decks := (List.range 8).map (fun d => (d, { power := .dock })), power := { standbyReq := true } }

/-- A record of kind 1 for stream 7, whose KERNEL entry is at its head. -/
def schedKernel : State :=
  { setDeck sailState 0
      { deckAt (entryState 1 0 0x1000100000001) 0 with
        sched := bytesCells (recBytes (2 ^ 56 + 7 * 2 ^ 64)), dschedCount := [(0, 1)] } with
    power := { moduleState := 0 } }

/-! Resets -/
/-- A reset of scope `x` runs. -/
def resettingState (x : Scope) : State := { State.reset with rst := { running := [{ scope := x }] } }
/-- As resettingState, for longer than any limit. -/
def overdueReset (x : Scope) : State := { resettingState x with clock := 20000000 }
def watchedState : State := { withCore { readyCore with launch := some 0 } with rst := { action := 0 } }
def shutState : State := { setDeck State.reset 0 { power := .shutdown } with rst := { action := 0x0000400000000000 }, clock := 2000000000 }
def phaseState (n : BitVec 4) : State := { State.reset with rst := { phase := n } }
/-- A power-cycle request of 5 s ago. -/
def cycleState : State := { State.reset with rst := { pwrcycReq := true }, clock := 1000000000 }
/-- The LD of servedState has its Slack-water window. -/
def windowState : State := { servedState with host := { lds := [(0, { bind := some aBind, legacyWindow := true })] } }

/-! ### Words (chapter 04): the worked examples, and one word of each format by its field table -/

-- The loop kernel of chapter 04's worked example.
theorem test_word_csrw : decodeCore core0 0x0000002000004003 = some (.csrw core0 { body := 0x00000020000040 }) := by decide
theorem test_word_csrw_11 : decodeCore core0 0x0000001100006003 = some (.csrw core0 { body := 0x00000011000060 }) := by decide
theorem test_word_loop : decodeCore core0 0x0000000500000004 = some (.loop core0 { body := 0x00000005000000 }) := by decide
theorem test_word_ldw :
    decodeCore core0 0x2432 = some (.ldw core0 { rd := 4, rs1 := 1, rs2 := 0, res := 0, imm := 0 }) := by decide
theorem test_word_addi :
    decodeCore core0 0x0000000400002120 = some (.addi core0 { rd := 1, rs1 := 1, rs2 := 0, res := 0, imm := 4 }) := by decide
theorem test_word_vadd : (decodeCore core0 0x00000000000400084400280000440080).map wellFormed = some true := by decide
theorem test_word_fence : (decodeCore core0 0x805).map wellFormed = some true := by decide
theorem test_word_end : decodeCore core0 0x1 = some (.endKernel core0 { body := 0 }) := by decide
-- Format R: FFMA s1, s2, s3, s4 is 0x43, RD [12:8], RS1 [17:13], RS2 [22:18], RS3 [27:23].
theorem test_word_ffma : decodeCore core0 (0x43 + 2 ^ 8 * 1 + 2 ^ 13 * 2 + 2 ^ 18 * 3 + 2 ^ 23 * 4) =
    some (.ffma core0 { rd := 1, rs1 := 2, rs2 := 3, rs3 := 4, res := 0 }) := by decide
-- Branch: BEQ s1, s2 with offset 8 in IMM32 [63:32].
theorem test_word_beq : decodeCore core0 (0x50 + 2 ^ 13 * 1 + 2 ^ 18 * 2 + 2 ^ 32 * 8) =
    some (.beq core0 { rd := 0, rs1 := 1, rs2 := 2, res := 0, imm := 8 }) := by decide
-- Tally: TLYACC with A a v register (REG is bit 16 of the operand field at [65:49]).
theorem test_word_tlyacc : (decodeCore core0 (0x90 + 2 ^ 20 * 4 + 2 ^ 65)).bind (fun i => match i with
    | .tlyacc _ f => some (f.a, f.sfmt)
    | _ => none) = some (0x10000, 4) := by decide
-- Matrix: MMUL with N = 64, ACC 1, X at unit 0x1000, S at 0x2000, TB at 0x3000.
theorem test_word_mmul : (decodeCore core0 0x30002000100000007FA1).bind (fun i => match i with
    | .mmul _ f => some (f.nm1, f.acc, f.x, f.s, f.tb)
    | _ => none) = some (63, 1, 0x1000, 0x2000, 0x3000) := by decide
-- Mover: MOV s1, s2, s3; SIG and HPUSH by their opcodes.
theorem test_word_mov : (decodeCore core0 0xC41B0).bind (fun i => match i with
    | .mov _ f => some (f.rd, f.rs, f.rl)
    | _ => none) = some (1, 2, 3) := by decide
theorem test_word_sig : (decodeCore core0 0xC0).isSome = true := by decide
theorem test_word_hpush : (decodeCore core0 0xD0).isSome = true := by decide
-- Reserved opcodes (R190).
theorem test_word_reserved : decodeCore core0 0x08 = none ∧ decodeCore core0 0x37 = none ∧ decodeCore core0 0xFF = none := by decide

/-! ### Each check of WellFormed refuses a term that breaks it -/

theorem test_wf_control :
    wellFormed (.nop core0 { body := 1 }) = false ∧ wellFormed (.endKernel core0 { body := 1 }) = false ∧
    wellFormed (.csrr core0 { body := 0x20 }) = false ∧ wellFormed (.csrw core0 { body := 1 }) = false ∧
    wellFormed (.loop core0 { body := 3 }) = false ∧ wellFormed (.loop core0 { body := 4 }) = false ∧
    wellFormed (.fence core0 (fenceFmt 3 0 0)) = false ∧ wellFormed (.fence core0 (fenceFmt 0 1 1)) = false ∧
    wellFormed (.fence core0 (fenceFmt 2 1 0)) = false ∧ wellFormed (.waitObj core0 { body := 0x400 }) = false ∧
    wellFormed (.waitt core0 { body := 1 }) = false := by decide
theorem test_wf_scalar :
    wellFormed (.add core0 { fmtR with rs3 := 1 }) = false ∧ wellFormed (.ffma core0 { fmtR with res := 1 }) = false ∧
    wellFormed (.fcvtSL core0 fmtR) = false ∧ wellFormed (.addi core0 { fmtI63 with rs2 := 1 }) = false ∧
    wellFormed (.slli core0 { fmtI63 with imm := 64 }) = false ∧ wellFormed (.stw core0 { fmtI63 with rd := 1 }) = false ∧
    wellFormed (.jal core0 { fmtI63 with rs1 := 1 }) = false := by decide
theorem test_wf_vector :
    wellFormed (.vadd core0 { fmtV with km := 1 }) = false ∧ wellFormed (.vadd core0 { fmtV with sfmt := 5 }) = false ∧
    wellFormed (.vadd core0 { fmtV with dfmt := 0 }) = false ∧ wellFormed (.vadd core0 { fmtV with a := 0x10010 }) = false ∧
    wellFormed (.vadd core0 { fmtV with sfmt := 2, a := 0 }) = false ∧ wellFormed (.vadd core0 { fmtV with c := 1 }) = false ∧
    wellFormed (.vfma core0 { fmtV with c := 0x10010 }) = false ∧ wellFormed (.vcmp core0 { fmtVcmp with d := 0x10008 }) = false ∧
    wellFormed (.vcmp core0 { fmtVcmp with ext := 6 }) = false ∧ wellFormed (.vsel core0 fmtV) = false ∧
    wellFormed (.vcvt core0 { fmtV with sfmt := 6, b := 0 }) = false ∧ wellFormed (.vqnt core0 { fmtVqnt with d := 0x10000 }) = false ∧
    wellFormed (.vrsqs core0 fmtV) = false ∧ wellFormed (.vbcst core0 { fmtVbcst with a := 1 }) = false ∧
    wellFormed (.vext core0 { fmtVext with nm1 := 1 }) = false := by decide
theorem test_wf_tally_matrix :
    wellFormed (.tlyacc core0 { fmtTly with d := 1 }) = false ∧ wellFormed (.tlyctr core0 { fmtTlyctr with a := 1 }) = false ∧
    wellFormed (.mlds core0 { fmtMlds with fmt := 4 }) = false ∧ wellFormed (.mlds core0 { fmtMlds with tb := 1 }) = false ∧
    wellFormed (.mmul core0 { fmtMmul with arow := 63, nm1 := 1 }) = false ∧ wellFormed (.mmul core0 { fmtMmul with frozen := 1 }) = false ∧
    wellFormed (.mmul core0 { fmtMmul with pair := 1, nm1 := 30 }) = false ∧ wellFormed (.mdrn core0 { fmtMdrn with dfmt := 0 }) = false ∧
    wellFormed (.mzero core0 { fmtMzero with x := 1 }) = false := by decide
theorem test_wf_mover :
    wellFormed (.mov core0 { fmtX with cobj := 1 }) = false ∧ wellFormed (.mov core0 { fmtX with htag := 1 }) = false ∧
    wellFormed (.movt core0 { fmtX with efmt := 2 }) = false ∧ wellFormed (.atom core0 { fmtX with prio := 1 }) = false ∧
    wellFormed (.sig core0 { fmtX with prio := 1, rl := 0 }) = false ∧ wellFormed (.syncrd core0 { fmtX with cen := 1, rl := 0 }) = false ∧
    wellFormed (.hpush core0 fmtX) = false ∧ wellFormed (.hpop core0 { fmtX with rs := 0, hall := 1 }) = false := by decide

/-! ### Reset and single steps -/

theorem test_reset_memory : memoryWf State.reset = true := by decide
theorem test_reset_latch : latchedOff State.reset = true := by decide
/-- What core 0 of deck 0 holds in a register after a step. -/
def afterStep (r : Host.Outcome State Fault Refusal) (n : BitVec 5) : Option W64 := match r with
  | .next t => some (sreg t core0 n)
  | _ => none
-- ADD s3 = s1 + s2 with s1 = 5, s2 = 0 (R110, R116).
theorem test_add : afterStep (step { readyState with pending := [.add core0 fmtR] }) 3 = some 5 := by decide
-- DIV by 0 gives all ones (R121).
theorem test_div_zero : afterStep (exec (.div core0 fmtR) readyState) 3 = some (-1) := by decide
-- A write of s0 changes nothing (R116).
theorem test_s0 : afterStep (exec (.addi core0 { fmtI63 with rs1 := 1 }) readyState) 0 = some 0 := by decide
-- An ill-formed ADD stops the core with BAD_PARAM (R191).
theorem test_bad_add : (match exec (.add core0 { fmtR with res := 1 }) readyState with
    | .next t => some ((coreOf t core0).fault.valid, (coreOf t core0).fault.status)
    | _ => none) = some (true, stBadParam) := by decide
-- FADD 1.0 + 1.0 = 2.0 (R203).
theorem test_fadd : afterStep (exec (.fadd core0 { fmtR with rs1 := 1, rs2 := 1 }) (withCore { readyCore with s := [(1, 0x3F800000)] })) 3 =
    some 0x40000000 := by decide
-- An empty queue lets one tick of 5 ns pass (log entry 4).
theorem test_tick : (match step State.reset with
    | .next t => some t.clock
    | _ => none) = some 1 := by decide
-- A lock is owned by the firmware after its read (R448).
theorem test_lock : (match exec (.lckRead .fw 3) State.reset with
    | .next t => some (t.out, mapGet 0 t.host.locks 3)
    | _ => none) = some ([.value .fw 0], 9) := by decide
-- PWR.LIMIT below 6,000 W is clipped (R494).
theorem test_limit : (match exec (.setNumericEffecterValue .i3c .powerLimit 100) State.reset with
    | .next t => some t.power.mgcW
    | _ => none) = some 6000 := by decide

-- The packet header of R359 and R360: class Q, DATA, MC 0, DST_MOD at [32:16], DST_DECK at [35:33], OFFSET at [103:64], TXN at [143:128].
theorem test_header :
    headerBits { cls := .q, data := true, dst := 5, dstDeck := 2, offset := 0x40, txn := 9 } =
      BitVec.ofNat 256 (1 + 8 + 2 ^ 16 * 5 + 2 ^ 33 * 2 + 2 ^ 64 * 0x40 + 2 ^ 128 * 9) := by decide
theorem test_header_back : readHeader (headerBits chunkPkt) = chunkPkt := by decide
-- Bit 120, above SRC_CORE, is reserved (R359).
theorem test_header_reserved : headerOk (headerBits wrPkt) = true ∧ headerOk (headerBits wrPkt ||| (1 <<< 120)) = false := by decide
set_option maxRecDepth 4000 in
-- The CRC-32 of IEEE 802.3 of the digits 1 to 9.
theorem test_crc32 : crc32 [0x31, 0x32, 0x33, 0x34, 0x35, 0x36, 0x37, 0x38, 0x39] = 0xCBF43926 := by decide

/-! ### Witnesses: the hypotheses of the statements can be met -/

theorem wit_EmptyQueueTicks : State.reset.pending = [] := by decide

theorem wit_RegisterOperations : canIssue readyState core0 = true ∧ plainNext (coreOf readyState core0) = true ∧
    fmtR.rs3 = 0 ∧ fmtR.res = 0 := by decide

theorem wit_ImmediateOperations : canIssue readyState core0 = true ∧ plainNext (coreOf readyState core0) = true ∧
    fmtI63.rs2 = 0 ∧ fmtI63.res = 0 ∧ fmtI63.imm.toNat < 64 := by decide

theorem wit_DataMemoryLoads : canIssue readyState core0 = true ∧ plainNext (coreOf readyState core0) = true ∧
    fmtI63.rs2 = 0 ∧ fmtI63.res = 0 ∧ (sreg readyState core0 fmtI63.rs1 + fmtI63.imm.signExtend 64).toNat < 32768 := by decide
theorem wit_DataMemoryLoads_last : (sreg readyState core0 fmtILast.rs1 + fmtILast.imm.signExtend 64).toNat = 32760 ∧
    fmtILast.rs2 = 0 ∧ fmtILast.res = 0 := by decide
theorem wit_DataMemoryLoads_lds : (sreg readyState core0 fmtISpad.rs1 + fmtISpad.imm.signExtend 64).toNat = 262136 ∧
    unitOk (coreOf readyState core0) (262136 / 32) = true ∧ fmtISpad.rs2 = 0 ∧ fmtISpad.res = 0 := by decide

theorem wit_Stores : canIssue readyState core0 = true ∧ plainNext (coreOf readyState core0) = true ∧ fmtILast.rd = 0 ∧
    fmtILast.res = 0 ∧ (sreg readyState core0 fmtILast.rs1 + fmtILast.imm.signExtend 64).toNat = 32760 := by decide
theorem wit_Stores_sts : (sreg readyState core0 fmtISpad.rs1 + fmtISpad.imm.signExtend 64).toNat = 262136 ∧
    fmtISpad.rd = 0 ∧ unitOk (coreOf readyState core0) (262136 / 32) = true := by decide

theorem wit_Misaligned : canIssue readyState core0 = true ∧ fmtI63.res = 0 ∧ fmtI63.rs2 = 0 ∧ fmtI63.rd = 0 ∧
    (sreg readyState core0 fmtI63.rs1 + fmtI63.imm.signExtend 64).toNat % 2 ≠ 0 := by decide
theorem wit_Misaligned_outside : (sreg readyState core0 fmtISpad.rs1 + fmtISpad.imm.signExtend 64).toNat > 32767 ∧
    fmtISpad.res = 0 ∧ fmtISpad.rs2 = 0 ∧ fmtISpad.rd = 0 ∧ 8191 < fmtISpad.imm.toNat ∧ fmtISpad.rs1 = 0 ∧
    (sreg readyState core0 fmtISpad.rs1 == sreg readyState core0 fmtISpad.rs2) = true := by decide
theorem wit_Misaligned_taken : (sreg readyState core0 1 != sreg readyState core0 0) = true ∧
    (sreg readyState core0 0).slt (sreg readyState core0 1) = true ∧
    (!(sreg readyState core0 1).slt (sreg readyState core0 0)) = true ∧
    (sreg readyState core0 0).ult (sreg readyState core0 1) = true ∧
    (!(sreg readyState core0 1).ult (sreg readyState core0 0)) = true := by decide
theorem wit_Misaligned_end : canIssue lastWordState core0 = true ∧ (coreOf lastWordState core0).pc = 8191 ∧
    (coreOf lastWordState core0).loops = [] := by decide

theorem wit_FloatOperations : canIssue readyState core0 = true ∧ plainNext (coreOf readyState core0) = true ∧ fmtR.res = 0 ∧
    fmtR.rs3 = 0 ∧ ({ fmtR with rs2 := 0 } : FmtR).rs2 = 0 := by decide
theorem wit_FloatOperations_nan : f32 ((sreg nanState core0 fmtR.rs1).setWidth 32) = .nan := by decide

theorem wit_Branches : canIssue loopState core0 = true ∧ fmtI63.res = 0 ∧ fmtI63.rd = 0 ∧ fmtI63.imm.toNat ≤ 8191 ∧
    (coreOf loopState core0).loops.length = 2 := by decide
theorem wit_Branches_conds : (sreg readyState core0 1 == sreg readyState core0 1) = true ∧
    (sreg readyState core0 1 != sreg readyState core0 0) = true ∧
    (sreg readyState core0 0).toInt < (sreg readyState core0 1).toInt ∧
    (sreg readyState core0 0).toNat ≤ (sreg readyState core0 1).toNat ∧ plainNext (coreOf readyState core0) = true := by decide

theorem wit_Csr_unknown : canIssue readyState core0 = true ∧ (fieldC (csrFmt 5) 32 12).toNat = 5 ∧ wfCsrr (csrFmt 5) = true ∧
    wfCsrw (csrFmt 5) = true := by decide
theorem wit_Csr_ro : (fieldC (csrFmt 0x2A) 32 12).toNat = 0x2A ∧ wfCsrw (csrFmt 0x2A) = true ∧
    plainNext (coreOf readyState core0) = true := by decide

theorem wit_CsrValues : canIssue readyState core0 = true ∧ plainNext (coreOf readyState core0) = true ∧
    [0, 2, 4, 0x10, 0x11, 0x17, 0x20, 0x22, 0x28, 0x2A].all (fun n => wfCsrr (csrFmt (BitVec.ofNat 12 n)) &&
      wfCsrw (csrFmt (BitVec.ofNat 12 n)) && (fieldC (csrFmt (BitVec.ofNat 12 n)) 32 12).toNat == n) = true := by decide

theorem wit_Loop : canIssue countState core0 = true ∧ wfLoop loopFmt = true ∧ plainNext (coreOf countState core0) = true ∧
    (coreOf countState core0).loops = [] ∧ mapGet 0 (coreOf countState core0).lc 0 = 3 ∧
    endsBody (lastOp (coreOf countState core0).imem 1 1 0) = false := by decide
theorem wit_Loop_zero : canIssue readyState core0 = true ∧ mapGet 0 (coreOf readyState core0).lc 0 = 0 ∧
    (coreOf readyState core0).loops = [] := by decide
theorem wit_Loop_busy : canIssue loopState core0 = true ∧ wfLoop loopFmt = true ∧
    (coreOf loopState core0).loops.any (fun g => g.ctr == fieldC loopFmt 8 2) = true := by decide

theorem wit_InnerLoop : canIssue loopState core0 = true ∧ (coreOf loopState core0).loops =
      [{ ctr := 1, first := 3, last := 5 }, { ctr := 0, first := 1, last := 5 }] ∧ (coreOf loopState core0).pc = 5 ∧
    mapGet 0 (coreOf loopState core0).live 1 = 2 ∧ mapGet 0 (coreOf loopState core0).live 0 = 3 := by decide
theorem wit_InnerLoop_last : canIssue lastRoundState core0 = true ∧ mapGet 0 (coreOf lastRoundState core0).live 1 = 1 ∧
    mapGet 0 (coreOf lastRoundState core0).live 0 = 3 := by decide

theorem wit_Fences : canIssue readyState core0 = true ∧ plainNext (coreOf readyState core0) = true ∧
    wfFence (fenceFmt 0 2 0) = true ∧ maskBusy (coreOf readyState core0) 2 0 = false ∧
    canIssue busyState core0 = true ∧ plainNext (coreOf busyState core0) = true ∧
    maskBusy (coreOf busyState core0) 2 (coreOf busyState core0).seq = true ∧ fieldC (fenceFmt 0 2 0) 10 4 = 2 ∧
    wfFence (fenceFmt 1 2 8) = true ∧ fieldC (fenceFmt 1 2 8) 14 4 = 8 ∧ wfFence (fenceFmt 2 0 0) = true ∧
    fieldC (fenceFmt 2 0 0) 8 2 = 2 := by decide
theorem wit_Fences_source : canIssue moverState core0 = true ∧
    (coreOf moverState core0).xq.any (fun e => !e.srcRead) = true ∧ plainNext (coreOf moverState core0) = true := by decide
theorem wit_Fences_release : (coreOf fencedState core0).run = .fence 2 ∧
    maskBusy (coreOf fencedState core0) 2 (coreOf fencedState core0).seq = false ∧
    plainNext (coreOf fencedState core0) = true := by decide

theorem wit_Wait : canIssue syncState core0 = true ∧ plainNext (coreOf syncState core0) = true ∧ wfWait (waitFmt 65) = true ∧
    objAlloc (deckAt syncState 0) 65 = true ∧ objCtx (deckAt syncState 0) 65 = (coreOf syncState core0).ctx ∧
    (objAt (deckAt syncState 0) 65).poison = false ∧ fieldC (waitFmt 65) 32 12 = 65 ∧
    (sreg syncState core0 (fieldC (waitFmt 65) 13 5)).toNat ≤ (objAt (deckAt syncState 0) 65).count.toNat := by decide
theorem wit_Wait_more : (objAt (deckAt syncState 0) 64).poison = true ∧ (objAt (deckAt syncState 0) 64).status ≠ 0 ∧
    objAlloc (deckAt syncState 0) 64 = true ∧ fieldC (waitFmt 64) 8 5 ≠ 0 ∧ fieldC (waitFmt0 64) 8 5 = 0 ∧
    wfWait (waitFmt0 64) = true ∧ (objAt (deckAt syncState 0) 66).poison = false ∧
    (objAt (deckAt syncState 0) 66).count.toNat < (sreg syncState core0 (fieldC (waitFmt 66) 13 5)).toNat := by decide

theorem wit_Waitt : canIssue readyState core0 = true ∧ wfWaitt (waittFmt 1) = true ∧
    (sreg readyState core0 (fieldC (waittFmt 1) 13 5)).toNat ≤ hallNs readyState + 2 ^ 32 ∧
    enginesIdle (coreOf readyState core0) = true ∧ canIssue busyState core0 = true ∧ enginesIdle (coreOf busyState core0) = false ∧
    (coreOf timedState core0).run = .time 5 5 ∧ 5 ≤ hallNs timedState ∧ plainNext (coreOf timedState core0) = true := by decide
theorem wit_Waitt_far : canIssue farState core0 = true ∧ wfWaitt (waittFmt 1) = true ∧
    hallNs farState + 2 ^ 32 < (sreg farState core0 (fieldC (waittFmt 1) 13 5)).toNat := by decide

theorem wit_ReservedOpcode : (coreOf readyState core0).run = .ready ∧ opDefined ((0x08 : W64).toNat % 256) = false ∧
    opDefined ((0xFF : W64).toNat % 256) = false ∧ opDefined ((0x37 : W64).toNat % 256) = false := by decide

theorem wit_BrokenEncodings : canIssue readyState core0 = true ∧ instrCore (.add core0 { fmtR with rs3 := 1 }) = some core0 ∧
    (encodeCore (.add core0 { fmtR with rs3 := 1 })).isSome = true ∧ wellFormed (.add core0 { fmtR with rs3 := 1 }) = false := by
  decide
theorem wit_BrokenEncodings_wide : canIssue lastWordState core0 = true ∧ (coreOf lastWordState core0).pc = 8191 ∧
    128 ≤ (((encodeCore (.vadd core0 fmtV)).getD 0).toNat % 256) := by decide

theorem wit_VectorQueue : (coreOf readyState core0).run = .ready ∧ wideNext (coreOf readyState core0) = true ∧
    (coreOf readyState core0).vq.length < 16 ∧ wfV2 fmtV = true ∧ wfV3 fmtV = true ∧ wfVcmp fmtVcmp = true ∧
    wfVsel { fmtV with men := 1 } = true ∧ wfVcvt fmtV1 = true ∧ wfVqnt fmtVqnt = true ∧ wfVrsqs fmtV1 = true ∧
    wfVbcst fmtVbcst = true ∧ wfVext fmtVext = true ∧ wfTlyacc fmtTly = true ∧ wfTlyctr fmtTlyctr = true ∧
    (fmtTly.ext.extractLsb' 0 12).toNat / 256 = (coreOf readyState core0).ctx.toNat := by decide

theorem wit_EngineCompletes : (∃ e, (coreOf busyState core0).vq = [e] ∧ passHolds (coreOf busyState core0) 1 e.seq = false ∧
      e.op = 0x80 ∧ (runRows (vecRow e) 0 e.n { coreOf busyState core0 with vq := [] }).2 = false) ∧
    (∃ e r, (coreOf vextState core0).vq = [e] ∧ e.op = 0x8C ∧ e.a = .vreg r ∧ (coreOf vextState core0).run = .result .vector e.seq ∧
      passHolds (coreOf vextState core0) 1 e.seq = false ∧ wideNext (coreOf vextState core0) = true) := by
  refine ⟨⟨_, rfl, by decide, by decide, by decide⟩, ⟨_, _, rfl, by decide, rfl, by decide, by decide, by decide⟩⟩
theorem wit_EngineCompletes_matrix : ∃ e, (coreOf matState core0).mq = [e] ∧ e.started = true ∧
    (runMat e { coreOf matState core0 with mq := [] }).2 = false := ⟨_, rfl, by decide, by decide⟩

theorem wit_TallyUpdates : (∃ u, (deckAt tallyState 0).tlyQueue = [u]) ∧
    (∃ e, (coreOf tlyctrState core0).vq = [e] ∧ e.op = 0x91 ∧ passHolds (coreOf tlyctrState core0) 1 e.seq = false ∧
      (coreOf tlyctrState core0).tallySent = false) := ⟨⟨_, rfl⟩, ⟨_, rfl, by decide, by decide, by decide⟩⟩

theorem wit_MatrixQueue : (coreOf readyState core0).run = .ready ∧ wideNext (coreOf readyState core0) = true ∧
    wfMlds fmtMlds = true ∧ wfMmul fmtMmul = true ∧ wfMdrn fmtMdrn = true ∧ wfMzero fmtMzero = true ∧ fmtMlds.gang = 0 ∧
    fmtMmul.gang = 0 ∧ fmtMdrn.gang = 0 ∧ fmtMzero.gang = 0 := by decide
theorem wit_MatrixStart : (∃ e, (coreOf matWaitState core0).mq = [e] ∧ e.started = false ∧ e.gang = false ∧ e.op ≠ 0xA1 ∧
      passHolds (coreOf matWaitState core0) 2 e.seq = false) ∧
    (∃ e, (coreOf badPairState core0).mq = [e] ∧ e.started = false ∧ e.gang = false ∧ e.op = 0xA1 ∧
      passHolds (coreOf badPairState core0) 2 e.seq = false ∧ formatsPair (coreOf badPairState core0).statFmt e = false) :=
  ⟨⟨_, rfl, by decide, by decide, by decide, by decide⟩, ⟨_, rfl, by decide, by decide, by decide, by decide, by decide⟩⟩

theorem wit_Gang : (penCores 0).all (fun i => match startable (coreAt (deckAt gangState 0) i) with
      | some e => e.gang && e.low == 0x20000000 && startOk (coreAt (deckAt gangState 0) i) e
      | none => false) = true := by decide
theorem wit_GangTimeout : (startable (coreAt (deckAt loneGangState 0) 0)).any (·.gang) = true ∧
    startable (coreAt (deckAt loneGangState 0) 1) = none := by decide

theorem wit_MoverQueue : (coreOf moveReady core0).run = .ready ∧ wideNext (coreOf moveReady core0) = true ∧
    (coreOf moveReady core0).xq.length < 32 ∧ wfMove fmtX = true ∧
    movIssue (coreEnv moveReady 0) (deckAt moveReady 0) opMOV fmtX (coreOf moveReady core0) = none ∧
    movGated (coreEnv moveReady 0) (deckAt moveReady 0) opMOV fmtX (movArgs fmtX (coreOf moveReady core0)) = false := by decide

theorem wit_MoverQueue_gated : movIssue (coreEnv gatedMove 0) (deckAt gatedMove 0) opMOV fmtX (coreOf gatedMove core0) = none ∧
    movGated (coreEnv gatedMove 0) (deckAt gatedMove 0) opMOV fmtX (movArgs fmtX (coreOf gatedMove core0)) = true ∧ fmtX.cen = 0 := by
  decide
theorem wit_MoverQueue_remote : (coreOf sigReady core0).run = .ready ∧ wideNext (coreOf sigReady core0) = true ∧ wfSig fmtSig = true ∧
    movIssue (coreEnv sigReady 0) (deckAt sigReady 0) opSIG fmtSig (coreOf sigReady core0) = none ∧
    movGated (coreEnv sigReady 0) (deckAt sigReady 0) opSIG fmtSig (movArgs fmtSig (coreOf sigReady core0)) = false ∧
    (movEntry (coreEnv sigReady 0) opSIG fmtSig (coreOf sigReady core0)).remote = true ∧
    canStart (coreEnv sigReady 0) (coreOf sigReady core0) (movEntry (coreEnv sigReady 0) opSIG fmtSig (coreOf sigReady core0)) = true := by
  decide

theorem wit_Transfers : (deckAt movedState 0).latent = [] ∧ movHeld movedState 0 0 moveEntry = false ∧
    (movAt (coreOf movedState core0) 0).isSome = true ∧
    ((movAt (coreOf movedState core0) 0).all (fun e => e.started && !e.remote && e.op == opMOV &&
      decide (placeOf (coreEnv movedState 0) e.src.toNat e.len = .stack) &&
      decide (placeOf (coreEnv movedState 0) e.dst.toNat e.len = .stack) &&
      memReadOk (deckAt movedState 0) e.src.toNat e.len && memWriteSt (deckAt movedState 0) e.dst.toNat e.len == stGood)) = true := by
  decide

theorem wit_LaunchStop : ((launchAt (deckAt stoppedState 0) 0).all (fun l => l.faulted.isSome &&
      l.cores.all (fun i => enginesIdle (coreAt (deckAt stoppedState 0) i)))) = true ∧
    (launchAt (deckAt stoppedState 0) 0).isSome = true := by decide
theorem wit_WaitTimeout : ((deckAt waitingState 0).waiters.find? (fun y => decide (y.who = .core 0))).isSome = true ∧
    ((deckAt waitingState 0).waiters.all (waitOverdue (clockNs waitingState) (deckAt waitingState 0))) = true ∧
    actionOf waitingState 2 = 0 := by decide

theorem wit_TimeFrames : portTrained (portAt trainedState 0) = true ∧
    (linkAt trainedState.htu 0).t1 = some (({ ns := 0, frac := 0 } : Stamp).ns.toNat * 256 + ({ ns := 0, frac := 0 } : Stamp).frac.toNat) ∧
    4 ≤ (linkAt trainedState.htu 0).exchanges ∧ (linkAt trainedState.htu 0).missed < 3 ∧ portTrained (portAt missedState 0) = true ∧
    3 ≤ (linkAt missedState.htu 0).missed := by decide

theorem wit_HtuStates : ({ State.reset with htu := { state := 1 } } : State).htu.state = 1 ∧
    bestSource { State.reset with htu := { state := 1 } } = none ∧ State.reset.htu.announced = false ∧
    firstPair (windowMeans State.reset) = none ∧ lockedState.htu.state = 2 ∧ lockedState.htu.source = BitVec.ofNat 4 (0 : Fin 9).val ∧
    ({ State.reset with htu := { announced := true } } : State).htu.announced = true ∧ (24999998 : Nat) < 24999999 := by decide
theorem wit_HtuStates_disagree : (qualified lockedState).length = 2 ∧
    firstPair (windowMeans lockedState) = some (0, 1, 2000) := by decide
theorem wit_HtuStates_times : holdoverState.htu.state = 3 ∧
    80 ≤ errNow holdoverState ∧
    htuUp announcedState = true ∧
    announcedState.htu.announced = true ∧
    ((announcedState.htu.gmNextSec.toNat * 256000000000 : Nat) - (announcedState.htu.t : Int)).natAbs ≤ 256000000 ∧
    htuUp State.reset = true ∧
    State.reset.htu.announced = false ∧
    (announcedState.htu.ppsValid && announcedState.htu.refValid) = false := by
  refine ⟨?_, ?_, ?_, ?_, ?_, ?_, ?_, ?_⟩ <;> decide

theorem wit_HtRegisters : ownerWrite State.reset .fw = true ∧ mayRead State.reset .fw = true ∧
    (mapGet ({} : Alarm) (deckAt alarmState 0).alarms 63).enable = true ∧
    (mapGet ({} : Alarm) (deckAt alarmState 0).alarms 63).time.toNat ≤ hallNs alarmState ∧
    objAlloc (deckAt alarmState 0) 65 = true ∧ (mapGet ({} : Alarm) (deckAt alarmState 0).alarms 63).sync = 65 ∧
    objCtx (deckAt alarmState 0) 65 = (mapGet ({} : Alarm) (deckAt alarmState 0).alarms 63).ctx ∧
    syncUp (deckAt alarmState 0) = true ∧ objWaited (deckAt alarmState 0) 65 = false := by decide

theorem wit_StepEpochs : armedState.tt.armed = true ∧ epochNs armedState.tt (nextStep armedState.tt) ≤ hallNs armedState ∧
    armedState.tt.disarmPending = false ∧ armedState.tt.pendingValid = true ∧
    armedState.tt.pendingStep.toNat ≤ nextStep armedState.tt ∧ armedState.decks.isEmpty = true := by decide
theorem wit_Sailings : (∃ x, (activeRecords sailState 0 0)[0]? = some x ∧ x.kind = 3 ∧ runsNow sailState x.start x.len = true) ∧
    (∃ x, (activeRecords sailState 0 0)[1]? = some x ∧ x.kind = 1) ∧ portUp sailState 0 = true ∧
    (portAt sailState 0).schedWait = false ∧ portTrained (portAt sailState 0) = true ∧ sendsSched sailState 0 = true := by
  refine ⟨⟨_, rfl, by decide, by decide⟩, ⟨_, rfl, by decide⟩, by decide, by decide, by decide, by decide⟩
theorem wit_Sailings_forward : (activeRecords forwardState 0 0)[1]?.all (fun x => x.kind == 1 && !(forwardItems forwardState 0 x).isEmpty) = true ∧
    forwardState.churn.colls = [] ∧
    sendsSched forwardState 0 = true ∧
    sailState.churn.forward = [] ∧
    (portAt sailState 0).replayBuf.length < 8192 ∧
    (portAt sailState 0).lpl ≠ 3 := by
  refine ⟨?_, ?_, ?_, ?_, ?_, ?_⟩ <;> decide
set_option maxRecDepth 4000 in
theorem wit_Sched : (schedNow schedState 0 0 1).isSome = true ∧ (schedNow schedState 0 1 2).isSome = true ∧
    (schedNow schedState 0 2 3).isSome = true ∧ (schedNow schedState 0 3 4).isSome = true ∧
    deckRuns (deckAt schedState 0) = true ∧ streamHead (deckAt schedState 0) 5 = none ∧
    shadowOn { schedState with tt := {} } 0 = true ∧ shadowOn schedState 0 = false := by
  refine ⟨?_, ?_, ?_, ?_, ?_, ?_, ?_, ?_⟩ <;> decide

theorem wit_Ports : linksReleased State.reset = true ∧
    ((portAt (portState 0) 0).state = 0 ∧ linksReleased (portState 0) = true ∧ portLit (portState 0) 0 = true) ∧
    ((portAt (portState 6) 0).state = 6 ∧ linksReleased (portState 6) = true ∧ portLit (portState 6) 0 = true) ∧
    ((portAt (portState 4) 0).state = 4 ∧ linksReleased (portState 4) = true ∧ portLit (portState 4) 0 = true) ∧
    portSince (portState 0) 0 1000 = true ∧
    portSince (portState 6) 0 10000 = true ∧
    portLive (portAt (portState 3) 0) = true ∧
    linksReleased (portState 3) = true ∧
    portLit (portState 3) 0 = true ∧
    (portAt (portState 7) 0).disable = true ∧
    (portState 7).net.armed = false ∧
    portLit (portState 7) 0 = true ∧
    (portAt (portState 1) 0).state = 1 ∧
    portSince (portState 1) 0 100 = true ∧
    aTrain.lpl = 4 ∧
    aTrain.crcOk = true ∧
    portLive (portAt (portState 1) 0) = true ∧
    ({ aTrain with crcOk := false } : TrainFrame).crcOk = false ∧
    (portState 1).net.armed = false ∧
    (portAt (portState 2) 0).state ≠ 4 ∧
    (portAt (portState 2) 0).state ≠ 5 := by
  refine ⟨?_, ?_, ?_, ?_, ?_, ?_, ?_, ?_, ?_, ?_, ?_, ?_, ?_, ?_, ?_, ?_, ?_, ?_, ?_, ?_, ?_⟩ <;> decide
theorem wit_Ports_armed : armedPort.net.armed = true ∧ (portAt armedPort 0).state = 1 ∧ (portAt armedPort 0).expLpl.toNat ≤ 4 ∧
    aTrain.module ≠ 0x1FFFF ∧ aTrain.module = (portAt armedPort 0).expModule ∧ aTrain.port = (portAt armedPort 0).expPort ∧
    expFibre armedPort 0 = 0 ∧ (portAt armedPort 0).fibreId = none ∧
    ({ aTrain with module := 9 } : TrainFrame).module ≠ (portAt armedPort 0).expModule := by decide

theorem wit_Frames : (portAt (portState 3) 0).state = 3 ∧ aFrame.crcOk = true ∧ aFrame.formOk = true ∧
    frameForm aFrame = true ∧ aFrame.ftype = 0 ∧ badFrame.formOk = false ∧ aFrame.seq = (portAt (portState 3) 0).rxSeq ∧
    (portAt (portState 3) 0).violTimes = [] ∧
    0 < (portState 3).net.violLimit.toNat ∧ ({ aFrame with seq := 7 } : PktFrame).seq ≠ (portAt (portState 3) 0).rxSeq ∧
    portTrained (portAt (portState 3) 0) = true ∧ portLive (portAt (portState 3) 0) = true ∧
    (portAt (portState 3) 0).failedTx.getLsbD 33 = false ∧ (33 : Nat) < activeLanes 0 + 2 ∧
    widthFor 0 (setBit (0 : BitVec 34) 33 true) = some 0 := by decide
theorem wit_Frames_replay : (portAt replayState 0).replayBuf = [] ++ { seq := 5, pkts := [] } :: [{ seq := 6, pkts := [], tries := 8 }] ∧
    (portAt replayState 0).replayBuf = [{ seq := 5, pkts := [] }] ++ { seq := 6, pkts := [], tries := 8 } :: [] ∧
    portLive (portAt replayState 0) = true ∧ (portAt replayState 0).failedTx.getLsbD 33 = false ∧
    widthFor 0 (setBit (portAt replayState 0).failedTx 33 true) = none := by decide

theorem wit_Lasers : elsActive elsState.mgmt 0 = 0 ∧ elsUsable elsState.mgmt 1 = true ∧ elsUsable State.reset.mgmt 0 = false ∧
    elsUsable State.reset.mgmt 1 = false ∧ recordValid 2 [] = false ∧ actionOf State.reset 9 = 0 ∧
    portLive (portAt (portState 3) 0) = true ∧ elsUsable elsState.mgmt (2 * (0 : Fin 2)) = false := by decide
theorem wit_Lasers_deck : (deckAt clearState 0).clearing = true ∧ clearState.host.binds = [] := by decide
set_option maxRecDepth 20000 in
theorem wit_Lasers_record : recordValid 2 elsRecord = true ∧ (pairPorts 0).length ≤ readNat (bytesCells elsRecord) 3 1 := by
  refine ⟨?_, ?_⟩ <;> decide
theorem wit_Lasers_coll : (collAt collState { deck := 0, slot := 3, tstep := 0 }).isSome = true ∧
    (∀ c ∈ collState.churn.colls, c.silent = false ∧ c.done = false) ∧ actionOf State.reset 9 = 0 ∧
    collAt State.reset { deck := 0, slot := 3, tstep := 0 } = none ∧ (coreOf movedState core0).xq.length = 1 ∧
    (coreOf movedState core0).xq.all (·.started) = true ∧ actionOf movedState 9 = 0 := by decide

theorem wit_Router : (inputQueue routerState .hub).map (·.pk.dst) = [0x1FFFF, 0x1FFFE] ∧
    (inputQueue routerState (.port 0)).map (·.pk.dst) = [0x1FFFE] ∧ bufferOf { dst := 0x1FFFE } = bufferOf { dst := 0x1FFFF } ∧
    ({ dst := 0x1FFFF } : Packet).dst = ownModule routerState ∧
    ((ownModule routerState).extractLsb' 0 2 ^^^ (0x1FFFE : BitVec 17).extractLsb' 0 2) = 1 ∧ portUp routerState 0 = true ∧
    (portAt routerState 0).replayBuf.length < 8192 ∧ (portAt routerState 0).lpl ≠ 3 ∧ openWater routerState 0 = true ∧
    controlPort routerState { dst := 0x1FFFE } = none ∧ (inputQueue routerState (.port 0)).all (fun x => x.since + 12000 < clockNs routerState) = true ∧
    routerState.net.tracker.all (fun e => e.last + 4000000 ≤ clockNs routerState) = true ∧ routerState.net.tracker.length = 1 ∧
    routerState.net.fenceHold.length = 1 ∧
    routerState.net.fenceHold.all (fun y => y.since + 1000 * routerState.net.fenceWaitUs.toNat ≤ clockNs routerState) = true := by
  refine ⟨?_, ?_, ?_, ?_, ?_, ?_, ?_, ?_, ?_, ?_, ?_, ?_, ?_, ?_, ?_⟩ <;> decide
theorem wit_Router_down : ∀ credits, nextHop { routerState with ports := [] } (inputPort .hub) { dst := 0x1FFFE } credits = (0, none) := by
  intro c; rfl

theorem wit_Requests : wrPkt.cls = .q ∧ wrPkt.dst = ownModule servedState ∧ servedState.net.fenceHold = [] ∧
    servedState.net.tracker.length ≤ 16382 ∧ reqHeld servedState wrPkt = false ∧ (deckAt servedState 0).latent = [] ∧
    wrPkt.trk = false ∧ wrPkt.type = 0 ∧ destRefusal servedState wrPkt = none ∧
    wrPkt.offset.toNat + wrPkt.len ≤ memEnd ∧ gateRefuses (deckAt servedState 0) wrPkt.offset.toNat wrPkt.len = false ∧
    memWriteSt (deckAt servedState 0) wrPkt.offset.toNat wrPkt.len = stGood ∧ destRefusal State.reset wrPkt = some stNotBound ∧
    destRefusal servedState farPkt = none ∧ memEnd < farPkt.offset.toNat + farPkt.len ∧
    (memRead (deckAt servedState 0) 0 wrPkt.imm.toNat).isSome = true ∧
    gateRefuses (deckAt gatedState 0) wrPkt.offset.toNat wrPkt.len = true ∧ destRefusal gatedState wrPkt = none := by decide
theorem wit_Requests_sig : sigPkt.type = 3 ∧ sigPkt.space = 2 ∧ destRefusal servedState sigPkt = none ∧
    syncWordAt sigPkt.offset.toNat = some (.signal 65) ∧ objAlloc (deckAt servedState 0) 65 = true ∧
    objWaited (deckAt servedState 0) 65 = false ∧ (objAt (deckAt servedState 0) 65).count.toNat + sigPkt.imm.toNat < 2 ^ 32 ∧
    ({ wrPkt with trk := true, f := true, fcount := 1 } : Packet).fcount ≠ 0 ∧ servedState.net.tracker = [] := by decide
theorem wit_Requests_resend : (List.range 9).find? (fun p => (portAt landState p).peerModule == (7 : BitVec 17) && portUp landState p) = some 0 ∧
    (landState.churn.colls.find? (fun c => c.desc.slot == 3)).isSome = true ∧
    landingOf landState 0 3 0 (2 ^ (12 + aDesc.chunkLog)) = some (0, 0, 4096) ∧ tagLd landState 0 = some 0 ∧
    (ldAt landState 0).bind.isSome = true ∧ 0 + 512 ≤ 4096 := by
  refine ⟨?_, ?_, ?_, ?_, ?_, ?_⟩ <;> decide

theorem wit_Replies : ackPkt.dst = ownModule boundRemote ∧
    ackPkt.srcCore ≠ 0xFFF ∧
    memUp (deckAt boundRemote 0) = true ∧
    replyBound boundRemote ackPkt = true ∧
    memUp (deckAt remoteState 0) = true ∧
    replyBound remoteState ackPkt = false ∧
    (mapGet none (coreAt (deckAt boundRemote 0) 0).txns 0).all (fun x => x.retry && x.left == 2 && decide (x.retryAt + 2000 ≤ clockNs boundRemote) &&
      decide (x.sentAt + 1000 * boundRemote.net.reqTimeoutUs.toNat ≤ clockNs boundRemote)) = true ∧
    (mapGet none (coreAt (deckAt boundRemote 0) 0).txns 0).isSome = true ∧
    mapGet none (coreAt (deckAt boundRemote 0) 0).txns 1 = none ∧
    (coreAt (deckAt boundRemote 0) 0).xq = [remoteEntry] ∧
    remoteEntry.seq = 0 ∧ remoteEntry.rest = 1 ∧ remoteEntry.err = 0 ∧ remoteEntry.op ≠ opSYNCRD ∧
    remoteEntry.cobj = some 65 ∧
    objAlloc (deckAt boundRemote 0) 65 = true ∧
    objWaited (deckAt boundRemote 0) 65 = false ∧
    (deckAt boundRemote 0).ctxs = [] ∧
    movAt (coreAt (deckAt getState 0) 0) 0 = some getEntry ∧ getEntry.op = opGET ∧
    replyBound getState ackPkt = true ∧
    placeOf (coreEnv getState 0) getEntry.dst.toNat 512 = .stack ∧
    memWriteSt (deckAt getState 0) getEntry.dst.toNat 512 = stGood ∧
    (coreOf windowsState core0).xq = [] ∧
    (winAt (coreOf windowsState core0) 7).all (fun w => decide (w.last + 1000000 ≤ clockNs windowsState)) = true ∧
    (winAt (coreOf windowsState core0) 7).isSome = true ∧
    (coreOf unsentState core0).xq.all (fun e => !e.started && e.value.isNone && e.remote && e.op == opGET && canStart (coreEnv unsentState 0) (coreOf unsentState core0) e) = true ∧
    (coreOf unsentState core0).xq.length = 1 := by
  refine ⟨?_, ?_, ?_, ?_, ?_, ?_, ?_, ?_, ?_, ?_, ?_, ?_, ?_, ?_, ?_, ?_, ?_, ?_, ?_, ?_, ?_, ?_, ?_, ?_⟩ <;> decide
theorem wit_Replies_slot : inSailing State.reset 0 3 = false ∧
    inSailing landState 0 chunkPkt.slot = true ∧
    retiredSlot landState 3 = none ∧
    slotChunk landState 3 = some 4096 ∧
    landPlace landState 0 chunkPkt 4096 = some (0, 0) ∧
    (ldAt landState 0).bind.isSome = true ∧
    landPlace landState 0 { chunkPkt with tag := 1 } 4096 = none ∧
    State.reset.churn.colls.filter (fun c => c.desc.slot == 3 && c.desc.op == 4 && !c.done) = [] ∧
    reportPort castState castReport.src = some 3 ∧
    castReport.dst = ownModule castState ∧
    (reportsDue castState castColl).contains (chunkKey 3 castReport.chunk.toNat) = true ∧
    mapGet false castColl.reports (chunkKey 3 0) = false ∧
    castState.churn.colls.filter (fun c => c.desc.slot == castReport.slot && c.desc.op == 4 && !c.done) = [castColl] ∧
    collAt castState aRef = some castColl := by
  refine ⟨?_, ?_, ?_, ?_, ?_, ?_, ?_, ?_, ?_, ?_, ?_, ?_, ?_, ?_⟩ <;> decide

theorem wit_Colls : (collAt collState aRef) = some aColl ∧ collWaits collState aRef = false ∧
    (localMembers collState aColl).length = (groupDecks aDesc).length ∧
    (localMembers collState aColl).any (fun e => e.digest != aColl.digest) = false ∧ aDesc.op ≠ 7 ∧
    (localLevel collState aColl (localMembers collState aColl)).1 = stGood ∧ aColl.learned = [] ∧
    (((ctxAt (deckAt collState 0) 0).pailSize.toNat - (ctxAt (deckAt collState 0) 0).recv.toNat) * 0x10000) ≥
      heldBuffers collState aColl + sendBytes (geoOf collState 0) aDesc ∧
    collState.churn.colls.filter (fun x => x.desc.slot == 3 && x.tstep == 0) = [aColl] ∧
    collState.churn.colls.filter (fun x => x.desc.slot == 4 && x.tstep == 0) = [] ∧ actionOf collState 4 ≠ 1 := by decide
theorem wit_Colls_complete : grantedColl.used.length = recvChunks aDesc (collPlan grantedState grantedColl) ∧
    (reportsDue grantedState grantedColl).all (fun r => mapGet false grantedColl.reports r) = true ∧
    (collAt grantedState aRef) = some grantedColl ∧ collWaits grantedState aRef = false ∧
    hallNs grantedState ≤ deadlineNs grantedState 3 0 ∧ deadlineNs grantedState 3 0 ≤ hallNs grantedState ∧
    aDesc.dst + dstBytes (geoOf grantedState 0) aDesc ≤ memEnd ∧ memUp (deckAt grantedState 0) = true ∧
    gateRefuses (deckAt grantedState 0) 0 (dstBytes (geoOf grantedState 0) aDesc) = false ∧
    memWriteSt (deckAt grantedState 0) 0 (dstBytes (geoOf grantedState 0) aDesc) = stGood := by decide
theorem wit_Colls_slack :
    let s : State := { grantedState with htu := { t := 256 * 10000000 } }
    collAt s aRef = some grantedColl ∧ grantedColl.done = false ∧ grantedColl.silent = false ∧ actionOf s 4 = 0 ∧
      deadlineNs s 3 0 + 1000 * s.rst.collSlackUs.toNat < hallNs s ∧
      hallNs grantedState ≤ deadlineNs grantedState 3 0 + 1000 * grantedState.rst.collSlackUs.toNat := by decide
theorem wit_Colls_chunks : collAt ringState aRef = some ringColl ∧
    collWaits ringState aRef = false ∧
    (locate ringDesc (portItems (collPlan ringState ringColl).sends 3) 0).any (fun x => earlierUsed ringDesc (collPlan ringState ringColl) ringColl x.1) = true ∧
    chunkGone ringColl (chunkKey 3 0) = false ∧
    ringColl.buffered = [] ∧
    (groupDecks ringDesc).head? = some 0 ∧
    (landingOf ringState 4 3 0 (2 ^ (12 + ringDesc.chunkLog))).isSome = true ∧
    (locate ringDesc (portItems (collPlan ringState ringColl).recvs 4) 0).any (fun x => earlierUsed ringDesc (collPlan ringState ringColl) ringColl x.1) = true := by
  refine ⟨?_, ?_, ?_, ?_, ?_, ?_, ?_, ?_⟩ <;> decide
theorem wit_Colls_landed : (landedAt (landedState ringColl []) 4 3 0).whole = true ∧
    landingOf (landedState ringColl []) 4 3 0 4096 = some (0, 0, 4096) ∧
    collAt (landedState ringColl []) aRef = some ringColl ∧
    readNat (headOf (landedState ringColl [(24, 1)])) 24 8 ≠ ringColl.tstep ∧
    readNat (headOf (landedState ringColl [(0, 1)])) 24 8 = ringColl.tstep ∧
    readNat (headOf (landedState ringColl [(0, 1)])) 0 4 ≠ ringColl.digest.toNat ∧
    readNat (headOf (landedState ringColl [(4, 1)])) 0 4 = ringColl.digest.toNat ∧
    (crc32c (readBytes [] 0 (readNat (headOf (landedState ringColl [(4, 1)])) 8 3))).toNat ≠ readNat (headOf (landedState ringColl [(4, 1)])) 4 4 ∧
    (landedState ringColl []).churn.resendEn = true ∧
    mapGet false ringColl.asked (chunkKey 4 0) = false ∧
    (crc32c (readBytes [] 0 (readNat (headOf (landedState ringColl [])) 8 3))).toNat = readNat (headOf (landedState ringColl [])) 4 4 := by
  refine ⟨?_, ?_, ?_, ?_, ?_, ?_, ?_, ?_, ?_, ?_, ?_⟩ <;> decide
theorem wit_Colls_notices : mapGet [] readyColl.ready (chunkKey 0 0) ≠ [] ∧
    holdsFinal { State.reset with churn := { colls := [readyColl] } } readyColl = false ∧
    State.reset.churn.colls = [] ∧
    voteColl.used.length = recvChunks voteColl.desc (collPlan voteState voteColl) ∧
    voteColl.desc.op = 6 ∧
    collWaits voteState aRef = false ∧
    hallNs voteState ≤ deadlineNs voteState 3 0 ∧
    hallNs finalState < deadlineNs finalState 3 0 ∧
    collAt finalState aRef = some aColl ∧
    collWaits finalState aRef = false := by
  refine ⟨?_, ?_, ?_, ?_, ?_, ?_, ?_, ?_, ?_, ?_⟩ <;> decide

theorem wit_HostMemory : heldBind (ldAt State.reset 0) = none ∧ heldBind (ldAt servedState 0) = some aBind ∧
    hdmFits aBind 0x6000000000 1 = false ∧ hdmFits aBind 0x5FFFFFFFFF 1 = true ∧ hdmHeld servedState aBind 0x5FFFFFFFFF 1 = false ∧
    hdmAt aBind 0x5FFFFFFFFF = some (0, 0x5FFFFFFFFF) ∧ memUp (deckAt servedState 0) = true ∧
    memReadOk (deckAt servedState 0) 0x5FFFFFFFE0 32 = true ∧ (deckAt servedState 0).memBad = [] ∧
    deadPages (deckAt servedState 0) 0 memEnd = [] ∧ heldBind (ldAt heldState 0) = some aBind ∧ hdmFits aBind 0 1 = true ∧
    hdmHeld heldState aBind 0 1 = true := by
  refine ⟨?_, ?_, ?_, ?_, ?_, ?_, ?_, ?_, ?_, ?_, ?_, ?_, ?_⟩ <;> decide
theorem wit_HostMemory_clean : memClean servedState := by
  intro d
  rcases d with _ | d <;> rfl

set_option maxRecDepth 4000 in
theorem wit_Stacks : patrolRuns State.reset 0 = true ∧ patrolRuns schedState 0 = false ∧ (stkAt State.reset 0).level = 0 ∧
    (stkAt State.reset 0).sensorLost = false ∧ (85 : BitVec 8).toInt ≤ bits State.reset.mem.cfg.toNat 0 8 ∧
    (bits State.reset.mem.cfg.toNat 0 8 : Int) < (90 : BitVec 8).toInt ∧ (90 : BitVec 8).toInt ≤ bits State.reset.mem.cfg.toNat 8 8 ∧
    (bits State.reset.mem.cfg.toNat 8 8 : Int) < (96 : BitVec 8).toInt ∧ 105 < (106 : BitVec 8).toInt ∧
    State.reset.host.held = [] ∧ State.reset.net.fenceHold = [] ∧
    rangeHeld (deckAt State.reset 0) (4096 * rowPage 0 0 0) 4096 = false ∧ (deckAt State.reset 0).latent = [] ∧
    (stkAt copyState 0).copying.contains (rowKey 0 7) = true ∧ (deckAt copyState 0).latent = [] ∧ 43200 < (stkAt copyState 0).ageS.toNat ∧
    (stkAt copyState 0).scrubLate = false ∧ (stkAt State.reset 0).copying.contains (rowKey 0 7) = false ∧
    (stkAt retrainState 0).chRetrain.getLsbD 3 = true ∧ (deckAt dockedState 0).power = .dock ∧ (deckAt State.reset 0).power ≠ .dock ∧
    mapGet [] (stkAt State.reset 0).retrainTimes 3 = [] ∧ actionOf quietState 8 = 0 ∧ (stkAt quietState 0).chRetrain.getLsbD 3 = true := by
  refine ⟨?_, ?_, ?_, ?_, ?_, ?_, ?_, ?_, ?_, ?_, ?_, ?_, ?_, ?_, ?_, ?_, ?_, ?_, ?_, ?_, ?_, ?_, ?_, ?_⟩ <;> decide

set_option exponentiation.threshold 600 in
set_option maxRecDepth 100000 in
theorem wit_Rings : ringReady ringPosted 0 0 = true ∧
    ringFirst ringPosted 0 0 = true ∧
    (ringReady State.reset 0 0 && ringFirst State.reset 0 0) = false ∧
    opLayout (packetHdr { port := 0, ld := 0 } 0 (readNat (ldAt ringPosted 0).mem 0 64)).opcode.toNat = none ∧
    muted ringPosted (packetHdr { port := 0, ld := 0 } 0 (readNat (ldAt ringPosted 0).mem 0 64)) = false ∧
    lowestByte (packetErrors (readNat (ldAt identPosted 0).mem 0 64) 0 16 0) = none ∧
    lowestByte (packetErrors (readNat (ldAt identPosted 0).mem 0 64) 1 16 0) = some 4 ∧
    opLayout 1 = some (16, 0) ∧
    ringReady identPosted 0 0 = true ∧
    ringFirst identPosted 0 0 = true ∧
    ((ringAt takenState 0 0).taken.find? (fun x => !x.timedOut && !x.mute &&
      decide (x.takenAt + 1000000 * groupLimit (ldAt takenState 0) x.hdr.opcode < clockNs takenState))).isSome = true ∧
    actionOf takenState 5 = 0 ∧
    (ringAt State.reset 0 0).taken = [] ∧
    (ldAt pausedState 0).paused = true ∧
    (ldAt pausedState 0).pausedAt + 1000000000 ≤ clockNs pausedState ∧
    clockNs State.reset < (ldAt State.reset 0).pausedAt + 1000000000 := by
  refine ⟨?_, ?_, ?_, ?_, ?_, ?_, ?_, ?_, ?_, ?_, ?_, ?_, ?_, ?_, ?_, ?_⟩ <;> decide

theorem wit_Bindings : runnable State.reset aHdr (.identify aHdr) = false ∧
    [Instr.identify aHdr, .health aHdr, .timeStatus aHdr, .bindLd aHdr bindP].all (opens State.reset) = true ∧
    [Instr.timeStatus aHdr, .bindLd aHdr { bindP with decks := 0 }].all (opens servedState) = true ∧
    heldBind (ldAt (asked State.reset (.timeStatus aHdr)) 0) = none ∧
    (heldBind (ldAt (asked servedState (.timeStatus aHdr)) 0)).isSome = true ∧
    (let s := asked State.reset (.bindLd aHdr bindP)
     mayBind s aHdr.ld = true ∧ ldExists s 0 0 = true ∧ (ldAt s 0).bind = none ∧ bindRefused s 0 bindP = false ∧ bindP.decks ≠ 0 ∧ s.host.binds = [] ∧
     (maskDecks bindP.decks).any (fun d => faultRuns s d none) = false ∧
     ∀ d ∈ maskDecks bindP.decks, (deckAt s d).clearing = false ∧ (deckAt s d).power ≠ .dock ∧ (deckAt s d).power ≠ .waking) ∧
    (let s := asked servedState (.bindLd aHdr { bindP with decks := 0 })
     mayBind s aHdr.ld = true ∧ (ldAt s 0).bind = some aBind ∧ (maskDecks aBind.decks).any (fun d => faultRuns s d none) = false) ∧
    aBind.decks ≠ 0 ∧ aBind.leaving = 0 := by
  refine ⟨?_, ?_, ?_, ?_, ?_, ?_, ?_, ?_⟩ <;> decide
theorem wit_Contexts : (let s := asked servedState (.ctxCreate aHdr { deck := 0, pail := 16, recv := 1 })
      runnable s aHdr (.ctxCreate aHdr { deck := 0, pail := 16, recv := 1 }) = true ∧ deckOpen s aHdr 0 none = true ∧
      heldBind (ldAt s 0) = some aBind ∧ pailPlace (pailRanges s aBind) (aBind.window * 16) 16 = some 0 ∧
      (List.range 16).find? (fun x => decide ((ctxAt (deckAt s 0) x).life = .free)) = some 0) ∧
    (let s := asked liveState (.ctxDestroy aHdr { deck := 0, ctx := 0, drainUs := 0 })
     runnable s aHdr (.ctxDestroy aHdr { deck := 0, ctx := 0, drainUs := 0 }) = true ∧ deckOpen s aHdr 0 (some 0) = true ∧ ctxLive s 0 0 = true) ∧
    (ctxAt (deckAt drainState 0) 0).life = .draining ∧
    ctxIdle drainState 0 0 = true ∧
    (ctxAt (deckAt drainState 0) 2).life = .draining ∧
    ctxIdle drainState 0 2 = false ∧
    clockNs drainState < (ctxAt (deckAt drainState 0) 2).drainUntil ∧
    (ctxAt (deckAt drainState 0) 1).life = .quarantine ∧
    (ctxAt (deckAt drainState 0) 1).quarAt + quarantineNs drainState ≤ clockNs drainState ∧
    (ctxAt (deckAt drainState 0) 3).life = .quarantine ∧
    clockNs drainState < (ctxAt (deckAt drainState 0) 3).quarAt + quarantineNs drainState := by
  refine ⟨?_, ?_, ?_, ?_, ?_, ?_, ?_, ?_, ?_, ?_, ?_⟩ <;> decide

theorem wit_Streams : [Instr.streamOpen aHdr { deck := 0, ctx := 0, entries := 16, base := 0 }, .streamClose aHdr { deck := 0, stream := 7 },
      .launch aHdr { deck := 0, stream := 7, publish := 1, start := 100 }, .syncAlloc aHdr { deck := 0, ctx := 0, count := 1, free := false, mask := 2 },
      .syncPoison aHdr { deck := 0, ctx := 0, obj := 65, status := 5 }, .qpClose aHdr 6,
      .memMap aHdr { deck := 0, ctx := 0, access := 3, rkey := 5, base := 0, length := 4096 }].all (fun c =>
      opens liveState c && deckOpen (asked liveState c) aHdr 0 (some 0) && ctxLive (asked liveState c) 0 0) = true ∧
    (16 : BitVec 32).toNat = 2 ^ 4 ∧
    0 + 128 * 16 ≤ memEnd ∧
    (deckAt liveState 0).streams.length < 8192 ∧
    (streamAt (deckAt liveState 0) 7).isSome = true ∧
    (streamAt (deckAt liveState 0) 8).isSome = true ∧
    0 < (freeGroups (deckAt liveState 0)).length ∧
    (groupAt (deckAt liveState 0) 1).alloc = true ∧
    (groupAt (deckAt liveState 0) 1).ctx = 0 ∧
    objRefused (deckAt liveState 0) 0 65 = none ∧
    objWaited (deckAt liveState 0) 65 = false ∧
    liveState.host.regions.length < 4096 ∧
    (mapGet none liveState.host.regions 5).isSome = true ∧
    (mapGet none liveState.host.qps 6).isSome = true ∧
    (heldBind (ldAt liveState 0)).isSome = true := by
  refine ⟨?_, ?_, ?_, ?_, ?_, ?_, ?_, ?_, ?_, ?_, ?_, ?_, ?_, ?_, ?_⟩ <;> decide
theorem wit_Streams_launch : ∀ x, streamAt (deckAt liveState 0) 7 = some x → x.run = .none ∧ x.closing = none ∧ x.pubs = [] ∧
    x.pubs.length + 1 ≤ x.entries ∧ (ctxAt (deckAt liveState 0) x.ctx.toNat).life = .live ∧
    (newPubs (deckAt liveState 0) x 1 100 0 aHdr).any (fun p => p.hdr.isSome) = true := by
  intro x h; cases h; decide

set_option maxRecDepth 100000 in
theorem wit_Timetable : (let s := asked liveState (.ttLoad aHdr { kind := 0, variant := 0, portOrDeck := 0, dir := 0, base := 0, count := 1, source := 0 })
      runnable s aHdr (.ttLoad aHdr { kind := 0, variant := 0, portOrDeck := 0, dir := 0, base := 0, count := 1, source := 0 }) = true ∧
      cmdOpen s aHdr = true ∧ isOwner s 0 = true ∧ cmdHeld s 0 0 16 = false ∧ faultRuns s 0 none = false ∧ s.tt.armed = false ∧
      (hdmRead s 0 0 16).1 = stGood) ∧
    (let s := asked liveState (.ttLoad aHdr { kind := 1, variant := 0, portOrDeck := 0, dir := 0, base := 0, count := 1, source := 0 })
     runnable s aHdr (.ttLoad aHdr { kind := 1, variant := 0, portOrDeck := 0, dir := 0, base := 0, count := 1, source := 0 }) = true ∧
     cmdOpen s aHdr = true ∧ isOwner s 0 = true ∧ cmdHeld s 0 0 8 = false ∧ faultRuns s 0 none = false ∧ s.tt.armed = false ∧
     (hdmRead s 0 0 8).1 = stGood) ∧
    (let s := asked liveState (.ttLoad aHdr { kind := 2, variant := 0, portOrDeck := 0, dir := 0, base := 0, count := 1, source := 0 })
     runnable s aHdr (.ttLoad aHdr { kind := 2, variant := 0, portOrDeck := 0, dir := 0, base := 0, count := 1, source := 0 }) = true ∧
     cmdOpen s aHdr = true ∧ isOwner s 0 = true ∧ cmdHeld s 0 0 16 = false ∧ faultRuns s 0 none = false ∧ s.tt.armed = false ∧
     (hdmRead s 0 0 16).1 = stGood) ∧
    (let s := asked liveState (.ttLoad aHdr { kind := 3, variant := 0, portOrDeck := 0, dir := 0, base := 0, count := 1, source := 0 })
     runnable s aHdr (.ttLoad aHdr { kind := 3, variant := 0, portOrDeck := 0, dir := 0, base := 0, count := 1, source := 0 }) = true ∧
     cmdOpen s aHdr = true ∧ isOwner s 0 = true ∧ cmdHeld s 0 0 256 = false ∧ faultRuns s 0 none = false ∧ s.tt.armed = false ∧
     (hdmRead s 0 0 256).1 = stGood) ∧
    (let s := asked liveState (.ttArm aHdr { e0 := 0, p := 0, variant := 0, disarm := false })
     runnable s aHdr (.ttArm aHdr { e0 := 0, p := 0, variant := 0, disarm := false }) = true ∧ cmdOpen s aHdr = true ∧ isOwner s 0 = true ∧
     s.htu.state ≠ 2) ∧
    (let s := asked armedOwner (.ttArm aHdr { e0 := 0, p := 0, variant := 0, disarm := true })
     runnable s aHdr (.ttArm aHdr { e0 := 0, p := 0, variant := 0, disarm := true }) = true ∧ cmdOpen s aHdr = true ∧ isOwner s 0 = true ∧
     s.tt.armed = true ∧ s.tt.disarmPending = false) ∧
    (let s := asked armedOwner (.ttSelectVariant aHdr { variant := 0, step := 1 })
     runnable s aHdr (.ttSelectVariant aHdr { variant := 0, step := 1 }) = true ∧ cmdOpen s aHdr = true ∧ isOwner s 0 = true ∧
     variantLoaded s 0 = true ∧ hallNs s + 20000 ≤ epochNs s.tt 1) ∧
    (let s := asked armedOwner (.jobEpoch aHdr jobP)
     runnable s aHdr (.jobEpoch aHdr jobP) = true ∧ deckOpen s aHdr 0 (some 0) = true ∧ ctxLive s 0 0 = true ∧ jobRefused s jobP = false ∧
     rangeHeld (deckAt s 0) (fpArea jobP).1 (fpArea jobP).2 = false ∧ memWriteSt (deckAt s 0) (fpArea jobP).1 (fpArea jobP).2 = stGood) ∧
    (let s := asked armedOwner (.snapshot aHdr snapP)
     runnable s aHdr (.snapshot aHdr snapP) = true ∧ deckOpen s aHdr 0 (some 0) = true ∧ ctxLive s 0 0 = true ∧ snapRefused s snapP = false) := by
  refine ⟨?_, ?_, ?_, ?_, ?_, ?_, ?_, ?_, ?_⟩ <;> decide
theorem wit_Timetable_clean (c : Instr) : memClean (asked liveState c) := by
  intro d
  rcases d with _ | d <;> rfl
set_option maxRecDepth 100000 in
theorem wit_Timetable_arm : (let s := asked readyToArm (.ttArm aHdr { e0 := 1000000, p := 10000, variant := 0, disarm := false })
      runnable s aHdr (.ttArm aHdr { e0 := 1000000, p := 10000, variant := 0, disarm := false }) = true ∧ cmdOpen s aHdr = true ∧
      isOwner s 0 = true ∧ s.tt.armed = false ∧ s.htu.state = 2 ∧ variantLoaded s 0 = true ∧ hallNs s + 1000000 ≤ 1000000) ∧
    mapRefusal readyToArm readyToArm.net.mapLoaded = 0 ∧
    armFail readyToArm (mapBits readyToArm.net.mapLoaded 49 9) 10000 = none := by
  refine ⟨?_, ?_, ?_⟩ <;> decide
set_option maxRecDepth 100000 in
theorem wit_Timetable_rest : (ctxAt (deckAt snapState 0) 0).hold.snapState = 1 ∧
    (ctxAt (deckAt snapState 0) 0).snap = some aJob ∧
    (ctxAt (deckAt snapState 0) 1).hold.snapState = 2 ∧
    (ctxAt (deckAt snapState 0) 1).snap = some aJob ∧
    rangeHeld (deckAt snapState 0) (ctxAt (deckAt snapState 0) 0).hold.mbase.toNat 4096 = false ∧
    rangeHeld (deckAt snapState 0) 0x300000 (32 + 4096) = false ∧
    (deckAt snapState 0).latent = [] ∧
    (memRead (deckAt snapState 0) (ctxAt (deckAt snapState 0) 0).hold.mbase.toNat 4096).isSome = true ∧
    (deckAt snapState 0).memBad = [] ∧
    memWriteSt (deckAt snapState 0) 0x300000 (32 + 4096) = stGood ∧
    qpShips snapState aHdr.ld 6 = true ∧
    qpShips snapState aHdr.ld 5 = false ∧
    memRead (deckAt poisonedRdma 0) 0 4096 = none ∧
    memEnd < 0x5FFFFFF000 + 32 + 4096 ∧
    (let s := asked liveState (.reset aHdr { level := 4, deck := 0, ctx := 0, core := 0 })
     runnable s aHdr (.reset aHdr { level := 4, deck := 0, ctx := 0, core := 0 }) = true ∧ deckOpen s aHdr 0 none = true ∧ s.rst.running = [] ∧
     (deckAt s 0).reset = .none ∧ resetRuns s (.compute 0) = false) ∧
    (let s := asked liveState (.reset aHdr { level := 5, deck := 0, ctx := 0, core := 0 })
     runnable s aHdr (.reset aHdr { level := 5, deck := 0, ctx := 0, core := 0 }) = true ∧ cmdOpen s aHdr = true ∧ isOwner s 0 = true ∧
     boundLds s = [0] ∧ s.mgmt.stageState ≠ 4 ∧ resetRuns s .module = false) ∧
    (let s := asked liveState (.quiesce aHdr { decks := 1, release := false, timeoutUs := 5 })
     runnable s aHdr (.quiesce aHdr { decks := 1, release := false, timeoutUs := 5 }) = true ∧ cmdOpen s aHdr = true ∧ holdsAll s 0 1 = true ∧
     (maskDecks 1).any (fun d => faultRuns s d none) = false) ∧
    quiesceState.host.quiesces = [quiesceJob] ∧
    (ringAt quiesceState 0 0).taken = [quiesceCmd] ∧
    quiesceCmd.mute = false ∧
    (maskDecks 1).all (deckIdle quiesceState) = true ∧
    busyQuiesce.host.quiesces = [quiesceJob] ∧
    (maskDecks 1).all (deckIdle busyQuiesce) = false ∧
    clockNs busyQuiesce < quiesceJob.since + 1000 * quiesceJob.timeoutUs ∧
    (let s := asked liveState (.fwStage aHdr { offset := 0, length := 64, source := 0, last := true })
     runnable s aHdr (.fwStage aHdr { offset := 0, length := 64, source := 0, last := true }) = true ∧ cmdOpen s aHdr = true ∧
     isOwner s 0 = true ∧ cmdHeld s 0 0 64 = false ∧ s.mgmt.recovery = false ∧ s.mgmt.stageOwner = 0 ∧ (hdmRead s 0 0 64).1 = stGood) ∧
    (let s := asked { liveState with mgmt := { stageState := 3 } } (.fwActivate aHdr)
     runnable s aHdr (.fwActivate aHdr) = true ∧ cmdOpen s aHdr = true ∧ isOwner s 0 = true ∧ s.mgmt.recovery = false ∧ s.mgmt.stageState = 3) ∧
    (let s := asked liveState (.attest aHdr { nonce := 0, dest := 0, destLen := 64 })
     runnable s aHdr (.attest aHdr { nonce := 0, dest := 0, destLen := 64 }) = true ∧ cmdHeld s 0 0 64 = false ∧ cmdOpen s aHdr = true ∧
     (heldBind (ldAt s 0)).isSome = true ∧ maySign s = false) := by
  refine ⟨?_, ?_, ?_, ?_, ?_, ?_, ?_, ?_, ?_, ?_, ?_, ?_, ?_, ?_, ?_, ?_, ?_, ?_, ?_, ?_, ?_, ?_, ?_, ?_, ?_, ?_, ?_⟩ <;> decide

theorem wit_Entries_heads : (∀ f ∈ [0, 1, 2, 3, 4], let k := deckAt (entryState f 0) 0
      deckRuns k = true ∧ (ctxAt k 0).life = .live ∧ (streamAt k 7).isSome = true ∧ entryKind k aStream 0 = f ∧ k.waiters = [] ∧
      entryCheck k aStream 0 = none ∧ memReadOk k 0 128 = true ∧ k.latent = [] ∧ headHeld k 7 = false) ∧
    aStream.run = .none ∧ aStream.pubs = [{ slot := 0, order := 0 }] ∧ aStream.closing = none ∧
    (let k := deckAt (entryState 1 0 0x1000100000001) 0
     kernelOk (kernelEntry k aStream 0) = true ∧ fencedPen k (kernelCores (kernelEntry k aStream 0)) = false ∧
     kernelReady k 7 aStream { slot := 0, order := 0 } = true ∧ (kernelEntry k aStream 0).sched = false ∧
     (memRead k (kernelEntry k aStream 0).image (8 * (kernelEntry k aStream 0).words)).isSome = true) ∧
    (let k := deckAt schedKernel 0
     (schedNow schedKernel 0 0 1).all (fun q => q.arg == 7) = true ∧ (schedNow schedKernel 0 0 1).isSome = true ∧
     zeroDone (coreEnv schedKernel 0) 0 (kernelCores (kernelEntry k aStream 0)) k = true ∧ deckRuns k = true ∧
     kernelReady k 7 aStream { slot := 0, order := 0 } = true) ∧
    kernelOk (kernelEntry (deckAt (entryState 1 0 0) 0) aStream 0) = false := by
  refine ⟨?_, ?_, ?_, ?_, ?_, ?_, ?_⟩ <;> decide

theorem wit_Mailboxes : mbxDown dockedState 0 = true ∧ mbxDown mbxState 0 = false ∧ mbxSender mbxState (.fw) 0 = true ∧
    mbxSender mbxState .mgc 0 = false ∧ (deckAt mbxState 0).mbxValid = true ∧ ((mapGet {} mbxState.host.mbx 0).queue = [(1, 2)]) ∧
    16 ≤ (mapGet {} mbxState.host.mbx 1).queue.length ∧ (deckAt mbxState 1).mbxValid = true ∧ syncUp (deckAt mbxState 0) = true ∧
    objAlloc (deckAt mbxState 0) 65 = true ∧ (deckAt mbxState 0).mbxSync = 65 ∧ objWaited (deckAt mbxState 0) 65 = false ∧
    memWriteSt (deckAt mbxState 0) 0 16 = stGood ∧ rangeHeld (deckAt mbxState 0) 0 16 = false ∧ lockOpen mbxState .fw 0 = true ∧
    mapGet 0 mbxState.host.locks 0 = 9 ∧
    ownerNumber mbxState .fw = 9 ∧ mapGet 0 mbxState.host.locks 1 = 0 ∧
    lockOpen mbxState (.host { port := 0, ld := 0 }) 20 = false ∧ deckWriter mbxState .fw 0 = true := by
  refine ⟨?_, ?_, ?_, ?_, ?_, ?_, ?_, ?_, ?_, ?_, ?_, ?_, ?_, ?_, ?_, ?_, ?_, ?_, ?_, ?_⟩ <;> decide

theorem wit_Ethernet : liveQp rdmaState 6 = some aQp ∧ regionFor rdmaState aQp 5 0 32 0 = some aRegion ∧
    regionFor rdmaState aQp 4 0 32 0 = none ∧ regionFor rdmaState aQp 5 0 32 1 = some aRegion ∧
    gateRefuses (deckAt rdmaState 0) 0 32 = false ∧ memUp (deckAt rdmaState 0) = true ∧ (deckAt rdmaState 0).memBad = [] ∧
    memWriteSt (deckAt rdmaState 0) 0 32 = stGood ∧ aRegion.access.getLsbD 2 = true ∧ syncUp (deckAt rdmaState 0) = true ∧
    objAlloc (deckAt rdmaState 0) 65 = true ∧ objCtx (deckAt rdmaState 0) 65 = aRegion.ctx ∧ objAlloc (deckAt rdmaState 0) 0 = false ∧
    (memRead (deckAt rdmaState 0) 0 32).isSome = true ∧ liveQp gatedRdma 6 = some aQp ∧
    (regionFor gatedRdma aQp 5 0 32 0).isSome = true ∧ gateRefuses (deckAt gatedRdma 0) 0 32 = true ∧
    memRead (deckAt poisonedRdma 0) 0 32 = none ∧ liveQp poisonedRdma 6 = some aQp ∧ memUp (deckAt poisonedRdma 0) = true ∧
    rdmaHeld rdmaState 6 5 0 32 0 = false ∧ rangeHeld (deckAt rdmaState 0) 0 32 = false ∧ (deckAt rdmaState 0).latent = [] ∧
    liveQp failedRdma 6 = some aQp ∧ (regionFor failedRdma aQp 5 0 32 0).isSome = true ∧ rdmaHeld failedRdma 6 5 0 32 0 = false ∧
    gateRefuses (deckAt failedRdma 0) 0 32 = false ∧ memWriteSt (deckAt failedRdma 0) 0 32 ≠ stGood := by
  refine ⟨?_, ?_, ?_, ?_, ?_, ?_, ?_, ?_, ?_, ?_, ?_, ?_, ?_, ?_, ?_, ?_, ?_, ?_, ?_, ?_, ?_, ?_, ?_, ?_, ?_, ?_, ?_, ?_⟩ <;> decide

set_option maxRecDepth 100000 in
theorem wit_Management : mgcHears State.reset .i3c = true ∧ mgcHears cxlMgmtState .cxl = true ∧ typeCarried 7 = false ∧
    typeCarried 5 = true ∧ cxlMgmtState.mgmt.pldm = 3 :: [] ∧ State.reset.power.island = true ∧
    ({ State.reset with power := { island := false } } : State).power.island = false ∧
    quietState.power.moduleState ≠ 2 ∧ State.reset.power.moduleState ≠ 2 := by
  refine ⟨?_, ?_, ?_, ?_, ?_, ?_, ?_, ?_, ?_⟩ <;> decide

set_option maxRecDepth 100000 in
theorem wit_Spdm : mgcHears State.reset .i3c = true ∧ maySign State.reset = false ∧ maySign cxlMgmtState = true ∧
    mgcHears cxlMgmtState .cxl = true := by
  refine ⟨?_, ?_, ?_, ?_⟩ <;> decide

set_option maxRecDepth 100000 in
theorem wit_Firmware : State.reset.power.island = true ∧ State.reset.mgmt.stageOwner = 0 ∧
    (stagedState 1).mgmt.stageOwner = 2 ∧ (stagedState 1).mgmt.stageState = 1 ∧ (stagedState 1).mgmt.updComp ≠ 0 ∧
    (stagedState 1).mgmt.updSize.toNat = 64 ∧
    (stagedState 2).mgmt.stageState = 2 ∧ (stagedState 2).mgmt.stageCmd = none ∧
    verifyObject (stagedState 2) (stagedState 2).mgmt.stageMem (stagedState 2).mgmt.stageBytes.toNat = stBadParam ∧
    (stagedState 4).mgmt.stageState = 4 ∧ (stagedState 4).mgmt.recovery = false ∧ (stagedState 4).power.island = true ∧
    mgcHears cxlMgmtState .cxl = true ∧ clockNs (stagedState 1) < (stagedState 1).mgmt.stageAt + 60000000000 ∧
    lateStage.mgmt.stageAt + 60000000000 ≤ clockNs lateStage ∧ lateStage.mgmt.stageOwner ≠ 0 ∧ lateStage.mgmt.stageState = 1 := by
  refine ⟨?_, ?_, ?_, ?_, ?_, ?_, ?_, ?_, ?_, ?_, ?_, ?_, ?_, ?_, ?_, ?_, ?_⟩ <;> decide

theorem wit_Feeds : (poweredState 0).power.activeFeed = 1 ∧ (poweredState 0).power.efuseB = false ∧ (poweredState 0).power.efuseA = false ∧
    (poweredState 0).power.moduleState ≠ 2 ∧ (poweredState 0).power.winCount ≠ 0 ∧
    (poweredState 0).power.effW.toNat < (poweredState 0).power.winSum / (poweredState 0).power.winCount ∧
    (poweredState 0).power.overCnt.toNat < 9 ∧ (poweredState 2).power.moduleState = 2 ∧ (poweredState 2).power.island = true ∧
    (poweredState 2).mgmt.presentHigh = false ∧ (poweredState 2).safety.latched = false ∧ (poweredState 2).rst.hold = false ∧
    latchedState.safety.latched = true ∧ latchedState.power.moduleState = 2 ∧ latchedState.power.island = true ∧
    feedState.power.activeFeed = 2 ∧ feedState.power.efuseA = false ∧ feedState.power.goodA = some 0 ∧ 0 + 1000000000 ≤ clockNs feedState ∧
    0 + 100000000 ≤ clockNs feedState ∧ feedState.power.goodB = some 5 ∧ clockNs feedState < 5 + 1000000000 ∧
    (poweredState 0).power.goodA = none := by
  refine ⟨?_, ?_, ?_, ?_, ?_, ?_, ?_, ?_, ?_, ?_, ?_, ?_, ?_, ?_, ?_, ?_, ?_, ?_, ?_, ?_, ?_, ?_, ?_⟩ <;> decide

theorem wit_Dock : deckWriter idleDeckState .fw 0 = true ∧ deckWriter idleDeckState .mgc 0 = false ∧
    (deckAt idleDeckState 0).dockReq = true ∧ dockable idleDeckState 0 = true ∧ deckLd idleDeckState 0 = none ∧
    (deckAt idleDeckState 0).clearing = false ∧ idleDeckState.host.binds = [] ∧ (deckAt idleDeckState 1).power = .waking ∧
    (deckAt idleDeckState 1).reset = .none ∧ idleDeckState.power.moduleState ≠ 2 ∧
    16 * 0 + 3 ∈ (rampOrder idleDeckState.power.waitRows).take 12 ∧ (mapGet ({} : Die) idleDeckState.thermal.dies 2).hot = [true] ∧
    (mapGet ({} : Die) idleDeckState.thermal.dies 8).hot = [true] ∧ (deckAt idleDeckState 2).power ≠ .shutdown ∧
    idleDeckState.host.lds = [] ∧ actionOf idleDeckState 10 = 0 ∧ actionOf idleDeckState 7 = 0 ∧
    (deckAt idleDeckState 0).unboundAt + 1000000 * idleDeckState.power.dockIdleMs.toNat ≤ clockNs idleDeckState ∧
    clockNs State.reset < (deckAt State.reset 0).unboundAt + 1000000 * State.reset.power.dockIdleMs.toNat ∧
    600 < spadAge (deckAt unscrubbed 0) ∧ spadAge (deckAt State.reset 0) ≤ 600 := by
  refine ⟨?_, ?_, ?_, ?_, ?_, ?_, ?_, ?_, ?_, ?_, ?_, ?_, ?_, ?_, ?_, ?_, ?_, ?_, ?_, ?_, ?_⟩ <;> decide
theorem wit_Standby : dockedAll.power.standbyReq = true ∧ dockedAll.power.moduleState = 0 ∧
    (∀ e, e < 8 → (deckAt dockedAll e).power = .dock) := by
  refine ⟨?_, ?_, ?_⟩ <;> decide

theorem wit_Resets : State.reset.churn.colls = [] ∧
    resetRuns State.reset (.full 0) = false ∧
    resetRuns (resettingState (.full 0)) (.full 0) = true ∧
    (resettingState (.compute 0)).rst.running = [{ scope := .compute 0 }] ∧
    0 + 2000000 ≤ clockNs (overdueReset (.compute 0)) ∧
    clockNs (resettingState (.compute 0)) < 0 + 2000000 ∧
    4 ≤ (overdueReset (.compute 0)).rst.maxAuto.toNat ∧
    (resettingState (.compute 0)).host.binds = [] ∧
    (resettingState (.compute 0)).host.held = [] ∧
    (resettingState (.compute 0)).net.fenceHold = [] ∧
    0 + 100000000 ≤ clockNs (overdueReset .cmdp) ∧
    clockNs (resettingState .cmdp) < 0 + 100000000 ∧
    (overdueReset .cmdp).rst.hold = false ∧
    (overdueReset .cmdp).power.moduleState ≠ 2 ∧
    State.reset.rst.cmdpTimes = [] ∧
    resetRuns State.reset .cmdp = false ∧
    (coreOf watchedState core0).launch ≠ none ∧
    actionOf watchedState 1 = 0 ∧
    (coreOf watchedState core0).run = .ready ∧
    (deckAt shutState 0).power = .shutdown ∧
    (deckAt shutState 0).outOfService = false ∧
    deckCool shutState 0 = true ∧
    actionOf shutState 11 = 4 ∧
    shutState.rst.past = [] ∧
    resetRuns shutState (.full 0) = false ∧
    (deckAt shutState 0).hotAt + 10000000000 ≤ clockNs shutState ∧
    clockNs State.reset < (deckAt State.reset 0).hotAt + 10000000000 := by
  refine ⟨?_, ?_, ?_, ?_, ?_, ?_, ?_, ?_, ?_, ?_, ?_, ?_, ?_, ?_, ?_, ?_, ?_, ?_, ?_, ?_, ?_, ?_, ?_, ?_, ?_, ?_, ?_⟩ <;> decide

theorem wit_ModuleResets : State.reset.rst.hold = false ∧ State.reset.power.moduleState ≠ 2 ∧ resetRuns State.reset .module = false ∧
    latchedState.safety.latched = true ∧ latchedState.power.island = true ∧ State.reset.safety.latched = false ∧
    State.reset.rst.mrstLow = false ∧ (phaseState 5).rst.phase = 5 ∧ (phaseState 5).host.binds = [] ∧
    (phaseState 5).rst.mrstLow = false ∧ (deckAt (phaseState 5) 0).outOfService = false ∧ cycleState.rst.pwrcycReq = true ∧
    cycleState.rst.pwrcycAt + 1000000 * cycleState.rst.pwrcycWaitMs.toNat ≤ clockNs cycleState ∧ cycleState.power.moduleState ≠ 2 ∧
    clockNs State.reset < State.reset.rst.pwrcycAt + 1000000 * State.reset.rst.pwrcycWaitMs.toNat ∧
    (heldBind (ldAt windowState 0)).isSome = true ∧ (ldAt windowState 0).legacyWindow = true ∧ boundLds windowState = [0] ∧
    windowState.mgmt.stageState ≠ 4 ∧ (List.range 8).any (deckTraffic windowState) = false ∧ windowState.rst.hold = false ∧
    (ldAt servedState 0).legacyWindow = false ∧ legacyOpen servedState = false ∧ (mapGet none rdmaState.host.qps 6) = some aQp := by
  refine ⟨?_, ?_, ?_, ?_, ?_, ?_, ?_, ?_, ?_, ?_, ?_, ?_, ?_, ?_, ?_, ?_, ?_, ?_, ?_, ?_, ?_, ?_, ?_, ?_⟩ <;> decide

theorem wit_Registers : mayReadReg State.reset .fw (.memEcc 0) = true ∧ mayReadReg State.reset (.host { port := 0, ld := 0 }) (.memEcc 0) = false ∧
    mayReadReg State.reset .fw (.holdDrop 0) = true ∧ mayReadReg State.reset .fw .rstCfg = true ∧ lnkWriter State.reset .fw = true ∧
    deckWriter State.reset .fw 0 = true ∧ mayReadReg State.reset .fw (.reserved (.mem 0)) = true := by
  refine ⟨?_, ?_, ?_, ?_, ?_, ?_, ?_⟩ <;> decide

theorem wit_Latch : latchedState.safety.latched = true ∧ latchedState.pending.head? ≠ some .standbyPowerLoss ∧
    latchedOff latchedState = true ∧ ∃ t, step latchedState = .next t :=
  ⟨by decide, by decide, by decide, _, rfl⟩

theorem wit_Queue : ∃ t, exec .standbyPowerLoss latchedState = .next t := ⟨_, rfl⟩

end Sys2Proof.Tests
end

namespace Sys2Proof.Machine
open Sys2Proof

/-! ### CSRR and CSRW (R188) -/

/-- Writing a scalar register leaves the loops that run. -/
@[simp] theorem sSet_loops (k : Core) (r : BitVec 5) (v : W64) : (sSet k r v).loops = k.loops := by
  unfold sSet
  split <;> rfl

/-- CSRR of a number with a value writes that value into RD and goes on in sequence. -/
theorem exec_csrr_of_read (s : State) (c : CoreRef) (f : FmtC) (x : W64) (hi : canIssue s c = true)
    (hn : plainNext (coreOf s c) = true) (hw : wfCsrr f = true)
    (hx : csrRead (coreEnv s c.deck) c.core (coreOf s c) (fieldC f 32 12).toNat = some x) :
    exec (.csrr c f) s = .next (putCore s c (retired (coreOf s c) (fieldC f 8 5) x)) := by
  have hb : bodyCsrr (coreEnv s c.deck) c.core f (coreOf s c) = .seq (sSet (coreOf s c) (fieldC f 8 5) x) := by
    simp only [bodyCsrr, hx]
  calc exec (.csrr c f) s = scalarOp s c (wfCsrr f) (bodyCsrr (coreEnv s c.deck) c.core f) := rfl
    _ = _ := by rw [hw]; exact scalarOp_seq s c _ _ hi hn hb (sSet_loops _ _ _)

/-- CSRW of a number that takes a value goes on in sequence with the core that the write gives. -/
theorem exec_csrw_of_write (s : State) (c : CoreRef) (f : FmtC) (k' : Core) (hi : canIssue s c = true)
    (hn : plainNext (coreOf s c) = true) (hw : wfCsrw f = true)
    (hk : csrWrite (coreOf s c) (fieldC f 32 12).toNat (sreg s c (fieldC f 13 5)) = some k')
    (hl : k'.loops = (coreOf s c).loops) :
    exec (.csrw c f) s = .next (putCore s c { k' with pc := (coreOf s c).pc + 1 }) := by
  have hb : bodyCsrw f (coreOf s c) = .seq k' := by
    simp only [bodyCsrw, show sGet (coreOf s c) (fieldC f 13 5) = sreg s c (fieldC f 13 5) from rfl, hk]
  calc exec (.csrw c f) s = scalarOp s c (wfCsrw f) (bodyCsrw f) := rfl
    _ = _ := by rw [hw]; exact scalarOp_seq s c _ _ hi hn hb hl

theorem coreCycle_none (env : CoreEnv) (k : Core) (h : k.start = none) : coreCycle env k = 0 := by
  simp only [coreCycle, h]

theorem coreCycle_some (env : CoreEnv) (k : Core) (t : Nat) (h : k.start = some t) :
    coreCycle env k = BitVec.ofNat 64 ((env.core - t) * 6 / 1280) := by
  simp only [coreCycle, h]

/-- A stride register other than T0 reads as last written; T0 reads as 1 (R119). -/
theorem csrRead_stride (env : CoreEnv) (i : Nat) (k : Core) (n : Nat) (h1 : 0x11 ≤ n) (h2 : n ≤ 0x17) :
    csrRead env i k n = some (strideWord (mapGet {} k.t (n - 0x10))) := by
  have ht : tGet k (n - 0x10) = mapGet {} k.t (n - 0x10) := if_neg (by omega)
  rw [← ht]
  simp only [csrRead]
  rw [if_neg (by omega), if_neg (by omega), if_neg (by omega), if_neg (by omega), if_neg (by omega), if_pos (by omega)]

theorem csrRead_loopCounter (env : CoreEnv) (i : Nat) (k : Core) (n : Nat) (h1 : 0x20 ≤ n) (h2 : n ≤ 0x22) :
    csrRead env i k n = some ((mapGet 0 k.lc (n - 0x20)).setWidth 64) := by
  simp only [csrRead]
  rw [if_neg (by omega), if_neg (by omega), if_neg (by omega), if_neg (by omega), if_neg (by omega), if_neg (by omega),
    if_pos (by omega)]

theorem csrRead_liveCount (env : CoreEnv) (i : Nat) (k : Core) (n : Nat) (h1 : 0x28 ≤ n) (h2 : n ≤ 0x2A) :
    csrRead env i k n = some ((mapGet 0 k.live (n - 0x28)).setWidth 64) := by
  simp only [csrRead]
  rw [if_neg (by omega), if_neg (by omega), if_neg (by omega), if_neg (by omega), if_neg (by omega), if_neg (by omega),
    if_neg (by omega), if_pos (by omega)]

theorem csrWrite_stride (k : Core) (n : Nat) (v : W64) (h1 : 0x11 ≤ n) (h2 : n ≤ 0x17) :
    csrWrite k n v = some { k with
      t := mapSet {} k.t (n - 0x10) { row := v.extractLsb' 0 16, iter := v.extractLsb' 16 14, loop := v.extractLsb' 30 2 } } := by
  simp only [csrWrite]
  rw [if_neg (by omega), if_pos (by omega)]

theorem csrWrite_loopCounter (k : Core) (n : Nat) (v : W64) (h1 : 0x20 ≤ n) (h2 : n ≤ 0x22) :
    csrWrite k n v = some { k with lc := mapSet 0 k.lc (n - 0x20) (v.setWidth 32) } := by
  simp only [csrWrite]
  rw [if_neg (by omega), if_neg (by omega), if_pos (by omega)]

/-- Settles O12: each number's value is one equation of `csrRead` or `csrWrite`, which CSRR and CSRW carry to the core. -/
theorem csrValues : Obligations.CsrValues := by
  unfold Obligations.CsrValues
  intro s c f hi hn k n rd v gives
  refine ⟨fun hw => ?_, fun hw => ⟨fun h1 h2 => ?_, fun h1 h2 => ?_⟩⟩
  · have read : ∀ x, csrRead (coreEnv s c.deck) c.core k n = some x → gives x := fun x hx =>
      exec_csrr_of_read s c f x hi hn hw hx
    refine ⟨fun h => read _ ?coreId, fun h => read _ ?ctx, fun h hs => read _ ?notStarted, fun h t hs => read _ ?started,
      fun h => read _ ?fault, fun h => read _ ?hall, fun h => read _ ?t0, fun h1 h2 => read _ ?stride,
      fun h1 h2 => read _ (csrRead_loopCounter _ _ _ _ h1 h2), fun h1 h2 => read _ (csrRead_liveCount _ _ _ _ h1 h2)⟩
    case coreId => rw [h]; rfl
    case ctx => rw [h]; rfl
    case fault => rw [h]; rfl
    case hall => rw [h]; rfl
    case t0 => rw [h]; rfl
    case notStarted => rw [h, ← coreCycle_none (coreEnv s c.deck) k hs]; rfl
    case started => rw [h]; exact congrArg some (coreCycle_some _ k t hs)
    case stride => exact csrRead_stride _ _ _ _ h1 h2
  · exact exec_csrw_of_write s c f _ hi hn hw (csrWrite_stride k n v h1 h2) rfl
  · exact exec_csrw_of_write s c f _ hi hn hw (csrWrite_loopCounter k n v h1 h2) rfl

end Sys2Proof.Machine

namespace Sys2Proof.Machine
open Sys2Proof

/-! ### Register accesses as commands -/

theorem exec_registerWrite (s : State) (a : Agent) (r : Reg) (v : W64) :
    exec (.registerWrite a r v) s = .next (opRegWrite s a r v) := rfl

theorem exec_rcRegisterRead (s : State) (a : Agent) (r : Reg) : exec (.rcRegisterRead a r) s = .next (opRegRead s a r) := rfl

@[simp] theorem gated_true (s : State) (a : Agent) (f : State) : gated true s a f = f := rfl
@[simp] theorem gated_false (s : State) (a : Agent) (f : State) : gated false s a f = unsupported s a := rfl

/-- Firmware and the MGC write the reset settings, no host does (R542). -/
theorem resetSetter_iff (a : Agent) : resetSetter a = true ↔ ∀ l, a ≠ .host l := by
  cases a <;> simp [resetSetter]

theorem clip_eq (lo hi v : Nat) (h : lo ≤ hi) : clip lo hi v = max lo (min hi v) := by
  unfold clip
  split
  · omega
  · split <;> omega

theorem bits_zero (v w : Nat) : bits v 0 w = v % 2 ^ w := by simp [bits]

theorem bits_eq_div_mod (v lo w : Nat) : bits v lo w = v / 2 ^ lo % 2 ^ w := rfl

/-- Writing 1 to an event bit clears it, writing 0 leaves it. -/
theorem getLsbD_clearOnes {w : Nat} (e : BitVec w) (v : W64) (i : Nat) (h : i < w) :
    (e &&& ~~~(v.setWidth w)).getLsbD i = (e.getLsbD i && !v.getLsbD i) := by
  simp [h]

theorem modDeck_onlyDeck (s : State) (d : Nat) (f : Deck → Deck) : onlyDeck s (modDeck s d f) d :=
  setDeck_onlyDeck s d _

@[simp] theorem deckAt_modDeck (s : State) (d : Nat) (f : Deck → Deck) : deckAt (modDeck s d f) d = f (deckAt s d) :=
  deckAt_setDeck s d _

@[simp] theorem stkAt_modStk (s : State) (n : Nat) (f : Stack → Stack) : stkAt (modStk s n f) n = f (stkAt s n) := by
  simp only [stkAt, modStk, deckAt_modDeck, modStack, stackAt_setStack]

@[simp] theorem deckAt_emit (s : State) (o : Output) (d : Nat) : deckAt (emit s o) d = deckAt s d := rfl
@[simp] theorem stkAt_emit (s : State) (o : Output) (n : Nat) : stkAt (emit s o) n = stkAt s n := rfl

@[simp] theorem ctxAt_setHold (k : Deck) (x : Nat) (h : Hold) : ctxAt (setHold k x h) x = { ctxAt k x with hold := h } :=
  ctxAt_setCtx k x _

/-! ### Reads -/

/-- A register without a read of its own: the word goes out and the read-clear fields are cleared, or Unsupported
Request (R12). -/
theorem opRegRead_plain (s : State) (a : Agent) (r : Reg) (hm : mbxOf r = none) (ht : r ≠ .htNow) (hl : ∀ n, r ≠ .lck n) :
    opRegRead s a r =
      if mayReadReg s a r then clearRc (emit (countUnseen s r) (.value a (regWord (countUnseen s r) a r))) a r
      else unsupported s a := by
  simp only [opRegRead, hm, Option.map_none, Option.getD_none, Bool.false_eq_true, if_false]
  split
  · exact absurd rfl ht
  · simp [mbxOf] at hm
  · exact absurd rfl (hl _)
  · rfl

/-- A stack's error counters are cleared by the read that reports them. -/
theorem opRegRead_memEcc (s : State) (a : Agent) (n : Fin 32) (h : mayReadReg s a (.memEcc n) = true) :
    opRegRead s a (.memEcc n) =
      modStk (emit s (.value a (regWord s a (.memEcc n)))) n (fun x => { x with ce := 0, ue := 0 }) := by
  rw [opRegRead_plain s a _ rfl (by simp) (by simp), if_pos h]
  rfl

/-- A deck's count of gate drops is cleared by the read that reports it. -/
theorem opRegRead_holdDrop (s : State) (a : Agent) (d : Fin 8) (h : mayReadReg s a (.holdDrop d) = true) :
    opRegRead s a (.holdDrop d) =
      modDeck (emit s (.value a (regWord s a (.holdDrop d)))) d (fun k => { k with gateDrop := 0 }) := by
  rw [opRegRead_plain s a _ rfl (by simp) (by simp), if_pos h]
  rfl

/-- RST.CFG has no read-clear field. -/
theorem opRegRead_rstCfg (s : State) (a : Agent) (h : mayReadReg s a .rstCfg = true) :
    opRegRead s a .rstCfg = emit s (.value a (regWord s a .rstCfg)) := by
  rw [opRegRead_plain s a _ rfl (by simp) (by simp), if_pos h]
  rfl

theorem opRegRead_refused (s : State) (a : Agent) (r : Reg) (hm : mbxOf r = none) (ht : r ≠ .htNow) (hl : ∀ n, r ≠ .lck n)
    (h : mayReadReg s a r = false) : opRegRead s a r = unsupported s a := by
  rw [opRegRead_plain s a r hm ht hl, h]
  rfl

/-! ### Writes -/

/-- Only the MGC is refused a write that takes no value, beside those who may not reach the register (R12). -/
theorem ignoreWrite_of_not_mgc (s : State) (a : Agent) (r : Reg) (h : a ≠ .mgc) :
    ignoreWrite s a r = if mayReadReg s a r then s else unsupported s a := by
  simp [ignoreWrite, h]

/-- The registers of the timetable that are read-only take no value. -/
theorem opRegWrite_timetable (s : State) (a : Agent) (v : W64) (r : Reg)
    (h : r ∈ [Reg.ttStatus, .ttEpoch, .ttPeriod, .ttStep, .ttArmErr]) : opRegWrite s a r v = ignoreWrite s a r := by
  simp only [List.mem_cons, List.not_mem_nil, or_false] at h
  rcases h with rfl | rfl | rfl | rfl | rfl <;> rfl

/-- RST.CFG as firmware and the MGC write it: MAX_AUTO is clipped to 1 to 6 (R542). -/
theorem opRegWrite_rstCfg (s : State) (a : Agent) (v : W64) (h : ∀ l, a ≠ .host l) :
    opRegWrite s a .rstCfg v = modRst s (fun x =>
      { x with maxAuto := BitVec.ofNat 4 (clip 1 6 (bits v.toNat 0 4)), escWindowMs := v.extractLsb' 4 16, pwrcycEn := v.getLsbD 20,
               pwrcycWaitMs := v.extractLsb' 32 16 }) := by
  simp only [opRegWrite, writeRst, (resetSetter_iff a).2 h, gated_true]

theorem opRegWrite_rstAction (s : State) (a : Agent) (v : W64) (h : ∀ l, a ≠ .host l) :
    opRegWrite s a .rstAction v = { s with rst := { s.rst with action := v &&& 0x000FFFFFFFFFFFF0 } } := by
  simp only [opRegWrite, writeRst, (resetSetter_iff a).2 h, gated_true, modRst]

/-- A backup register takes a value from its one writer; from others a write is ignored or refused (R534). -/
theorem opRegWrite_bkp (s : State) (a : Agent) (n : Fin 16) (v : W64) :
    opRegWrite s a (.bkp n) v =
      if (a = .fw ∧ 2 ≤ n.val ∧ n.val ≤ 7) ∨ (a = .mgc ∧ 8 ≤ n.val) then modRst s (fun x => { x with bkp := mapSet 0 x.bkp n v })
      else if mayReadReg s a (.bkp n) then s else unsupported s a := rfl

/-- Firmware writes retained memory from 0xE100 (R535). -/
theorem opRegWrite_retained (s : State) (off : BitVec 13) (v : W64) :
    opRegWrite s .fw (.retained off) v =
      if 0xE100 ≤ 8 * off.toNat then modRst s (fun x => { x with retained := writeNat x.retained (8 * off.toNat) 8 v.toNat }) else s := rfl

theorem opRegWrite_mgtEvents_refused (s : State) (a : Agent) (v : W64) (h : a ≠ .mgc) :
    opRegWrite s a .mgtEvents v = unsupported s a := by
  cases a with
  | mgc => exact absurd rfl h
  | fw => rfl
  | host l => rfl

/-- The two times of LNK.CFG are clipped from below. -/
theorem opRegWrite_lnkCfg (s : State) (a : Agent) (v : W64) (h : lnkWriter s a = true) :
    opRegWrite s a .lnkCfg v = modNet s (fun n =>
      { n with fenceWaitUs := BitVec.ofNat 16 (max 1200 (bits v.toNat 0 16)), reqTimeoutUs := BitVec.ofNat 16 (max 2500 (bits v.toNat 16 16)),
               violLimit := v.extractLsb' 32 16 }) := by
  simp only [opRegWrite, writeNet, h, gated_true]

/-- HOLD.FAULT keeps its fields; VALID is cleared by writing 1. -/
theorem opRegWrite_holdFault (s : State) (a : Agent) (d : Fin 8) (c : BitVec 4) (v : W64) (h : deckWriter s a d = true) :
    opRegWrite s a (.holdFault d c) v = modDeck s d (fun k =>
      setHold k c.toNat { (ctxAt k c.toNat).hold with faultValid := (ctxAt k c.toNat).hold.faultValid && !v.getLsbD 63 }) := by
  simp only [opRegWrite, writeHold, h, gated_true]

/-- A 64-bit word written to a byte store is read back whole. -/
theorem readNat_writeNat_word (m : Cells) (x : Nat) (v : W64) : readNat (writeNat m x 8 v.toNat) x 8 = v.toNat := by
  rw [readNat_writeNat]
  exact Nat.mod_eq_of_lt v.isLt

/-- Settles O55: each access is an equation of `opRegRead` or `opRegWrite` for its register. -/
theorem registerWritesAndReadClears : Obligations.RegisterWritesAndReadClears := by
  unfold Obligations.RegisterWritesAndReadClears
  intro s v w
  refine ⟨fun a n => ⟨fun h => ?memEcc, fun h => ?memEccRefused⟩, fun a d h => ?holdDrop, fun a h => ?rstCfgRead,
    fun r hr a ha => ?timetable, fun l => rfl, fun a ha => ?rstCfg, fun a n => ⟨fun h => ?bkp, fun h => ?bkpIgnored⟩,
    fun a x => ⟨rfl, fun ha h => ?reserved⟩, fun a ha => ?rstAction, fun off => ⟨fun h => ?retainedLow, fun h => ?retained⟩,
    ⟨_, rfl, rfl, fun i hi => getLsbD_clearOnes s.mgmt.events v i hi⟩, fun a ha => ?mgtEvents, rfl, fun l => rfl, ⟨_, rfl, rfl, ?parkUs⟩,
    fun h => ?lnkCfg, fun a d c h => ?holdFault⟩
  case memEcc =>
    refine ⟨_, exec_rcRegisterRead s a _, ?_⟩
    rw [opRegRead_memEcc s a n h]
    exact ⟨rfl, by simp, by simp, by simp⟩
  case memEccRefused => rw [exec_rcRegisterRead, opRegRead_refused s a _ rfl (by simp) (by simp) h]
  case holdDrop =>
    refine ⟨_, exec_rcRegisterRead s a _, ?_⟩
    rw [opRegRead_holdDrop s a d h]
    exact ⟨rfl, modDeck_onlyDeck _ _ _, by simp, by simp⟩
  case rstCfgRead => rw [exec_rcRegisterRead, opRegRead_rstCfg s a h]
  case timetable =>
    rw [← ignoreWrite_of_not_mgc s a r ha, ← opRegWrite_timetable s a v r hr]
    rfl
  case rstCfg =>
    refine ⟨_, exec_registerWrite s a _ v, ?_⟩
    rw [opRegWrite_rstCfg s a v ha]
    refine ⟨rfl, ?_, rfl, rfl⟩
    simp only [modRst_rst, clip_eq 1 6 _ (by omega), bits_zero, BitVec.toNat_ofNat]
    omega
  case bkp =>
    refine ⟨_, exec_registerWrite s a _ v, ?_⟩
    rw [opRegWrite_bkp, if_pos h]
    exact ⟨rfl, mapGet_set_same _ _ _ _, fun j hj => mapGet_set_other _ _ _ _ _ hj⟩
  case bkpIgnored => exact (exec_registerWrite s a _ v).trans (by rw [opRegWrite_bkp, if_neg h])
  case reserved =>
    refine (exec_registerWrite s a _ v).trans (congrArg _ ?_)
    exact (ignoreWrite_of_not_mgc s a (.reserved x) ha).trans (if_pos h)
  case rstAction => exact (exec_registerWrite s a _ v).trans (by rw [opRegWrite_rstAction s a v ha])
  case retainedLow => exact (exec_registerWrite s .fw _ v).trans (by rw [opRegWrite_retained, if_neg (by omega)])
  case retained =>
    refine ⟨_, exec_registerWrite s .fw _ v, ?_⟩
    rw [opRegWrite_retained, if_pos h]
    exact ⟨rfl, readNat_writeNat_word _ _ v⟩
  case mgtEvents => exact (exec_registerWrite s a _ v).trans (by rw [opRegWrite_mgtEvents_refused s a v ha])
  case parkUs =>
    simp only [opRegWrite, writePwr, setPower, clip_eq 50 10000 _ (by omega), bits_zero, BitVec.toNat_ofNat]
    omega
  case lnkCfg =>
    refine ⟨_, exec_registerWrite s .fw _ v, ?_⟩
    rw [opRegWrite_lnkCfg s .fw v h]
    refine ⟨rfl, ?_, ?_⟩
    · simp only [modNet_net, bits_zero, BitVec.toNat_ofNat]
      omega
    · simp only [modNet_net, bits_eq_div_mod, BitVec.toNat_ofNat]
      omega
  case holdFault =>
    refine ⟨_, exec_registerWrite s a _ v, ?_⟩
    rw [opRegWrite_holdFault s a d c v h]
    exact ⟨modDeck_onlyDeck _ _ _, by simp, by simp⟩

end Sys2Proof.Machine

namespace Sys2Proof.Machine
open Sys2Proof

/-! ### The command of a request packet -/

/-- The command that brings a request packet, by its type (R131). -/
def requestCommand (pk : Packet) : Instr :=
  if pk.type = 0 then .pktWrite pk else if pk.type = 1 then .pktRead pk [] else if pk.type = 2 then .pktAtom pk
  else if pk.type = 3 then .pktSig pk else .pktResend pk

theorem onPacket_here (s : State) (pk : Packet) (cls : PClass) (ty : BitVec 4) (f : State) (hc : pk.cls = cls)
    (ht : pk.type = ty) (hd : pk.dst = ownModule s) : onPacket s pk cls ty f = f :=
  if_pos ⟨hc, ht, hd⟩

theorem exec_requestCommand (s : State) (pk : Packet) (hc : pk.cls = .q) (hd : pk.dst = ownModule s) (ht : pk.type.toNat ≤ 4) :
    exec (requestCommand pk) s = .next (opRequest s pk []) := by
  have arrives : ∀ ty, pk.type = ty → done (onPacket s pk .q ty (opRequest s pk [])) = .next (opRequest s pk []) := fun ty h =>
    congrArg _ (onPacket_here s pk .q ty _ hc h hd)
  unfold requestCommand
  split
  · exact arrives 0 ‹_›
  split
  · exact arrives 1 ‹_›
  split
  · exact arrives 2 ‹_›
  split
  · exact arrives 3 ‹_›
  · exact arrives 4 (by bv_omega)

/-! ### What the hub sends -/

/-- The hub's own queue takes a packet at its end. -/
theorem hubSend_queue (s : State) (pk : Packet) :
    mapGet [] (hubSend s pk).net.queues 9 = mapGet [] s.net.queues 9 ++ [{ pk := pk, since := clockNs s }] :=
  mapGet_set_same _ _ _ _

@[simp] theorem hubSend_fenceHold (s : State) (pk : Packet) : (hubSend s pk).net.fenceHold = s.net.fenceHold := rfl
@[simp] theorem hubSend_clockNs (s : State) (pk : Packet) : clockNs (hubSend s pk) = clockNs s := rfl

/-- Packets sent one after another stand in the queue in that order. -/
theorem foldl_hubSend (ps : List Packet) (s : State) :
    let t := ps.foldl hubSend s
    mapGet [] t.net.queues 9 = mapGet [] s.net.queues 9 ++ ps.map (fun p => { pk := p, since := clockNs s }) ∧
    t.decks = s.decks ∧ t.net.fenceHold = s.net.fenceHold := by
  induction ps generalizing s with
  | nil => simp
  | cons p rest ih =>
    obtain ⟨hq, hk, hf⟩ := ih (hubSend s p)
    refine ⟨?_, hk, hf⟩
    rw [List.foldl_cons, hq, hubSend_queue, hubSend_clockNs, List.map_cons, List.append_assoc, List.singleton_append]

/-- The `j`-th DATA packet of a READ of `n` bytes that read `m` (R131). -/
def dataPacket (own : BitVec 17) (pk : Packet) (n : Nat) (m : Cells) (j : Nat) : Packet :=
  { cls := .p, data := true, type := 1, tag := pk.tag, dst := pk.src, dstDeck := pk.srcDeck, src := own,
    srcDeck := pk.dstDeck, offset := BitVec.ofNat 40 (512 * j), srcCore := pk.srcCore, txn := pk.txn,
    len := min 512 (n - 512 * j), payload := mapSlice m (512 * j) (min 512 (n - 512 * j)) }

/-- All DATA packets of a READ, in order. -/
def dataPackets (own : BitVec 17) (pk : Packet) (n : Nat) (m : Cells) : List Packet :=
  (List.range ((n + 511) / 512)).map (dataPacket own pk n m)

theorem replyData_eq (s : State) (pk : Packet) (n : Nat) (m : Cells) :
    replyData s pk n m = (dataPackets (ownModule s) pk n m).foldl hubSend s := by
  have key : ∀ (js : List Nat) (t : State), ownModule t = ownModule s →
      js.foldl (fun s j => hubSend s (dataPacket (ownModule s) pk n m j)) t =
        (js.map (dataPacket (ownModule s) pk n m)).foldl hubSend t := by
    intro js
    induction js with
    | nil => intro t _; rfl
    | cons j rest ih =>
      intro t ht
      rw [List.foldl_cons, List.map_cons, List.foldl_cons, ht]
      exact ih _ ht
  exact key _ s rfl

/-- A DATA packet carries the next 512 bytes, or what is left of them. -/
theorem dataPackets_get (own : BitVec 17) (pk : Packet) (n : Nat) (m : Cells) (j : Nat) (p : Packet)
    (h : (dataPackets own pk n m)[j]? = some p) : p = dataPacket own pk n m j := by
  simp only [dataPackets, List.getElem?_map, Option.map_eq_some_iff, List.getElem?_eq_some_iff] at h
  obtain ⟨i, ⟨_, hi⟩, rfl⟩ := h
  rw [List.getElem_range] at hi
  rw [hi]

@[simp] theorem dataPackets_length (own : BitVec 17) (pk : Packet) (n : Nat) (m : Cells) :
    (dataPackets own pk n m).length = (n + 511) / 512 := by
  simp [dataPackets]

/-! ### A request outside every window -/

/-- A request packet that has arrived for this module, outside every window, with nothing held. -/
structure Untracked (s : State) (pk : Packet) : Prop where
  cls : pk.cls = .q
  dst : pk.dst = ownModule s
  unheld : s.net.fenceHold = []
  free : reqHeld s pk = false
  trk : pk.trk = false

/-- A refusal as not bound is counted (R47). -/
def noteRefusal (s : State) (st : Status) : State :=
  modNet s (fun n => if st = stNotBound then { n with notBound := satInc n.notBound } else n)

theorem noteRefusal_net (s : State) (st : Status) :
    (noteRefusal s st).net.queues = s.net.queues ∧ (noteRefusal s st).net.fenceHold = s.net.fenceHold := by
  simp only [noteRefusal, modNet_net]
  split <;> exact ⟨rfl, rfl⟩

/-- What ends a request: its status is noted and goes out as the reply. -/
def finish (s : State) (pk : Packet) (st : Status) : State := replyTo (noteRefusal s st) pk st false

@[simp] theorem finish_fenceHold (s : State) (pk : Packet) (st : Status) : (finish s pk st).net.fenceHold = s.net.fenceHold :=
  (noteRefusal_net s st).2

/-- `t` has sent the requester of `pk` one reply more than `s`, an ACK packet with status `st` (R131, R361). -/
def answered (s : State) (pk : Packet) (t : State) (st : Status) : Prop :=
  ∃ r : Packet, mapGet [] t.net.queues 9 = mapGet [] s.net.queues 9 ++ [{ pk := r, since := clockNs s }] ∧
    r.cls = .p ∧ r.type = 0 ∧ r.dst = pk.src ∧ r.dstDeck = pk.srcDeck ∧ r.srcCore = pk.srcCore ∧ r.txn = pk.txn ∧ r.status = st ∧
    r.retry = false

/-- The reply that carries the status of a request (R361). -/
def statusPacket (own : BitVec 17) (pk : Packet) (st : Status) : Packet :=
  { cls := .p, type := 0, tag := pk.tag, dst := pk.src, dstDeck := pk.srcDeck, src := own, srcDeck := pk.dstDeck,
    srcCore := pk.srcCore, txn := pk.txn, status := st }

theorem finish_answered (s s1 : State) (pk : Packet) (st : Status) (hn : s1.net = (takeArrived s pk).net)
    (hc : s1.clock = s.clock) : answered s pk (finish s1 pk st) st := by
  have hq : (noteRefusal s1 st).net.queues = s.net.queues := by rw [(noteRefusal_net s1 st).1, hn]; rfl
  have ht : clockNs (noteRefusal s1 st) = clockNs s := congrArg (5 * ·) hc
  refine ⟨statusPacket (ownModule (noteRefusal s1 st)) pk st, ?_, rfl, rfl, rfl, rfl, rfl, rfl, rfl, rfl⟩
  rw [← hq, ← ht]
  exact hubSend_queue _ _

theorem countDone_untracked (now : Nat) (n : Net) (pk : Packet) (st : Status) (h : pk.trk = false) : countDone now n pk st = n := by
  simp [countDone, h]

theorem deliver_write (s : State) (pk : Packet) (errs : List SectorErr) (ht : pk.type = 0) (hk : pk.trk = false) :
    deliver s pk errs = finish (serveWrite s pk).2 pk (serveWrite s pk).1 := by
  simp [deliver, finish, noteRefusal, ht, countDone_untracked _ _ _ _ hk]

theorem deliver_atom (s : State) (pk : Packet) (errs : List SectorErr) (ht : pk.type = 2) (hk : pk.trk = false) :
    deliver s pk errs = finish (serveAtom s pk).2 pk (serveAtom s pk).1 := by
  simp [deliver, finish, noteRefusal, ht, countDone_untracked _ _ _ _ hk]

theorem deliver_sig (s : State) (pk : Packet) (errs : List SectorErr) (ht : pk.type = 3) (hk : pk.trk = false) :
    deliver s pk errs = finish (serveSig s pk).2 pk (serveSig s pk).1 := by
  simp [deliver, finish, noteRefusal, ht, countDone_untracked _ _ _ _ hk]

theorem deliver_resend (s : State) (pk : Packet) (errs : List SectorErr) (ht : pk.type = 4) (hk : pk.trk = false) :
    deliver s pk errs = finish (serveResend s pk).2 pk (serveResend s pk).1 := by
  simp [deliver, finish, noteRefusal, ht, countDone_untracked _ _ _ _ hk]

/-- A READ that reads nothing is answered by its status. -/
theorem deliver_read_refused (s s1 : State) (pk : Packet) (errs : List SectorErr) (st : Status) (m : Cells) (ht : pk.type = 1)
    (hk : pk.trk = false) (hr : serveRead s pk errs = (st, m, s1)) (hst : st ≠ stGood) :
    deliver s pk errs = finish s1 pk st := by
  simp only [deliver, finish, noteRefusal, ht, hr, if_pos, if_neg hst, countDone_untracked _ _ _ _ hk]

/-- A READ of stack memory that reads its bytes is answered by them. -/
theorem deliver_read (s s1 : State) (pk : Packet) (errs : List SectorErr) (m : Cells) (ht : pk.type = 1) (hsp : pk.space = 0)
    (hk : pk.trk = false) (hr : serveRead s pk errs = (stGood, m, s1)) :
    deliver s pk errs = replyData s1 pk pk.imm.toNat m := by
  simp [deliver, ht, hr, hsp, countDone_untracked _ _ _ _ hk, modNet]

theorem releaseHeld_none (n : Nat) (s : State) (h : s.net.fenceHold = []) : releaseHeld n s = s := by
  cases n with
  | zero => rfl
  | succ k => simp [releaseHeld, h]

/-- A packet needs two entries at most, so that 16,382 in use leave room (R368). -/
theorem fenceFits_of_room (n : Net) (pk : Packet) (hl : n.tracker.length ≤ 16382) : fenceFits n pk = true := by
  have need : ∀ ep, (if (fenceFind n pk ep).isSome then 0 else 1) ≤ 1 := by
    intro ep
    split <;> omega
  have h1 := need pk.fepoch
  have h2 := need pk.nepoch
  simp only [fenceFits, fenceNeeds, decide_eq_true_eq]
  split
  · omega
  · split <;> omega

namespace Untracked
variable {s : State} {pk : Packet}

/-- Outside every window a request is delivered at once. -/
theorem exec_eq (h : Untracked s pk) (hl : s.net.tracker.length ≤ 16382) (ht : pk.type.toNat ≤ 4) (t : State)
    (hd : deliver (takeArrived s pk) pk [] = t) (h0 : t.net.fenceHold = s.net.fenceHold) :
    exec (requestCommand pk) s = .next t := by
  have hfit : fenceFits (takeArrived s pk).net pk = true := fenceFits_of_room _ _ hl
  have hrel : ∀ n, releaseHeld n t = t := fun n => releaseHeld_none n t (h0.trans h.unheld)
  rw [exec_requestCommand s pk h.cls h.dst ht]
  simp [opRequest, h.free, h.trk, hfit, hd, hrel]

/-- A request that ends with a status and leaves the network as it is. -/
theorem exec_finish (h : Untracked s pk) (hl : s.net.tracker.length ≤ 16382) (ht : pk.type.toNat ≤ 4) (s1 : State) (st : Status)
    (hd : deliver (takeArrived s pk) pk [] = finish s1 pk st) (hn : s1.net = (takeArrived s pk).net) (hc : s1.clock = s.clock) :
    exec (requestCommand pk) s = .next (finish s1 pk st) ∧ answered s pk (finish s1 pk st) st :=
  ⟨h.exec_eq hl ht _ hd (by rw [finish_fenceHold, hn]; rfl), finish_answered s s1 pk st hn hc⟩

end Untracked

/-! ### Serving a request (R7, R47, R131, R145, R282, R302, R311, R399) -/

theorem destRefusal_not_good (s : State) (pk : Packet) (st : Status) (h : destRefusal s pk = some st) : st ≠ stGood := by
  rintro rfl
  simp only [destRefusal] at h
  split at h
  · split at h <;> simp at h
  · generalize (if pk.space = 2 then syncUp (deckAt s pk.dstDeck.toNat) else memUp (deckAt s pk.dstDeck.toNat)) = up at h
    cases up with
    | false => simp at h
    | true =>
      cases hb : deckBind s pk.dstDeck.toNat with
      | none => simp [hb] at h
      | some b => by_cases ht : b.tag = pk.tag <;> simp [hb, ht] at h

/-- A refusal of the deck or partition is the status of the request, and nothing is written (R47, R374, R375). -/
theorem deliver_refused (s : State) (pk : Packet) (st : Status) (ht : pk.type.toNat ≤ 3) (hk : pk.trk = false)
    (h : destRefusal s pk = some st) : deliver s pk [] = finish s pk st := by
  have types : pk.type = 0 ∨ pk.type = 1 ∨ pk.type = 2 ∨ pk.type = 3 := by bv_omega
  rcases types with h0 | h1 | h2 | h3
  · rw [deliver_write s pk [] h0 hk, show serveWrite s pk = (st, s) by simp only [serveWrite, h]]
  · exact deliver_read_refused s s pk [] st [] h1 hk (by simp only [serveRead, h]) (destRefusal_not_good s pk st h)
  · rw [deliver_atom s pk [] h2 hk, show serveAtom s pk = (st, s) by simp only [serveAtom, h]]
  · rw [deliver_sig s pk [] h3 hk, show serveSig s pk = (st, s) by simp only [serveSig, h]]

/-- A WRITE or READ beyond the deck's memory is BAD_PARAM, and nothing is written. -/
theorem deliver_beyond (s : State) (pk : Packet) (ht : pk.type.toNat ≤ 1) (hk : pk.trk = false) (hsp : pk.space = 0)
    (h : destRefusal s pk = none) (hb : memEnd < pk.offset.toNat + (if pk.type = 0 then pk.len else pk.imm.toNat)) :
    deliver s pk [] = finish s pk stBadParam := by
  have types : pk.type = 0 ∨ pk.type = 1 := by bv_omega
  rcases types with h0 | h1
  · rw [if_pos h0] at hb
    rw [deliver_write s pk [] h0 hk, show serveWrite s pk = (stBadParam, s) by simp only [serveWrite, h, if_pos hsp, if_pos hb]]
  · rw [if_neg (by rw [h1]; decide)] at hb
    exact deliver_read_refused s s pk [] stBadParam [] h1 hk (by simp only [serveRead, h, if_pos hsp, if_pos hb]) (by decide)

theorem serveWrite_stack (s : State) (pk : Packet) (hsp : pk.space = 0) (h : destRefusal s pk = none)
    (hm : pk.offset.toNat + pk.len ≤ memEnd) (hg : gateRefuses (deckAt s pk.dstDeck.toNat) pk.offset.toNat pk.len = false) :
    serveWrite s pk = (memWriteSt (deckAt s pk.dstDeck.toNat) pk.offset.toNat pk.len,
      setDeck s pk.dstDeck.toNat (memWrite (deckAt s pk.dstDeck.toNat) pk.offset.toNat pk.len pk.payload)) := by
  simp only [serveWrite, h, if_pos hsp, if_neg (Nat.not_lt.2 hm), hg, Bool.false_eq_true, if_false]

/-- A closed gate refuses the write and counts it (R282). -/
theorem serveWrite_gated (s : State) (pk : Packet) (hsp : pk.space = 0) (h : destRefusal s pk = none)
    (hm : pk.offset.toNat + pk.len ≤ memEnd) (hg : gateRefuses (deckAt s pk.dstDeck.toNat) pk.offset.toNat pk.len = true) :
    serveWrite s pk = (stVoteFailed, setDeck s pk.dstDeck.toNat
      { deckAt s pk.dstDeck.toNat with gateDrop := satInc (deckAt s pk.dstDeck.toNat).gateDrop }) := by
  simp only [serveWrite, h, if_pos hsp, if_neg (Nat.not_lt.2 hm), hg, if_true]

/-- Where no error stands, ECC of a read ends self-refresh at most. -/
theorem onDeck_eccRange_nil (s : State) (d now a n : Nat) (h : (deckAt s d).latent = []) :
    onDeck s d (eccRange now a n []) = setDeck s d (touch (deckAt s d) a n) :=
  onDeck_pure s d _ _ (eccRange_nil now a n _ h)

theorem serveRead_stack (s : State) (pk : Packet) (m : Cells) (hsp : pk.space = 0) (h : destRefusal s pk = none)
    (hm : pk.offset.toNat + pk.imm.toNat ≤ memEnd) (hl : (deckAt s pk.dstDeck.toNat).latent = [])
    (hr : memRead (deckAt s pk.dstDeck.toNat) pk.offset.toNat pk.imm.toNat = some m) :
    serveRead s pk [] =
      (stGood, m, setDeck s pk.dstDeck.toNat (touch (deckAt s pk.dstDeck.toNat) pk.offset.toNat pk.imm.toNat)) := by
  have ht := memRead_frame (touch_frame (deckAt s pk.dstDeck.toNat) pk.offset.toNat pk.imm.toNat) pk.offset.toNat pk.imm.toNat
  simp only [serveRead, h, if_pos hsp, if_neg (Nat.not_lt.2 hm), onDeck_eccRange_nil _ _ _ _ _ hl, deckAt_setDeck, ht, hr]

theorem serveAtom_stack (s : State) (pk : Packet) (hsp : pk.space = 0) (h : destRefusal s pk = none)
    (hm : pk.offset.toNat + pk.len ≤ memEnd) (hl : (deckAt s pk.dstDeck.toNat).latent = [])
    (hg : gateRefuses (deckAt s pk.dstDeck.toNat) pk.offset.toNat pk.len = false) :
    let d := pk.dstDeck.toNat
    let a := pk.offset.toNat
    let r := adderRun pk.atype.toNat pk.payload a (pk.len / 64) (touch (deckAt s d) a pk.len)
    serveAtom s pk = (if r.2 then stMemPoison else stGood, setDeck (setDeck s d (touch (deckAt s d) a pk.len)) d r.1) := by
  have hc : ¬ (pk.space ≠ 0 ∨ memEnd < pk.offset.toNat + pk.len) := by
    rw [hsp]
    simpa using hm
  simp only [serveAtom, h, if_neg hc, hg, Bool.false_eq_true, if_false, onDeck_eccRange_nil _ _ _ _ _ hl, deckAt_setDeck]

/-- A result of a deck that asks for nothing only replaces the deck. -/
theorem applyRes_pure (s : State) (d : Nat) (k : Deck) : applyRes s d (k, []) = setDeck s d k :=
  onDeck_pure s d (fun _ => (k, [])) k rfl

/-- A SIG on the signal word of an allocated object that nobody waits on updates that object (R145). -/
theorem serveSig_quiet (s : State) (pk : Packet) (o : Nat) (hsp : pk.space = 2) (h : destRefusal s pk = none)
    (hw : syncWordAt pk.offset.toNat = some (.signal o)) (ha : objAlloc (deckAt s pk.dstDeck.toNat) o = true)
    (hq : objWaited (deckAt s pk.dstDeck.toNat) o = false) :
    serveSig s pk = (stGood, setDeck s pk.dstDeck.toNat (objUpdate (deckAt s pk.dstDeck.toNat) (.signal o pk.imm))) := by
  have hv : (pk.imm.setWidth 64).setWidth 32 = pk.imm := by
    rw [BitVec.setWidth_setWidth_of_le _ (by omega), BitVec.setWidth_eq]
  have hs := settle_quiet (deckAt s pk.dstDeck.toNat) (.signal o pk.imm) hq
  have hn : ¬ pk.space ≠ 2 := fun e => e hsp
  simp only [serveSig, h, if_neg hn, hw, syncWrite, ha, if_true, hv, hs, applyRes_pure]

theorem objCount_signal (k : Deck) (o : Nat) (v : BitVec 32) (ha : objAlloc k o = true)
    (hv : (objAt k o).count.toNat + v.toNat < 2 ^ 32) : (objAt (objUpdate k (.signal o v)) o).count = (objAt k o).count + v := by
  have hu : objAt (objUpdate k (.signal o v)) o = updWord (objAt k o) (.signal o v) := objAt_objUpdate k (.signal o v) ha
  rw [hu]
  simp only [updWord, if_pos hv]

theorem objUpdate_mem (k : Deck) (u : ObjUpd) : (objUpdate k u).mem = k.mem := by
  rw [workFrame_objUpdate k u]

/-- The landing that a chunk asked for takes a re-sent packet (R399). -/
theorem serveResend_landed (s : State) (pk : Packet) (p : Nat) (c : Coll) (l off left : Nat)
    (hp : (List.range 9).find? (fun p => (portAt s p).peerModule == pk.src && portUp s p) = some p)
    (hc : s.churn.colls.find? (fun c => c.desc.slot == pk.txn && mapGet false c.asked (chunkKey p pk.imm.toNat)) = some c)
    (hl : landingOf s p pk.txn pk.imm.toNat (2 ^ (12 + c.desc.chunkLog)) = some (l, off, left)) (ht : tagLd s pk.tag = some l)
    (hfit : pk.offset.toNat + 512 ≤ left) :
    serveResend s pk = (stGood, markLanded (setWinMem s l (mapSplice (winMem s l) (off + pk.offset.toNat) 512 pk.payload)) p pk.txn
      pk.imm.toNat (pk.offset.toNat / 512) pk.payload) := by
  have hn : ¬ tagLd s pk.tag ≠ some l := fun e => e ht
  simp only [serveResend, hp, hc, hl, if_neg hn, if_neg (Nat.not_lt.2 hfit)]

theorem winMem_setWinMem (s : State) (l : Nat) (m : Cells) (b : Binding) (h : (ldAt s l).bind = some b) :
    winMem (setWinMem s l m) l = m := by
  have hx : ldAt (setWinMem s l m) l = { ldAt s l with bind := (ldAt s l).bind.map (fun b => { b with mem := m }) } :=
    ldAt_setLd s l _
  simp only [winMem, hx, h, Option.map_some, Option.getD_some]

/-! ### A fenced request (R368, R369) -/

theorem fenceFind_alloc_same (now : Nat) (n : Net) (pk : Packet) (ep : BitVec 16) (h : fenceFind n pk ep = none) :
    fenceFind (fenceAlloc now n pk ep) pk ep =
      some { src := pk.src, deck := pk.srcDeck, core := pk.srcCore, epoch := ep, last := now } := by
  have h0 : n.tracker.find? (fenceKey pk ep) = none := h
  have hs : ¬ (fenceFind n pk ep).isSome = true := by simp [h]
  unfold fenceAlloc
  rw [if_neg hs]
  simp [fenceFind, List.find?_append, h0, fenceKey]

/-- Allocating an entry leaves those that are found. -/
theorem fenceFind_alloc_found (now : Nat) (n : Net) (pk : Packet) (ep ep' : BitVec 16) (e : FenceEntry)
    (h : fenceFind n pk ep = some e) : fenceFind (fenceAlloc now n pk ep') pk ep = some e := by
  have h0 : n.tracker.find? (fenceKey pk ep) = some e := h
  unfold fenceAlloc
  split
  · exact h
  · simp [fenceFind, List.find?_append, h0]

theorem fenceAlloc_net (now : Nat) (n : Net) (pk : Packet) (ep : BitVec 16) :
    fenceAlloc now n pk ep = { n with tracker := (fenceAlloc now n pk ep).tracker } := by
  unfold fenceAlloc
  split <;> rfl

/-- The network after a fenced request has the entries it needs (R368). -/
def fencedNet (now : Nat) (n : Net) (pk : Packet) : Net := fenceAlloc now (fenceAlloc now n pk pk.fepoch) pk pk.nepoch

theorem fencedNet_frame (now : Nat) (n : Net) (pk : Packet) :
    fencedNet now n pk = { n with tracker := (fencedNet now n pk).tracker } := by
  unfold fencedNet
  rw [fenceAlloc_net, fenceAlloc_net now n]

/-- In a window without an entry nothing has been counted, so a packet that awaits some count is not ready. -/
theorem fenceReady_fresh (now : Nat) (n : Net) (pk : Packet) (h : fenceFind n pk pk.fepoch = none) (hc : pk.fcount ≠ 0) :
    fenceReady (fencedNet now n pk) pk = false := by
  have hf := fenceFind_alloc_found now _ pk pk.fepoch pk.nepoch _ (fenceFind_alloc_same now n pk pk.fepoch h)
  have h0 : pk.fcount.toNat ≠ 0 := fun e => hc (BitVec.eq_of_toNat_eq e)
  have hs : fenceState (fencedNet now n pk) pk = (0, 0) := by
    simp only [fenceState, fencedNet, hf]
  simp only [fenceReady, hs, decide_eq_false_iff_not]
  omega

/-- Packets that are not ready stay held. -/
theorem releaseHeld_notReady (n : Nat) (s : State) (h : ∀ x ∈ s.net.fenceHold, fenceReady s.net x.pk = false) :
    releaseHeld n s = s := by
  cases n with
  | zero => rfl
  | succ k =>
    have hf : s.net.fenceHold.find? (fun x => fenceReady s.net x.pk && !reqHeld s x.pk) = none := by
      rw [List.find?_eq_none]
      intro x hx
      simp [h x hx]
    simp only [releaseHeld, hf]

/-- A fenced request that waits at the end of the held ones, its entries allocated (R368, R369). -/
def heldFenced (s : State) (pk : Packet) : State :=
  modNet (modNet (takeArrived s pk) (fun n => fencedNet (clockNs s) n pk))
    (fun n => { n with fenceHold := n.fenceHold ++ [{ pk := pk, since := clockNs s }] })

theorem heldFenced_net (s : State) (pk : Packet) :
    (heldFenced s pk).net.fenceHold = s.net.fenceHold ++ [{ pk := pk, since := clockNs s }] ∧
    (heldFenced s pk).net.queues = s.net.queues := by
  simp only [heldFenced, modNet_net]
  rw [fencedNet_frame]
  exact ⟨rfl, rfl⟩

/-- A fenced request whose window has not counted enough is held, and no more (R369). -/
theorem opRequest_fenced (s : State) (pk : Packet) (hh : reqHeld s pk = false) (hf : s.net.fenceHold = [])
    (hl : s.net.tracker.length ≤ 16382) (ht : pk.trk = true) (hF : pk.f = true) (hn : fenceFind s.net pk pk.fepoch = none)
    (hc : pk.fcount ≠ 0) : opRequest s pk [] = heldFenced s pk := by
  have hfit : fenceFits (takeArrived s pk).net pk = true := fenceFits_of_room _ _ hl
  have hready : fenceReady (fencedNet (clockNs s) (takeArrived s pk).net pk) pk = false := fenceReady_fresh _ _ _ hn hc
  have hroom : decide (2048 ≤ (takeArrived s pk).net.fenceHold.length) = false := by
    rw [show (takeArrived s pk).net.fenceHold = [] from hf]
    rfl
  have hkeep : ∀ n, releaseHeld n (heldFenced s pk) = heldFenced s pk := by
    intro n
    apply releaseHeld_notReady
    intro x hx
    rw [(heldFenced_net s pk).1, hf, List.nil_append, List.mem_singleton] at hx
    rw [hx]
    exact hready
  have hwait : (if fenceReady (fencedNet (clockNs s) (takeArrived s pk).net pk) pk then
      deliverFenced (modNet (takeArrived s pk) (fun n => fencedNet (clockNs s) n pk)) pk [] else heldFenced s pk) = heldFenced s pk := by
    rw [hready]
    rfl
  simp only [opRequest, hh, Bool.false_eq_true, if_false, hfit, ht, hF, hroom, Bool.and_true, Bool.and_false, Bool.not_true, Bool.or_false,
    if_true]
  exact (congrArg (fun t => releaseHeld t.net.fenceHold.length t) hwait).trans (hkeep _)

theorem deckAt_of_decks {s t : State} (h : t.decks = s.decks) (d : Nat) : deckAt t d = deckAt s d := by
  rw [deckAt, deckAt, h]

/-! ### What a command does with a request outside every window -/

namespace Untracked
variable {s : State} {pk : Packet}

/-- Where deck `pk.dstDeck` alone is served, nothing but it and the network differs. -/
theorem finish_onlyDeck (k : Deck) (st : Status) :
    let t := finish (setDeck (takeArrived s pk) pk.dstDeck.toNat k) pk st
    onlyDeck { s with net := t.net } t pk.dstDeck.toNat :=
  ⟨rfl, (setDeck_onlyDeck s pk.dstDeck.toNat k).2⟩

theorem finish_deckAt (k : Deck) (st : Status) :
    deckAt (finish (setDeck (takeArrived s pk) pk.dstDeck.toNat k) pk st) pk.dstDeck.toNat = k :=
  deckAt_setDeck s pk.dstDeck.toNat k

/-- A WRITE into stack memory that passes the gate. -/
theorem write_stack (h : Untracked s pk) (hl : s.net.tracker.length ≤ 16382) (ht : pk.type = 0) (hsp : pk.space = 0)
    (hr : destRefusal s pk = none) (hm : pk.offset.toNat + pk.len ≤ memEnd)
    (hg : gateRefuses (deckAt s pk.dstDeck.toNat) pk.offset.toNat pk.len = false) :
    let k := deckAt s pk.dstDeck.toNat
    ∃ t, exec (requestCommand pk) s = .next t ∧ answered s pk t (memWriteSt k pk.offset.toNat pk.len) ∧
      onlyDeck { s with net := t.net } t pk.dstDeck.toNat ∧
      deckAt t pk.dstDeck.toNat = memWrite k pk.offset.toNat pk.len pk.payload := by
  have hd := deliver_write (takeArrived s pk) pk [] ht h.trk
  rw [serveWrite_stack (takeArrived s pk) pk hsp hr hm hg] at hd
  obtain ⟨he, ha⟩ := h.exec_finish hl (by rw [ht]; decide) _ _ hd rfl rfl
  exact ⟨_, he, ha, finish_onlyDeck _ _, finish_deckAt _ _⟩

/-- A WRITE that meets a closed gate. -/
theorem write_gated (h : Untracked s pk) (hl : s.net.tracker.length ≤ 16382) (ht : pk.type = 0) (hsp : pk.space = 0)
    (hr : destRefusal s pk = none) (hm : pk.offset.toNat + pk.len ≤ memEnd)
    (hg : gateRefuses (deckAt s pk.dstDeck.toNat) pk.offset.toNat pk.len = true) :
    let k := deckAt s pk.dstDeck.toNat
    ∃ t, exec (requestCommand pk) s = .next t ∧ answered s pk t stVoteFailed ∧
      deckAt t pk.dstDeck.toNat = { k with gateDrop := satInc k.gateDrop } := by
  have hd := deliver_write (takeArrived s pk) pk [] ht h.trk
  rw [serveWrite_gated (takeArrived s pk) pk hsp hr hm hg] at hd
  obtain ⟨he, ha⟩ := h.exec_finish hl (by rw [ht]; decide) _ _ hd rfl rfl
  exact ⟨_, he, ha, finish_deckAt _ _⟩

/-- A READ of stack memory: its DATA packets leave in order, and memory stands. -/
theorem read_stack (h : Untracked s pk) (hl : s.net.tracker.length ≤ 16382) (ht : pk.type = 1) (hsp : pk.space = 0)
    (hr : destRefusal s pk = none) (hm : pk.offset.toNat + pk.imm.toNat ≤ memEnd) (hlat : (deckAt s pk.dstDeck.toNat).latent = [])
    (m : Cells) (hmem : memRead (deckAt s pk.dstDeck.toNat) pk.offset.toNat pk.imm.toNat = some m) :
    ∃ t own, exec (requestCommand pk) s = .next t ∧
      mapGet [] t.net.queues 9 = mapGet [] s.net.queues 9 ++
        (dataPackets own pk pk.imm.toNat m).map (fun p => { pk := p, since := clockNs s }) ∧
      (deckAt t pk.dstDeck.toNat).mem = (deckAt s pk.dstDeck.toNat).mem := by
  have hd := deliver_read _ _ pk [] m ht hsp h.trk (serveRead_stack (takeArrived s pk) pk m hsp hr hm hlat hmem)
  rw [replyData_eq] at hd
  obtain ⟨hq, hk, hf⟩ := foldl_hubSend (dataPackets (ownModule s) pk pk.imm.toNat m)
    (setDeck (takeArrived s pk) pk.dstDeck.toNat (touch (deckAt s pk.dstDeck.toNat) pk.offset.toNat pk.imm.toNat))
  refine ⟨_, ownModule s, h.exec_eq hl (by rw [ht]; decide) _ hd hf, hq, ?_⟩
  calc _ = (touch (deckAt s pk.dstDeck.toNat) pk.offset.toNat pk.imm.toNat).mem :=
        congrArg Deck.mem ((deckAt_of_decks hk _).trans (deckAt_setDeck _ _ _))
    _ = _ := by rw [(touch_frame _ _ _).1]

/-- An ATOM into stack memory that passes the gate adds its granules. -/
theorem atom_stack (h : Untracked s pk) (hl : s.net.tracker.length ≤ 16382) (ht : pk.type = 2) (hsp : pk.space = 0)
    (hr : destRefusal s pk = none) (hm : pk.offset.toNat + pk.len ≤ memEnd)
    (hg : gateRefuses (deckAt s pk.dstDeck.toNat) pk.offset.toNat pk.len = false) (hlat : (deckAt s pk.dstDeck.toNat).latent = []) :
    let d := pk.dstDeck.toNat
    let a := pk.offset.toNat
    let r := adderRun pk.atype.toNat pk.payload a (pk.len / 64) (touch (deckAt s d) a pk.len)
    ∃ t, exec (requestCommand pk) s = .next t ∧ deckAt t d = r.1 ∧ answered s pk t (if r.2 then stMemPoison else stGood) := by
  intro d a r
  have hd := deliver_atom (takeArrived s pk) pk [] ht h.trk
  rw [serveAtom_stack (takeArrived s pk) pk hsp hr hm hlat hg] at hd
  obtain ⟨he, ha⟩ := h.exec_finish hl (by rw [ht]; decide) _ _ hd rfl rfl
  exact ⟨_, he, deckAt_setDeck _ _ _, ha⟩

/-- A SIG on a signal word raises the object's count by IMM. -/
theorem sig_signal (h : Untracked s pk) (hl : s.net.tracker.length ≤ 16382) (o : Nat) (ht : pk.type = 3) (hsp : pk.space = 2)
    (hr : destRefusal s pk = none) (hw : syncWordAt pk.offset.toNat = some (.signal o))
    (ha : objAlloc (deckAt s pk.dstDeck.toNat) o = true) (hq : objWaited (deckAt s pk.dstDeck.toNat) o = false)
    (hc : (objAt (deckAt s pk.dstDeck.toNat) o).count.toNat + pk.imm.toNat < 2 ^ 32) :
    ∃ t, exec (requestCommand pk) s = .next t ∧ answered s pk t stGood ∧
      (objAt (deckAt t pk.dstDeck.toNat) o).count = (objAt (deckAt s pk.dstDeck.toNat) o).count + pk.imm ∧
      (deckAt t pk.dstDeck.toNat).mem = (deckAt s pk.dstDeck.toNat).mem := by
  have hd := deliver_sig (takeArrived s pk) pk [] ht h.trk
  rw [serveSig_quiet (takeArrived s pk) pk o hsp hr hw ha hq] at hd
  obtain ⟨he, ha'⟩ := h.exec_finish hl (by rw [ht]; decide) _ _ hd rfl rfl
  refine ⟨_, he, ha', ?_, ?_⟩
  · rw [finish_deckAt]
    exact objCount_signal _ o pk.imm ha hc
  · rw [finish_deckAt]
    exact objUpdate_mem _ _

/-- A RESEND of a chunk that a member here has asked for puts its 512 bytes in the landing. -/
theorem resend_landed (h : Untracked s pk) (hl : s.net.tracker.length ≤ 16382) (p : Nat) (c : Coll) (l off left : Nat) (b : Binding)
    (ht : pk.type = 4) (hp : (List.range 9).find? (fun p => (portAt s p).peerModule == pk.src && portUp s p) = some p)
    (hc : s.churn.colls.find? (fun c => c.desc.slot == pk.txn && mapGet false c.asked (chunkKey p pk.imm.toNat)) = some c)
    (hland : landingOf s p pk.txn pk.imm.toNat (2 ^ (12 + c.desc.chunkLog)) = some (l, off, left)) (htag : tagLd s pk.tag = some l)
    (hb : (ldAt s l).bind = some b) (hfit : pk.offset.toNat + 512 ≤ left) :
    ∃ t, exec (requestCommand pk) s = .next t ∧ answered s pk t stGood ∧
      winMem t l = mapSplice b.mem (off + pk.offset.toNat) 512 pk.payload := by
  have hd := deliver_resend (takeArrived s pk) pk [] ht h.trk
  rw [serveResend_landed (takeArrived s pk) pk p c l off left hp hc hland htag hfit] at hd
  obtain ⟨he, ha⟩ := h.exec_finish hl (by rw [ht]; decide) _ _ hd rfl rfl
  have hw : winMem s l = b.mem := by simp only [winMem, hb, Option.map_some, Option.getD_some]
  refine ⟨_, he, ha, ?_⟩
  rw [← hw]
  exact winMem_setWinMem s l _ b hb

end Untracked

/-- Settles O36: a request outside every window is delivered at once and ends with what serving it gives; a fenced one whose window
has no entry is held. -/
theorem requestPacketsAreServed : Obligations.RequestPacketsAreServed := by
  unfold Obligations.RequestPacketsAreServed
  intro s pk hcls hdst hhold hroom hfree d k a cmd answers
  refine ⟨fun htrk => ?_, fun hty htrk hF hnew hcount => ?fenced⟩
  · have hu : Untracked s pk := ⟨hcls, hdst, hhold, hfree, htrk⟩
    refine ⟨fun st hty hr => ?refused, fun hty hsp hr hbeyond => ?beyond, fun ht hsp hr hm => ?write, fun ht hsp hr hm hlat m hmem => ?read,
      fun ht hsp hr hm hg hlat => hu.atom_stack hroom ht hsp hr hm hg hlat,
      fun o ht hsp hr hw ha hq hc => hu.sig_signal hroom o ht hsp hr hw ha hq hc,
      fun p c l off left b ht hp hc hland htag hb hfit => hu.resend_landed hroom p c l off left b ht hp hc hland htag hb hfit⟩
    case refused =>
      obtain ⟨he, ha⟩ := hu.exec_finish hroom (by omega) _ _ (deliver_refused (takeArrived s pk) pk st hty htrk hr) rfl rfl
      exact ⟨_, he, ha, rfl, rfl⟩
    case beyond =>
      obtain ⟨he, ha⟩ := hu.exec_finish hroom (by omega) _ _ (deliver_beyond (takeArrived s pk) pk hty htrk hsp hr hbeyond) rfl rfl
      exact ⟨_, he, ha, rfl, rfl⟩
    case write =>
      refine ⟨fun hg => ?_, fun hg => ?_⟩
      · obtain ⟨t, he, ha, hdeck, hk⟩ := hu.write_stack hroom ht hsp hr hm hg
        refine ⟨t, he, ha, hdeck, fun hgood x => ?_⟩
        rw [deckByte, hk]
        exact cellGet_memWrite k a pk.len pk.payload hgood x
      · obtain ⟨t, he, ha, hk⟩ := hu.write_gated hroom ht hsp hr hm hg
        exact ⟨t, he, ha, by rw [hk], by rw [hk]⟩
    case read =>
      obtain ⟨t, own, he, hq, hk⟩ := hu.read_stack hroom ht hsp hr hm hlat m hmem
      refine ⟨t, _, he, hq, dataPackets_length _ _ _ _, hk, fun j p hp => ?_⟩
      rw [dataPackets_get own pk _ m j p hp]
      exact ⟨rfl, rfl, rfl, rfl, rfl, rfl, rfl⟩
  case fenced =>
    have hfind : fenceFind s.net pk pk.fepoch = none := by
      rw [fenceFind, List.find?_eq_none]
      intro e he
      rw [hnew e he]
      decide
    obtain ⟨hh, hq⟩ := heldFenced_net s pk
    refine ⟨heldFenced s pk, ?_, ?_, hq, rfl, rfl⟩
    · exact (exec_requestCommand s pk hcls hdst (by omega)).trans
        (congrArg _ (opRequest_fenced s pk hfree hhold hroom htrk hF hfind hcount))
    · rw [hh, hhold, List.nil_append]

end Sys2Proof.Machine

namespace Sys2Proof.Machine
open Sys2Proof

/-! ### What a port loss can touch (R342) -/

/-- Only decks, ports, queues, Churn, the hall-time unit and the count of free values differ. -/
def linkFrame (s t : State) : Prop :=
  t = { s with decks := t.decks, htu := t.htu, ports := t.ports, net := { s.net with queues := t.net.queues }, churn := t.churn,
               free := t.free }

theorem linkFrame_trans {a b c : State} (h1 : linkFrame a b) (h2 : linkFrame b c) : linkFrame a c := by
  unfold linkFrame at *
  rw [h2, h1]

/-- Only the router's queues and Churn differ. -/
def churnFrame (s t : State) : Prop :=
  t = { s with net := { s.net with queues := t.net.queues }, churn := t.churn }

theorem churnFrame_refl (s : State) : churnFrame s s := rfl

theorem churnFrame_trans {a b c : State} (h1 : churnFrame a b) (h2 : churnFrame b c) : churnFrame a c := by
  unfold churnFrame at *
  rw [h2, h1]

theorem churnFrame_foldl {α : Type} (f : State → α → State) (hf : ∀ s x, churnFrame s (f s x)) (xs : List α) (s : State) :
    churnFrame s (xs.foldl f s) :=
  List.foldlRecOn xs f (churnFrame_refl s) (fun t ht x _ => churnFrame_trans ht (hf t x))

theorem churnFrame_link {s t : State} (h : churnFrame s t) : linkFrame s t := by
  unfold churnFrame at h
  unfold linkFrame
  rw [h]

theorem churnFrame_putColl (s : State) (c : Coll) : churnFrame s (putColl s c) := rfl

theorem churnFrame_sendNotice (s : State) (kind : Nat) (n : Notice) (tag : BitVec 3) (m : BitVec 17) :
    churnFrame s (sendNotice s kind n tag m) := rfl

theorem churnFrame_flood (s : State) (axes : BitVec 4) (n : Notice) (tag : BitVec 3) (but : Option (BitVec 17)) :
    churnFrame s (flood s axes n tag but) := by
  unfold flood
  split
  · rfl
  · exact churnFrame_trans (b := modChurn s _) rfl (churnFrame_foldl _ (fun t m => churnFrame_sendNotice t 0x0101 n tag m) _ _)

theorem churnFrame_noteMember (s : State) (c : Coll) (st : Status) : churnFrame s (noteMember s c st) := by
  unfold noteMember
  split <;> rfl

theorem churnFrame_learn (s : State) (c : Coll) (st : Status) : churnFrame s (learn s c st) := by
  unfold learn
  split
  · rfl
  · have told : churnFrame s (tellLocal (putColl s { c with learned := c.learned ++ [st] }) c st) :=
      churnFrame_trans (churnFrame_putColl _ _) (churnFrame_foldl _ (fun s e => churnFrame_noteMember s e st) _ _)
    dsimp only
    split
    · exact churnFrame_trans told (churnFrame_flood _ _ _ _ _)
    · rfl

theorem churnFrame_portLostColls (s : State) (p : Nat) : churnFrame s (portLostColls s p) := by
  refine churnFrame_foldl _ (fun t c => ?_) _ s
  split
  · rfl
  · exact churnFrame_learn _ _ _

theorem churnFrame_portAt {s t : State} (h : churnFrame s t) (j : Nat) : portAt t j = portAt s j := by
  rw [h]
  rfl

/-! ### The choice of a time source (R62, R66) -/

/-- Only the hall-time unit and the count of free values differ, and no link's measurement. -/
def sourceFrame (s t : State) : Prop :=
  t = { s with htu := t.htu, free := t.free } ∧ t.htu.links = s.htu.links

theorem sourceFrame_trans {a b c : State} (h1 : sourceFrame a b) (h2 : sourceFrame b c) : sourceFrame a c := by
  refine ⟨?_, h2.2.trans h1.2⟩
  rw [h2.1, h1.1]

theorem sourceFrame_setHtu (s : State) (h : Htu) (hl : h.links = s.htu.links) : sourceFrame s (setHtu s h) := ⟨rfl, hl⟩

theorem sourceFrame_reselect (s : State) : sourceFrame s (reselect s) := by
  unfold reselect
  split
  · exact ⟨rfl, rfl⟩
  dsimp only
  split
  · exact ⟨rfl, rfl⟩
  split
  · split
    · exact ⟨rfl, rfl⟩
    · exact ⟨rfl, rfl⟩
  split
  · exact ⟨rfl, rfl⟩
  · refine sourceFrame_setHtu _ _ ?_
    split <;> rfl

theorem sourceFrame_sourceLost (s : State) : sourceFrame s (sourceLost s) := by
  unfold sourceLost
  dsimp only
  split
  · split
    · exact ⟨rfl, rfl⟩
    · refine ⟨rfl, ?_⟩
      dsimp only [setHtu]
      split <;> rfl
  · split
    · exact ⟨rfl, rfl⟩
    · refine ⟨rfl, ?_⟩
      dsimp only [setHtu]
      split <;> rfl

/-- A link that leaves the sources keeps no beacon. -/
theorem dropLink_frame (s : State) (p : Nat) :
    dropLink s p = { s with htu := (dropLink s p).htu, free := (dropLink s p).free } ∧
    (linkAt (dropLink s p).htu p).beacon = none := by
  have base : ∀ t, sourceFrame (setHtu s (setLink s.htu p { linkAt s.htu p with beacon := none, missed := 0 })) t →
      t = { s with htu := t.htu, free := t.free } ∧ (linkAt t.htu p).beacon = none := by
    intro t h
    refine ⟨h.1, ?_⟩
    rw [linkAt, h.2]
    exact congrArg LinkTime.beacon (mapGet_set_same _ _ _ _)
  apply base
  unfold dropLink
  dsimp only
  split
  · split
    · exact sourceFrame_trans (sourceFrame_setHtu _ _ rfl) (sourceFrame_reselect _)
    split
    · exact sourceFrame_sourceLost _
    · exact ⟨rfl, rfl⟩
  · exact ⟨rfl, rfl⟩

/-! ### Queued packets that waited for a port -/

/-- `q'` counts more discards than `q` at most. -/
def samePort (q q' : Port) : Prop := q' = { q with downDrop := q'.downDrop }

theorem samePort_trans {a b c : Port} (h1 : samePort a b) (h2 : samePort b c) : samePort a c := by
  unfold samePort at *
  rw [h2, h1]

theorem portAt_modPort (s : State) (p j : Nat) (f : Port → Port) :
    portAt (modPort s p f) j = if j = p then f (portAt s p) else portAt s j :=
  mapGet_set _ s.ports p j _

/-- A port that counts `n` discards more. -/
def countDrops (n : Nat) (q : Port) : Port := { q with downDrop := satAdd q.downDrop n }

/-- What a port loss does with one input of the router: what waited for port `p` in state `s` leaves it. -/
def dropInput (s : State) (p : Nat) (t : State) (r : RouteIn) : State :=
  let q := inputQueue t r
  let keep := q.filter (fun x => !waitsFor s (inputPort r) p x.pk)
  if keep.length = q.length then t else modPort (setInputQueue t r keep) p (countDrops (q.length - keep.length))

theorem dropQueued_eq (s : State) (p : Nat) : dropQueued s p = routerInputs.foldl (dropInput s p) s := rfl

/-- Only decks, queues and the discards of ports differ. -/
def queueFrame (s t : State) : Prop :=
  t = { s with decks := t.decks, ports := t.ports, net := { s.net with queues := t.net.queues } } ∧
  ∀ j, samePort (portAt s j) (portAt t j)

theorem queueFrame_refl (s : State) : queueFrame s s := ⟨rfl, fun _ => rfl⟩

theorem queueFrame_trans {a b c : State} (h1 : queueFrame a b) (h2 : queueFrame b c) : queueFrame a c := by
  refine ⟨?_, fun j => samePort_trans (h1.2 j) (h2.2 j)⟩
  rw [h2.1, h1.1]

theorem queueFrame_setInputQueue (s : State) (r : RouteIn) (l : List Queued) : queueFrame s (setInputQueue s r l) := by
  cases r <;> exact ⟨rfl, fun _ => rfl⟩

theorem queueFrame_countDrops (s : State) (p n : Nat) : queueFrame s (modPort s p (countDrops n)) := by
  refine ⟨rfl, fun j => ?_⟩
  rw [portAt_modPort]
  split
  · rename_i e
    rw [e]
    rfl
  · rfl

theorem queueFrame_dropInput (s : State) (p : Nat) (t : State) (r : RouteIn) : queueFrame t (dropInput s p t r) := by
  unfold dropInput
  dsimp only
  split
  · exact queueFrame_refl t
  · exact queueFrame_trans (queueFrame_setInputQueue t r _) (queueFrame_countDrops _ _ _)

theorem queueFrame_dropQueued (s : State) (p : Nat) : queueFrame s (dropQueued s p) := by
  rw [dropQueued_eq]
  exact List.foldlRecOn _ _ (queueFrame_refl s) (fun t ht r _ => queueFrame_trans ht (queueFrame_dropInput s p t r))

theorem queueFrame_link {s t : State} (h : queueFrame s t) : linkFrame s t := by
  unfold linkFrame
  rw [h.1]

/-! ### A port loss -/

/-- A port as it leaves for state `dest` at time `now`, with event `ev` (R342). -/
def leftPort (dest : BitVec 3) (ev : Option Nat) (now : Nat) (q : Port) : Port :=
  { (match ev with
     | some n => portEvent q n
     | none => q) with
    state := dest, replayBuf := [], txSeq := 0, rxSeq := 0, schedWait := false, sail := none, since := now }

theorem samePort_leftPort {q q' : Port} (h : samePort q q') (dest : BitVec 3) (ev : Option Nat) (now : Nat) :
    samePort (leftPort dest ev now q) (leftPort dest ev now q') := by
  rw [h]
  cases ev <;> rfl

/-- Port `p` changes by `f` and has nothing to forward any more. -/
def changeLost (t : State) (p : Nat) (f : Port → Port) : State :=
  modChurn (modPort t p f) (fun c => { c with forward := c.forward.filter (fun e => e.1 != p) })

theorem linkFrame_changeLost (t : State) (p : Nat) (f : Port → Port) : linkFrame t (changeLost t p f) := rfl

theorem portAt_changeLost (t : State) (p j : Nat) (f : Port → Port) :
    portAt (changeLost t p f) j = if j = p then f (portAt t p) else portAt t j := portAt_modPort t p j f

/-- What follows a port loss for the hall-time unit and the collectives. -/
def loseLink (t : State) (p : Nat) : State := portLostColls (dropLink t p) p

theorem linkFrame_loseLink (t : State) (p : Nat) : linkFrame t (loseLink t p) := by
  have hd : linkFrame t (dropLink t p) := by
    unfold linkFrame
    rw [(dropLink_frame t p).1]
  exact linkFrame_trans hd (churnFrame_link (churnFrame_portLostColls _ p))

theorem portAt_loseLink (t : State) (p j : Nat) : portAt (loseLink t p) j = portAt t j := by
  rw [loseLink, churnFrame_portAt (churnFrame_portLostColls _ p), (dropLink_frame t p).1]
  rfl

theorem loseLink_beacon (t : State) (p : Nat) : (linkAt (loseLink t p).htu p).beacon = none := by
  rw [loseLink, churnFrame_portLostColls _ p]
  exact (dropLink_frame t p).2

theorem leavePort_eq (s : State) (p : Nat) (dest : BitVec 3) (ev : Option Nat) :
    leavePort s p dest ev = loseLink (changeLost (dropQueued s p) p (leftPort dest ev (clockNs s))) p := by
  unfold leavePort loseLink changeLost
  cases ev <;> rfl

theorem linkFrame_leavePort (s : State) (p : Nat) (dest : BitVec 3) (ev : Option Nat) : linkFrame s (leavePort s p dest ev) := by
  rw [leavePort_eq]
  exact linkFrame_trans (linkFrame_trans (queueFrame_link (queueFrame_dropQueued s p)) (linkFrame_changeLost _ _ _))
    (linkFrame_loseLink _ p)

/-- The port that is lost leaves. -/
theorem leavePort_same (s : State) (p : Nat) (dest : BitVec 3) (ev : Option Nat) :
    samePort (leftPort dest ev (clockNs s) (portAt s p)) (portAt (leavePort s p dest ev) p) := by
  rw [leavePort_eq, portAt_loseLink, portAt_changeLost, if_pos rfl]
  exact samePort_leftPort ((queueFrame_dropQueued s p).2 p) dest ev _

/-- No other port changes but for its discards. -/
theorem leavePort_other (s : State) (p : Nat) (dest : BitVec 3) (ev : Option Nat) (j : Nat) (hj : j ≠ p) :
    samePort (portAt s j) (portAt (leavePort s p dest ev) j) := by
  rw [leavePort_eq, portAt_loseLink, portAt_changeLost, if_neg hj]
  exact (queueFrame_dropQueued s p).2 j

/-- A link whose port is lost has no beacon (R66). -/
theorem leavePort_beacon (s : State) (p : Nat) (dest : BitVec 3) (ev : Option Nat) :
    (linkAt (leavePort s p dest ev).htu p).beacon = none := by
  rw [leavePort_eq]
  exact loseLink_beacon _ p

end Sys2Proof.Machine

namespace Sys2Proof.Machine
open Sys2Proof

/-! ### Training (R337, R340, R345, R353) -/

/-- A port at the start of its training at time `now`. -/
def trainingPort (now : Nat) (q : Port) : Port :=
  let q1 := { q with state := 1, widthTx := 0, widthRx := 0, lpl := 0, sparesTx := 0, sparesRx := 0, schedWait := false,
                     failedTx := 0, failedRx := 0, txSeq := 0, rxSeq := 0, replayBuf := [], sail := none,
                     since := now, fibre := (q.fibreId.map (·.serial)).getD 0 }
  if q.fibreId.isNone then portEvent q1 8 else q1

/-- What training fixes, and what it leaves of the port. -/
theorem trainingPort_fields (now : Nat) (q : Port) :
    let r := trainingPort now q
    r.state = 1 ∧ r.widthTx = 0 ∧ r.widthRx = 0 ∧ r.failedTx = 0 ∧ r.failedRx = 0 ∧ r.txSeq = 0 ∧ r.rxSeq = 0 ∧ r.replayBuf = [] ∧
    r.tt = q.tt ∧ r.disable = q.disable ∧ r.fibreId = q.fibreId := by
  unfold trainingPort
  dsimp only
  split <;> exact ⟨rfl, rfl, rfl, rfl, rfl, rfl, rfl, rfl, rfl, rfl, rfl⟩

/-- Training sets no event but that of a missing fibre. -/
theorem trainingPort_event (now : Nat) (q : Port) (n : Nat) (h : q.events.getLsbD n = true) :
    (trainingPort now q).events.getLsbD n = true := by
  unfold trainingPort
  dsimp only
  split
  · simp [portEvent, setBit, h]
  · exact h

/-- The state in which port `p` starts to train, but for the TRAIN frame. -/
def trainingState (s : State) (p : Nat) : State :=
  modPort (setHtu s (setLink s.htu p { linkAt s.htu p with exchanges := 0, removed := false, t1 := none, beacon := none })) p
    (trainingPort (clockNs s))

/-- With the links released and light, training starts and sends a TRAIN frame (R353). -/
theorem startTraining_lit (s : State) (p : Nat) (hr : linksReleased s = true) (hl : portLit s p = true) :
    startTraining s p = sendTrain (trainingState s p) p := by
  have h : ¬ (!linksReleased s || !portLit s p) = true := by simp [hr, hl]
  exact if_neg h

theorem portAt_trainingState (s : State) (p : Nat) : portAt (trainingState s p) p = trainingPort (clockNs s) (portAt s p) :=
  portAt_setPort _ p _

theorem portAt_startTraining (s : State) (p : Nat) (hr : linksReleased s = true) (hl : portLit s p = true) :
    portAt (startTraining s p) p = trainingPort (clockNs s) (portAt s p) := by
  rw [startTraining_lit s p hr hl]
  exact portAt_trainingState s p

theorem ownTrain_trainingState (s : State) (p : Nat) : ownTrain (trainingState s p) p = ownTrain s p := by
  obtain ⟨-, -, -, -, -, -, -, -, htt, -, -⟩ := trainingPort_fields (clockNs s) (portAt s p)
  have h : (portAt (trainingState s p) p).tt = (portAt s p).tt := by rw [portAt_trainingState, htt]
  simp only [ownTrain, ttDigest, h]
  rfl

/-- Port `p` trains in `t`, entered from `s`. -/
def trainsFrom (s : State) (p : Fin 9) (t : State) : Prop :=
  (portAt t p).state = 1 ∧ (portAt t p).widthTx = 0 ∧ (portAt t p).widthRx = 0 ∧ (portAt t p).failedTx = 0 ∧
  (portAt t p).failedRx = 0 ∧ (portAt t p).txSeq = 0 ∧ (portAt t p).rxSeq = 0 ∧ (portAt t p).replayBuf = [] ∧
  t.out.head? = some (.train p (ownTrain s p)) ∧ t.decks = s.decks

theorem startTraining_trains (s : State) (p : Fin 9) (hr : linksReleased s = true) (hl : portLit s p = true) :
    trainsFrom s p (startTraining s p) := by
  obtain ⟨h1, h2, h3, h4, h5, h6, h7, h8, -, -, -⟩ := trainingPort_fields (clockNs s) (portAt s p)
  have hp := portAt_startTraining s p hr hl
  refine ⟨by rw [hp, h1], by rw [hp, h2], by rw [hp, h3], by rw [hp, h4], by rw [hp, h5], by rw [hp, h6], by rw [hp, h7],
    by rw [hp, h8], ?_, ?_⟩
  · rw [startTraining_lit s p hr hl, ← ownTrain_trainingState]
    simp [sendTrain, emit]
  · rw [startTraining_lit s p hr hl]
    rfl

theorem linkFrame_released {s t : State} (h : linkFrame s t) (p : Nat) :
    linksReleased t = linksReleased s ∧ portLit t p = portLit s p := by
  unfold linkFrame at h
  rw [h]
  exact ⟨rfl, rfl⟩

/-! ### The commands of a port -/

theorem opLaneSignal_down (s : State) (p : Nat) (h : (portAt s p).state = 0) : opLaneSignal s p = startTraining s p := if_pos h

theorem opPortRetry_due (s : State) (p : Nat) (h : (portAt s p).state = 0) (ht : portSince s p 1000 = true) :
    opPortRetry s p = startTraining s p := if_pos ⟨h, ht⟩

theorem opQuarantineExpire_due (s : State) (p : Nat) (h : (portAt s p).state = 6) (ht : portSince s p 10000 = true) :
    opQuarantineExpire s p = startTraining s p := if_pos ⟨h, ht⟩

theorem opRetrain_live (s : State) (p : Nat) (h : portLive (portAt s p) = true) :
    opRetrain s .fw p = startTraining (leavePort s p 0 (some 1)) p := by
  simp [opRetrain, lnkWriter, h]

/-- DISABLE 0 of a port that was held lets it train, unless the armed map leaves it out (R356). -/
theorem opDisable_release (s : State) (p : Nat) (hs : (portAt s p).state = 7) (hd : (portAt s p).disable = true)
    (ha : s.net.armed = false ∨ (portAt s p).enabled = true) :
    opDisable s .fw p false = startTraining (modPort s p (fun q => { q with disable := false })) p := by
  simp [opDisable, lnkWriter, hs, hd, ha]

/-- DISABLE 1 holds a port DISABLED, by a port loss where it was live. -/
theorem opDisable_hold (s : State) (p : Nat) :
    (portAt (opDisable s .fw p true) p).state = 7 ∧ (portAt (opDisable s .fw p true) p).disable = true := by
  have hset : portAt (modPort s p (fun q => { q with disable := true })) p = { portAt s p with disable := true } :=
    portAt_setPort s p _
  have hop : opDisable s .fw p true = if portLive (portAt s p)
      then leavePort (modPort s p (fun q => { q with disable := true })) p 7 (some 1)
      else modPort (modPort s p (fun q => { q with disable := true })) p (fun q => { q with state := 7 }) := rfl
  rw [hop]
  split
  · have h := leavePort_same (modPort s p (fun q => { q with disable := true })) p 7 (some 1)
    rw [hset] at h
    rw [h]
    exact ⟨rfl, rfl⟩
  · rw [portAt_modPort, if_pos rfl, hset]
    exact ⟨rfl, rfl⟩

theorem opPortLoss_live (s : State) (p : Nat) (h : portLive (portAt s p) = true) : opPortLoss s p = leavePort s p 0 (some 1) :=
  if_pos h

/-- A port loss takes the port down with its event, an empty replay buffer and no beacon, and the management plane stands. -/
theorem portLoss_spec (s : State) (p : Nat) :
    let t := leavePort s p 0 (some 1)
    (portAt t p).state = 0 ∧ (portAt t p).events = setBit (portAt s p).events 1 true ∧ (portAt t p).replayBuf = [] ∧
    (linkAt t.htu p).beacon = none ∧ t.mgmt = s.mgmt := by
  intro t
  have h := leavePort_same s p 0 (some 1)
  refine ⟨?_, ?_, ?_, leavePort_beacon s p 0 (some 1), ?_⟩
  · exact (congrArg Port.state h).trans rfl
  · exact (congrArg Port.events h).trans rfl
  · exact (congrArg Port.replayBuf h).trans rfl
  · exact (congrArg State.mgmt (linkFrame_leavePort s p 0 (some 1))).trans rfl

theorem opTrainingTimeout_due (s : State) (p : Nat) (h : (portAt s p).state = 1) (ht : portSince s p 100 = true) :
    opTrainingTimeout s p = setPort s p { portAt s p with state := 0, since := clockNs s } := if_pos ⟨h, ht⟩

/-- The state in which a fibre connector has left port `p`. -/
def removedState (s : State) (p : Nat) : State :=
  { modPort s p (fun q => { q with plugged := false, fibreId := none }) with
    mgmt := { s.mgmt with fibreValid := setBit s.mgmt.fibreValid p false } }

theorem portAt_removedState (s : State) (p : Nat) :
    portAt (removedState s p) p = { portAt s p with plugged := false, fibreId := none } := portAt_setPort s p _

theorem opFibreRemove_miswired (s : State) (p : Nat) (h : (portAt s p).state = 4 ∨ (portAt s p).state = 5) :
    opFibreRemove s p = startTraining (removedState s p) p := if_pos h

theorem opFibreRemove_quiet (s : State) (p : Nat) (h4 : (portAt s p).state ≠ 4) (h5 : (portAt s p).state ≠ 5) :
    opFibreRemove s p = removedState s p := if_neg (fun h => h.elim h4 h5)

/-- A connector that comes has its record read; a record that is not valid sets FIBRE_ID_BAD. -/
theorem opFibreInsert_eq (s : State) (p : Nat) (rec : List Byte) :
    opFibreInsert s p rec = { s with
      ports := mapSet {} s.ports p { portAt s p with
        plugged := true, fibreId := fibreOf rec, fibre := ((fibreOf rec).map (·.serial)).getD 0,
        events := if (fibreOf rec).isNone then setBit (portAt s p).events 8 true else (portAt s p).events },
      mgmt := { s.mgmt with fibreValid := setBit s.mgmt.fibreValid p (fibreOf rec).isSome } } := by
  unfold opFibreInsert
  cases fibreOf rec <;> rfl

/-! ### TRAIN frames (R353, R355) -/

theorem opTrainFrame_badCrc (s : State) (p : Nat) (f : TrainFrame) (hl : portLive (portAt s p) = true) (hc : f.crcOk = false) :
    opTrainFrame s p f = setPort s p { portAt s p with crcErr := satInc (portAt s p).crcErr } := by
  simp [opTrainFrame, hl, hc]

/-- A port that has heard its peer's identity. -/
def heardPort (q : Port) (f : TrainFrame) : Port :=
  { q with peerModule := f.module, peerPort := f.port, peerLpl := f.lpl, peerBuild := f.build, peerDigests := f.digests }

/-- A port that has identified its peer at level 4. -/
def identifiedPort (q : Port) (f : TrainFrame) : Port := { heardPort q f with lpl := 4, state := 2 }

/-- A TRAIN frame of a peer at level 4 identifies a port in training; an armed map then compares it (R355). -/
theorem opTrainFrame_identified (s : State) (p : Nat) (f : TrainFrame) (h1 : (portAt s p).state = 1) (hlpl : f.lpl = 4)
    (hc : f.crcOk = true) (hx : s.net.armed = true → (portAt s p).expLpl.toNat ≤ 4) :
    let t := opTrainFrame s p f
    ∃ u, portAt u p = identifiedPort (portAt s p) f ∧ u = { s with ports := u.ports } ∧
      t = if s.net.armed then comparePort u p else u := by
  intro t
  have hlive : portLive (portAt s p) = true := by simp [portLive, h1]
  have hlow : ¬ ((4 : BitVec 3).toNat < 3 ∨ (s.net.armed = true ∧ (4 : BitVec 3).toNat < (portAt s p).expLpl.toNat)) := by
    rintro (h | ⟨ha, h⟩)
    · exact absurd h (by decide)
    · exact absurd h (Nat.not_lt.2 (hx ha))
  refine ⟨modPort (setPort s p (heardPort (portAt s p) f)) p (fun q => { q with lpl := 4, state := 2 }), ?_, rfl, ?_⟩
  · rw [portAt_modPort, if_pos rfl, portAt_setPort]
    rfl
  · have hl4 : (if f.lpl.toNat < 4 then f.lpl else 4) = 4 := by rw [hlpl]; rfl
    simp only [t, opTrainFrame]
    rw [if_neg (by simp [hlive]), if_neg (by simp [hc]), if_pos h1, hl4, if_neg hlow]
    rfl

/-- The identities match and nothing is known of the fibre: the port goes UP. -/
theorem comparePort_up (s : State) (p : Nat) (h2 : (portAt s p).state = 2) (hn : (portAt s p).peerModule ≠ 0x1FFFF)
    (hm : (portAt s p).peerModule = (portAt s p).expModule) (hp : (portAt s p).peerPort = (portAt s p).expPort)
    (hf : expFibre s p = 0) (hi : (portAt s p).fibreId = none) (hl : (portAt s p).expLpl.toNat ≤ (portAt s p).lpl.toNat) :
    comparePort s p =
      modPort s p (fun q => { portEvent q 0 with state := 3, schedWait := s.tt.armed, upAt := hallNs s }) := by
  have hok : identityOk s p = true := by simp [identityOk, hm, hp, hf, hi]
  have h3 : ¬ (portAt s p).state = 3 := by rw [h2]; decide
  have hlow : ¬ (portAt s p).lpl.toNat < (portAt s p).expLpl.toNat := Nat.not_lt.2 hl
  simp only [comparePort, if_neg hn, hok, Bool.not_true, Bool.false_eq_true, if_false, if_neg hlow, if_neg h3]

theorem noteFrame_portAlarm (s : State) (p : Nat) (st : Status) : noteFrame s (portAlarm s p st) :=
  noteFrame_trans (hostFrame_note (hostFrame_postAll s st p (portAt s p).peerModule.toNat)) (noteFrame_pldmEvent _ _)

theorem portAlarm_ports (s : State) (p : Nat) (st : Status) : (portAlarm s p st).ports = s.ports := by
  rw [noteFrame_portAlarm s p st]

/-- Another module than expected: the port goes MISWIRED. -/
theorem comparePort_miswired (s : State) (p : Nat) (h2 : (portAt s p).state = 2) (hn : (portAt s p).peerModule ≠ 0x1FFFF)
    (hm : (portAt s p).peerModule ≠ (portAt s p).expModule) :
    portAt (comparePort s p) p = { portEvent (portAt s p) 4 with state := 4 } := by
  have hok : identityOk s p = false := by simp [identityOk, hm]
  have h3 : ¬ (portAt s p).state = 3 := by rw [h2]; decide
  have heq : comparePort s p = portAlarm (modPort s p (fun q => { portEvent q 4 with state := 4 })) p stMiswired := by
    simp only [comparePort, if_neg hn, hok, Bool.not_false, if_true, miswired, if_neg h3]
  rw [heq, portAt, portAlarm_ports]
  exact portAt_setPort s p _

/-- Settles O32: the links of the module train, leave and are compared as the lemmas on each operation of a port say. -/
theorem portsTrainAndLeave : Obligations.PortsTrainAndLeave := by
  unfold Obligations.PortsTrainAndLeave
  intro s p q trains
  refine ⟨fun hr hl => ?lit, fun hlive => ?loss, fun h1 ht => ?timeout, fun f hlive hc => ?badCrc, fun f h1 h4 hc => ?train,
    ⟨_, rfl, opDisable_hold s p⟩, fun v => ⟨rfl, rfl⟩, fun rec => ?insert, fun h4 h5 => ?remove⟩
  case lit =>
    have start : ∀ i, exec i s = .next (startTraining s p) → trains i := fun i h => ⟨_, h, startTraining_trains s p hr hl⟩
    refine ⟨fun h0 => ⟨start _ (congrArg Host.Outcome.next (opLaneSignal_down s p h0)), fun ht =>
      start _ (congrArg Host.Outcome.next (opPortRetry_due s p h0 ht))⟩, fun h6 ht =>
      start _ (congrArg Host.Outcome.next (opQuarantineExpire_due s p h6 ht)), fun hlive => ?_, fun h7 hd ha => ?_, fun h45 => ?_⟩
    · obtain ⟨hr', hl'⟩ := linkFrame_released (linkFrame_leavePort s p 0 (some 1)) p
      have hp := portAt_startTraining (leavePort s p 0 (some 1)) p (hr'.trans hr) (hl'.trans hl)
      refine ⟨_, congrArg Host.Outcome.next (opRetrain_live s p hlive), ?_, ?_⟩
      · rw [hp, (trainingPort_fields _ _).1]
      · rw [hp]
        apply trainingPort_event
        rw [(portLoss_spec s p).2.1]
        simp [setBit]
    · have hp := portAt_startTraining (modPort s p (fun q => { q with disable := false })) p hr hl
      obtain ⟨h1, -, -, -, -, -, -, -, -, hdis, -⟩ :=
        trainingPort_fields (clockNs s) (portAt (modPort s p (fun q => { q with disable := false })) p)
      refine ⟨_, congrArg Host.Outcome.next (opDisable_release s p h7 hd ha), ?_, ?_⟩
      · exact (congrArg Port.state hp).trans h1
      · exact (congrArg Port.disable hp).trans (hdis.trans (by rw [portAt_modPort, if_pos rfl]))
    · have hp := portAt_startTraining (removedState s p) p hr hl
      obtain ⟨h1, -, -, -, -, -, -, -, -, -, hfib⟩ := trainingPort_fields (clockNs s) (portAt (removedState s p) p)
      refine ⟨_, congrArg Host.Outcome.next (opFibreRemove_miswired s p h45), ?_, ?_⟩
      · exact (congrArg Port.state hp).trans h1
      · exact (congrArg Port.fibreId hp).trans (hfib.trans (congrArg Port.fibreId (portAt_removedState s p)))
  case loss => exact ⟨_, congrArg Host.Outcome.next (opPortLoss_live s p hlive), portLoss_spec s p⟩
  case timeout => exact congrArg Host.Outcome.next (opTrainingTimeout_due s p h1 ht)
  case badCrc => exact congrArg Host.Outcome.next (opTrainFrame_badCrc s p f hlive hc)
  case train =>
    refine ⟨fun ha => ?unarmed, fun ha hx hnum => ⟨fun hm hport hf hid => ?up, fun hm => ?miswired⟩⟩
    case unarmed =>
      obtain ⟨u, hu, hfr, heq⟩ := opTrainFrame_identified s p f h1 h4 hc (fun e => absurd (ha.symm.trans e) (by decide))
      rw [if_neg (by rw [ha]; decide)] at heq
      exact ⟨u, congrArg Host.Outcome.next heq, hfr, by rw [hu]; rfl, by rw [hu]; rfl, by rw [hu]; rfl, by rw [hu]; rfl⟩
    case up =>
      obtain ⟨u, hu, hfr, heq⟩ := opTrainFrame_identified s p f h1 h4 hc (fun _ => hx)
      have hup := comparePort_up u p (by rw [hu]; rfl) (by rw [hu]; exact hnum) (by rw [hu]; exact hm) (by rw [hu]; exact hport)
        (by rw [hfr]; exact hf) (by rw [hu]; exact hid) (by rw [hu]; exact hx)
      rw [if_pos ha, hup] at heq
      have hq := portAt_modPort u p p (fun q => { portEvent q 0 with state := 3, schedWait := u.tt.armed, upAt := hallNs u })
      rw [if_pos rfl, hu] at hq
      refine ⟨_, congrArg Host.Outcome.next heq, by rw [hfr]; rfl, by rw [hq], by rw [hq]; rfl, by rw [hq, hfr]⟩
    case miswired =>
      obtain ⟨u, hu, -, heq⟩ := opTrainFrame_identified s p f h1 h4 hc (fun _ => hx)
      have hq := comparePort_miswired u p (by rw [hu]; rfl) (by rw [hu]; exact hnum) (by rw [hu]; exact hm)
      rw [if_pos ha] at heq
      exact ⟨_, congrArg Host.Outcome.next heq, by rw [hq], by rw [hq, hu]; rfl⟩
  case insert => exact congrArg Host.Outcome.next (opFibreInsert_eq s p rec)
  case remove => exact congrArg Host.Outcome.next (opFibreRemove_quiet s p h4 h5)

end Sys2Proof.Machine

namespace Sys2Proof.Machine
open Sys2Proof

/-! ### What leaves the movers' queues alone -/

/-- Every core's mover queue is the same. -/
def moverKept (d d' : Deck) : Prop := ∀ j, (coreAt d' j).xq = (coreAt d j).xq

theorem moverKept_refl (d : Deck) : moverKept d d := fun _ => rfl

theorem moverKept_trans {a b c : Deck} (h1 : moverKept a b) (h2 : moverKept b c) : moverKept a c := fun j => (h2 j).trans (h1 j)

theorem moverKept_of_cores {d d' : Deck} (h : d'.cores = d.cores) : moverKept d d' := fun j => by rw [coreAt, h, coreAt]

theorem moverKept_foldl {α : Type} (f : Deck → α → Deck) (hf : ∀ d x, moverKept d (f d x)) (xs : List α) (d : Deck) :
    moverKept d (xs.foldl f d) :=
  List.foldlRecOn xs f (moverKept_refl d) (fun t ht x _ => moverKept_trans ht (hf t x))

theorem moverKept_setCore (d : Deck) (i : Nat) (c : Core) (h : c.xq = (coreAt d i).xq) : moverKept d (setCore d i c) := by
  intro j
  by_cases hj : j = i
  · rw [hj, coreAt_setCore, h]
  · rw [coreAt_setCore_other d i j c hj]

theorem moverKept_stopCores (d : Deck) (is : List Nat) : moverKept d (stopCores d is) :=
  fun j => (stopCores_core is d j).2.2.2.1

theorem moverKept_coreFault (d : Deck) (i : Nat) (st : Status) (e : BitVec 2) (pc : BitVec 13) : moverKept d (coreFault d i st e pc) := by
  have hset : moverKept d (setCore d i (if (coreAt d i).fault.valid then coreAt d i
      else { coreAt d i with fault := { status := st, pc := pc, engine := e, valid := true } })) := by
    apply moverKept_setCore
    split <;> rfl
  unfold coreFault
  dsimp only
  split
  · exact moverKept_trans hset (moverKept_stopCores _ _)
  · split
    · exact moverKept_trans hset (moverKept_stopCores _ _)
    · exact moverKept_trans (moverKept_trans hset (moverKept_of_cores rfl)) (moverKept_stopCores _ _)

theorem retire_xq (c : Core) (w : Nat) : (retire c w).1.xq = c.xq := by
  unfold retire
  dsimp only
  split <;> rfl

theorem moverKept_retireOn (d : Deck) (i : Nat) (c : Core) (w : Nat) (h : c.xq = (coreAt d i).xq) :
    moverKept d (retireOn d i c w) := by
  have hset := moverKept_setCore d i (retire c w).1 ((retire_xq c w).trans h)
  unfold retireOn
  dsimp only
  split
  · exact moverKept_trans hset (moverKept_coreFault _ _ _ _ _)
  · exact hset

theorem sSet_xq (k : Core) (r : BitVec 5) (v : W64) : (sSet k r v).xq = k.xq := by
  unfold sSet
  split <;> rfl

theorem moverKept_releaseCore (d : Deck) (i : Nat) (sd : BitVec 5) (st : Status) : moverKept d (releaseCore d i sd st) := by
  unfold releaseCore
  dsimp only
  split
  · have hset : moverKept d (setCore d i { coreAt d i with run := .ready }) := moverKept_setCore d i _ rfl
    exact moverKept_trans hset (moverKept_coreFault _ _ _ _ _)
  · exact moverKept_retireOn d i _ _ (sSet_xq _ _ _)

theorem moverKept_settleEnd (d : Deck) (i : Nat) : moverKept d (settleEnd d i) := by
  unfold settleEnd
  dsimp only
  split
  · exact moverKept_setCore d i _ rfl
  · exact moverKept_refl d

theorem moverKept_objUpdate (d : Deck) (u : ObjUpd) : moverKept d (objUpdate d u) := by
  apply moverKept_of_cores
  unfold objUpdate
  split <;> rfl

theorem moverKept_endEntry (d : Deck) (n : Nat) (st : Status) (own : Option (BitVec 12)) (amt : BitVec 16) (hdr : Option CmdHdr) :
    moverKept d (endEntry d n st own amt hdr).1 := by
  apply moverKept_of_cores
  unfold endEntry
  split
  · rfl
  · dsimp only
    split
    · split <;> rfl
    · split <;> rfl

theorem moverKept_evalWaiters (ws : List Waiter) (d : Deck) : moverKept d (evalWaiters ws d).1 := by
  induction ws generalizing d with
  | nil => exact moverKept_refl d
  | cons w rest ih =>
    have hdrop : moverKept d { d with waiters := d.waiters.filter (fun x => x.who ≠ w.who) } := moverKept_of_cores rfl
    unfold evalWaiters
    split
    · exact ih d
    split
    · exact ih d
    dsimp only
    split
    · exact moverKept_trans (moverKept_trans hdrop (moverKept_releaseCore _ _ _ _)) (ih _)
    · exact moverKept_trans (moverKept_trans hdrop (moverKept_endEntry _ _ _ _ _ _)) (ih _)

theorem moverKept_settleFuel (fuel : Nat) (d : Deck) (ups : List ObjUpd) : moverKept d (settleFuel fuel d ups).1 := by
  induction fuel generalizing d ups with
  | zero => exact moverKept_refl d
  | succ k ih =>
    cases ups with
    | nil => exact moverKept_refl d
    | cons u rest =>
      exact moverKept_trans (moverKept_trans (moverKept_foldl objUpdate moverKept_objUpdate _ d) (moverKept_evalWaiters _ _)) (ih _ _)

/-- Updates of objects, with all they release, leave the movers' queues. -/
theorem moverKept_settle (d : Deck) (ups : List ObjUpd) : moverKept d (settle d ups).1 := moverKept_settleFuel _ d ups

/-- The deck as a transfer that ends leaves it, before its object is updated. -/
def dropTransfer (d : Deck) (i : Nat) (e : MovEntry) : Deck :=
  { modCore d i (fun c => movDrop c e.seq) with holdQ := d.holdQ.filter (fun q => q.2 != (i, e.seq)) }

theorem coreAt_dropTransfer (d : Deck) (i : Nat) (e : MovEntry) : coreAt (dropTransfer d i e) i = movDrop (coreAt d i) e.seq :=
  coreAt_setCore d i _

theorem moverKept_endTransfer (d : Deck) (i : Nat) (e : MovEntry) (st : Status) :
    moverKept (dropTransfer d i e) (endTransfer d i e st).1 := by
  unfold endTransfer
  dsimp only
  split
  · refine moverKept_trans ?_ (moverKept_settleEnd _ i)
    split
    · exact moverKept_settle _ _
    · exact moverKept_settle _ _
  · refine moverKept_trans ?_ (moverKept_settleEnd _ i)
    split
    · exact moverKept_refl _
    · exact moverKept_coreFault _ _ _ _ _

/-- The end of the one transfer in a mover's queue leaves it empty. -/
theorem endTransfer_xq (d : Deck) (i : Nat) (e : MovEntry) (st : Status) (h : (coreAt d i).xq = [e]) :
    (coreAt (endTransfer d i e st).1 i).xq = [] := by
  rw [moverKept_endTransfer d i e st i, coreAt_dropTransfer]
  simp [movDrop, h]

theorem movAt_one (c : Core) (e : MovEntry) (seq : Nat) (h : c.xq = [e]) (hs : e.seq = seq) : movAt c seq = some e := by
  simp [movAt, h, hs]

/-- An operation of a deck that asks for replies alone puts the deck's result in place. -/
theorem deckAt_onDeck_replies (s : State) (d : Nat) (f : Deck → DeckRes) (h : onlyReplies (f (deckAt s d)).2) :
    deckAt (onDeck s d f) d = (f (deckAt s d)).1 :=
  (hostFrame_deckAt (onDeck_replies_frame s d f h) d).trans (deckAt_setDeck _ _ _)

/-! ### What a collective learns (R406) -/

theorem isColl_key (c : Coll) (deck : Nat) (slot : BitVec 16) (tstep : Nat) (h : isColl deck slot tstep c = true) :
    c.deck = deck ∧ c.desc.slot = slot ∧ c.tstep = tstep := by
  simpa [isColl, and_assoc] using h

theorem collAt_key {s : State} {k : CollRef} {c : Coll} (h : collAt s k = some c) :
    c.deck = k.deck.val ∧ c.desc.slot = k.slot ∧ c.tstep = k.tstep.toNat :=
  isColl_key c _ _ _ (List.find?_some h)

/-- The entry of a collective is found as it was put. -/
theorem collAt_putColl (s : State) (k : CollRef) (c c' : Coll) (h : collAt s k = some c) (hd : c'.deck = c.deck)
    (hs : c'.desc.slot = c.desc.slot) (ht : c'.tstep = c.tstep) : collAt (putColl s c') k = some c' := by
  obtain ⟨kd, ks, kt⟩ := collAt_key h
  have hc' : isColl k.deck.val k.slot k.tstep.toNat c' = true := by simp [isColl, hd, hs, ht, kd, ks, kt]
  have hmap : ∀ cs : List Coll, cs.find? (isColl k.deck.val k.slot k.tstep.toNat) = some c →
      (cs.map (fun e => if isColl c'.deck c'.desc.slot c'.tstep e then c' else e)).find? (isColl k.deck.val k.slot k.tstep.toNat) =
        some c' := by
    rw [hd, hs, ht, kd, ks, kt]
    intro cs
    induction cs with
    | nil => intro hn; simp at hn
    | cons e rest ih =>
      intro hf
      by_cases he : isColl k.deck.val k.slot k.tstep.toNat e = true
      · rw [List.map_cons, if_pos he, List.find?_cons_of_pos hc']
      · rw [List.find?_cons_of_neg he] at hf
        rw [List.map_cons, if_neg he, List.find?_cons_of_neg he]
        exact ih hf
  exact hmap s.churn.colls h

/-- Replacing a member on another deck leaves the entry. -/
theorem collAt_putColl_other (s : State) (k : CollRef) (e : Coll) (h : e.deck ≠ k.deck.val) :
    collAt (putColl s e) k = collAt s k := by
  have hne : ∀ x : Coll, isColl e.deck e.desc.slot e.tstep x = true → isColl k.deck.val k.slot k.tstep.toNat x = false := by
    intro x hx
    obtain ⟨hd, -, -⟩ := isColl_key x _ _ _ hx
    simp [isColl, hd, h]
  have he : isColl k.deck.val k.slot k.tstep.toNat e = false := by simp [isColl, h]
  have hmap : ∀ cs : List Coll,
      (cs.map (fun x => if isColl e.deck e.desc.slot e.tstep x then e else x)).find? (isColl k.deck.val k.slot k.tstep.toNat) =
        cs.find? (isColl k.deck.val k.slot k.tstep.toNat) := by
    intro cs
    induction cs with
    | nil => rfl
    | cons x rest ih =>
      rw [List.map_cons]
      by_cases hx : isColl e.deck e.desc.slot e.tstep x = true
      · rw [if_pos hx, List.find?_cons_of_neg (by rw [he]; decide), List.find?_cons_of_neg (by rw [hne x hx]; decide), ih]
      · rw [if_neg hx, List.find?_cons, List.find?_cons, ih]
  exact hmap s.churn.colls

theorem collAt_noteMember_other (s : State) (k : CollRef) (e : Coll) (st : Status) (h : e.deck ≠ k.deck.val) :
    collAt (noteMember s e st) k = collAt s k := by
  unfold noteMember
  split
  · rfl
  · exact collAt_putColl_other s k _ h

/-- What the other decks' members learn leaves a member's entry. -/
theorem collAt_tellLocal (s : State) (k : CollRef) (c : Coll) (st : Status) (hc : c.deck = k.deck.val) :
    collAt (tellLocal s c st) k = collAt s k := by
  refine List.foldlRecOn (motive := fun t => collAt t k = collAt s k) _ _ rfl (fun t ht e he => ?_)
  have hdeck : e.deck ≠ k.deck.val := by
    simp only [List.mem_filter, Bool.and_eq_true, bne_iff_ne] at he
    obtain ⟨-, -, hne⟩ := he
    rwa [← hc]
  exact (collAt_noteMember_other t k e st hdeck).trans ht

theorem collAt_flood (s : State) (k : CollRef) (axes : BitVec 4) (n : Notice) (tag : BitVec 3) (but : Option (BitVec 17)) :
    collAt (flood s axes n tag but) k = collAt s k := by
  unfold flood
  split
  · rfl
  · exact List.foldlRecOn (motive := fun t => collAt t k = collAt s k) _ _ rfl (fun t ht _ _ => ht)

/-- A member that is not done learns a status after those it knows. -/
theorem collAt_learn (s : State) (k : CollRef) (c : Coll) (st : Status) (h : collAt s k = some c) (hd : c.done = false) :
    collAt (learn s c st) k = some { c with learned := c.learned ++ [st] } := by
  have hput := collAt_putColl s k c { c with learned := c.learned ++ [st] } h rfl rfl rfl
  unfold learn
  rw [if_neg (by rw [hd]; decide)]
  dsimp only
  split
  · rw [collAt_flood, collAt_tellLocal _ k c st (collAt_key h).1, hput]
  · exact hput

/-! ### Lasers (R24, R25, R344, R465) -/

/-- The management plane after ELS `n` has failed; `gone` says that it has left its socket. -/
def elsFailedMgmt (m : Mgmt) (n : Nat) (gone : Bool) : Mgmt :=
  { m with elsFailed := setBit m.elsFailed n true,
           elsPresent := if gone then setBit m.elsPresent n false else m.elsPresent,
           elsValid := if gone then setBit m.elsValid n false else m.elsValid,
           elsSerial := if gone then mapSet 0 m.elsSerial n 0 else m.elsSerial }

/-- The partner of an ELS takes over its pair. -/
def elsSwitched (m : Mgmt) (n : Nat) : Mgmt :=
  { m with elsOdd := setBit m.elsOdd (n / 2) ((2 * (n / 2) + (1 - n % 2)) % 2 == 1) }

/-- Each port of a list sets event `n`. -/
def markPorts (s : State) (ps : List Nat) (n : Nat) : State := ps.foldl (fun s p => modPort s p (fun q => portEvent q n)) s

theorem opElsFail_eq (s : State) (n : Nat) :
    let gone := (draw 1 s).1 == 1
    let m := elsFailedMgmt s.mgmt n gone
    let s1 := { (draw 1 s).2 with mgmt := m }
    opElsFail s n = if elsActive s.mgmt (n / 2) = n ∧ elsUsable m (2 * (n / 2) + (1 - n % 2)) = true
      then markPorts { s1 with mgmt := elsSwitched m n } (pairPorts (n / 2)) 7 else s1 := rfl

/-- Only events of ports differ. -/
theorem markPorts_frame (s : State) (ps : List Nat) (n : Nat) : markPorts s ps n = { s with ports := (markPorts s ps n).ports } := by
  unfold markPorts
  exact List.foldlRecOn (motive := fun t : State => t = { s with ports := t.ports }) ps _ rfl (fun t ht p _ => by rw [ht]; rfl)

theorem markPorts_port (s : State) (ps : List Nat) (n p : Nat) :
    portAt (markPorts s ps n) p = if p ∈ ps then portEvent (portAt s p) n else portAt s p := by
  induction ps generalizing s with
  | nil => rfl
  | cons x rest ih =>
    have hx : markPorts s (x :: rest) n = markPorts (modPort s x (fun q => portEvent q n)) rest n := rfl
    have twice : ∀ q : Port, portEvent (portEvent q n) n = portEvent q n := by
      intro q
      simp [portEvent, setBit, BitVec.or_assoc]
    rw [hx, ih, portAt_modPort]
    by_cases hp : p = x
    · by_cases hr : p ∈ rest
      · rw [if_pos hr, if_pos hp, if_pos (by simp [hp]), hp, twice]
      · rw [if_neg hr, if_pos hp, if_pos (by simp [hp]), hp]
    · simp [hp]

end Sys2Proof.Machine

namespace Sys2Proof.Machine
open Sys2Proof

theorem getLsbD_setBit_other {w : Nat} (v : BitVec w) (n i : Nat) (b : Bool) (h : i ≠ n) :
    (setBit v n b).getLsbD i = v.getLsbD i := by
  have hp : (BitVec.ofNat w (2 ^ n)).getLsbD i = false := by
    rw [BitVec.getLsbD_ofNat, Nat.testBit_two_pow_of_ne h.symm, Bool.and_false]
  unfold setBit
  split
  · rw [BitVec.getLsbD_or, hp, Bool.or_false]
  · by_cases hi : i < w
    · rw [BitVec.getLsbD_and, BitVec.getLsbD_not, hp]
      simp [hi]
    · rw [BitVec.getLsbD_of_ge _ _ (by omega), BitVec.getLsbD_of_ge _ _ (by omega)]

theorem getLsbD_setBit_same {w : Nat} (v : BitVec w) (n : Nat) (b : Bool) (h : n < w) : (setBit v n b).getLsbD n = b := by
  have hp : (BitVec.ofNat w (2 ^ n)).getLsbD n = true := by
    rw [BitVec.getLsbD_ofNat]
    simp [h]
  unfold setBit
  split
  · rename_i hb
    rw [BitVec.getLsbD_or, hp, Bool.or_true, hb]
  · rename_i hb
    rw [BitVec.getLsbD_and, BitVec.getLsbD_not, hp]
    simp at hb
    simp [hb]

/-- An ELS other than `n` stays usable when `n` fails. -/
theorem elsUsable_failed_other (m : Mgmt) (n k : Nat) (gone : Bool) (h : k ≠ n) :
    elsUsable (elsFailedMgmt m n gone) k = elsUsable m k := by
  cases gone <;> simp [elsUsable, elsFailedMgmt, getLsbD_setBit_other _ _ _ _ h]

theorem opElsFail_mgmt (s : State) (n : Nat) :
    (opElsFail s n).mgmt.elsFailed = setBit s.mgmt.elsFailed n true ∧ (opElsFail s n).decks = s.decks := by
  rw [opElsFail_eq]
  dsimp only
  split
  · rw [markPorts_frame]
    exact ⟨rfl, rfl⟩
  · exact ⟨rfl, rfl⟩

/-- A usable partner takes over from the ELS that supplied the pair, and the ports of the pair say so (R344). -/
theorem opElsFail_switch (s : State) (n : Fin 4) (ha : elsActive s.mgmt (n.val / 2) = n.val)
    (hu : elsUsable s.mgmt (2 * (n.val / 2) + (1 - n.val % 2)) = true) :
    let t := opElsFail s n
    elsActive t.mgmt (n.val / 2) = 2 * (n.val / 2) + (1 - n.val % 2) ∧
    ∀ p ∈ pairPorts (n.val / 2), (portAt t p).events.getLsbD 7 = true ∧ (portAt t p).state = (portAt s p).state := by
  have hne : 2 * (n.val / 2) + (1 - n.val % 2) ≠ n.val := by omega
  have hf := opElsFail_eq s n
  dsimp only at hf
  rw [if_pos ⟨ha, (elsUsable_failed_other _ _ _ _ hne).trans hu⟩] at hf
  rw [hf]
  refine ⟨?_, fun p hp => ?_⟩
  · rw [markPorts_frame]
    have hn : n.val / 2 < 2 := by omega
    simp only [elsActive, elsSwitched, getLsbD_setBit_same _ _ _ hn, boolNat]
    split
    · rename_i h1
      simp at h1
      omega
    · rename_i h1
      simp at h1
      omega
  · rw [markPorts_port, if_pos hp]
    refine ⟨?_, rfl⟩
    simp [portEvent, setBit]

/-- While one ELS of a pair is usable, nothing is lost. -/
theorem opPairLost_usable (s : State) (pair : Nat) (h : elsUsable s.mgmt (2 * pair) = true) : opPairLost s pair = s :=
  if_pos (.inl h)

theorem opPortLoss_down (s : State) (p : Nat) (h : portLive (portAt s p) = true ∨ (portAt s p).state = 0) :
    (portAt (opPortLoss s p) p).state = 0 := by
  by_cases hl : portLive (portAt s p) = true
  · rw [opPortLoss_live s p hl]
    exact (portLoss_spec s p).1
  · rw [opPortLoss, if_neg hl]
    exact h.resolve_left hl

theorem opPortLoss_other (s : State) (p j : Nat) (hj : j ≠ p) : (portAt (opPortLoss s p) j).state = (portAt s j).state := by
  unfold opPortLoss
  split
  · exact (congrArg Port.state (leavePort_other s p 0 (some 1) j hj)).trans rfl
  · rfl

/-- Losing the ports of a list takes down each that was live. -/
theorem foldl_opPortLoss (ps : List Nat) (s : State) (p : Nat)
    (h : (portAt s p).state = 0 ∨ (p ∈ ps ∧ portLive (portAt s p) = true)) : (portAt (ps.foldl opPortLoss s) p).state = 0 := by
  induction ps generalizing s with
  | nil => exact h.elim id (fun e => absurd e.1 List.not_mem_nil)
  | cons x rest ih =>
    rw [List.foldl_cons]
    by_cases hx : p = x
    · apply ih
      left
      rw [← hx]
      exact opPortLoss_down s p (h.elim .inr (fun e => .inl e.2))
    · apply ih
      have hst := opPortLoss_other s x p hx
      refine h.imp (fun h0 => hst.trans h0) (fun e => ⟨(List.mem_cons.1 e.1).resolve_left hx, ?_⟩)
      rw [portLive, hst]
      exact e.2

/-- With neither ELS of a pair usable, every live port of the pair goes down (R25). -/
theorem opPairLost_down (s : State) (pair : Nat) (h0 : elsUsable s.mgmt (2 * pair) = false)
    (h1 : elsUsable s.mgmt (2 * pair + 1) = false) (p : Nat) (hp : p ∈ pairPorts pair) (hl : portLive (portAt s p) = true) :
    (portAt (opPairLost s pair) p).state = 0 := by
  have hf : opPairLost s pair = (pairPorts pair).foldl opPortLoss s := if_neg (by simp [h0, h1])
  rw [hf]
  exact foldl_opPortLoss _ s p (.inr ⟨hp, hl⟩)

/-- The management plane with an ELS record read (R465). -/
def elsRead (m : Mgmt) (n : Nat) (rec : List Byte) : Mgmt :=
  { m with elsPresent := setBit m.elsPresent n true, elsValid := setBit m.elsValid n (recordValid 2 rec),
           elsFailed := setBit m.elsFailed n false, elsChannels := mapSet 0 m.elsChannels n (readNat (bytesCells rec) 3 1),
           elsSerial := mapSet 0 m.elsSerial n (if recordValid 2 rec then BitVec.ofNat 64 (readNat (bytesCells rec) 4 8) else 0) }

theorem elsUsable_elsRead (m : Mgmt) (n : Fin 4) (rec : List Byte) :
    elsUsable (elsRead m n rec) n =
      (recordValid 2 rec && decide ((pairPorts (n.val / 2)).length ≤ readNat (bytesCells rec) 3 1)) := by
  simp only [elsUsable, elsRead, getLsbD_setBit_same _ _ _ n.isLt, mapGet_set_same, Bool.not_false, Bool.and_true]

/-- An ELS whose record covers its engines supplies its pair where the other one does not; else ELS_ID_BAD is raised. -/
theorem readEls_eq (s : State) (n : Nat) (rec : List Byte) :
    let m := elsRead s.mgmt n rec
    let m1 := if elsUsable m n = true ∧ elsUsable m (elsActive m (n / 2)) = false then
        { m with elsOdd := setBit m.elsOdd (n / 2) (n % 2 == 1) } else m
    readEls s n rec = if elsUsable m n then { s with mgmt := m1 } else mgtEvent { s with mgmt := m1 } 4 := rfl

theorem mgtEvent_mgmt (s : State) (n : Nat) :
    (mgtEvent s n).mgmt = { s.mgmt with events := setBit s.mgmt.events n true, pldm := (mgtEvent s n).mgmt.pldm } := rfl

/-- A valid record that covers the engines makes its ELS usable. -/
theorem readEls_valid (s : State) (n : Fin 4) (rec : List Byte) (hv : recordValid 2 rec = true)
    (hc : (pairPorts (n.val / 2)).length ≤ readNat (bytesCells rec) 3 1) :
    let t := readEls s n rec
    t = { s with mgmt := t.mgmt } ∧ elsUsable t.mgmt n = true ∧
    mapGet 0 t.mgmt.elsSerial n = BitVec.ofNat 64 (readNat (bytesCells rec) 4 8) := by
  have hu : elsUsable (elsRead s.mgmt n rec) n = true := by simp [elsUsable_elsRead, hv, hc]
  have hs : mapGet 0 (elsRead s.mgmt n rec).elsSerial n = BitVec.ofNat 64 (readNat (bytesCells rec) 4 8) := by
    simp [elsRead, hv]
  have he := readEls_eq s n rec
  dsimp only at he
  rw [if_pos hu] at he
  rw [he]
  refine ⟨rfl, ?_, ?_⟩
  · dsimp only
    split
    · exact hu
    · exact hu
  · dsimp only
    split
    · exact hs
    · exact hs

/-- An invalid record sets ELS_ID_BAD and leaves the ELS without a serial number. -/
theorem readEls_invalid (s : State) (n : Fin 4) (rec : List Byte) (hv : recordValid 2 rec = false) :
    let t := readEls s n rec
    t.mgmt.elsPresent = setBit s.mgmt.elsPresent n true ∧ t.mgmt.elsValid = setBit s.mgmt.elsValid n false ∧
    t.mgmt.events.getLsbD 4 = true ∧ mapGet 0 t.mgmt.elsSerial n = 0 := by
  have hu : ¬ elsUsable (elsRead s.mgmt n rec) n = true := by simp [elsUsable_elsRead, hv]
  have he := readEls_eq s n rec
  dsimp only at he
  rw [if_neg hu, if_neg (fun h => hu h.1)] at he
  rw [he]
  refine ⟨rfl, ?_, getLsbD_setBit_same _ _ _ (by decide), ?_⟩
  · rw [mgtEvent_mgmt]
    simp [elsRead, hv]
  · rw [mgtEvent_mgmt]
    simp [elsRead, hv]

/-! ### The fabric (R31) -/

/-- A detector that fires with action 0 is counted. -/
def counted (s : State) (n : Nat) : State :=
  { s with rst := { s.rst with detCount := mapMod 0 s.rst.detCount n satInc, detLast := mapSet 0 s.rst.detLast n 0 } }

theorem fireDetector_count (s : State) (n : Nat) (d : Option Nat) (c : Option (BitVec 4)) (cores : List Nat)
    (h : actionOf s n = 0) : fireDetector s n d c cores = counted s n := by
  unfold fireDetector
  dsimp only
  rw [h]
  split
  · rfl
  · rw [if_neg (by decide), if_neg (by decide)]
    rfl

/-- A flit error ends the started transfer that it names. -/
theorem opFlitUe_mover (s : State) (d : Nat) (c : CoreRef) (e : MovEntry) (ha : actionOf s 9 = 0) (hx : (coreOf s c).xq = [e])
    (hs : e.started = true) : (coreOf (opFlitUe s d (.mover c e.seq)) c).xq = [] := by
  have hm : movAt (coreAt (deckAt (counted s 9) c.deck) c.core) e.seq = some e := movAt_one _ e e.seq hx rfl
  have hop : opFlitUe s d (.mover c e.seq) = onDeck (counted s 9) c.deck (fun k =>
      match movAt (coreAt k c.core.val) e.seq with
      | none => (k, [])
      | some e => if e.started then endTransfer k c.core.val e stIsolated else (k, [])) := by
    rw [← fireDetector_count s 9 (some d) none [] ha]
    rfl
  have hrep : ∀ k : Deck, onlyReplies (match movAt (coreAt k c.core.val) e.seq with
      | none => (k, [])
      | some e => if e.started then endTransfer k c.core.val e stIsolated else (k, [])).2 := by
    intro k
    split
    · exact onlyReplies_nil
    · split
      · exact (tame_endTransfer _ _ _ _).2
      · exact onlyReplies_nil
  rw [hop, coreOf, deckAt_onDeck_replies _ _ _ (hrep _), hm]
  dsimp only
  rw [if_pos hs]
  exact endTransfer_xq _ _ e stIsolated hx

/-- A flit error of a running collective gives the member ISOLATED. -/
theorem opFlitUe_coll (s : State) (d : Nat) (k : CollRef) (c : Coll) (ha : actionOf s 9 = 0) (hc : collAt s k = some c)
    (hs : c.silent = false) (hd : c.done = false) :
    collAt (opFlitUe s d (.coll k)) k = some { c with learned := c.learned ++ [stIsolated] } := by
  have hc' : collAt (counted s 9) k = some c := hc
  have hop : opFlitUe s d (.coll k) = learn (counted s 9) c stIsolated := by
    simp only [opFlitUe, fireDetector_count s 9 (some d) none [] ha, hc', hs, Bool.false_eq_true, if_false]
  rw [hop]
  exact collAt_learn _ k c stIsolated hc' hd

/-- A flit error of a collective that has gone is counted, and no more. -/
theorem opFlitUe_gone (s : State) (d : Nat) (k : CollRef) (ha : actionOf s 9 = 0) (hc : collAt s k = none) :
    opFlitUe s d (.coll k) = counted s 9 := by
  have hc' : collAt (counted s 9) k = none := hc
  simp only [opFlitUe, fireDetector_count s 9 (some d) none [] ha, hc']

/-! ### The clearing of a deck (R43, R44) -/

/-- Unbinding an LD touches the host side alone, and no BIND_LD that waits. -/
theorem endUnbind_frame (s : State) (k : Nat) :
    endUnbind s k = { s with host := (endUnbind s k).host } ∧ (endUnbind s k).host.binds = s.host.binds := by
  unfold endUnbind
  split
  · exact ⟨rfl, rfl⟩
  · split
    · exact ⟨rfl, rfl⟩
    · exact ⟨rfl, rfl⟩

/-- Where no BIND_LD waits, none is served. -/
theorem serveBinds_none (s : State) (h : s.host.binds = []) : serveBinds s = s := by
  have hs : { s with host := { s.host with binds := [] } } = s := by rw [← h]
  simp only [serveBinds, h, List.filter_nil, List.foldl_nil]
  exact hs

/-- The deck as its clearing leaves it. -/
def clearedDeck (now : Nat) (k : Deck) : Deck := { k with mem := [], memBad := [], latent := [], clearing := false, unboundAt := now }

/-- A clearing that is done leaves the deck cleared; the host side follows. -/
theorem deckAt_opClearDone (s : State) (d : Nat) (hc : (deckAt s d).clearing = true) (hb : s.host.binds = []) :
    deckAt (opClearDone s d) d = clearedDeck (clockNs s) (deckAt s d) := by
  let s1 := modDeck s d (clearedDeck (clockNs s))
  let unbind := fun (s : State) (k : Nat) => endUnbind (modLd s k (fun l => { l with bind := l.bind.map (fun b =>
    { b with leaving := setBit b.leaving d false }) })) k
  have hfold : ∀ ks : List Nat, (ks.foldl unbind s1).decks = s1.decks ∧ (ks.foldl unbind s1).host.binds = s1.host.binds := by
    intro ks
    refine List.foldlRecOn (motive := fun t : State => t.decks = s1.decks ∧ t.host.binds = s1.host.binds) ks unbind ⟨rfl, rfl⟩
      (fun t ht k _ => ?_)
    obtain ⟨hf, hbinds⟩ := endUnbind_frame (modLd t k (fun l => { l with bind := l.bind.map (fun b =>
      { b with leaving := setBit b.leaving d false }) })) k
    exact ⟨(congrArg State.decks hf).trans ht.1, hbinds.trans ht.2⟩
  have hop : opClearDone s d = serveBinds (((s1.host.lds.filter (fun e => match e.2.bind with
      | some b => b.leaving.getLsbD d
      | none => false)).map (·.1)).foldl unbind s1) := if_neg (by rw [hc]; decide)
  obtain ⟨hdecks, hbinds⟩ := hfold ((s1.host.lds.filter (fun e => match e.2.bind with
      | some b => b.leaving.getLsbD d
      | none => false)).map (·.1))
  rw [hop, serveBinds_none _ (hbinds.trans hb), deckAt, hdecks]
  exact deckAt_modDeck s d _

/-- Settles O34: each event of the lasers, the fabric and the hub links has the effect that the lemma on its operation states. -/
theorem lasersAndLinksFail : Obligations.LasersAndLinksFail := by
  unfold Obligations.LasersAndLinksFail
  intro s
  refine ⟨fun n => ⟨_, rfl, (opElsFail_mgmt s n).1, (opElsFail_mgmt s n).2, fun ha hu => opElsFail_switch s n ha hu⟩,
    fun pair => ⟨fun h => congrArg Host.Outcome.next (opPairLost_usable s pair h),
      fun h0 h1 => ⟨_, rfl, fun p hp hl => opPairLost_down s pair h0 h1 p hp hl⟩⟩,
    fun n rec => ⟨fun hv hc => ⟨_, rfl, readEls_valid s n rec hv hc⟩, fun hv => ⟨_, rfl, readEls_invalid s n rec hv⟩⟩,
    fun d ha => ⟨fun k hk => congrArg Host.Outcome.next (opFlitUe_gone s d k ha hk),
      fun k c hc hs hd => ⟨_, rfl, _, opFlitUe_coll s d k c ha hc hs hd, rfl⟩,
      fun c e hx hs => ⟨_, rfl, opFlitUe_mover s d c e ha hx hs⟩⟩,
    fun d => rfl, fun d hc hb => ⟨_, rfl, ?_⟩⟩
  rw [deckAt_opClearDone s d hc hb]
  exact ⟨rfl, rfl, rfl⟩

end Sys2Proof.Machine


section
/-! SUPPORT. CXL.mem accesses (O39): the pieces of a range of HDM offsets, what ECC and a host's write leave of a deck, and a
violation. -/
namespace Sys2Proof.Machine
open Sys2Proof

/-! ### The pieces of a range (R55) -/

/-- Piece `x` of a range that starts at `off` holds what the deck numbered `k` of the binding has of it. -/
def isPiece (b : Binding) (off n k : Nat) (x : Nat × Nat × Nat × Nat) : Prop :=
  (maskDecks b.decks)[k]? = some x.1 ∧ x.2.1 + k * memEnd = off + x.2.2.1 ∧ 0 < x.2.2.2 ∧ x.2.2.1 + x.2.2.2 ≤ n ∧
    x.2.1 + x.2.2.2 ≤ memEnd

theorem hdmPieces_isPiece {b : Binding} {off n : Nat} {x : Nat × Nat × Nat × Nat} (h : x ∈ hdmPieces b off n) :
    ∃ k, isPiece b off n k x := by
  obtain ⟨⟨d, k⟩, he, hx⟩ := List.mem_filterMap.1 h
  have hd : (maskDecks b.decks)[k]? = some d := List.mem_zipIdx_iff_getElem?.1 he
  simp only [Option.ite_none_right_eq_some, Option.some.injEq] at hx
  obtain ⟨hlt, rfl⟩ := hx
  have hk : (k + 1) * memEnd = k * memEnd + memEnd := Nat.succ_mul k memEnd
  refine ⟨k, hd, ?_, ?_, ?_, ?_⟩ <;> simp only <;> omega

/-- The piece that holds an offset of the range. -/
theorem hdmPieces_cover {b : Binding} {off n i d a : Nat} (hi : i < n) (h : hdmAt b (off + i) = some (d, a)) :
    ∃ x ∈ hdmPieces b off n, x.1 = d ∧ x.2.2.1 ≤ i ∧ i < x.2.2.1 + x.2.2.2 := by
  obtain ⟨d', hd, he⟩ := Option.map_eq_some_iff.1 h
  obtain ⟨rfl, rfl⟩ := Prod.mk.inj he
  have hk : ((off + i) / memEnd + 1) * memEnd = (off + i) / memEnd * memEnd + memEnd := Nat.succ_mul _ memEnd
  have hdiv := Nat.div_add_mod' (off + i) memEnd
  have hmod := Nat.mod_lt (off + i) (show 0 < memEnd by decide)
  generalize (off + i) / memEnd = k at *
  refine ⟨_, List.mem_filterMap.2 ⟨(d', k), List.mem_zipIdx_iff_getElem?.2 hd, if_pos (by simp only; omega)⟩, rfl, ?_, ?_⟩ <;>
    simp only <;> omega

/-- R55 gives an offset that a piece holds the piece's deck and the address beside it. -/
theorem hdmAt_of_isPiece {b : Binding} {off n k j : Nat} {x : Nat × Nat × Nat × Nat} (h : isPiece b off n k x)
    (hj : j < x.2.2.2) : hdmAt b (off + x.2.2.1 + j) = some (x.1, x.2.1 + j) := by
  obtain ⟨hd, ha, -, -, hend⟩ := h
  have hsum : off + x.2.2.1 + j = x.2.1 + j + k * memEnd := by omega
  have hlt : x.2.1 + j < memEnd := by omega
  have hq : (x.2.1 + j + k * memEnd) / memEnd = k := by
    rw [Nat.add_mul_div_right _ _ (by decide), Nat.div_eq_of_lt hlt, Nat.zero_add]
  rw [hdmAt, hsum, hq, hd, Nat.add_mul_mod_self_right, Nat.mod_eq_of_lt hlt, Option.map_some]

/-- The sector of an offset is, in the deck, the sector of its address. -/
theorem hdmAt_sector {b : Binding} {h d a : Nat} (he : hdmAt b h = some (d, a)) :
    hdmAt b (32 * (h / 32)) = some (d, a / 32 * 32) := by
  obtain ⟨d', hd, he'⟩ := Option.map_eq_some_iff.1 he
  obtain ⟨rfl, rfl⟩ := Prod.mk.inj he'
  have hq : 32 * (h / 32) / memEnd = h / memEnd := by unfold memEnd; omega
  have hr : 32 * (h / 32) % memEnd = h % memEnd / 32 * 32 := by unfold memEnd; omega
  rw [hdmAt, hq, hd, hr, Option.map_some]

/-- R55 gives two offsets two places. -/
theorem hdmAt_inj {b : Binding} {h h' : Nat} {p : Nat × Nat} (he : hdmAt b h = some p) (he' : hdmAt b h' = some p) : h = h' := by
  obtain ⟨d, hd, rfl⟩ := Option.map_eq_some_iff.1 he
  obtain ⟨d', hd', hp⟩ := Option.map_eq_some_iff.1 he'
  obtain ⟨rfl, hmod⟩ := Prod.mk.inj hp
  have hnd : (maskDecks b.decks).Nodup := List.nodup_range.filter _
  obtain ⟨hlt, -⟩ := List.getElem?_eq_some_iff.1 hd
  have hdiv := (List.getElem?_inj hlt hnd).1 (hd.trans hd'.symm)
  rw [← Nat.div_add_mod h memEnd, ← Nat.div_add_mod h' memEnd, hdiv, hmod]

theorem mem_rangeSectors {off n i : Nat} (h : i < n) : (off + i) / 32 ∈ rangeSectors off n := by
  rw [rangeSectors, if_neg (by omega), List.mem_map]
  exact ⟨(off + i) / 32 - off / 32, List.mem_range.2 (by omega), by omega⟩

/-! ### ECC with nothing to find -/

/-- Only decks differ, and each at most in what is in self-refresh. -/
def touchedDecks (s t : State) : Prop := t = { s with decks := t.decks } ∧ ∀ d, stackFrame (deckAt s d) (deckAt t d)

theorem touchedDecks_refl (s : State) : touchedDecks s s := ⟨rfl, fun _ => stackFrame_refl _⟩

theorem touchedDecks_trans {r s t : State} (h1 : touchedDecks r s) (h2 : touchedDecks s t) : touchedDecks r t := by
  refine ⟨?_, fun d => stackFrame_trans (h1.2 d) (h2.2 d)⟩
  rw [h2.1, h1.1]

theorem touchedDecks_setDeck {s : State} {d : Nat} {k : Deck} (h : stackFrame (deckAt s d) k) : touchedDecks s (setDeck s d k) := by
  refine ⟨rfl, fun e => ?_⟩
  by_cases he : e = d
  · subst he
    rwa [deckAt_setDeck]
  · rw [deckAt_setDeck_other s d e k he]
    exact stackFrame_refl _

theorem latent_of_stackFrame {d d' : Deck} (h : stackFrame d d') : d'.latent = d.latent := by rw [h.1]
theorem mem_of_stackFrame {d d' : Deck} (h : stackFrame d d') : d'.mem = d.mem := by rw [h.1]
theorem memBad_of_stackFrame {d d' : Deck} (h : stackFrame d d') : d'.memBad = d.memBad := by rw [h.1]
theorem memUp_of_stackFrame {d d' : Deck} (h : stackFrame d d') : memUp d' = memUp d := by rw [h.1]; rfl

theorem memClean_of_touched {s t : State} (hc : memClean s) (h : touchedDecks s t) : memClean t :=
  fun d => (latent_of_stackFrame (h.2 d)).trans (hc d)

/-- With nothing to find, the reads of a write that covers a sector in part end self-refresh at most. -/
theorem eccEdges_nil (now a n : Nat) (d : Deck) (h : d.latent = []) :
    ∃ d', eccEdges now a n [] d = (d', []) ∧ stackFrame d d' := by
  have step : ∀ m, eccRange now (32 * (a / 32)) m [] d = (touch d (32 * (a / 32)) m, []) := fun m => eccRange_nil now _ m d h
  have next : ∀ m, eccRange now (32 * ((a + n) / 32)) 32 [] (touch d (32 * (a / 32)) m) =
      (touch (touch d (32 * (a / 32)) m) (32 * ((a + n) / 32)) 32, []) := fun m =>
    eccRange_nil now _ 32 _ ((latent_of_stackFrame (touch_frame _ _ _)).trans h)
  simp only [eccEdges, step, next, List.append_nil]
  split
  · exact ⟨_, rfl, stackFrame_trans (touch_frame _ _ _) (touch_frame _ _ _)⟩
  · exact ⟨_, rfl, touch_frame _ _ _⟩

theorem touched_eccEdges (s : State) (d now a n : Nat) (h : (deckAt s d).latent = []) :
    touchedDecks s (onDeck s d (eccEdges now a n [])) := by
  obtain ⟨k, hk, hf⟩ := eccEdges_nil now a n _ h
  rw [onDeck_pure s d _ k hk]
  exact touchedDecks_setDeck hf

theorem hdmErrs_nil (b : Binding) (d : Nat) : hdmErrs b d [] = [] := rfl

/-- With no standing error and none named, a read of a range ends self-refresh at most. -/
theorem touched_hdmEcc (s : State) (b : Binding) (off n : Nat) (h : memClean s) : touchedDecks s (hdmEcc s b off n []) := by
  refine List.foldlRecOn (motive := fun t => touchedDecks s t) _ _ (touchedDecks_refl s) (fun t ht x _ => ?_)
  split
  · rw [hdmErrs_nil, onDeck_eccRange_nil _ _ _ _ _ (memClean_of_touched h ht x.1)]
    exact touchedDecks_trans ht (touchedDecks_setDeck (touch_frame _ _ _))
  · exact ht

/-! ### The bytes of a read -/

/-- Where every piece that covers byte `i` gives `v`, and one covers it or it is `v` already, the spliced data holds `v`. -/
theorem cellGet_foldl_splice {α : Type} (lo len : α → Nat) (src : α → Cells) (ps : List α) (m : Cells) (i : Nat) (v : Byte)
    (hv : ∀ x ∈ ps, lo x ≤ i → i < lo x + len x → cellGet (src x) (i - lo x) = v)
    (hm : cellGet m i = v ∨ ∃ x ∈ ps, lo x ≤ i ∧ i < lo x + len x) :
    cellGet (ps.foldl (fun m x => mapSplice m (lo x) (len x) (src x)) m) i = v := by
  induction ps generalizing m with
  | nil => simpa using hm
  | cons x rest ih =>
    refine ih _ (fun y hy => hv y (List.mem_cons_of_mem x hy)) ?_
    rw [cellGet_splice]
    by_cases hx : lo x ≤ i ∧ i < lo x + len x
    · exact .inl ((if_pos hx).trans (hv x List.mem_cons_self hx.1 hx.2))
    · rw [if_neg hx]
      rcases hm with hm | ⟨y, hy, hc⟩
      · exact .inl hm
      · rcases List.mem_cons.1 hy with rfl | hy
        · exact absurd hc hx
        · exact .inr ⟨y, hy, hc⟩

/-- What a read of an LD's range collects, byte by byte. -/
def hdmData (s : State) (b : Binding) (off n : Nat) : Cells :=
  (hdmPieces b off n).foldl (fun m x => mapSplice m x.2.2.1 x.2.2.2 (mapSlice (deckAt s x.1).mem x.2.1 x.2.2.2)) []

theorem cellGet_hdmData (s : State) (b : Binding) {off n i d a : Nat} (hi : i < n) (h : hdmAt b (off + i) = some (d, a)) :
    cellGet (hdmData s b off n) i = deckByte s d a := by
  refine cellGet_foldl_splice (fun x : Nat × Nat × Nat × Nat => x.2.2.1) (fun x => x.2.2.2)
    (fun x => mapSlice (deckAt s x.1).mem x.2.1 x.2.2.2) _ [] i _ (fun x hx h1 h2 => ?_) (.inr ?_)
  · obtain ⟨k, hk⟩ := hdmPieces_isPiece hx
    have hat := hdmAt_of_isPiece hk (j := i - x.2.2.1) (by omega)
    rw [show off + x.2.2.1 + (i - x.2.2.1) = off + i by omega, h] at hat
    obtain ⟨rfl, rfl⟩ := Prod.mk.inj (Option.some.inj hat)
    rw [cellGet, mapGet_slice, if_pos (by omega)]
    rfl
  · obtain ⟨x, hx, -, hc⟩ := hdmPieces_cover hi h
    exact ⟨x, hx, hc⟩

/-- The sectors of a read that a host gets as poison. -/
def hdmDead (s : State) (b : Binding) (off n : Nat) : List Nat :=
  (rangeSectors off n).filter (fun k => match hdmAt b (32 * k) with
    | some (d, a) => !(memUp (deckAt s d) && memReadOk (deckAt s d) a 32)
    | none => true)

theorem mem_hdmDead (s : State) (b : Binding) {off n i d a : Nat} (hi : i < n) (h : hdmAt b (off + i) = some (d, a)) :
    (off + i) / 32 ∈ hdmDead s b off n ↔ memUp (deckAt s d) = false ∨ memReadOk (deckAt s d) (a / 32 * 32) 32 = false := by
  rw [hdmDead, List.mem_filter, hdmAt_sector h]
  simp only [mem_rangeSectors hi, true_and, Bool.not_eq_true', Bool.and_eq_false_iff]

/-- The data of a read: the bytes of the sectors that are not poison. -/
def hdmLive (s : State) (b : Binding) (off n : Nat) : Cells :=
  (hdmData s b off n).filter (fun e => !(hdmDead s b off n).contains ((off + e.1) / 32))

theorem cellGet_hdmLive (s : State) (b : Binding) {off n i : Nat} (h : (off + i) / 32 ∉ hdmDead s b off n) :
    cellGet (hdmLive s b off n) i = cellGet (hdmData s b off n) i := by
  rw [cellGet, hdmLive, mapGet_filter 0 _ (fun k => !(hdmDead s b off n).contains ((off + k) / 32)), if_pos (by simpa using h)]
  rfl

theorem opCxlRead_served (s : State) (l : LdRef) (off n : Nat) (errs : List SectorErr) (b : Binding)
    (hb : heldBind (ldAt s (ldKey l)) = some b) (hf : hdmFits b off n = true) (hh : hdmHeld s b off n = false) :
    let s1 := hdmEcc s b off n errs
    opCxlRead s l off n errs = emit s1 (.cxlData l (hdmLive s1 b off n) (hdmDead s1 b off n)) := by
  simp only [opCxlRead, hb, hf, hh, Bool.not_true, Bool.false_eq_true, if_false]
  rfl

/-! ### The bytes of a write -/

/-- A write changes no byte outside its range. -/
theorem cellGet_memWrite_outside (d : Deck) (a n : Nat) (src : Cells) (x : Nat) (h : x < a ∨ a + n ≤ x) :
    cellGet (memWrite d a n src).mem x = cellGet d.mem x := by
  simp only [memWrite, mem_of_stackFrame (touch_frame _ _ _)]
  refine List.foldlRecOn (motive := fun m => cellGet m x = cellGet d.mem x) _ _ ?_ (fun m hm p _ => ?_)
  · rw [cellGet_splice, if_neg (by omega)]
  · rw [cellGet_splice]
    split
    · rw [cellGet, mapGet_slice, if_pos (by omega), Nat.add_sub_cancel' (by omega)]
      rfl
    · exact hm

theorem latent_memWrite (d : Deck) (a n : Nat) (src : Cells) (h : d.latent = []) : (memWrite d a n src).latent = [] := by
  simp only [memWrite, latent_of_stackFrame (touch_frame _ _ _), h]
  rfl

theorem memBad_memWrite (d : Deck) (a n : Nat) (src : Cells) (h : d.memBad = []) : (memWrite d a n src).memBad = [] := by
  simp only [memWrite, memBad_of_stackFrame (touch_frame _ _ _), h]
  rfl

theorem deadPages_memWrite (d : Deck) (a n : Nat) (src : Cells) (x m : Nat) :
    deadPages (memWrite d a n src) x m = deadPages d x m := by
  simp only [memWrite, deadPages_frame (touch_frame _ _ _)]
  rfl

/-- A host's write in part: one write inside its range, then the counts of what it discards. -/
theorem memWritePartial_eq (d : Deck) (a : Nat) (bs : List Byte) : ∃ a' n src k, a ≤ a' ∧ a' + n ≤ a + bs.length ∧
    (memWritePartial d a bs).1 = { memWrite d a' n src with stks := k } := by
  have bump : ∀ (c c' : Bool) (x : Deck) (m m' : Nat) (f : Stack → Stack), ∃ k,
      (if c' then modStack (if c then modStack x m f else x) m' f else if c then modStack x m f else x) = { x with stks := k } := by
    intro c c' x m m' f
    cases c <;> cases c'
    · exact ⟨x.stks, rfl⟩
    · exact ⟨_, rfl⟩
    · exact ⟨_, rfl⟩
    · exact ⟨_, rfl⟩
  let bad0 := (a % 32 != 0 || decide (bs.length < 32)) && decide (bs.length ≠ 0) && mapGet false d.memBad (a / 32)
  let bad1 := (a + bs.length) % 32 != 0 && (a + bs.length) / 32 != a / 32 && mapGet false d.memBad ((a + bs.length) / 32)
  let lo := if bad0 then min bs.length (32 * (a / 32 + 1) - a) else 0
  let body := (bs.drop lo).take (bs.length - lo - if bad1 then (a + bs.length) % 32 else 0)
  have hlo : lo ≤ bs.length := by
    simp only [lo]
    split <;> omega
  have hlen : body.length ≤ bs.length - lo := by
    simp only [body, List.length_take, List.length_drop]
    omega
  obtain ⟨k, hk⟩ := bump bad0 bad1 (memWrite d (a + lo) body.length (bytesCells body)) (pageStack (a / 32 / 128))
    (pageStack ((a + bs.length) / 32 / 128)) (fun y => { y with partialDrop := satInc y.partialDrop })
  exact ⟨a + lo, body.length, bytesCells body, k, by omega, by omega, hk⟩

theorem memWritePartial_outside (d : Deck) (a : Nat) (bs : List Byte) (x : Nat) (h : x < a ∨ a + bs.length ≤ x) :
    cellGet (memWritePartial d a bs).1.mem x = cellGet d.mem x := by
  obtain ⟨a', n, src, k, h1, h2, he⟩ := memWritePartial_eq d a bs
  rw [he]
  exact cellGet_memWrite_outside d a' n src x (by omega)

theorem latent_memWritePartial (d : Deck) (a : Nat) (bs : List Byte) (h : d.latent = []) :
    (memWritePartial d a bs).1.latent = [] := by
  obtain ⟨a', n, src, k, -, -, he⟩ := memWritePartial_eq d a bs
  rw [he]
  exact latent_memWrite d a' n src h

/-- Stack memory that takes every byte: reachable, without poison or dead pages. -/
def takesBytes (d : Deck) : Prop := memUp d = true ∧ d.memBad = [] ∧ deadPages d 0 memEnd = []

/-- Does a range of stack memory touch page `p`? -/
def inPages (a n p : Nat) : Bool := decide (a / 4096 ≤ p) && decide (p * 4096 < a + n)

/-- The pages of retired rows that `f` picks. -/
def retiredPages (d : Deck) (f : Nat → Bool) : List Nat :=
  (List.range 4).flatMap (fun k => (stackAt d k).remap.filterMap (fun e =>
    if e.2.retired && f (rowPage k (e.1 / 0x180000) (e.1 % 0x180000)) then
      some (rowPage k (e.1 / 0x180000) (e.1 % 0x180000)) else none))

theorem deadPages_eq (d : Deck) (a n : Nat) : deadPages d a n =
    if (List.range 4).any (fun k => decide ((stackAt d k).chFailed ≠ 0)) = true then
      retiredPages d (inPages a n) ++ ((List.range ((n + 8191) / 4096)).map (fun k => a / 4096 + k)).filter
        (fun p => inPages a n p && pageDead d p)
    else retiredPages d (inPages a n) := rfl

theorem retiredPages_mono (d : Deck) {f g : Nat → Bool} (h : ∀ p, f p = true → g p = true) :
    retiredPages d f ⊆ retiredPages d g := by
  intro p hp
  obtain ⟨k, hk, hp⟩ := List.mem_flatMap.1 hp
  obtain ⟨e, he, hp⟩ := List.mem_filterMap.1 hp
  obtain ⟨hr, hp⟩ := Option.ite_none_right_eq_some.1 hp
  obtain ⟨h1, h2⟩ := Bool.and_eq_true_iff.1 hr
  exact List.mem_flatMap.2 ⟨k, hk, List.mem_filterMap.2 ⟨e, he, (if_pos (Bool.and_eq_true_iff.2 ⟨h1, h _ h2⟩)).trans hp⟩⟩

/-- Where no page of all stack memory is dead, none of a range is. -/
theorem deadPages_sub (d : Deck) (a n : Nat) (h : deadPages d 0 memEnd = []) (hn : a + n ≤ memEnd) : deadPages d a n = [] := by
  have hend : memEnd = 0x6000000000 := rfl
  have hin : ∀ p, inPages a n p = true → inPages 0 memEnd p = true := by
    intro p hp
    simp only [inPages, Bool.and_eq_true, decide_eq_true_eq] at hp ⊢
    omega
  refine List.eq_nil_of_subset_nil (fun p hp => ?_)
  rw [← h]
  rw [deadPages_eq] at hp ⊢
  split at hp
  · rw [if_pos ‹_›]
    rcases List.mem_append.1 hp with hp | hp
    · exact List.mem_append_left _ (retiredPages_mono d hin hp)
    · obtain ⟨h1, h2⟩ := Bool.and_eq_true_iff.1 (List.mem_filter.1 hp).2
      refine List.mem_append_right _ (List.mem_filter.2 ⟨List.mem_map.2 ⟨p, List.mem_range.2 ?_, by omega⟩,
        Bool.and_eq_true_iff.2 ⟨hin p h1, h2⟩⟩)
      have hp := hin p h1
      simp only [inPages, Bool.and_eq_true, decide_eq_true_eq] at hp
      omega
  · rw [if_neg ‹_›]
    exact retiredPages_mono d hin hp

theorem takesBytes_frame {d d' : Deck} (hf : stackFrame d d') (h : takesBytes d) : takesBytes d' := by
  obtain ⟨hu, hb, hp⟩ := h
  exact ⟨(memUp_of_stackFrame hf).trans hu, (memBad_of_stackFrame hf).trans hb, (deadPages_frame hf _ _).trans hp⟩

theorem takesBytes_memWrite {d : Deck} (a n : Nat) (src : Cells) (h : takesBytes d) : takesBytes (memWrite d a n src) := by
  obtain ⟨hu, hb, hp⟩ := h
  refine ⟨?_, memBad_memWrite d a n src hb, (deadPages_memWrite d a n src _ _).trans hp⟩
  rw [memWrite_frame]
  exact hu

/-- The write of one piece of a range by a host. -/
def pieceStore (b : Binding) (bs : List Byte) (errs : List SectorErr) (s : State) (x : Nat × Nat × Nat × Nat) : State :=
  if memUp (deckAt s x.1) then
    modDeck (onDeck s x.1 (eccEdges (hallNs s) x.2.1 x.2.2.2 (hdmErrs b x.1 errs))) x.1
      (fun k => (memWritePartial k x.2.1 ((bs.drop x.2.2.1).take x.2.2.2)).1)
  else s

theorem opCxlWrite_served (s : State) (l : LdRef) (off : Nat) (bs : List Byte) (errs : List SectorErr) (b : Binding)
    (hb : heldBind (ldAt s (ldKey l)) = some b) (hf : hdmFits b off bs.length = true) (hh : hdmHeld s b off bs.length = false) :
    opCxlWrite s l off bs errs = emit ((hdmPieces b off bs.length).foldl (pieceStore b bs errs) s) (.cxlWritten l) := by
  simp only [opCxlWrite, hb, hf, hh, Bool.not_true, Bool.false_eq_true, if_false]
  rfl

section
variable {s : State} (b : Binding) (bs : List Byte) (x : Nat × Nat × Nat × Nat)

theorem pieceStore_decks (hc : memClean s) :
    pieceStore b bs [] s x = { s with decks := (pieceStore b bs [] s x).decks } ∧ memClean (pieceStore b bs [] s x) := by
  unfold pieceStore
  split
  · have ht := touched_eccEdges s x.1 (hallNs s) x.2.1 x.2.2.2 (hc x.1)
    refine ⟨by rw [hdmErrs_nil, modDeck, setDeck, ht.1], fun d => ?_⟩
    by_cases hd : d = x.1
    · subst hd
      rw [deckAt_modDeck]
      exact latent_memWritePartial _ _ _ (memClean_of_touched hc ht _)
    · rw [modDeck, deckAt_setDeck_other _ _ _ _ hd]
      exact memClean_of_touched hc ht d
  · exact ⟨rfl, hc⟩

/-- A piece changes no byte but its own. -/
theorem pieceStore_outside (hc : memClean s) (d a : Nat) (h : d = x.1 → a < x.2.1 ∨ x.2.1 + x.2.2.2 ≤ a) :
    deckByte (pieceStore b bs [] s x) d a = deckByte s d a := by
  unfold pieceStore
  split
  · have ht := touched_eccEdges s x.1 (hallNs s) x.2.1 x.2.2.2 (hc x.1)
    rw [hdmErrs_nil, deckByte, deckByte, ← mem_of_stackFrame (ht.2 d)]
    by_cases hd : d = x.1
    · subst hd
      rw [deckAt_modDeck, memWritePartial_outside]
      rw [List.length_take]
      have := h rfl
      omega
    · rw [modDeck, deckAt_setDeck_other _ _ _ _ hd]
  · rfl

theorem pieceStore_same (hc : memClean s) (h : takesBytes (deckAt s x.1)) :
    ∃ k, stackFrame (deckAt s x.1) k ∧ deckAt (pieceStore b bs [] s x) x.1 =
      memWrite k x.2.1 ((bs.drop x.2.2.1).take x.2.2.2).length (bytesCells ((bs.drop x.2.2.1).take x.2.2.2)) := by
  have ht := touched_eccEdges s x.1 (hallNs s) x.2.1 x.2.2.2 (hc x.1)
  refine ⟨_, ht.2 x.1, ?_⟩
  rw [pieceStore, if_pos h.1, hdmErrs_nil, deckAt_modDeck, memWritePartial_clean _ _ _ (takesBytes_frame (ht.2 x.1) h).2.1]

theorem pieceStore_takes (hc : memClean s) (d : Nat) (h : takesBytes (deckAt s d)) :
    takesBytes (deckAt (pieceStore b bs [] s x) d) := by
  by_cases hd : d = x.1
  · subst hd
    obtain ⟨k, hf, he⟩ := pieceStore_same b bs x hc h
    rw [he]
    exact takesBytes_memWrite _ _ _ (takesBytes_frame hf h)
  · unfold pieceStore
    split
    · rw [modDeck, deckAt_setDeck_other _ _ _ _ hd]
      exact takesBytes_frame ((touched_eccEdges s x.1 _ _ _ (hc x.1)).2 d) h
    · exact h

/-- A piece's bytes arrive where its deck takes them. -/
theorem pieceStore_inside (hc : memClean s) (h : takesBytes (deckAt s x.1)) (hend : x.2.1 + x.2.2.2 ≤ memEnd) (j : Nat)
    (hj : j < x.2.2.2) (hb : x.2.2.1 + x.2.2.2 ≤ bs.length) :
    deckByte (pieceStore b bs [] s x) x.1 (x.2.1 + j) = bs[x.2.2.1 + j]?.getD 0 := by
  obtain ⟨k, hf, he⟩ := pieceStore_same b bs x hc h
  have hl : ((bs.drop x.2.2.1).take x.2.2.2).length = x.2.2.2 := by
    rw [List.length_take, List.length_drop]
    omega
  have hp := deadPages_sub k x.2.1 x.2.2.2 (takesBytes_frame hf h).2.2 hend
  rw [deckByte, he, hl, cellGet_memWrite _ _ _ _ ((memWriteSt_good _ _ _).2 hp), if_pos (by omega), Nat.add_sub_cancel_left,
    cellGet_bytesCells, List.getD_eq_getElem?_getD, List.getElem?_take_of_lt hj, List.getElem?_drop]

end

/-- The pieces of a write, one after the other, change decks alone and leave no error standing. -/
theorem foldl_pieceStore_decks (b : Binding) (bs : List Byte) (ps : List (Nat × Nat × Nat × Nat)) {s : State} (hc : memClean s) :
    ps.foldl (pieceStore b bs []) s = { s with decks := (ps.foldl (pieceStore b bs []) s).decks } ∧
      memClean (ps.foldl (pieceStore b bs []) s) := by
  refine List.foldlRecOn (motive := fun t : State => t = { s with decks := t.decks } ∧ memClean t) _ _ ⟨rfl, hc⟩
    (fun t ht x _ => ?_)
  obtain ⟨he, hc'⟩ := pieceStore_decks b bs x ht.2
  refine ⟨?_, hc'⟩
  rw [he, ht.1]

theorem foldl_pieceStore_outside (b : Binding) (bs : List Byte) (ps : List (Nat × Nat × Nat × Nat)) {s : State} (hc : memClean s)
    (d a : Nat) (h : ∀ x ∈ ps, d = x.1 → a < x.2.1 ∨ x.2.1 + x.2.2.2 ≤ a) :
    deckByte (ps.foldl (pieceStore b bs []) s) d a = deckByte s d a := by
  induction ps generalizing s with
  | nil => rfl
  | cons x rest ih =>
    rw [List.foldl_cons, ih (pieceStore_decks b bs x hc).2 (fun y hy => h y (List.mem_cons_of_mem x hy)),
      pieceStore_outside b bs x hc d a (h x List.mem_cons_self)]

/-- Where every piece that covers byte `a` of deck `d` brings `v` to it, and one covers it or it is `v` already, it holds `v`. -/
theorem foldl_pieceStore_inside (b : Binding) (bs : List Byte) (ps : List (Nat × Nat × Nat × Nat)) {s : State} (hc : memClean s)
    (d a : Nat) (v : Byte) (ht : takesBytes (deckAt s d))
    (hv : ∀ x ∈ ps, x.1 = d → x.2.1 ≤ a → a < x.2.1 + x.2.2.2 →
      x.2.1 + x.2.2.2 ≤ memEnd ∧ x.2.2.1 + x.2.2.2 ≤ bs.length ∧ bs[x.2.2.1 + (a - x.2.1)]?.getD 0 = v)
    (hm : deckByte s d a = v ∨ ∃ x ∈ ps, x.1 = d ∧ x.2.1 ≤ a ∧ a < x.2.1 + x.2.2.2) :
    deckByte (ps.foldl (pieceStore b bs []) s) d a = v := by
  induction ps generalizing s with
  | nil => simpa using hm
  | cons x rest ih =>
    refine ih (pieceStore_decks b bs x hc).2 (pieceStore_takes b bs x hc d ht) (fun y hy => hv y (List.mem_cons_of_mem x hy)) ?_
    by_cases hx : x.1 = d ∧ x.2.1 ≤ a ∧ a < x.2.1 + x.2.2.2
    · obtain ⟨rfl, h1, h2⟩ := hx
      obtain ⟨hend, hlen, he⟩ := hv x List.mem_cons_self rfl h1 h2
      have hi := pieceStore_inside b bs x hc ht hend (a - x.2.1) (by omega) hlen
      rw [Nat.add_sub_cancel' h1, he] at hi
      exact .inl hi
    · rcases hm with hm | ⟨y, hy, hcov⟩
      · refine .inl ((pieceStore_outside b bs x hc d a (fun hd => ?_)).trans hm)
        have : ¬ (x.2.1 ≤ a ∧ a < x.2.1 + x.2.2.2) := fun hh => hx ⟨hd.symm, hh⟩
        omega
      · rcases List.mem_cons.1 hy with rfl | hy
        · exact absurd hcov hx
        · exact .inr ⟨y, hy, hcov⟩

/-! ### Violations (R449) -/

/-- A violation counts one; it changes no deck and takes no output back. -/
theorem violation_spec (s : State) (k : Nat) :
    (violation s k).decks = s.decks ∧ (∀ o ∈ s.out, o ∈ (violation s k).out) ∧
      (ldAt (violation s k) k).viol = satInc (ldAt s k).viol := by
  simp only [violation]
  split
  · refine ⟨rfl, fun o ho => List.mem_cons_of_mem _ ho, ?_⟩
    simp [pldmEvent, modLd, emit, setLd, ldAt]
  · exact ⟨rfl, fun o ho => ho, by simp⟩

/-! ### O39 -/

theorem cxlMemRead_unbound (s : State) (l : LdRef) (off n : Nat) (hb : heldBind (ldAt s (ldKey l)) = none) :
    ∃ t, exec (.cxlMemRead l off n []) s = .next t ∧ t.decks = s.decks ∧
      .cxlData l [] (rangeSectors off n) ∈ t.out ∧ (ldAt t (ldKey l)).viol = satInc (ldAt s (ldKey l)).viol := by
  obtain ⟨hd, ho, hv⟩ := violation_spec (emit s (.cxlData l [] (rangeSectors off n))) (ldKey l)
  exact ⟨opCxlRead s l off n [], rfl, by rw [opCxlRead, hb]; exact hd, by rw [opCxlRead, hb]; exact ho _ List.mem_cons_self,
    by rw [opCxlRead, hb]; exact hv⟩

theorem cxlMemWrite_unbound (s : State) (l : LdRef) (off : Nat) (bs : List Byte) (hb : heldBind (ldAt s (ldKey l)) = none) :
    ∃ t, exec (.cxlMemWrite l off bs []) s = .next t ∧ t.decks = s.decks ∧
      (ldAt t (ldKey l)).viol = satInc (ldAt s (ldKey l)).viol := by
  obtain ⟨hd, -, hv⟩ := violation_spec s (ldKey l)
  exact ⟨opCxlWrite s l off bs [], rfl, by rw [opCxlWrite, hb]; exact hd, by rw [opCxlWrite, hb]; exact hv⟩

/-- The read that is served: no byte changes, and the data is the decks' bytes. -/
theorem cxlMemRead_served (s : State) (l : LdRef) (off n : Nat) (b : Binding) (hb : heldBind (ldAt s (ldKey l)) = some b)
    (hc : memClean s) (hh : hdmHeld s b off n = false) (hf : hdmFits b off n = true) :
    ∃ t data poison, exec (.cxlMemRead l off n []) s = .next t ∧
      t = { s with decks := t.decks, out := .cxlData l data poison :: s.out } ∧ (∀ d a, deckByte t d a = deckByte s d a) ∧
      ∀ i d a, i < n → hdmAt b (off + i) = some (d, a) →
        (memUp (deckAt s d) = true → memReadOk (deckAt s d) (a / 32 * 32) 32 = true → cellGet data i = deckByte s d a ∧
          (off + i) / 32 ∉ poison) ∧
        (memUp (deckAt s d) = false ∨ memReadOk (deckAt s d) (a / 32 * 32) 32 = false → (off + i) / 32 ∈ poison) := by
  have ht := touched_hdmEcc s b off n hc
  have hbyte : ∀ d a, deckByte (hdmEcc s b off n []) d a = deckByte s d a := fun d a => by
    rw [deckByte, deckByte, mem_of_stackFrame (ht.2 d)]
  refine ⟨_, hdmLive (hdmEcc s b off n []) b off n, hdmDead (hdmEcc s b off n []) b off n,
    congrArg Host.Outcome.next (opCxlRead_served s l off n [] b hb hf hh), ?_, hbyte, fun i d a hi hat => ?_⟩
  · rw [ht.1]
    rfl
  · have hdead := mem_hdmDead (hdmEcc s b off n []) b hi hat
    rw [memUp_of_stackFrame (ht.2 d), memReadOk_frame (ht.2 d)] at hdead
    refine ⟨fun hu hr => ?_, hdead.2⟩
    have hnot : (off + i) / 32 ∉ hdmDead (hdmEcc s b off n []) b off n := by
      rw [hdead, hu, hr]
      decide
    exact ⟨(cellGet_hdmLive _ b hnot).trans ((cellGet_hdmData _ b hi hat).trans (hbyte d a)), hnot⟩

/-- The write that is served: the bytes R55 names, and no other. -/
theorem cxlMemWrite_served (s : State) (l : LdRef) (off : Nat) (bs : List Byte) (b : Binding)
    (hb : heldBind (ldAt s (ldKey l)) = some b) (hc : memClean s) (hh : hdmHeld s b off bs.length = false)
    (hf : hdmFits b off bs.length = true) :
    ∃ t, exec (.cxlMemWrite l off bs []) s = .next t ∧ t = { s with decks := t.decks, out := .cxlWritten l :: s.out } ∧
      (∀ d a, (∀ i, i < bs.length → hdmAt b (off + i) ≠ some (d, a)) → deckByte t d a = deckByte s d a) ∧
      ∀ i d a, i < bs.length → hdmAt b (off + i) = some (d, a) → memUp (deckAt s d) = true → (deckAt s d).memBad = [] →
        deadPages (deckAt s d) 0 memEnd = [] → deckByte t d a = bs[i]?.getD 0 := by
  refine ⟨_, congrArg Host.Outcome.next (opCxlWrite_served s l off bs [] b hb hf hh), ?_, fun d a hno => ?_,
    fun i d a hi hat hu hbad hdead => ?_⟩
  · rw [(foldl_pieceStore_decks b bs (hdmPieces b off bs.length) hc).1]
    rfl
  · refine foldl_pieceStore_outside b bs _ hc d a (fun x hx hd => ?_)
    obtain ⟨k, hk⟩ := hdmPieces_isPiece hx
    by_contra hin
    have hat := hdmAt_of_isPiece hk (j := a - x.2.1) (by omega)
    obtain ⟨-, -, -, hlen, -⟩ := hk
    refine hno (x.2.2.1 + (a - x.2.1)) (by omega) ?_
    rw [← Nat.add_assoc, hat, hd, Nat.add_sub_cancel' (by omega)]
  · have hplace : ∀ x ∈ hdmPieces b off bs.length, x.1 = d → x.2.1 ≤ a → a < x.2.1 + x.2.2.2 → x.2.2.1 + (a - x.2.1) = i := by
      intro x hx hd h1 h2
      obtain ⟨k, hk⟩ := hdmPieces_isPiece hx
      have hat' := hdmAt_of_isPiece hk (j := a - x.2.1) (by omega)
      rw [hd, Nat.add_sub_cancel' h1, Nat.add_assoc] at hat'
      exact Nat.add_left_cancel (hdmAt_inj hat' hat)
    refine foldl_pieceStore_inside b bs _ hc d a _ ⟨hu, hbad, hdead⟩ (fun x hx hd h1 h2 => ?_) (.inr ?_)
    · obtain ⟨k, -, -, -, hlen, hend⟩ := hdmPieces_isPiece hx
      exact ⟨hend, hlen, by rw [hplace x hx hd h1 h2]⟩
    · obtain ⟨x, hx, hd, h1, h2⟩ := hdmPieces_cover hi hat
      obtain ⟨k, hk⟩ := hdmPieces_isPiece hx
      have hat' := hdmAt_of_isPiece hk (j := i - x.2.2.1) (by omega)
      rw [show off + x.2.2.1 + (i - x.2.2.1) = off + i by omega, hat] at hat'
      have ha := (Prod.mk.inj (Option.some.inj hat')).2
      exact ⟨x, hx, hd, by omega, by omega⟩

/-- Settles O39: an access is refused, waits, or is served piece by piece. -/
theorem hostMemoryAccesses : Obligations.HostMemoryAccesses := by
  intro s l off
  refine ⟨fun hb => ⟨fun n => cxlMemRead_unbound s l off n hb, fun bs => cxlMemWrite_unbound s l off bs hb⟩, fun b hb => ?_⟩
  refine ⟨fun n hf => ?_, fun bs hf => ?_, fun n errs hf hh => ?_, fun bs errs hf hh => ?_,
    fun n hc hh hf => cxlMemRead_served s l off n b hb hc hh hf, fun bs hc hh hf => cxlMemWrite_served s l off bs b hb hc hh hf⟩
  · show Host.Outcome.next (opCxlRead s l off n []) = _
    rw [opCxlRead, hb]
    simp [hf, emit]
  · show Host.Outcome.next (opCxlWrite s l off bs []) = _
    rw [opCxlWrite, hb]
    simp [hf]
  · show Host.Outcome.next (opCxlRead s l off n errs) = _
    rw [opCxlRead, hb]
    simp [hf, hh, holdAccess]
  · show Host.Outcome.next (opCxlWrite s l off bs errs) = _
    rw [opCxlWrite, hb]
    simp [hf, hh, holdAccess]

end Sys2Proof.Machine
end


section
/-! SUPPORT. Replies at the requester and its timers (O37): the pump of an empty mover, the end of a transfer with a completion
object, the one request that a fenced release sends. -/
namespace Sys2Proof.Machine
open Sys2Proof

/-! ### The mover's pump -/

/-- Where every entry of the mover has started and none gives a result, nothing starts. -/
theorem pumpFuel_started (env : CoreEnv) (fuel : Nat) (d : Deck) (i : Nat) (h : ∀ e ∈ (coreAt d i).xq, e.started = true) :
    pumpFuel env fuel d i = (d, []) := by
  cases fuel with
  | zero => rfl
  | succ k =>
    have hn : (coreAt d i).xq.find? (fun e => !e.started) = none := by
      rw [List.find?_eq_none]
      intro e he
      simp [h e he]
    simp only [pumpFuel, hn]

/-- The pump of an empty mover does nothing. -/
theorem pump_empty (env : CoreEnv) (d : Deck) (i : Nat) (h : (coreAt d i).xq = []) : pump env d i = (d, []) := by
  have hd : deliverRead d i = d := by simp only [deliverRead, h]
  rw [pump, hd]
  exact pumpFuel_started env 32 d i (by simp [h])

/-! ### The end of a transfer with a completion object -/

/-- What a transfer's end does to its completion object (R135). -/
def endUpd (o : BitVec 12) (amt : BitVec 16) (st : Status) : ObjUpd :=
  if st = stGood then .signal o.toNat (amt.setWidth 32) else .poison o.toNat st false

theorem endUpd_obj (o : BitVec 12) (amt : BitVec 16) (st : Status) : (endUpd o amt st).obj = o.toNat := by
  unfold endUpd
  split <;> rfl

theorem settleEnd_objs (d : Deck) (i : Nat) : (settleEnd d i).objs = d.objs := by
  simp only [settleEnd]
  split <;> rfl

/-- A transfer with a completion object that nobody waits on ends with one update of that object, and asks for nothing. -/
theorem endTransfer_quiet (d : Deck) (i : Nat) (e : MovEntry) (st : Status) (o : BitVec 12) (ho : e.cobj = some o)
    (hw : objWaited d o.toNat = false) :
    endTransfer d i e st = (settleEnd (objUpdate (dropTransfer d i e) (endUpd o e.amt st)) i, []) := by
  have hq : objWaited (dropTransfer d i e) (endUpd o e.amt st).obj = false := by
    rw [endUpd_obj]
    exact hw
  have hs := settle_quiet (dropTransfer d i e) (endUpd o e.amt st) hq
  have hr : (if st = stGood then signalObj (dropTransfer d i e) o e.amt else poisonObj (dropTransfer d i e) o st) =
      settle (dropTransfer d i e) [endUpd o e.amt st] := by
    unfold endUpd
    split <;> rfl
  have hend : endTransfer d i e st =
      (settleEnd (if st = stGood then signalObj (dropTransfer d i e) o e.amt else poisonObj (dropTransfer d i e) o st).1 i,
        (if st = stGood then signalObj (dropTransfer d i e) o e.amt else poisonObj (dropTransfer d i e) o st).2) := by
    simp only [endTransfer, ho]
    rfl
  rw [hend, hr, hs]

/-- The completion object after its transfer's end: signalled by AMT, or poisoned (R135). -/
def endedObj (d d' : Deck) (o : Nat) (amt : BitVec 16) (st : Status) : Prop :=
  (st = 0 → (objAt d o).count.toNat + amt.toNat < 2 ^ 32 → (objAt d' o).count.toNat = (objAt d o).count.toNat + amt.toNat) ∧
    (st ≠ 0 → (objAt d' o).poison = true)

theorem endedObj_objUpdate (d : Deck) (i : Nat) (o : BitVec 12) (amt : BitVec 16) (st : Status) (ha : objAlloc d o.toNat = true) :
    endedObj d (settleEnd (objUpdate d (endUpd o amt st)) i) o.toNat amt st := by
  have he : objAt (settleEnd (objUpdate d (endUpd o amt st)) i) o.toNat = objAt (objUpdate d (endUpd o amt st)) o.toNat := by
    rw [objAt, settleEnd_objs, objAt]
  unfold endedObj
  rw [he]
  refine ⟨fun h0 hv => ?_, fun h0 => ?_⟩
  · have hamt : (amt.setWidth 32).toNat = amt.toNat := by
      rw [BitVec.toNat_setWidth]
      have := amt.isLt
      omega
    rw [endUpd, if_pos h0, objCount_signal d o.toNat _ ha (by rw [hamt]; exact hv), BitVec.toNat_add, hamt, Nat.mod_eq_of_lt hv]
  · rw [endUpd, if_neg h0]
    have hu := objAt_objUpdate d (.poison o.toNat st false) ha
    rw [show (ObjUpd.poison o.toNat st false).obj = o.toNat from rfl] at hu
    rw [hu]
    simp only [updWord]

/-- The mover entry whose last outstanding request ends with `st`. -/
def lastReply (e : MovEntry) (st : Status) : MovEntry := { e with rest := 0, err := st }

/-- The core whose only transfer gets its last reply, for request `t`. -/
def lastReplyCore (c : Core) (e : MovEntry) (t : Nat) (st : Status) : Core :=
  { c with txns := mapSet none c.txns t none, xq := [lastReply e st] }

/-- The last reply of a core's only transfer ends it: its object gets its update, and nothing is asked for. -/
theorem endRequest_last (env : CoreEnv) (d : Deck) (i t : Nat) (st : Status) (x : TxnRec) (e : MovEntry) (o : BitVec 12)
    (hx : mapGet none (coreAt d i).txns t = some x) (hq : (coreAt d i).xq = [e]) (hs : e.seq = x.seq) (hr : e.rest = 1)
    (he : e.err = 0) (hop : e.op ≠ opSYNCRD) (ho : e.cobj = some o) (ha : objAlloc d o.toNat = true)
    (hw : objWaited d o.toNat = false) :
    ∃ d', endRequest env d i t st = (d', []) ∧ (coreAt d' i).xq = [] ∧ endedObj d d' o.toNat e.amt st := by
  let d1 := setCore d i (lastReplyCore (coreAt d i) e t st)
  have hmod : movMod { coreAt d i with txns := mapSet none (coreAt d i).txns t none } x.seq
      (fun e => { e with rest := e.rest - 1, err := if e.err = 0 then st else e.err }) = lastReplyCore (coreAt d i) e t st := by
    simp only [movMod, hq, List.map_cons, List.map_nil, if_pos hs, hr, if_pos he]
    rfl
  have hat : movAt (lastReplyCore (coreAt d i) e t st) x.seq = some (lastReply e st) := movAt_one _ (lastReply e st) _ rfl hs
  have hknown : errorKnown d1 i (lastReply e st) st = d1 := if_pos (.inr (by simp [lastReply, ho]))
  have hend := endTransfer_quiet d1 i (lastReply e st) st o ho hw
  have hempty : (coreAt (endTransfer d1 i (lastReply e st) st).1 i).xq = [] :=
    endTransfer_xq d1 i (lastReply e st) st (by rw [coreAt_setCore]; rfl)
  refine ⟨(endTransfer d1 i (lastReply e st) st).1, ?_, hempty, ?_⟩
  · have hnext : (if (lastReply e st).rest = 0 ∧ (lastReply e st).op ≠ opSYNCRD then endTransfer d1 i (lastReply e st) (lastReply e st).err
        else if (lastReply e st).rest = 0 ∧ (lastReply e st).err ≠ 0 then endTransfer d1 i (lastReply e st) (lastReply e st).err
        else (d1, [])) = endTransfer d1 i (lastReply e st) st := if_pos ⟨rfl, hop⟩
    simp only [endRequest, hx, hmod, hat]
    rw [show setCore d i (lastReplyCore (coreAt d i) e t st) = d1 from rfl, hknown, hnext, pump_empty _ _ _ hempty, hend]
    rfl
  · rw [hend]
    exact endedObj_objUpdate (dropTransfer d1 i (lastReply e st)) i o e.amt st ha

/-! ### PKT_ACK and PKT_DATA -/

/-- An ACK for this module is taken (R359, R361). -/
theorem exec_pktAck (s : State) (pk : Packet) (hc : pk.cls = .p) (ht : pk.type = 0) (hd : pk.dst = ownModule s) :
    exec (.pktAck pk) s = .next (opAck s pk) := congrArg done (onPacket_here s pk .p 0 _ hc ht hd)

theorem exec_pktData (s : State) (pk : Packet) (hc : pk.cls = .p) (ht : pk.type = 1) (hd : pk.dst = ownModule s) :
    exec (.pktData pk) s = .next (opData s pk) := congrArg done (onPacket_here s pk .p 1 _ hc ht hd)

section
variable (s : State) (pk : Packet)

/-- A reply that no request awaits, with no context in quarantine, is counted alone. -/
theorem lateReply_live (h : ∀ e ∈ (deckAt s pk.dstDeck.toNat).ctxs, e.2.life ≠ .quarantine) :
    lateReply s pk = modNet s (fun n => { n with lateReply := satInc n.lateReply }) := by
  have hn : (deckAt s pk.dstDeck.toNat).ctxs.any (fun e =>
      decide (e.2.life = .quarantine) && e.2.retired.contains (pk.srcCore.toNat, pk.txn.toNat)) = false := by
    rw [List.any_eq_false]
    intro e he
    simp [h e he]
  exact if_neg (by rw [Bool.not_eq_true]; exact hn)

variable (hu : memUp (deckAt s pk.dstDeck.toNat) = true)
include hu

theorem opAck_unbound (hf : pk.srcCore ≠ 0xFFF) (hb : replyBound s pk = false) :
    opAck s pk = refuseReply (takeArrived s pk) := by
  have hu' : memUp (deckAt (takeArrived s pk) pk.dstDeck.toNat) = true := hu
  have hb' : replyBound (takeArrived s pk) pk = false := hb
  simp only [opAck, if_neg hf, hu', hb', Bool.not_true, Bool.not_false, Bool.false_eq_true, if_false, if_true]

theorem opData_unbound (hb : replyBound s pk = false) : opData s pk = refuseReply (takeArrived s pk) := by
  have hu' : memUp (deckAt (takeArrived s pk) pk.dstDeck.toNat) = true := hu
  have hb' : replyBound (takeArrived s pk) pk = false := hb
  simp only [opData, hu', hb', Bool.not_true, Bool.not_false, Bool.false_eq_true, if_false, if_true]

variable (hb : replyBound s pk = true)
include hb

/-- An ACK for a deck that holds its tag acts by the request that it names. -/
theorem opAck_bound (hf : pk.srcCore ≠ 0xFFF) : opAck s pk =
    match mapGet none (coreAt (deckAt s pk.dstDeck.toNat) pk.srcCore.toNat).txns pk.txn.toNat with
    | none => lateReply (takeArrived s pk) pk
    | some x =>
      if pk.retry then modDeck (takeArrived s pk) pk.dstDeck.toNat (fun k => modCore k pk.srcCore.toNat (fun c => { c with
        txns := mapSet none c.txns pk.txn.toNat (some { x with retry := true, retryAt := clockNs s }) }))
      else onDeck (takeArrived s pk) pk.dstDeck.toNat
        (fun k => endRequest (coreEnv s pk.dstDeck.toNat) k pk.srcCore.toNat pk.txn.toNat pk.status) := by
  have hu' : memUp (deckAt (takeArrived s pk) pk.dstDeck.toNat) = true := hu
  have hb' : replyBound (takeArrived s pk) pk = true := hb
  simp only [opAck, if_neg hf, hu', hb', Bool.not_true, Bool.false_eq_true, if_false]
  rfl

theorem opData_late (hl : ∀ e ∈ (deckAt s pk.dstDeck.toNat).ctxs, e.2.life ≠ .quarantine)
    (hn : mapGet none (coreAt (deckAt s pk.dstDeck.toNat) pk.srcCore.toNat).txns pk.txn.toNat = none) :
    opData s pk = modNet (takeArrived s pk) (fun n => { n with lateReply := satInc n.lateReply }) := by
  have hu' : memUp (deckAt (takeArrived s pk) pk.dstDeck.toNat) = true := hu
  have hb' : replyBound (takeArrived s pk) pk = true := hb
  have hn' : mapGet none (coreAt (deckAt (takeArrived s pk) pk.dstDeck.toNat) pk.srcCore.toNat).txns pk.txn.toNat = none := hn
  simp only [opData, hu', hb', hn', Bool.not_true, Bool.false_eq_true, if_false]
  exact lateReply_live (takeArrived s pk) pk hl

/-- A DATA packet of a GET that is not its last, into stack memory that takes it: the bytes, and one packet fewer to come. -/
theorem opData_stored (x : TxnRec) (e : MovEntry)
    (hx : mapGet none (coreAt (deckAt s pk.dstDeck.toNat) pk.srcCore.toNat).txns pk.txn.toNat = some x) (hl : 2 ≤ x.left)
    (he : movAt (coreAt (deckAt s pk.dstDeck.toNat) pk.srcCore.toNat) x.seq = some e) (hop : e.op = opGET) (hs : pk.status = stGood)
    (hp : placeOf (coreEnv s pk.dstDeck.toNat) (e.dst.toNat + pk.offset.toNat) pk.len = .stack)
    (hw : memWriteSt (deckAt s pk.dstDeck.toNat) (e.dst.toNat + pk.offset.toNat) pk.len = stGood) :
    opData s pk = setDeck (takeArrived s pk) pk.dstDeck.toNat
      (modCore (memWrite (deckAt s pk.dstDeck.toNat) (e.dst.toNat + pk.offset.toNat) pk.len pk.payload) pk.srcCore.toNat
        (fun c => { c with txns := mapSet none c.txns pk.txn.toNat (some { x with left := x.left - 1 }) })) := by
  have hu' : memUp (deckAt (takeArrived s pk) pk.dstDeck.toNat) = true := hu
  have hb' : replyBound (takeArrived s pk) pk = true := hb
  have hx' : mapGet none (coreAt (deckAt (takeArrived s pk) pk.dstDeck.toNat) pk.srcCore.toNat).txns pk.txn.toNat = some x := hx
  have he' : movAt (coreAt (deckAt (takeArrived s pk) pk.dstDeck.toNat) pk.srcCore.toNat) x.seq = some e := he
  have hop' : ¬ opGET = opSYNCRD := by decide
  have hl' : ¬ x.left ≤ 1 := by omega
  have hstore : storeData (coreEnv s pk.dstDeck.toNat) e pk pk.srcCore.toNat (deckAt s pk.dstDeck.toNat) =
      (memWrite (deckAt s pk.dstDeck.toNat) (e.dst.toNat + pk.offset.toNat) pk.len pk.payload, []) := by
    simp only [storeData, writeSt, writeDeck, hp, hw, if_true]
  simp only [opData, hu', hb', hx', he', hop, hop', hs, hl', Bool.not_true, Bool.false_eq_true, if_false, ne_eq, not_true_eq_false]
  refine onDeck_pure (takeArrived s pk) pk.dstDeck.toNat _ _ ?_
  show thenDeck (storeData (coreEnv s pk.dstDeck.toNat) e pk pk.srcCore.toNat (deckAt s pk.dstDeck.toNat)) _ = _
  rw [hstore]
  rfl

end

end Sys2Proof.Machine
end


section
/-! SUPPORT. The requester's timers, notices, class S, and the packets a core may send (O37). -/
namespace Sys2Proof.Machine
open Sys2Proof

/-! ### What a core has sent -/

/-- Only what a core's mover and its outstanding requests hold differs. -/
def sentFrame (c c' : Core) : Prop :=
  c' = { c with xq := c'.xq, txns := c'.txns, nextTxn := c'.nextTxn, wins := c'.wins, winEpoch := c'.winEpoch, winOpened := c'.winOpened }

theorem sentFrame_trans {a b c : Core} (h1 : sentFrame a b) (h2 : sentFrame b c) : sentFrame a c := by
  unfold sentFrame at *
  rw [h2, h1]

theorem sameRegs_of_sentFrame {c c' : Core} (h : sentFrame c c') : sameRegs c c' := by
  unfold sentFrame at h
  rw [h]
  exact ⟨rfl, rfl, rfl, rfl, rfl, rfl, rfl, rfl, rfl, rfl, rfl⟩

/-- Fence fields keep the destination and set F as asked; the core keeps all but its windows. -/
theorem trackPlain_spec (env : CoreEnv) (m : BitVec 17) (p : Packet) (c : Core) :
    (trackPlain env m p c).1.dst = p.dst ∧ (trackPlain env m p c).1.f = p.f ∧ sentFrame c (trackPlain env m p c).2 ∧
      (trackPlain env m p c).2.xq = c.xq := by
  unfold trackPlain
  split
  · exact ⟨rfl, rfl, rfl, rfl⟩
  · split <;> exact ⟨rfl, rfl, rfl, rfl⟩

theorem trackFenced_spec (env : CoreEnv) (m : BitVec 17) (p : Packet) (c : Core) :
    (trackFenced env m p c).1.dst = p.dst ∧ (trackFenced env m p c).1.f = true ∧ sentFrame c (trackFenced env m p c).2 ∧
      (trackFenced env m p c).2.xq = c.xq := by
  simp only [trackFenced]
  split <;> exact ⟨rfl, rfl, rfl, rfl⟩

theorem sendPacket_spec (env : CoreEnv) (seq left : Nat) (fenced : Bool) (p : Packet) (c : Core) (hf : p.f = false) :
    (sendPacket env seq left fenced p c).1.dst = p.dst ∧ (sendPacket env seq left fenced p c).1.f = fenced ∧
      sentFrame c (sendPacket env seq left fenced p c).2 ∧ (sendPacket env seq left fenced p c).2.xq = c.xq := by
  cases fenced <;> simp only [sendPacket, Bool.false_eq_true, if_false, if_true] <;> generalize freeTxn _ = t
  · obtain ⟨h1, h2, h3, h4⟩ := trackPlain_spec env p.dst p c
    exact ⟨h1, h2.trans hf, sentFrame_trans h3 rfl, h4⟩
  · obtain ⟨h1, h2, h3, h4⟩ := trackFenced_spec env p.dst p c
    exact ⟨h1, h2, sentFrame_trans h3 rfl, h4⟩

/-- A remote GET, SIG or SYNCRD sends one packet to its target, fenced as asked, and stands in the mover as started. -/
theorem startRemote_one (env : CoreEnv) (d : Deck) (i : Nat) (e : MovEntry) (h : e.op ≠ opPUT ∧ e.op ≠ opATOM)
    (hq : (coreAt d i).xq = [e]) :
    ∃ q : Packet, ∃ d', startRemote env d i e = (queuePackets env d' [q], []) ∧ q.dst = e.target ∧ q.f = e.f ∧ d'.txq = d.txq ∧
      sentFrame (coreAt d i) (coreAt d' i) ∧ ∀ x ∈ (coreAt d' i).xq, x.started = true := by
  have hop : ¬ (e.op = opPUT ∨ e.op = opATOM) := fun hh => hh.elim h.1 h.2
  have sends : ∀ (left : Nat) (p : Packet), p.dst = e.target → p.f = false →
      let q := sendPacket env e.seq left e.f p (coreAt d i)
      let d1 := modCore (setCore d i q.2) i (fun c => movMod c e.seq (fun x => { x with started := true, sent := 1, rest := 1 }))
      ∃ q' : Packet, ∃ d', (queuePackets env d1 [q.1], ([] : List DeckEff)) = (queuePackets env d' [q'], []) ∧ q'.dst = e.target ∧
        q'.f = e.f ∧ d'.txq = d.txq ∧ sentFrame (coreAt d i) (coreAt d' i) ∧ ∀ x ∈ (coreAt d' i).xq, x.started = true := by
    intro left p hdst hf
    obtain ⟨h1, h2, h3, h4⟩ := sendPacket_spec env e.seq left e.f p (coreAt d i) hf
    refine ⟨_, _, rfl, h1.trans hdst, h2, rfl, ?_, fun x hx => ?_⟩
    · rw [modCore, coreAt_setCore, coreAt_setCore]
      exact sentFrame_trans h3 rfl
    · rw [modCore, coreAt_setCore, coreAt_setCore] at hx
      simp only [movMod, h4, hq, List.map_cons, List.map_nil, if_true, List.mem_singleton] at hx
      rw [hx]
  simp only [startRemote, if_neg hop]
  refine sends _ _ ?_ ?_
  · split
    · rfl
    · split <;> rfl
  · split
    · rfl
    · split <;> rfl

/-- The release of fenced sends, where one remote request stands alone and can go. -/
theorem pump_sends (env : CoreEnv) (d : Deck) (i : Nat) (e : MovEntry) (h : e.op ≠ opPUT ∧ e.op ≠ opATOM) (hq : (coreAt d i).xq = [e])
    (hs : e.started = false) (hv : e.value = none) (hr : e.remote = true) (hc : canStart env (coreAt d i) e = true) :
    ∃ q : Packet, ∃ d', pump env d i = (queuePackets env d' [q], []) ∧ q.dst = e.target ∧ q.f = e.f ∧ d'.txq = d.txq ∧
      sentFrame (coreAt d i) (coreAt d' i) := by
  obtain ⟨q, d', hstart, hdst, hf, htxq, hframe, hall⟩ := startRemote_one env d i e h hq
  refine ⟨q, d', ?_, hdst, hf, htxq, hframe⟩
  have hd : deliverRead d i = d := by simp only [deliverRead, hq, hv]
  have hfind : (coreAt d i).xq.find? (fun e => !e.started) = some e := by simp [hq, hs]
  have hheld : sourceHeld env d e = false := by
    simp only [sourceHeld, beq_eq_false_iff_ne.2 h.1, beq_eq_false_iff_ne.2 h.2, Bool.or_self, Bool.and_false, Bool.false_and]
  have hrest : pumpFuel env 31 (queuePackets env d' [q]) i = (queuePackets env d' [q], []) := pumpFuel_started env 31 _ i hall
  rw [pump, hd, pumpFuel]
  simp only [hfind, hc, hheld, hr, Bool.not_false, Bool.and_true, if_true, hstart, hrest, List.append_nil]

/-! ### The requester's timers -/

theorem exec_retryResend (s : State) (c : CoreRef) (txn : BitVec 16) (x : TxnRec)
    (hx : mapGet none (coreOf s c).txns txn.toNat = some x) (hr : x.retry = true) (ht : x.retryAt + 2000 ≤ clockNs s) :
    ∃ t, exec (.retryResend c txn) s = .next t ∧ onlyDeck s t c.deck ∧
      (deckAt t c.deck).txq = (deckAt s c.deck).txq ++ [{ pk := x.packet, since := clockNs s }] ∧
      mapGet none (coreOf t c).txns txn.toNat = some { x with retry := false, sentAt := clockNs s } := by
  have he : opRetryResend (coreEnv s c.deck) (deckAt s c.deck) c.core txn.toNat =
      queuePackets (coreEnv s c.deck) (setCore (deckAt s c.deck) c.core { coreOf s c with
        txns := mapSet none (coreOf s c).txns txn.toNat (some { x with retry := false, sentAt := clockNs s }) }) [x.packet] := by
    have hx' : mapGet none (coreAt (deckAt s c.deck) c.core).txns txn.toNat = some x := hx
    have hc : x.retryAt + 2000 ≤ (coreEnv s c.deck).clock := ht
    simp only [opRetryResend, hx', hr, decide_eq_true hc, Bool.and_true, if_true]
    rfl
  refine ⟨_, rfl, modDeck_onlyDeck s c.deck _, ?_, ?_⟩
  · rw [deckAt_modDeck, he]
    rfl
  · rw [coreOf, deckAt_modDeck, he]
    show mapGet none (coreAt (setCore _ _ _) c.core).txns txn.toNat = _
    rw [coreAt_setCore]
    exact mapGet_set_same (none : Option TxnRec) (coreOf s c).txns txn.toNat (some { x with retry := false, sentAt := clockNs s })

theorem exec_requestTimeout (s : State) (c : CoreRef) (txn : BitVec 16) (x : TxnRec) (e : MovEntry) (o : BitVec 12)
    (hx : mapGet none (coreOf s c).txns txn.toNat = some x) (ht : x.sentAt + 1000 * s.net.reqTimeoutUs.toNat ≤ clockNs s)
    (hq : (coreOf s c).xq = [e]) (hs : e.seq = x.seq) (hr : e.rest = 1) (he : e.err = 0) (ho : e.cobj = some o)
    (hop : e.op ≠ opSYNCRD) (ha : objAlloc (deckAt s c.deck) o.toNat = true) (hw : objWaited (deckAt s c.deck) o.toNat = false) :
    ∃ t, exec (.requestTimeout c txn) s = .next t ∧ (coreOf t c).xq = [] ∧ (objAt (deckAt t c.deck) o.toNat).poison = true := by
  obtain ⟨d', hd, hempty, hend⟩ := endRequest_last (coreEnv s c.deck) (deckAt s c.deck) c.core txn.toNat stLinkLost x e o hx hq hs hr he
    hop ho ha hw
  have hrun : opRequestTimeout (coreEnv s c.deck) (deckAt s c.deck) c.core txn.toNat = (d', []) := by
    have hx' : mapGet none (coreAt (deckAt s c.deck) c.core).txns txn.toNat = some x := hx
    simp only [opRequestTimeout, hx']
    exact (if_pos ht).trans hd
  refine ⟨setDeck s c.deck d', congrArg done (onDeck_pure s c.deck _ d' hrun), ?_, ?_⟩
  · rw [coreOf, deckAt_setDeck]
    exact hempty
  · rw [deckAt_setDeck]
    exact hend.2 (by decide)

theorem exec_fenceWindowAbandon (s : State) (c : CoreRef) (dst : BitVec 17) (w : SendWin) (hq : (coreOf s c).xq = [])
    (hw : winAt (coreOf s c) dst = some w) (ht : w.last + 1000000 ≤ clockNs s) :
    ∃ t, exec (.fenceWindowAbandon c dst) s = .next t ∧ onlyDeck s t c.deck ∧ mapGet none (coreOf t c).wins dst.toNat = none ∧
      sameRegs (coreOf s c) (coreOf t c) := by
  let d' := setCore (deckAt s c.deck) c.core (setWin (coreOf s c) dst none)
  have hrun : opWindowAbandon (coreEnv s c.deck) (deckAt s c.deck) c.core dst = (d', []) := by
    have hw' : winAt (coreAt (deckAt s c.deck) c.core) dst = some w := hw
    simp only [opWindowAbandon, hw']
    refine (if_pos ht).trans (pump_empty _ _ _ ?_)
    rw [modCore, coreAt_setCore]
    exact hq
  refine ⟨setDeck s c.deck d', congrArg done (onDeck_pure s c.deck _ d' hrun), setDeck_onlyDeck s _ _, ?_, ?_⟩
  · rw [coreOf, deckAt_setDeck, coreAt_setCore]
    exact mapGet_set_same (none : Option SendWin) (coreOf s c).wins dst.toNat none
  · rw [coreOf, coreOf, deckAt_setDeck, coreAt_setCore]
    exact sameRegs_of_sentFrame rfl

theorem exec_fencedSendRelease (s : State) (c : CoreRef) (e : MovEntry) (h : e.op ≠ opPUT ∧ e.op ≠ opATOM)
    (hq : (coreOf s c).xq = [e]) (hs : e.started = false) (hv : e.value = none) (hr : e.remote = true)
    (hc : canStart (coreEnv s c.deck) (coreOf s c) e = true) :
    ∃ t, exec (.fencedSendRelease c) s = .next t ∧ onlyDeck s t c.deck ∧ sameRegs (coreOf s c) (coreOf t c) ∧
      ∃ q : Packet, (deckAt t c.deck).txq = (deckAt s c.deck).txq ++ [{ pk := q, since := clockNs s }] ∧ q.dst = e.target ∧ q.f = e.f := by
  obtain ⟨q, k, hrun, hdst, hf, htxq, hframe⟩ := pump_sends (coreEnv s c.deck) (deckAt s c.deck) c.core e h hq hs hv hr hc
  refine ⟨_, congrArg done (onDeck_pure s c.deck (fun d => opFencedRelease (coreEnv s c.deck) d c.core) _ hrun),
    setDeck_onlyDeck s _ _, ?_, q, ?_, hdst, hf⟩
  · rw [coreOf, coreOf, deckAt_setDeck]
    exact sameRegs_of_sentFrame hframe
  · rw [deckAt_setDeck, queuePackets, htxq]
    rfl

/-! ### Notices -/

theorem exec_pktVacancy_quiet (s : State) (p : Fin 9) (pk : Packet) (hc : pk.cls = .m) (ht : pk.type = 0) (hd : pk.dst = ownModule s)
    (hr : pk.reason = 0 ∨ pk.reason = 4) : exec (.pktVacancy p pk) s = .next (modPort (takeArrived s pk) p
      (fun q => { q with tt := { q.tt with vacantRecv := satInc q.tt.vacantRecv } })) := by
  have hv : vacancyStatus pk.reason = none := if_pos hr
  have he : opVacancy s p pk = modPort (takeArrived s pk) p (fun q => { q with tt := { q.tt with vacantRecv := satInc q.tt.vacantRecv } }) := by
    simp only [opVacancy, hv]
  exact congrArg done ((onPacket_here s pk .m 0 _ hc ht hd).trans he)

theorem exec_pktControl (s : State) (pk : Packet) (hc : pk.cls = .m) (ht : pk.type = 1) (hd : pk.dst = ownModule s) :
    exec (.pktControl pk) s = .next (opControl s pk) := congrArg done (onPacket_here s pk .m 1 _ hc ht hd)

theorem exec_pktMcReport (s : State) (pk : Packet) (hc : pk.cls = .m) (ht : pk.type = 2) (hd : pk.dst = ownModule s) :
    exec (.pktMcReport pk) s = .next (opMcReport s pk) := congrArg done (onPacket_here s pk .m 2 _ hc ht hd)

/-- A report that no root of the module awaits does nothing more. -/
theorem opMcReport_none (s : State) (pk : Packet)
    (h : s.churn.colls.filter (fun c => c.desc.slot == pk.slot && c.desc.op == 4 && !c.done) = []) :
    opMcReport s pk = takeArrived s pk := by
  have h' : (takeArrived s pk).churn.colls.filter (fun c => c.desc.slot == pk.slot && c.desc.op == 4 && !c.done) = [] := h
  simp only [opMcReport]
  split
  · rfl
  · rw [h', List.foldl_nil]

/-- A root's collective with a report noted. -/
def reported (c : Coll) (p : Nat) (pk : Packet) : Coll :=
  { c with reports := mapSet false c.reports (chunkKey p pk.chunk.toNat) true, undel := c.undel ||| pk.undel,
           undelAxis := if pk.undel = 0 then c.undelAxis else BitVec.ofNat 2 (portAxis p) }

/-- The one root of a slot notes a report that it awaits. -/
theorem opMcReport_noted (s : State) (pk : Packet) (p : Nat) (c : Coll) (hp : reportPort s pk.src = some p)
    (h : s.churn.colls.filter (fun c => c.desc.slot == pk.slot && c.desc.op == 4 && !c.done) = [c])
    (hdue : (reportsDue s c).contains (chunkKey p pk.chunk.toNat) = true) (hnew : mapGet false c.reports (chunkKey p pk.chunk.toNat) = false) :
    opMcReport s pk = putColl (takeArrived s pk) (reported c p pk) := by
  have hp' : reportPort (takeArrived s pk) pk.src = some p := hp
  have h' : (takeArrived s pk).churn.colls.filter (fun c => c.desc.slot == pk.slot && c.desc.op == 4 && !c.done) = [c] := h
  have hdue' : (reportsDue (takeArrived s pk) c).contains (chunkKey p pk.chunk.toNat) = true := hdue
  simp only [opMcReport, hp', h', List.foldl_cons, List.foldl_nil, noteReport, hdue', hnew, Bool.not_false, Bool.and_self, if_true]
  rfl

/-! ### Class S -/

theorem exec_pktChunk (s : State) (p : Fin 9) (pk : Packet) (h : pk.cls = .s) : exec (.pktChunk p pk) s = .next (opChunk s p pk) :=
  congrArg done (if_pos h)

theorem opChunk_unexpected (s : State) (p : Nat) (pk : Packet) (h : inSailing s p pk.slot = false) :
    opChunk s p pk = modPort (takeArrived s pk) p (fun q => { q with tt := { q.tt with unexpected := satInc q.tt.unexpected } }) := by
  have h' : inSailing (takeArrived s pk) p pk.slot = false := h
  simp only [opChunk, h', Bool.not_false, if_true]

/-- A packet in a sailing of a slot whose collective tells the chunk size lands, where it is for this module alone. -/
theorem opChunk_lands (s : State) (p : Nat) (pk : Packet) (n : Nat) (h : inSailing s p pk.slot = true) (hr : retiredSlot s pk.slot = none)
    (hn : slotChunk s pk.slot = some n) (hm : pk.mc = false) :
    opChunk s p pk = landPacket (beginChunk (takeArrived s pk) p pk) p pk n := by
  have h' : inSailing (takeArrived s pk) p pk.slot = true := h
  have hr' : retiredSlot (takeArrived s pk) pk.slot = none := hr
  have hn' : slotChunk (takeArrived s pk) pk.slot = some n := hn
  simp only [opChunk, h', hr', hn', landMulticast, hm, Bool.not_true, Bool.false_eq_true, if_false]

/-- The beginning of a chunk is Churn's alone. -/
theorem beginChunk_churn (s : State) (p : Nat) (pk : Packet) : beginChunk s p pk = { s with churn := (beginChunk s p pk).churn } := by
  unfold beginChunk
  split <;> rfl

theorem landPlace_beginChunk (s : State) (p : Nat) (pk : Packet) (n : Nat) :
    landPlace (beginChunk (takeArrived s pk) p pk) p pk n = landPlace s p pk n := by
  rw [beginChunk_churn]
  rfl

theorem landPacket_landed (s : State) (p : Nat) (pk : Packet) (n l off : Nat) (h : landPlace s p pk n = some (l, off)) :
    landPacket s p pk n = markLanded (setWinMem s l (mapSplice (winMem s l) off 512 pk.payload)) p pk.slot pk.chunk.toNat pk.pkt.toNat pk.payload := by
  simp only [landPacket, h]

theorem landPacket_dropped (s : State) (p : Nat) (pk : Packet) (n : Nat) (h : landPlace s p pk n = none) :
    landPacket s p pk n = modPort s p (fun q => { q with tt := { q.tt with tagDrop := satInc q.tt.tagDrop } }) := by
  simp only [landPacket, h]

end Sys2Proof.Machine
end


section
/-! SUPPORT. O37: replies, chunk packets, notices and the requester's timers. -/
namespace Sys2Proof.Machine
open Sys2Proof

/-- An ACK with RETRY marks the request that awaits it. -/
theorem exec_pktAck_retry (s : State) (pk : Packet) (x : TxnRec) (hc : pk.cls = .p) (ht : pk.type = 0) (hd : pk.dst = ownModule s)
    (hf : pk.srcCore ≠ 0xFFF) (hu : memUp (deckAt s pk.dstDeck.toNat) = true) (hb : replyBound s pk = true)
    (hx : mapGet none (coreAt (deckAt s pk.dstDeck.toNat) pk.srcCore.toNat).txns pk.txn.toNat = some x) (hr : pk.retry = true) :
    ∃ t, exec (.pktAck pk) s = .next t ∧ mapGet none (coreAt (deckAt t pk.dstDeck.toNat) pk.srcCore.toNat).txns pk.txn.toNat =
      some { x with retry := true, retryAt := clockNs s } := by
  refine ⟨_, exec_pktAck s pk hc ht hd, ?_⟩
  rw [opAck_bound s pk hu hb hf, hx]
  simp only [hr, if_true]
  rw [deckAt_modDeck, modCore, coreAt_setCore]
  exact mapGet_set_same (none : Option TxnRec) _ pk.txn.toNat (some { x with retry := true, retryAt := clockNs s })

theorem exec_pktAck_last (s : State) (pk : Packet) (x : TxnRec) (e : MovEntry) (o : BitVec 12) (hc : pk.cls = .p) (ht : pk.type = 0)
    (hd : pk.dst = ownModule s) (hf : pk.srcCore ≠ 0xFFF) (hu : memUp (deckAt s pk.dstDeck.toNat) = true) (hb : replyBound s pk = true)
    (hx : mapGet none (coreAt (deckAt s pk.dstDeck.toNat) pk.srcCore.toNat).txns pk.txn.toNat = some x) (hr : pk.retry = false)
    (hq : (coreAt (deckAt s pk.dstDeck.toNat) pk.srcCore.toNat).xq = [e]) (hs : e.seq = x.seq) (hrest : e.rest = 1) (he : e.err = 0)
    (hop : e.op ≠ opSYNCRD) (ho : e.cobj = some o) (ha : objAlloc (deckAt s pk.dstDeck.toNat) o.toNat = true)
    (hw : objWaited (deckAt s pk.dstDeck.toNat) o.toNat = false) :
    ∃ t, exec (.pktAck pk) s = .next t ∧ (coreAt (deckAt t pk.dstDeck.toNat) pk.srcCore.toNat).xq = [] ∧
      endedObj (deckAt s pk.dstDeck.toNat) (deckAt t pk.dstDeck.toNat) o.toNat e.amt pk.status := by
  obtain ⟨d', hrun, hempty, hend⟩ := endRequest_last (coreEnv s pk.dstDeck.toNat) (deckAt s pk.dstDeck.toNat) pk.srcCore.toNat
    pk.txn.toNat pk.status x e o hx hq hs hrest he hop ho ha hw
  have hack : opAck s pk = setDeck (takeArrived s pk) pk.dstDeck.toNat d' := by
    rw [opAck_bound s pk hu hb hf, hx]
    simp only [hr, Bool.false_eq_true, if_false]
    exact onDeck_pure (takeArrived s pk) pk.dstDeck.toNat _ d' hrun
  refine ⟨_, exec_pktAck s pk hc ht hd, ?_⟩
  rw [hack, deckAt_setDeck]
  exact ⟨hempty, hend⟩

/-- A GET's DATA packet that is not its last. -/
theorem exec_pktData_stored (s : State) (pk : Packet) (x : TxnRec) (e : MovEntry) (hc : pk.cls = .p) (ht : pk.type = 1)
    (hd : pk.dst = ownModule s) (hu : memUp (deckAt s pk.dstDeck.toNat) = true) (hb : replyBound s pk = true)
    (hx : mapGet none (coreAt (deckAt s pk.dstDeck.toNat) pk.srcCore.toNat).txns pk.txn.toNat = some x) (hl : 2 ≤ x.left)
    (he : movAt (coreAt (deckAt s pk.dstDeck.toNat) pk.srcCore.toNat) x.seq = some e) (hop : e.op = opGET) (hs : pk.status = stGood)
    (hp : placeOf (coreEnv s pk.dstDeck.toNat) (e.dst.toNat + pk.offset.toNat) pk.len = .stack)
    (hw : memWriteSt (deckAt s pk.dstDeck.toNat) (e.dst.toNat + pk.offset.toNat) pk.len = stGood) :
    ∃ t, exec (.pktData pk) s = .next t ∧ (deckAt t pk.dstDeck.toNat).mem =
        (memWrite (deckAt s pk.dstDeck.toNat) (e.dst.toNat + pk.offset.toNat) pk.len pk.payload).mem ∧
      mapGet none (coreAt (deckAt t pk.dstDeck.toNat) pk.srcCore.toNat).txns pk.txn.toNat = some { x with left := x.left - 1 } := by
  refine ⟨_, exec_pktData s pk hc ht hd, ?_⟩
  rw [opData_stored s pk hu hb x e hx hl he hop hs hp hw, deckAt_setDeck, modCore, coreAt_setCore]
  exact ⟨rfl, mapGet_set_same (none : Option TxnRec) _ pk.txn.toNat (some { x with left := x.left - 1 })⟩

theorem exec_pktMcReport_noted (s : State) (pk : Packet) (p : Nat) (r : CollRef) (c : Coll) (hc : pk.cls = .m) (ht : pk.type = 2)
    (hd : pk.dst = ownModule s) (hp : reportPort s pk.src = some p) (hr : collAt s r = some c)
    (h : s.churn.colls.filter (fun c => c.desc.slot == pk.slot && c.desc.op == 4 && !c.done) = [c])
    (hdue : (reportsDue s c).contains (chunkKey p pk.chunk.toNat) = true) (hnew : mapGet false c.reports (chunkKey p pk.chunk.toNat) = false) :
    ∃ t c', exec (.pktMcReport pk) s = .next t ∧ collAt t r = some c' ∧ mapGet false c'.reports (chunkKey p pk.chunk.toNat) = true ∧
      c'.undel = c.undel ||| pk.undel := by
  refine ⟨_, reported c p pk, exec_pktMcReport s pk hc ht hd, ?_, ?_, ?_⟩
  · rw [opMcReport_noted s pk p c hp h hdue hnew]
    exact collAt_putColl (takeArrived s pk) r c _ hr rfl rfl rfl
  · exact mapGet_set_same false c.reports (chunkKey p pk.chunk.toNat) true
  · rfl

theorem exec_pktChunk_landed (s : State) (p : Fin 9) (pk : Packet) (n l off : Nat) (b : Binding) (hc : pk.cls = .s)
    (h : inSailing s p pk.slot = true) (hr : retiredSlot s pk.slot = none) (hn : slotChunk s pk.slot = some n) (hm : pk.mc = false)
    (hl : landPlace s p pk n = some (l, off)) (hb : (ldAt s l).bind = some b) :
    ∃ t, exec (.pktChunk p pk) s = .next t ∧ winMem t l = mapSplice b.mem off 512 pk.payload ∧ t.decks = s.decks := by
  have hs1 := beginChunk_churn (takeArrived s pk) p pk
  have hl' := (landPlace_beginChunk s p pk n).trans hl
  have hb' : (ldAt (beginChunk (takeArrived s pk) p pk) l).bind = some b := by
    rw [hs1]
    exact hb
  refine ⟨_, exec_pktChunk s p pk hc, ?_⟩
  rw [opChunk_lands s p pk n h hr hn hm, landPacket_landed _ _ _ _ _ _ hl']
  refine ⟨?_, ?_⟩
  · rw [show winMem (beginChunk (takeArrived s pk) p pk) l = b.mem by rw [winMem, hb']; rfl]
    exact winMem_setWinMem _ l _ b hb'
  · rw [hs1]
    rfl

theorem exec_pktChunk_dropped (s : State) (p : Fin 9) (pk : Packet) (n : Nat) (hc : pk.cls = .s)
    (h : inSailing s p pk.slot = true) (hr : retiredSlot s pk.slot = none) (hn : slotChunk s pk.slot = some n) (hm : pk.mc = false)
    (hl : landPlace s p pk n = none) :
    ∃ t, exec (.pktChunk p pk) s = .next t ∧ t.host = s.host ∧ t.decks = s.decks ∧
      (portAt t p).tt.tagDrop = satInc (portAt s p).tt.tagDrop := by
  have hs1 := beginChunk_churn (takeArrived s pk) p pk
  refine ⟨_, exec_pktChunk s p pk hc, ?_⟩
  rw [opChunk_lands s p pk n h hr hn hm, landPacket_dropped _ _ _ _ ((landPlace_beginChunk s p pk n).trans hl), portAt_modPort, if_pos rfl, hs1]
  exact ⟨rfl, rfl, rfl⟩

/-- Settles O37, packet kind by packet kind. -/
theorem repliesChunksAndNotices : Obligations.RepliesChunksAndNotices := by
  intro s pk
  refine ⟨?_, ?_, ?_, ?_, ?_, ?_, ?_, ?_, ?_, ?_, ?_, ?_, ?_, ?_, ?_⟩
  · rintro ⟨hc, ht, hd⟩ hf hu hb
    rw [exec_pktAck s pk hc ht hd, opAck_unbound s pk hu hf hb]
    rfl
  · rintro ⟨hc, ht, hd⟩ hu hb
    rw [exec_pktData s pk hc ht hd, opData_unbound s pk hu hb]
    rfl
  · rintro x e ⟨hc, ht, hd⟩ hu hb hx hl he hop hs a hp hw
    exact exec_pktData_stored s pk x e hc ht hd hu hb hx hl he hop hs hp hw
  · rintro ⟨hc, ht, hd⟩ hf hu hb hl hn
    rw [exec_pktAck s pk hc ht hd, opAck_bound s pk hu hb hf, hn]
    exact congrArg Host.Outcome.next (lateReply_live (takeArrived s pk) pk hl)
  · rintro ⟨hc, ht, hd⟩ hu hb hl hn
    rw [exec_pktData s pk hc ht hd, opData_late s pk hu hb hl hn]
    rfl
  · rintro x ⟨hc, ht, hd⟩ hf hu hb hx hr
    exact exec_pktAck_retry s pk x hc ht hd hf hu hb hx hr
  · rintro x e ⟨hc, ht, hd⟩ hf hu hb hx hr hq hs hrest he hop o ho ha hw
    obtain ⟨t, ht, hempty, hend⟩ := exec_pktAck_last s pk x e o hc ht hd hf hu hb hx hr hq hs hrest he hop ho ha hw
    exact ⟨t, ht, hempty, hend⟩
  · intro c txn x hx
    refine ⟨fun hr ht => exec_retryResend s c txn x hx hr ht, fun e o ht hq hs hr he ho hop ha hw => ?_⟩
    exact exec_requestTimeout s c txn x e o hx ht hq hs hr he ho hop ha hw
  · rintro p ⟨hc, ht, hd⟩ hr
    exact ⟨_, exec_pktVacancy_quiet s p pk hc ht hd hr, rfl, by rw [portAt_modPort, if_pos rfl]; rfl⟩
  · rintro ⟨hc, ht, hd⟩
    rw [exec_pktControl s pk hc ht hd]
    rfl
  · rintro ⟨hc, ht, hd⟩ hn
    rw [exec_pktMcReport s pk hc ht hd, opMcReport_none s pk hn]
    rfl
  · rintro p r c ⟨hc, ht, hd⟩ hp hr h hdue hnew
    exact exec_pktMcReport_noted s pk p r c hc ht hd hp hr h hdue hnew
  · intro p hc
    refine ⟨fun h => ⟨_, exec_pktChunk s p pk hc, ?_⟩, fun n h hr hn hm => ⟨fun l off b hl hb => ?_, fun hl => ?_⟩⟩
    · rw [opChunk_unexpected s p pk h, portAt_modPort, if_pos rfl]
      exact ⟨rfl, rfl⟩
    · exact exec_pktChunk_landed s p pk n l off b hc h hr hn hm hl hb
    · exact exec_pktChunk_dropped s p pk n hc h hr hn hm hl
  · exact fun c dst w hq hw ht => exec_fenceWindowAbandon s c dst w hq hw ht
  · intro c e hq hs hv hr hop hc
    have hne : e.op ≠ opPUT ∧ e.op ≠ opATOM := by
      rcases hop with h | h | h <;> rw [h] <;> decide
    exact exec_fencedSendRelease s c e hne hq hs hv hr hc

end Sys2Proof.Machine
end


section
/-! SUPPORT. Commands of the rings that may run, and what they answer in their slot (O42). -/
namespace Sys2Proof.Machine
open Sys2Proof

/-! ### Commands that may run -/

theorem runCmd_runnable {s : State} {h : CmdHdr} {c : Instr} (go : State) (hr : runnable s h c = true) : runCmd s h c go = go :=
  if_pos hr

theorem runCmd_idle {s : State} {h : CmdHdr} {c : Instr} (go : State) (hr : runnable s h c = false) : runCmd s h c go = s :=
  if_neg (by rw [hr]; decide)

theorem cmdOpen_gate {s : State} {h : CmdHdr} (ho : cmdOpen s h = true) : gateCmd s h = none := by
  have := (Bool.and_eq_true_iff.1 ho).1
  rwa [Option.isNone_iff_eq_none] at this

theorem cmdOpen_muted {s : State} {h : CmdHdr} (ho : cmdOpen s h = true) : muted s h = false := by
  have := (Bool.and_eq_true_iff.1 ho).2
  rwa [Bool.not_eq_true'] at this

theorem anyCmd_open {s : State} {h : CmdHdr} (go : State) (ho : cmdOpen s h = true) : anyCmd s h go = go := by
  simp only [anyCmd, cmdOpen_gate ho]

theorem deckOpen_cmdOpen {s : State} {h : CmdHdr} {d : BitVec 8} {x : Option (BitVec 8)} (ho : deckOpen s h d x = true) :
    cmdOpen s h = true := by
  simp only [deckOpen, Bool.and_eq_true] at ho
  exact ho.1.1.1

theorem deckCmd_open {s : State} {h : CmdHdr} {d : BitVec 8} {x : Option (BitVec 8)} (go : State) (ho : deckOpen s h d x = true) :
    deckCmd s h d x go = go := by
  have hc := deckOpen_cmdOpen ho
  simp only [deckOpen, Bool.and_eq_true, Bool.not_eq_true'] at ho
  obtain ⟨⟨⟨-, hd⟩, hl⟩, hf⟩ := ho
  rw [deckCmd, anyCmd_open _ hc, hd, hl, if_neg (by decide), if_neg (by rw [hf]; decide)]

/-! ### What depends on a ring alone -/

theorem muted_of_ring {s s' : State} {h : CmdHdr} (hr : ringAt s' (ldKey h.ld) h.ring.val = ringAt s (ldKey h.ld) h.ring.val) :
    muted s' h = muted s h := by
  simp only [muted, hr]

theorem replied_of_ring {s s' t : State} {h : CmdHdr} {st : Status} {res : Nat}
    (hr : (ringAt s' (ldKey h.ld) h.ring.val).srTail = (ringAt s (ldKey h.ld) h.ring.val).srTail) (ht : replied s' t h st res) :
    replied s t h st res := by
  simpa only [replied, hr] using ht

@[simp] theorem ldAt_modLd (s : State) (k : Nat) (f : Ld → Ld) : ldAt (modLd s k f) k = f (ldAt s k) := ldAt_setLd s k _

@[simp] theorem ldAt_emit (s : State) (o : Output) (k : Nat) : ldAt (emit s o) k = ldAt s k := rfl

theorem ldAt_modLd_other (s : State) (k j : Nat) (f : Ld → Ld) (h : j ≠ k) : ldAt (modLd s k f) j = ldAt s j :=
  ldAt_setLd_other s k j _ h

/-- A change of an LD that leaves its rings leaves every ring. -/
theorem ringAt_modLd_kept (s : State) (k j r : Nat) (f : Ld → Ld) (hf : (f (ldAt s k)).rings = (ldAt s k).rings) :
    ringAt (modLd s k f) j r = ringAt s j r := by
  unfold ringAt
  by_cases hj : j = k
  · rw [hj, ldAt_modLd, hf]
  · rw [ldAt_modLd_other s k j f hj]

/-! ### The slot of a command (R425) -/

theorem ringAt_slotWrite (s : State) (h : CmdHdr) (off : Nat) (bs : List Byte) (k r : Nat) :
    ringAt (slotWrite s h off bs) k r = ringAt s k r := ringAt_modLd_kept s _ k r _ rfl

theorem slotBase_slotWrite (s : State) (h : CmdHdr) (off : Nat) (bs : List Byte) : slotBase (slotWrite s h off bs) h = slotBase s h := by
  simp only [slotBase, ringAt_slotWrite]

theorem mem_slotWrite (s : State) (h : CmdHdr) (off : Nat) (bs : List Byte) :
    (ldAt (slotWrite s h off bs) (ldKey h.ld)).mem = writeBytes (ldAt s (ldKey h.ld)).mem (slotBase s h + off) bs := by
  rw [slotWrite, ldAt_modLd]
  rfl

/-- Slots lie below the status rings. -/
theorem slotBase_lt (s : State) (h : CmdHdr) : slotBase s h + 256 ≤ 0x20000 := by
  have hr := h.ring.isLt
  unfold slotBase
  omega

/-- The word of a status reply (R425). -/
def replyWord (h : CmdHdr) (st : Status) (res : Nat) : Nat :=
  st.toNat + 2 ^ 16 * h.opcode.toNat + 2 ^ 32 * h.seq.toNat + 2 ^ 64 * h.tag.toNat + 2 ^ 96 * (res % 2 ^ 32)

/-- A reply writes no byte below the status rings. -/
theorem cellGet_writeReply_slot (s : State) (h : CmdHdr) (st : Status) (res : Nat) (final : Bool) (x : Nat) (hx : x < 0x20000) :
    cellGet (ldAt (writeReply s h st res final) (ldKey h.ld)).mem x = cellGet (ldAt s (ldKey h.ld)).mem x := by
  have key : ∀ t : State, (ldAt t (ldKey h.ld)).mem = writeNat (ldAt s (ldKey h.ld)).mem
      (0x20000 + 0x2000 * h.ring.val + 16 * ((ringAt s (ldKey h.ld) h.ring.val).srTail.toNat % 512)) 16 (replyWord h st res) →
      cellGet (ldAt t (ldKey h.ld)).mem x = cellGet (ldAt s (ldKey h.ld)).mem x := by
    intro t ht
    rw [ht]
    exact cellGet_writeNat_other _ _ _ _ _ (.inl (by omega))
  simp only [writeReply]
  split
  · simp only [setRing, ldAt_modLd]
  · split
    · refine key _ ?_
      rw [ldAt_emit, ldAt_modLd]
      rfl
    · refine key _ ?_
      rw [ldAt_modLd]
      rfl

/-- A number whose bytes stand in memory is read back. -/
theorem readNat_of_bytes (m : Cells) (a n v : Nat) (h : ∀ i, i < n → cellGet m (a + i) = (natBytes n v).getD i 0) :
    readNat m a n = v % 256 ^ n := by
  rw [← readNat_writeNat [] a n v]
  refine readNat_congr _ _ n a (fun i hi => ?_)
  have hlen : i < (natBytes n v).length := by rwa [natBytes_length]
  rw [h i hi, writeNat, cellGet_writeBytes_in _ _ _ _ hlen, List.getD_eq_getElem?_getD, List.getElem?_eq_getElem hlen,
    Option.getD_some]

section
variable (s : State) (h : CmdHdr) (st : Status) (res off : Nat)

/-- A command that writes its slot and answers has its reply, and changes the host's side alone. -/
theorem slotWrite_replied (bs : List Byte) (hm : muted s h = false) : replied s (replyNow (slotWrite s h off bs) h st res) h st res :=
  replied_of_ring (congrArg Ring.srTail (ringAt_slotWrite s h off bs _ _))
    (replyNow_replied _ h st res ((muted_of_ring (ringAt_slotWrite s h off bs _ _)).trans hm))

theorem slotWrite_hostFrame (bs : List Byte) : hostFrame s (replyNow (slotWrite s h off bs) h st res) :=
  hostFrame_trans (hostFrame_slotWrite s h off bs) (hostFrame_replyNow _ h st res)

/-- The bytes that a command writes into its slot stand there once it has answered. -/
theorem cellGet_slotWrite_reply (bs : List Byte) (hl : off + bs.length ≤ 256) (i : Nat) (hi : i < bs.length) :
    cellGet (ldAt (replyNow (slotWrite s h off bs) h st res) (ldKey h.ld)).mem (slotBase s h + off + i) = bs[i] := by
  have hb := slotBase_lt s h
  rw [replyNow, cellGet_writeReply_slot _ _ _ _ _ _ (by omega), mem_slotWrite, cellGet_writeBytes_in _ _ _ _ hi]

/-- A number among those bytes is read from the slot. -/
theorem readNat_slotWrite_reply (pre post : List Byte) (n v : Nat) (hl : off + (pre ++ (natBytes n v ++ post)).length ≤ 256) :
    readNat (ldAt (replyNow (slotWrite s h off (pre ++ (natBytes n v ++ post))) h st res) (ldKey h.ld)).mem
      (slotBase s h + off + pre.length) n = v % 256 ^ n := by
  refine readNat_of_bytes _ _ n v (fun i hi => ?_)
  have hlen : pre.length + i < (pre ++ (natBytes n v ++ post)).length := by
    simp only [List.length_append, natBytes_length]
    omega
  rw [Nat.add_assoc, cellGet_slotWrite_reply s h st res off _ hl _ hlen, List.getElem_append_right (by omega),
    List.getElem_append_left (by rw [natBytes_length]; omega), List.getD_eq_getElem?_getD,
    List.getElem?_eq_getElem (by rwa [natBytes_length]), Option.getD_some]
  congr 1
  omega

end

/-! ### IDENTIFY, HEALTH, TIME_STATUS -/

theorem exec_identify_runs (s : State) (h : CmdHdr) (ho : cmdOpen s h = true) (hr : runnable s h (.identify h) = true) :
    ∃ t, exec (.identify h) s = .next t ∧ replied s t h stGood 0 ∧ t = { s with host := t.host, out := t.out } ∧
      readNat (ldAt t (ldKey h.ld)).mem (slotBase s h + 32) 8 = Config.moduleSerial.toNat ∧
      readNat (ldAt t (ldKey h.ld)).mem (slotBase s h + 40) 4 = (ownModule s).toNat := by
  let b := heldBind (ldAt s (ldKey h.ld))
  let tail := natBytes 4 s.mgmt.build.toNat ++ (natBytes 1 4 ++ (natBytes 1 ((b.map (·.slot)).getD 0xFF) ++
    (natBytes 1 ((b.map (·.decks.toNat)).getD 0) ++ natBytes 1 (retiredMask s))))
  have hop : opIdentify s h = replyNow (slotWrite s h 16
      (orderCode ++ (natBytes 8 Config.moduleSerial.toNat ++ (natBytes 4 (ownModule s).toNat ++ tail)))) h stGood 0 := by
    rw [opIdentify, anyCmd_open _ ho]
    simp only [List.append_assoc, tail, b]
  have hlen : tail.length = 8 := by simp only [tail, List.length_append, natBytes_length]
  have hcode : orderCode.length = 16 := rfl
  refine ⟨_, congrArg done (runCmd_runnable (opIdentify s h) hr), ?_⟩
  rw [hop]
  refine ⟨slotWrite_replied s h stGood 0 16 _ (cmdOpen_muted ho), slotWrite_hostFrame s h stGood 0 16 _, ?_, ?_⟩
  · have hread := readNat_slotWrite_reply s h stGood 0 16 orderCode (natBytes 4 (ownModule s).toNat ++ tail) 8 Config.moduleSerial.toNat
      (by simp only [List.length_append, natBytes_length, hlen, hcode]; decide)
    rw [hcode] at hread
    exact hread.trans (Nat.mod_eq_of_lt Config.moduleSerial.isLt)
  · have hread := readNat_slotWrite_reply s h stGood 0 16 (orderCode ++ natBytes 8 Config.moduleSerial.toNat) tail 4 (ownModule s).toNat
      (by simp only [List.length_append, natBytes_length, hlen, hcode]; decide)
    rw [List.length_append, natBytes_length, hcode, List.append_assoc] at hread
    exact hread.trans (Nat.mod_eq_of_lt (Nat.lt_trans (ownModule s).isLt (by decide)))

theorem exec_health_runs (s : State) (h : CmdHdr) (ho : cmdOpen s h = true) (hr : runnable s h (.health h) = true) :
    ∃ t, exec (.health h) s = .next t ∧ replied s t h stGood 0 ∧ t = { s with host := t.host, out := t.out } ∧
      ∀ d, d < 8 → cellGet (ldAt t (ldKey h.ld)).mem (slotBase s h + 16 + d) = BitVec.ofNat 8 (deckHealth (deckAt s d)) := by
  let states := (List.range 8).map (fun d => BitVec.ofNat 8 (deckHealth (deckAt s d)))
  let tail := natBytes 4 (stackMask s) ++ (natBytes 5 (portStates s) ++ natBytes 1 (maintMask s))
  have hop : opHealth s h = replyNow (slotWrite s h 16 (states ++ tail)) h stGood 0 := by
    rw [opHealth, anyCmd_open _ ho]
    simp only [List.append_assoc, tail, states]
  have hlen : tail.length = 10 := by simp only [tail, List.length_append, natBytes_length]
  have hstates : states.length = 8 := by simp [states]
  refine ⟨_, congrArg done (runCmd_runnable (opHealth s h) hr), ?_⟩
  rw [hop]
  refine ⟨slotWrite_replied s h stGood 0 16 _ (cmdOpen_muted ho), slotWrite_hostFrame s h stGood 0 16 _, fun d hd => ?_⟩
  rw [cellGet_slotWrite_reply s h stGood 0 16 _ (by rw [List.length_append, hlen, hstates]; decide) d
    (by rw [List.length_append, hlen, hstates]; omega), List.getElem_append_left (by rw [hstates]; exact hd)]
  simp [states]

/-- TIME_STATUS of a bound LD writes its slot twice. -/
theorem exec_timeStatus_bound (s : State) (h : CmdHdr) (ho : cmdOpen s h = true) (hr : runnable s h (.timeStatus h) = true)
    (hb : (heldBind (ldAt s (ldKey h.ld))).isSome = true) :
    ∃ t, exec (.timeStatus h) s = .next t ∧ replied s t h stGood 0 ∧ t = { s with host := t.host, out := t.out } ∧
      readNat (ldAt t (ldKey h.ld)).mem (slotBase s h + 24) 8 = hallNs s % 2 ^ 64 := by
  let first := natBytes 8 (htWord s .htStatus).toNat ++ (natBytes 8 (hallNs s) ++ natBytes 1 (s.htu.t % 256))
  let second := natBytes 8 s.tt.step.toNat ++ natBytes 8 (ttWord s .ttStatus).toNat
  let s1 := slotWrite s h 16 first
  have hop : opTimeStatus s h = replyNow (slotWrite s1 h 40 second) h stGood 0 := by
    rw [opTimeStatus, boundCmd, anyCmd_open _ ho, if_pos hb]
    simp only [List.append_assoc, s1, first, second]
  have hring : ∀ k r, ringAt s1 k r = ringAt s k r := ringAt_slotWrite s h 16 first
  refine ⟨_, congrArg done (runCmd_runnable (opTimeStatus s h) hr), ?_⟩
  rw [hop]
  refine ⟨replied_of_ring (congrArg Ring.srTail (hring _ _))
      (slotWrite_replied s1 h stGood 0 40 second ((muted_of_ring (hring _ _)).trans (cmdOpen_muted ho))),
    hostFrame_trans (hostFrame_slotWrite s h 16 first) (slotWrite_hostFrame s1 h stGood 0 40 second), ?_⟩
  have hbase := slotBase_lt s h
  have hread := readNat_slotWrite_reply s h stGood 0 16 (natBytes 8 (htWord s .htStatus).toNat) (natBytes 1 (s.htu.t % 256)) 8 (hallNs s)
    (by simp only [List.length_append, natBytes_length]; decide)
  rw [natBytes_length] at hread
  refine Eq.trans (readNat_congr _ _ 8 _ (fun i hi => ?_)) (hread.trans (by rw [show (256 : Nat) ^ 8 = 2 ^ 64 by decide]))
  rw [replyNow, replyNow, cellGet_writeReply_slot _ _ _ _ _ _ (by omega), cellGet_writeReply_slot _ _ _ _ _ _ (by omega), mem_slotWrite,
    slotBase_slotWrite, cellGet_writeBytes_other _ _ _ _ (.inl (by omega))]

theorem exec_timeStatus_unbound (s : State) (h : CmdHdr) (ho : cmdOpen s h = true) (hr : runnable s h (.timeStatus h) = true)
    (hb : heldBind (ldAt s (ldKey h.ld)) = none) :
    ∃ t, exec (.timeStatus h) s = .next t ∧ replied s t h stNotBound 0 ∧ t = { s with host := t.host, out := t.out } := by
  have hop : opTimeStatus s h = replyNow s h stNotBound 0 := by
    rw [opTimeStatus, boundCmd, anyCmd_open _ ho, hb]
    rfl
  refine ⟨_, congrArg done (runCmd_runnable (opTimeStatus s h) hr), ?_⟩
  rw [hop]
  exact ⟨replyNow_replied s h stNotBound 0 (cmdOpen_muted ho), hostFrame_replyNow s h stNotBound 0⟩

end Sys2Proof.Machine
end


section
/-! SUPPORT. Bindings (O42): what a command that is answered later leaves, a binding put in place, an unbinding that begins. -/
namespace Sys2Proof.Machine
open Sys2Proof

/-! ### Finite maps -/

theorem mapGet_default_or_mem {α : Type} (d : α) (m : SMap α) (i : Nat) : mapGet d m i = d ∨ (i, mapGet d m i) ∈ m := by
  induction m with
  | nil => exact .inl rfl
  | cons e rest ih =>
    obtain ⟨k, v⟩ := e
    by_cases hk : k = i
    · subst hk
      exact .inr (by simp [mapGet])
    · have hg : mapGet d ((k, v) :: rest) i = mapGet d rest i := by simp [mapGet, hk]
      rw [hg]
      exact ih.imp_right (List.mem_cons_of_mem _)

theorem mem_mapSet {α : Type} [DecidableEq α] (d : α) (m : SMap α) (i : Nat) (v : α) (e : Nat × α) (h : e ∈ mapSet d m i v) :
    e = (i, v) ∨ e ∈ m := by
  unfold mapSet at h
  split at h
  · exact .inr (List.mem_of_mem_filter h)
  · exact mem_mapInsert m i v e h

/-! ### A command answered later -/

/-- A taken command once it has taken effect. -/
def startTaken (h : CmdHdr) (t : TakenCmd) : TakenCmd := if sameCmd h t then { t with started := true } else t

theorem sameCmd_startTaken (h : CmdHdr) (t : TakenCmd) : sameCmd h (startTaken h t) = sameCmd h t := by
  unfold startTaken
  split <;> rfl

theorem find_startTaken (h : CmdHdr) (ts : List TakenCmd) :
    (ts.map (startTaken h)).find? (sameCmd h) = (ts.find? (sameCmd h)).map (startTaken h) := by
  rw [List.find?_map, show sameCmd h ∘ startTaken h = sameCmd h from funext (sameCmd_startTaken h)]

theorem runnable_taken {s : State} {h : CmdHdr} {c : Instr} (hr : runnable s h c = true) :
    ∃ t, (ringAt s (ldKey h.ld) h.ring.val).taken.find? (sameCmd h) = some t := by
  unfold runnable at hr
  split at hr
  · exact absurd hr (by decide)
  · exact ⟨_, ‹_›⟩

section
variable (s : State) (h : CmdHdr)

/-- A command answered later is marked in its ring, and nothing else changes. -/
theorem replyLater_eq (hm : muted s h = false) : replyLater s h = setRing s (ldKey h.ld) h.ring.val
    { ringAt s (ldKey h.ld) h.ring.val with taken := (ringAt s (ldKey h.ld) h.ring.val).taken.map (startTaken h) } := by
  simp only [replyLater, hm, Bool.false_eq_true, if_false]
  rfl

theorem ringAt_replyLater (hm : muted s h = false) : ringAt (replyLater s h) (ldKey h.ld) h.ring.val =
    { ringAt s (ldKey h.ld) h.ring.val with taken := (ringAt s (ldKey h.ld) h.ring.val).taken.map (startTaken h) } := by
  rw [replyLater_eq s h hm, setRing, ringAt_modLd, mapGet_set_same]

theorem muted_replyLater (hm : muted s h = false) : muted (replyLater s h) h = false := by
  have hm' := hm
  unfold muted at hm' ⊢
  rw [ringAt_replyLater s h hm, find_startTaken]
  cases hf : (ringAt s (ldKey h.ld) h.ring.val).taken.find? (sameCmd h) with
  | none => rfl
  | some t =>
    rw [hf] at hm'
    simp only [Option.map_some, startTaken]
    split <;> exact hm'

theorem bind_replyLater (k : Nat) : (ldAt (replyLater s h) k).bind = (ldAt s k).bind := by
  by_cases hk : k = ldKey h.ld
  · subst hk
    simp only [replyLater, setRing, ldAt_modLd]
  · simp only [replyLater, setRing, ldAt_modLd_other _ _ _ _ hk]

theorem bind_writeReply (st : Status) (res : Nat) (final : Bool) (k : Nat) :
    (ldAt (writeReply s h st res final) k).bind = (ldAt s k).bind := by
  have key : ∀ f : Ld → Ld, (f (ldAt s (ldKey h.ld))).bind = (ldAt s (ldKey h.ld)).bind →
      (ldAt (modLd s (ldKey h.ld) f) k).bind = (ldAt s k).bind := by
    intro f hf
    by_cases hk : k = ldKey h.ld
    · subst hk
      rw [ldAt_modLd, hf]
    · rw [ldAt_modLd_other _ _ _ _ hk]
  simp only [writeReply]
  split
  · exact key _ rfl
  · split
    · rw [ldAt_emit]
      exact key _ rfl
    · exact key _ rfl

theorem replyFinal_owed (st : Status) (res : Nat) (ho : (ringAt s (ldKey h.ld) h.ring.val).taken.any (sameCmd h) = true) :
    replyFinal s h st res = writeReply s h st res true := if_pos ho

end

/-! ### A binding put in place (R38, R44) -/

/-- No LD has a deck that is leaving it. -/
def noneLeaving (s : State) : Prop := ∀ e ∈ s.host.lds, ∀ b, e.2.bind = some b → b.leaving = 0

theorem noneLeaving_modLd {s : State} (k : Nat) (f : Ld → Ld) (hf : (f (ldAt s k)).bind = (ldAt s k).bind) (h : noneLeaving s) :
    noneLeaving (modLd s k f) := by
  intro e he b hb
  rcases mem_mapSet _ _ _ _ e he with rfl | he
  · rw [hf] at hb
    rcases mapGet_default_or_mem ({} : Ld) s.host.lds k with hd | hmem
    · rw [ldAt, hd] at hb
      exact absurd hb (by simp)
    · exact h _ hmem b hb
  · exact h e he b hb

theorem noneLeaving_replyLater {s : State} (h : CmdHdr) (hn : noneLeaving s) : noneLeaving (replyLater s h) :=
  noneLeaving_modLd (ldKey h.ld) _ rfl hn

/-- A waiting binding whose decks are cleared and in Run is ready, where no deck is leaving an LD. -/
theorem bindReady_clear {s : State} {j : BindJob} (hn : noneLeaving s)
    (h : ∀ d ∈ maskDecks j.bind.decks, (deckAt s d).clearing = false ∧ (deckAt s d).power ≠ .dock ∧ (deckAt s d).power ≠ .waking) :
    bindReady s j = true := by
  simp only [bindReady, List.all_eq_true, Bool.and_eq_true, Bool.not_eq_true', decide_eq_true_eq]
  intro d hd
  obtain ⟨hc, hp, hw⟩ := h d hd
  refine ⟨⟨⟨hc, ?_⟩, hp⟩, hw⟩
  rw [List.any_eq_false]
  intro e he
  split
  · rw [hn e he _ ‹_›]
    simp
  · decide

theorem maskDecks_zero : maskDecks 0 = [] := by decide

/-- Waking a mask without a docked deck changes no deck. -/
theorem wakeDecks_awake (s : State) (m : BitVec 8) (h : ∀ d ∈ maskDecks m, (deckAt s d).power ≠ .dock) :
    wakeDecks s m = { s with decks := (wakeDecks s m).decks } ∧ ∀ d, deckAt (wakeDecks s m) d = deckAt s d := by
  refine List.foldlRecOn (motive := fun t : State => t = { s with decks := t.decks } ∧ ∀ d, deckAt t d = deckAt s d) _ _
    ⟨rfl, fun _ => rfl⟩ (fun t ht d hd => ⟨?_, fun e => ?_⟩)
  · rw [modDeck, setDeck, ht.1]
  · by_cases he : e = d
    · subst he
      rw [deckAt_modDeck, ht.2 e, if_neg (h e hd)]
    · rw [modDeck, deckAt_setDeck_other _ _ _ _ he]
      exact ht.2 e

theorem serveBinds_one (s : State) (j : BindJob) (hb : s.host.binds = [j]) (hr : bindReady s j = true) :
    serveBinds s = applyBind { s with host := { s.host with binds := [] } } j := by
  simp only [serveBinds, hb, List.filter_cons, List.filter_nil, hr, if_true, Bool.not_true, Bool.false_eq_true, if_false,
    List.foldl_cons, List.foldl_nil]

/-- The binding of an unbound LD. -/
def freshBind (b : Binding) : Binding := { b with mem := [], leaving := 0 }

/-- An unbound LD gets its binding, and its command the reply that it is owed; no ring changes before that. -/
theorem applyBind_fresh (s : State) (j : BindJob) (hn : (ldAt s j.target).bind = none) :
    ∃ s2, applyBind s j = replyFinal s2 j.hdr stGood j.bind.slot ∧ (ldAt s2 j.target).bind = some (freshBind j.bind) ∧
      ∀ k r, ringAt s2 k r = ringAt s k r := by
  have hzero : ((((none : Option Binding).map (·.decks)).getD 0) &&& ~~~j.bind.decks) = 0 := BitVec.zero_and
  have hbegin : (ldAt (beginUnbind s j.target 0) j.target).bind = none := by
    rw [beginUnbind, maskDecks_zero, List.foldl_nil, ldAt_modLd, hn]
    rfl
  have hrings : ∀ k r, ringAt (beginUnbind s j.target 0) k r = ringAt s k r := fun k r => by
    rw [beginUnbind, maskDecks_zero, List.foldl_nil]
    exact ringAt_modLd_kept _ _ _ _ _ rfl
  refine ⟨modLd (beginUnbind s j.target 0) j.target (fun l => { l with bind := some (freshBind j.bind) }), ?_, ?_, fun k r => ?_⟩
  · simp only [applyBind, hn, hzero, hbegin]
    rfl
  · rw [ldAt_modLd]
  · exact (ringAt_modLd_kept _ _ _ _ _ rfl).trans (hrings k r)

/-- BIND_LD's binding for a request of `q`. -/
def askedBind (s : State) (n : Nat) (q : BindLdP) : Binding :=
  { slot := slotFor s n, decks := q.decks, tag := q.tag, window := q.window.toNat, owner := q.owner }

section
variable (s : State) (h : CmdHdr) (q : BindLdP)

/-- The LD that a BIND_LD names. -/
def bindTarget (q : BindLdP) : Nat := 16 * q.port.toNat + q.ld.toNat

/-- BIND_LD of decks, once nothing refuses it: it waits for its decks, and is served at once where they are ready. -/
theorem opBindLd_bind (ho : cmdOpen s h = true) (hmay : mayBind s h.ld = true) (hex : ldExists s q.port.toNat q.ld.toNat = true)
    (hf : (maskDecks (q.decks ||| (((ldAt s (bindTarget q)).bind).map bindDecks).getD 0)).any (fun d => faultRuns s d none) = false)
    (hd : q.decks ≠ 0) (href : bindRefused s (bindTarget q) q = false) :
    opBindLd s h q = serveBinds { replyLater (wakeDecks s q.decks) h with host := { (replyLater (wakeDecks s q.decks) h).host with
      binds := (replyLater (wakeDecks s q.decks) h).host.binds ++
        [{ hdr := h, target := bindTarget q, bind := askedBind s (bindTarget q) q }] } } := by
  unfold bindTarget at hf href ⊢
  rw [opBindLd, anyCmd_open _ ho]
  simp only [hmay, hf, hex, if_neg hd, href, Bool.not_true, Bool.false_eq_true, if_false]
  rfl

theorem exec_bindLd_binds (hr : runnable s h (.bindLd h q) = true) (ho : cmdOpen s h = true) (hmay : mayBind s h.ld = true)
    (hex : ldExists s q.port.toNat q.ld.toNat = true)
    (hf : (maskDecks (q.decks ||| (((ldAt s (bindTarget q)).bind).map bindDecks).getD 0)).any (fun d => faultRuns s d none) = false)
    (hd : q.decks ≠ 0) (hn : (ldAt s (bindTarget q)).bind = none) (href : bindRefused s (bindTarget q) q = false)
    (hbinds : s.host.binds = [])
    (hready : ∀ d ∈ maskDecks q.decks, (deckAt s d).clearing = false ∧ (deckAt s d).power ≠ .dock ∧ (deckAt s d).power ≠ .waking)
    (hleave : noneLeaving s) :
    ∃ t b, exec (.bindLd h q) s = .next t ∧ (ldAt t (bindTarget q)).bind = some b ∧ b.decks = q.decks ∧ b.tag = q.tag ∧
      b.window = q.window.toNat ∧ b.owner = q.owner ∧ b.mem = [] ∧ replied s t h stGood b.slot := by
  obtain ⟨hwake, hwdeck⟩ := wakeDecks_awake s q.decks (fun d hd => (hready d hd).2.1)
  have hlds : (wakeDecks s q.decks).host.lds = s.host.lds := by rw [hwake]
  have hm : muted (wakeDecks s q.decks) h = false := (muted_of_lds hlds).trans (cmdOpen_muted ho)
  have hring : ∀ k r, ringAt (wakeDecks s q.decks) k r = ringAt s k r := fun k r => by rw [ringAt, ldAt, hlds]; rfl
  let s1 := replyLater (wakeDecks s q.decks) h
  let j : BindJob := { hdr := h, target := bindTarget q, bind := askedBind s (bindTarget q) q }
  have hjobs : s1.host.binds ++ [j] = [j] := by
    have : s1.host.binds = [] := by
      show (wakeDecks s q.decks).host.binds = []
      rw [hwake]
      exact hbinds
    rw [this, List.nil_append]
  have hjobReady : bindReady { s1 with host := { s1.host with binds := s1.host.binds ++ [j] } } j = true := by
    have hw : noneLeaving (wakeDecks s q.decks) := by
      unfold noneLeaving
      rw [hlds]
      exact hleave
    refine bindReady_clear (noneLeaving_replyLater h hw) (fun d hd => ?_)
    have hdeck : deckAt { s1 with host := { s1.host with binds := s1.host.binds ++ [j] } } d = deckAt s d := hwdeck d
    rw [hdeck]
    exact hready d hd
  have hop : opBindLd s h q = applyBind { s1 with host := { s1.host with binds := [] } } j :=
    (opBindLd_bind s h q ho hmay hex hf hd href).trans (serveBinds_one _ j hjobs hjobReady)
  have hun : (ldAt { s1 with host := { s1.host with binds := [] } } j.target).bind = none := by
    refine (bind_replyLater (wakeDecks s q.decks) h (bindTarget q)).trans ?_
    rw [ldAt, hlds]
    exact hn
  obtain ⟨s2, hs2, hbind, hrings⟩ := applyBind_fresh _ j hun
  have hring2 : ringAt s2 (ldKey h.ld) h.ring.val = { ringAt s (ldKey h.ld) h.ring.val with
      taken := (ringAt s (ldKey h.ld) h.ring.val).taken.map (startTaken h) } := by
    rw [hrings, ← hring]
    exact ringAt_replyLater _ h hm
  have howed : (ringAt s2 (ldKey h.ld) h.ring.val).taken.any (sameCmd h) = true := by
    obtain ⟨t, ht⟩ := runnable_taken hr
    rw [hring2, List.any_eq_true]
    refine ⟨startTaken h t, List.mem_map_of_mem (List.mem_of_find?_eq_some ht), ?_⟩
    rw [sameCmd_startTaken]
    exact List.find?_some ht
  have hm2 : muted s2 h = false := by
    refine (muted_of_ring (s := s1) ?_).trans (muted_replyLater _ h hm)
    rw [hrings]
    rfl
  refine ⟨_, freshBind (askedBind s (bindTarget q) q), congrArg done (runCmd_runnable (opBindLd s h q) hr), ?_⟩
  rw [hop, hs2, replyFinal_owed s2 h stGood _ howed]
  refine ⟨(bind_writeReply s2 h stGood _ true _).trans hbind, rfl, rfl, rfl, rfl, rfl, ?_⟩
  exact replied_of_ring (by rw [hring2]) (writeReply_replied s2 h stGood _ true hm2)

/-! ### An unbinding that begins (R43) -/

/-- The binding of an LD that `decks` begin to leave. -/
def leaveBind (decks : BitVec 8) (b : Binding) : Binding :=
  { b with decks := b.decks &&& ~~~decks, leaving := b.leaving ||| (b.decks &&& decks), owner := b.owner && b.decks &&& ~~~decks != 0 }

theorem clearLeaving_decks (d : Nat) : clearLeaving s d = { s with decks := (clearLeaving s d).decks } := by
  simp only [clearLeaving]
  split <;> rfl

/-- The beginning of an unbinding changes the LD's binding, and decks. -/
theorem beginUnbind_eq (k : Nat) (decks : BitVec 8) : beginUnbind s k decks =
    { modLd s k (fun l => { l with bind := l.bind.map (leaveBind decks) }) with decks := (beginUnbind s k decks).decks } := by
  have hfold : ∀ (ds : List Nat) (t : State), ds.foldl (fun s d => clearLeaving (drainDeck (ldAt s k).drainUs.toNat s d) d) t =
      { t with decks := (ds.foldl (fun s d => clearLeaving (drainDeck (ldAt s k).drainUs.toNat s d) d) t).decks } := by
    intro ds t
    refine List.foldlRecOn (motive := fun u : State => u = { t with decks := u.decks }) ds _ rfl (fun u hu d _ => ?_)
    rw [clearLeaving_decks, drainDeck, modDeck, setDeck]
    rw [hu]
  rw [beginUnbind]
  exact hfold _ _

theorem ldAt_beginUnbind (k j : Nat) (decks : BitVec 8) : ldAt (beginUnbind s k decks) j =
    ldAt (modLd s k (fun l => { l with bind := l.bind.map (leaveBind decks) })) j := by
  rw [beginUnbind_eq]
  rfl

theorem bind_beginUnbind (k : Nat) (decks : BitVec 8) :
    (ldAt (beginUnbind s k decks) k).bind = (ldAt s k).bind.map (leaveBind decks) := by
  rw [ldAt_beginUnbind, ldAt_modLd]

theorem ringAt_beginUnbind (k : Nat) (decks : BitVec 8) (j r : Nat) : ringAt (beginUnbind s k decks) j r = ringAt s j r := by
  rw [ringAt, ldAt_beginUnbind]
  exact ringAt_modLd_kept _ _ _ _ _ rfl

/-- An unbinding whose decks still leave does not end. -/
theorem endUnbind_leaving (k : Nat) (b : Binding) (hb : (ldAt s k).bind = some b) (hl : b.leaving ≠ 0) : endUnbind s k = s := by
  simp only [endUnbind, hb]
  exact if_neg (fun hh => hl hh.2)

theorem opBindLd_unbind (ho : cmdOpen s h = true) (hmay : mayBind s h.ld = true) (hex : ldExists s q.port.toNat q.ld.toNat = true)
    (hf : (maskDecks (q.decks ||| (((ldAt s (bindTarget q)).bind).map bindDecks).getD 0)).any (fun d => faultRuns s d none) = false)
    (hd : q.decks = 0) (b : Binding) (hb : (ldAt s (bindTarget q)).bind = some b) :
    opBindLd s h q = endUnbind (replyNow (beginUnbind s (bindTarget q) b.decks) h stGood b.slot) (bindTarget q) := by
  rw [hb] at hf
  unfold bindTarget at hb ⊢
  rw [opBindLd, anyCmd_open _ ho]
  rw [Option.map_some, Option.getD_some] at hf
  simp only [hmay, hf, hex, if_pos hd, hb, Bool.not_true, Bool.false_eq_true, if_false, Option.map_some, Option.getD_some]

theorem exec_bindLd_unbinds (hr : runnable s h (.bindLd h q) = true) (ho : cmdOpen s h = true) (hmay : mayBind s h.ld = true)
    (hex : ldExists s q.port.toNat q.ld.toNat = true)
    (hf : (maskDecks (q.decks ||| (((ldAt s (bindTarget q)).bind).map bindDecks).getD 0)).any (fun d => faultRuns s d none) = false)
    (b : Binding) (hd : q.decks = 0) (hb : (ldAt s (bindTarget q)).bind = some b) (hne : b.decks ≠ 0) (hl : b.leaving = 0) :
    ∃ t b', exec (.bindLd h q) s = .next t ∧ replied s t h stGood b.slot ∧ (ldAt t (bindTarget q)).bind = some b' ∧
      b'.decks = 0 ∧ b'.owner = false := by
  let s1 := beginUnbind s (bindTarget q) b.decks
  have hnone : b.decks &&& ~~~b.decks = 0 := BitVec.and_not_self b.decks
  have hbind : (ldAt (replyNow s1 h stGood b.slot) (bindTarget q)).bind = some (leaveBind b.decks b) := by
    rw [replyNow, bind_writeReply, bind_beginUnbind, hb]
    rfl
  have hleaves : (leaveBind b.decks b).leaving ≠ 0 := by
    simp only [leaveBind, hl, BitVec.and_self]
    show 0#8 ||| b.decks ≠ 0
    rwa [BitVec.zero_or]
  have hop : opBindLd s h q = replyNow s1 h stGood b.slot :=
    (opBindLd_unbind s h q ho hmay hex hf hd b hb).trans (endUnbind_leaving _ _ _ hbind hleaves)
  refine ⟨_, leaveBind b.decks b, congrArg done (runCmd_runnable (opBindLd s h q) hr), ?_⟩
  rw [hop]
  refine ⟨?_, hbind, hnone, ?_⟩
  · have hring := ringAt_beginUnbind s (bindTarget q) b.decks (ldKey h.ld) h.ring.val
    exact replied_of_ring (congrArg Ring.srTail hring) (replyNow_replied s1 h stGood b.slot ((muted_of_ring hring).trans (cmdOpen_muted ho)))
  · simp only [leaveBind, hnone]
    simp

end

end Sys2Proof.Machine
end


section
/-! SUPPORT. Contexts and CXL ports, and O42. -/
namespace Sys2Proof.Machine
open Sys2Proof

/-! ### Contexts (R440 to R443) -/

/-- The context that CTX_CREATE makes of a free one, with its pail at `a`. -/
def madeCtx (c : Ctx) (q : CtxCreateP) (a : Nat) : Ctx :=
  { c with life := .live, pailBase := BitVec.ofNat 16 a,
           pailSize := BitVec.ofNat 16 (if q.pail = 0 then 64 else q.pail.toNat), recv := q.recv }

/-- The context that CTX_DESTROY drains. -/
def drainedCtx (s : State) (h : CmdHdr) (q : CtxDestroyP) : Ctx :=
  { ctxAt (deckAt s q.deck.toNat) q.ctx.toNat with
    life := .draining, destroyer := some h,
    drainUntil := clockNs s + 1000 * (if q.drainUs = 0 then (ldAt s (ldKey h.ld)).drainUs.toNat else q.drainUs.toNat) }

theorem exec_ctxCreate_makes (s : State) (h : CmdHdr) (q : CtxCreateP) (b : Binding) (x a : Nat)
    (hr : runnable s h (.ctxCreate h q) = true) (ho : deckOpen s h q.deck none = true) (hb : heldBind (ldAt s (ldKey h.ld)) = some b)
    (hx : (List.range 16).find? (fun x => decide ((ctxAt (deckAt s q.deck.toNat) x).life = .free)) = some x)
    (ha : pailPlace (pailRanges s b) (b.window * 16) (if q.pail = 0 then 64 else q.pail.toNat) = some a)
    (hrecv : q.recv.toNat ≤ if q.pail = 0 then 64 else q.pail.toNat) :
    ∃ t, exec (.ctxCreate h q) s = .next t ∧ replied s t h stGood x ∧ (ctxAt (deckAt t q.deck.toNat) x).life = .live ∧
      (ctxAt (deckAt t q.deck.toNat) x).pailBase = BitVec.ofNat 16 a ∧
      (ctxAt (deckAt t q.deck.toNat) x).pailSize = BitVec.ofNat 16 (if q.pail = 0 then 64 else q.pail.toNat) ∧
      (ctxAt (deckAt t q.deck.toNat) x).recv = q.recv := by
  let s1 := modDeck s q.deck.toNat (fun k => setCtx k x (madeCtx (ctxAt k x) q a))
  have hop : opCtxCreate s h q = replyNow s1 h stGood x := by
    rw [opCtxCreate, deckCmd_open _ ho]
    simp only [hb, hx, ha, if_neg (Nat.not_lt.2 hrecv)]
    rfl
  refine ⟨_, congrArg done (runCmd_runnable (opCtxCreate s h q) hr), ?_⟩
  rw [hop, hostFrame_deckAt (hostFrame_replyNow s1 h stGood x), deckAt_modDeck, ctxAt_setCtx]
  exact ⟨replied_of_lds (s' := s1) rfl (replyNow_replied s1 h stGood x ((muted_of_lds (s := s) (s' := s1) rfl).trans (cmdOpen_muted (deckOpen_cmdOpen ho)))),
    rfl, rfl, rfl, rfl⟩

theorem stopCores_ctxs (d : Deck) (is : List Nat) : (stopCores d is).ctxs = d.ctxs :=
  List.foldlRecOn (motive := fun k : Deck => k.ctxs = d.ctxs) is _ rfl (fun _ hk _ _ => hk)

theorem exec_ctxDestroy_drains (s : State) (h : CmdHdr) (q : CtxDestroyP) (hr : runnable s h (.ctxDestroy h q) = true)
    (ho : deckOpen s h q.deck (some q.ctx) = true) (hl : ctxLive s q.deck.toNat q.ctx = true) :
    ∃ t, exec (.ctxDestroy h q) s = .next t ∧ (ctxAt (deckAt t q.deck.toNat) q.ctx.toNat).life = .draining ∧
      (ctxAt (deckAt t q.deck.toNat) q.ctx.toNat).destroyer = some h ∧ (ctxAt (deckAt t q.deck.toNat) q.ctx.toNat).drainUntil =
        clockNs s + 1000 * (if q.drainUs = 0 then (ldAt s (ldKey h.ld)).drainUs.toNat else q.drainUs.toNat) ∧
      (ringAt t (ldKey h.ld) h.ring.val).srTail = (ringAt s (ldKey h.ld) h.ring.val).srTail ∧
      ∃ c ∈ (ringAt t (ldKey h.ld) h.ring.val).taken, c.hdr = h ∧ c.started = true := by
  let y := drainedCtx s h q
  let s1 := modDeck s q.deck.toNat (fun k => stopCores (setCtx k q.ctx.toNat y)
    ((ctxCores k (q.ctx.setWidth 4)).filter (fun i => (coreAt k i).launch.isSome)))
  have hop : opCtxDestroy s h q = replyLater s1 h := by
    rw [opCtxDestroy, deckCmd_open _ ho]
    simp only [hl, Bool.not_true, Bool.false_eq_true, if_false]
    rfl
  have hctx : ctxAt (deckAt (replyLater s1 h) q.deck.toNat) q.ctx.toNat = y := by
    rw [hostFrame_deckAt (hostFrame_replyLater s1 h), deckAt_modDeck, ctxAt, stopCores_ctxs]
    exact ctxAt_setCtx _ _ y
  have hm : muted s1 h = false := (muted_of_lds (s := s) (s' := s1) rfl).trans (cmdOpen_muted (deckOpen_cmdOpen ho))
  refine ⟨_, congrArg done (runCmd_runnable (opCtxDestroy s h q) hr), ?_⟩
  rw [hop, hctx, ringAt_replyLater s1 h hm]
  obtain ⟨t, ht⟩ := runnable_taken hr
  have hsame : sameCmd h t = true := List.find?_some ht
  refine ⟨rfl, rfl, rfl, rfl, startTaken h t, List.mem_map_of_mem (List.mem_of_find?_eq_some ht), ?_⟩
  rw [startTaken, if_pos hsame]
  exact ⟨of_decide_eq_true hsame, rfl⟩

theorem clearLeaving_ctx (s : State) (d x : Nat) : ctxAt (deckAt (clearLeaving s d) d) x = ctxAt (deckAt s d) x := by
  simp only [clearLeaving]
  split
  · rw [deckAt_modDeck]
    rfl
  · rfl

section
variable (s : State) (d : Fin 8) (x : BitVec 4)

/-- The drain of a context ends in quarantine, whatever its teardown does (R442). -/
theorem opDrainEnd_quarantine (hl : (ctxAt (deckAt s d) x.toNat).life = .draining)
    (he : ctxIdle s d x = true ∨ (ctxAt (deckAt s d) x.toNat).drainUntil ≤ clockNs s) :
    (ctxAt (deckAt (opDrainEnd s d x) d) x.toNat).life = .quarantine ∧ (ctxAt (deckAt (opDrainEnd s d x) d) x.toNat).quarAt = clockNs s := by
  have hgo : ¬ ((decide ((ctxAt (deckAt s d) x.toNat).life ≠ .draining) ||
      !(ctxIdle s d x || decide ((ctxAt (deckAt s d) x.toNat).drainUntil ≤ clockNs s))) = true) := by
    rcases he with he | he <;> simp [hl, he]
  simp only [opDrainEnd]
  rw [if_neg hgo, clearLeaving_ctx]
  split
  · rw [hostFrame_deckAt (hostFrame_replyFinal _ _ _ _), deckAt_modDeck, ctxAt_setCtx]
    exact ⟨rfl, rfl⟩
  · rw [deckAt_modDeck, ctxAt_setCtx]
    exact ⟨rfl, rfl⟩

theorem opDrainEnd_waits (h : (ctxAt (deckAt s d) x.toNat).life ≠ .draining ∨
    (ctxIdle s d x = false ∧ clockNs s < (ctxAt (deckAt s d) x.toNat).drainUntil)) : opDrainEnd s d x = s := by
  simp only [opDrainEnd]
  rw [if_pos]
  rcases h with h | ⟨hi, ht⟩
  · simp [h]
  · simp [hi, ht]

theorem opQuarantineEnd_frees (hl : (ctxAt (deckAt s d) x.toNat).life = .quarantine)
    (ht : (ctxAt (deckAt s d) x.toNat).quarAt + quarantineNs s ≤ clockNs s) :
    onlyDeck s (opQuarantineEnd s d x) d ∧ (ctxAt (deckAt (opQuarantineEnd s d x) d) x.toNat).life = .free ∧
      (ctxAt (deckAt (opQuarantineEnd s d x) d) x.toNat).hold = {} := by
  have hgo : ¬ ((decide ((ctxAt (deckAt s d) x.toNat).life ≠ .quarantine) ||
      decide (clockNs s < (ctxAt (deckAt s d) x.toNat).quarAt + quarantineNs s)) = true) := by
    simp [hl, ht]
  simp only [opQuarantineEnd]
  rw [if_neg hgo]
  have hctx : ctxAt (setCtx (deckAt s d) x.toNat { hbias := (ctxAt (deckAt s d) x.toNat).hbias }) x.toNat =
      { hbias := (ctxAt (deckAt s d) x.toNat).hbias } := ctxAt_setCtx _ _ _
  refine ⟨modDeck_onlyDeck s d _, ?_, ?_⟩
  · rw [deckAt_modDeck]
    exact congrArg Ctx.life hctx
  · rw [deckAt_modDeck]
    exact congrArg Ctx.hold hctx

theorem opQuarantineEnd_waits (h : (ctxAt (deckAt s d) x.toNat).life ≠ .quarantine ∨
    clockNs s < (ctxAt (deckAt s d) x.toNat).quarAt + quarantineNs s) : opQuarantineEnd s d x = s := by
  simp only [opQuarantineEnd]
  rw [if_pos]
  rcases h with h | h <;> simp [h]

end

/-! ### The reset of a CXL port (R42) -/

theorem heldBind_none_iff (x : Ld) : heldBind x = none ↔ ∀ b, x.bind = some b → b.decks = 0 := by
  unfold heldBind
  cases hb : x.bind with
  | none => simp
  | some b => simp

section
variable (s : State) (k : Nat)

theorem bind_cleanLd : (ldAt (cleanLd s k) k).bind = (ldAt s k).bind := by
  simp only [cleanLd, ldAt_setLd]

theorem ldAt_cleanLd_other (j : Nat) (h : j ≠ k) : ldAt (cleanLd s k) j = ldAt s j := ldAt_setLd_other _ _ _ _ h

theorem ldAt_endUnbind_other (j : Nat) (h : j ≠ k) : ldAt (endUnbind s k) j = ldAt s j := by
  unfold endUnbind
  split
  · rfl
  · split
    · rw [ldAt_modLd_other _ _ _ _ h, ldAt_cleanLd_other s k j h]
    · rfl

/-- The end of an unbinding gives no deck back. -/
theorem heldBind_endUnbind (hn : heldBind (ldAt s k) = none) : heldBind (ldAt (endUnbind s k) k) = none := by
  unfold endUnbind
  split
  · exact hn
  · split
    · rw [ldAt_modLd]
      rfl
    · exact hn

theorem cxlUp_endUnbind : (endUnbind s k).host.cxlUp = s.host.cxlUp := by
  unfold endUnbind
  split
  · rfl
  · split <;> rfl

/-- What a CXL port's reset does to one LD of the port. -/
def perstLd (s : State) (k : Nat) : State :=
  endUnbind (modLd (cleanLd (beginUnbind s k ((((ldAt s k).bind).map (·.decks)).getD 0)) k) k
    (fun l => { l with committed := false, decoderIw := 0, decoderErr := false })) k

theorem ldAt_perstLd_other (j : Nat) (h : j ≠ k) : ldAt (perstLd s k) j = ldAt s j := by
  rw [perstLd, ldAt_endUnbind_other _ _ _ h, ldAt_modLd_other _ _ _ _ h, ldAt_cleanLd_other _ _ _ h, ldAt_beginUnbind,
    ldAt_modLd_other _ _ _ _ h]

theorem heldBind_perstLd : heldBind (ldAt (perstLd s k) k) = none := by
  refine heldBind_endUnbind _ k ((heldBind_none_iff _).2 (fun b hb => ?_))
  rw [ldAt_modLd] at hb
  replace hb := (bind_cleanLd _ k).symm.trans hb
  rw [bind_beginUnbind] at hb
  obtain ⟨b0, hb0, rfl⟩ := Option.map_eq_some_iff.1 hb
  rw [hb0]
  exact BitVec.and_not_self b0.decks

theorem cxlUp_perstLd : (perstLd s k).host.cxlUp = s.host.cxlUp := by
  rw [perstLd, cxlUp_endUnbind]
  show (beginUnbind s k _).host.cxlUp = _
  rw [beginUnbind_eq]
  rfl

end

/-- The reset of the LDs of a list: they hold nothing, no other LD changes, and the links stand as they are. -/
theorem foldl_perstLd (ks : List Nat) (s : State) : (ks.foldl perstLd s).host.cxlUp = s.host.cxlUp ∧
    (∀ n, n ∈ ks ∨ heldBind (ldAt s n) = none → heldBind (ldAt (ks.foldl perstLd s) n) = none) ∧
    ∀ n, n ∉ ks → ldAt (ks.foldl perstLd s) n = ldAt s n := by
  induction ks generalizing s with
  | nil => exact ⟨rfl, fun n h => h.resolve_left (by simp), fun _ _ => rfl⟩
  | cons k rest ih =>
    obtain ⟨hup, hheld, hother⟩ := ih (perstLd s k)
    refine ⟨hup.trans (cxlUp_perstLd s k), fun n h => hheld n ?_, fun n h => ?_⟩
    · by_cases hk : n = k
      · subst hk
        exact .inr (heldBind_perstLd s n)
      · rw [ldAt_perstLd_other s k n hk]
        exact h.imp_left (fun hm => (List.mem_cons.1 hm).resolve_left hk)
    · obtain ⟨hk, hrest⟩ := not_or.1 (fun hh => h (List.mem_cons.2 hh))
      rw [List.foldl_cons, hother n hrest, ldAt_perstLd_other s k n hk]

/-- The module when a CXL port's reset has taken its link down and recorded its cause. -/
def perstStart (s : State) (p : Fin 2) : State :=
  let l := draw 3 s
  let s0 := recordCause l.2 (causeWord l.1.toNat 2 0 0 0 false (nextReset l.2))
  { s0 with host := { s0.host with binds := s0.host.binds.filter (fun j => j.target / 16 != p.val),
                                   cxlUp := mapSet false s0.host.cxlUp p false,
                                   cxlWidth := mapSet 0 s0.host.cxlWidth p 0, cxlRate := mapSet 0 s0.host.cxlRate p 0 } }

/-- The LDs of a port that are listed. -/
def portLds (s : State) (p : Fin 2) : List Nat := (s.host.lds.map (·.1)).filter (fun k => k / 16 == p.val)

theorem opPerst_host (s : State) (p : Fin 2) : (opPerst s p).host = ((portLds s p).foldl perstLd (perstStart s p)).host := by
  simp only [opPerst]
  split
  · split <;> rfl
  · rfl

theorem exec_cxlPerst (s : State) (p : Fin 2) : ∃ t, exec (.cxlPerst p) s = .next t ∧ mapGet false t.host.cxlUp p = false ∧
    (∀ n, n / 16 = p.val → heldBind (ldAt t n) = none) ∧ ∀ n, n / 16 ≠ p.val → ldAt t n = ldAt s n := by
  obtain ⟨hup, hheld, hother⟩ := foldl_perstLd (portLds s p) (perstStart s p)
  have hld : ∀ n, ldAt (opPerst s p) n = ldAt ((portLds s p).foldl perstLd (perstStart s p)) n := fun n => by
    rw [ldAt, opPerst_host, ldAt]
  refine ⟨opPerst s p, rfl, ?_, fun n hn => ?_, fun n hn => ?_⟩
  · rw [opPerst_host, hup]
    exact mapGet_set_same false _ _ false
  · rw [hld]
    refine hheld n ?_
    rcases mapGet_default_or_mem ({} : Ld) s.host.lds n with hd | hm
    · refine .inr ?_
      show heldBind (mapGet {} s.host.lds n) = none
      rw [hd]
      rfl
    · exact .inl (List.mem_filter.2 ⟨List.mem_map.2 ⟨_, hm, rfl⟩, by simp [hn]⟩)
  · rw [hld, hother n (fun hm => hn (by simpa using (List.mem_filter.1 hm).2))]
    rfl

/-! ### O42 -/

/-- Settles O42, row by row. -/
theorem bindingsAndContextsChange : Obligations.BindingsAndContextsChange := by
  intro s h
  refine ⟨fun hr => congrArg done (runCmd_idle _ hr), fun ho => ⟨?_, ?_, ?_, ?_, ?_⟩, ?_, ?_, ?_, exec_cxlPerst s, fun _ _ _ => rfl⟩
  · exact exec_identify_runs s h ho
  · exact exec_health_runs s h ho
  · exact exec_timeStatus_bound s h ho
  · exact exec_timeStatus_unbound s h ho
  · intro q n hr hmay hex hf
    refine ⟨fun hd hn href hbinds hready hleave => ?_, fun b hd hb hne hl => ?_⟩
    · exact exec_bindLd_binds s h q hr ho hmay hex hf hd hn href hbinds hready hleave
    · exact exec_bindLd_unbinds s h q hr ho hmay hex hf b hd hb hne hl
  · intro q hr ho d b x a hb hx size ha hrecv
    exact exec_ctxCreate_makes s h q b x a hr ho hb hx ha hrecv
  · exact fun q hr ho hl => exec_ctxDestroy_drains s h q hr ho hl
  · intro d x
    refine ⟨fun hl he => ⟨_, rfl, opDrainEnd_quarantine s d x hl he⟩, fun hw => congrArg done (opDrainEnd_waits s d x hw),
      fun hl ht => ⟨_, rfl, opQuarantineEnd_frees s d x hl ht⟩, fun hw => congrArg done (opQuarantineEnd_waits s d x hw)⟩

end Sys2Proof.Machine
end


section
/-! SUPPORT. The hall-time unit (O28 to O30): what a choice of source, a state change and a step of hall time leave alone, and what
each time frame and each event of the unit does. -/
namespace Sys2Proof.Machine
open Sys2Proof

/-! ### What a change of source or state leaves alone -/

/-- The links' measurements, the external input and the settings are as they were, and no event is cleared. -/
def inputsStand (a b : Htu) : Prop :=
  b = { a with t := b.t, core := b.core, slew := b.slew, state := b.state, source := b.source, errEst := b.errEst, errSince := b.errSince,
               hops := b.hops, schedOn := b.schedOn, gmPrio := b.gmPrio, gmModule := b.gmModule, heldHops := b.heldHops,
               heldPrio := b.heldPrio, heldModule := b.heldModule, events := b.events, acqSince := b.acqSince, good := b.good,
               lockedAt := b.lockedAt } ∧
  ∀ i, a.events.getLsbD i = true → b.events.getLsbD i = true

theorem inputsStand_refl (h : Htu) : inputsStand h h := ⟨rfl, fun _ hi => hi⟩

theorem inputsStand_trans {a b c : Htu} (h1 : inputsStand a b) (h2 : inputsStand b c) : inputsStand a c := by
  refine ⟨?_, fun i hi => h2.2 i (h1.2 i hi)⟩
  rw [h2.1, h1.1]

theorem linkAt_inputsStand {a b : Htu} (h : inputsStand a b) (p : Nat) : linkAt b p = linkAt a p := by
  rw [h.1]
  rfl

theorem getLsbD_htuEvent (h : Htu) (n : Nat) (hn : n < 9) : (htuEvent h n).events.getLsbD n = true :=
  getLsbD_setBit_same h.events n true hn

theorem inputsStand_htuEvent (h : Htu) (n : Nat) : inputsStand h (htuEvent h n) := by
  refine ⟨rfl, fun i hi => ?_⟩
  by_cases hn : i = n
  · subst hn
    exact getLsbD_htuEvent h i (BitVec.lt_of_getLsbD hi)
  · exact (getLsbD_setBit_other h.events n i true hn).trans hi

theorem inputsStand_followLocked (s : State) (k : Nat) : inputsStand s.htu (followLocked s k).htu := ⟨rfl, fun _ hi => hi⟩

theorem inputsStand_enterAcquiring (s : State) (k : Nat) : inputsStand s.htu (enterAcquiring s k).htu := ⟨rfl, fun _ hi => hi⟩

theorem inputsStand_enterHoldover (s : State) : inputsStand s.htu (enterHoldover s).htu :=
  ⟨rfl, (inputsStand_htuEvent s.htu 3).2⟩

theorem inputsStand_enterLocked (s : State) (k : Nat) : inputsStand s.htu (enterLocked s k).htu :=
  ⟨rfl, (inputsStand_htuEvent s.htu 5).2⟩

/-- The unit as it enters Adrift. -/
def adriftHtu (s : State) (err : Nat) : Htu :=
  { htuEvent s.htu 4 with state := 4, source := 0xF, hops := 0xFF, errEst := BitVec.ofNat 8 err, errSince := clockNs s,
                          gmPrio := 7, gmModule := 0, good := 0, schedOn := false, slew := 0 }

theorem enterAdrift_htu (s : State) (err : Nat) : (enterAdrift s err).htu = adriftHtu s err :=
  hostFrame_htu (hostFrame_postAll (setHtu { s with churn := adriftColls s.churn } (adriftHtu s err)) stAdrift 0 (hallNs s))

theorem inputsStand_enterAdrift (s : State) (err : Nat) : inputsStand s.htu (enterAdrift s err).htu := by
  rw [enterAdrift_htu]
  exact ⟨rfl, (inputsStand_htuEvent s.htu 4).2⟩

theorem inputsStand_reselect (s : State) : inputsStand s.htu (reselect s).htu := by
  unfold reselect
  split
  · exact inputsStand_refl _
  dsimp only
  split
  · exact inputsStand_enterAcquiring s _
  split
  · split
    · exact inputsStand_refl _
    · exact inputsStand_trans (inputsStand_htuEvent s.htu 1) (inputsStand_followLocked _ _)
  split
  · exact inputsStand_refl _
  · dsimp only [setHtu]
    split <;> exact ⟨rfl, fun _ hi => hi⟩

/-- The loss of a source sets its event first; another source or state comes after. -/
theorem inputsStand_lostEvent (s : State) : inputsStand (htuEvent s.htu 0) (sourceLost s).htu := by
  unfold sourceLost
  dsimp only
  split
  · refine inputsStand_trans (inputsStand_htuEvent (htuEvent s.htu 0) 1) ?_
    split
    · exact inputsStand_followLocked _ _
    · dsimp only [setHtu]
      split <;> exact ⟨rfl, fun _ hi => hi⟩
  · split
    · exact inputsStand_enterHoldover _
    · dsimp only [setHtu]
      split <;> exact ⟨rfl, fun _ hi => hi⟩

theorem inputsStand_sourceLost (s : State) : inputsStand s.htu (sourceLost s).htu :=
  inputsStand_trans (inputsStand_htuEvent s.htu 0) (inputsStand_lostEvent s)

theorem inputsStand_steer (s : State) (off : Int) : inputsStand s.htu (steer s off).htu := by
  unfold steer
  dsimp only
  generalize (if off.natAbs ≤ 256 then s.htu.good + 1 else 0) = good
  split
  · exact ⟨rfl, (inputsStand_htuEvent s.htu 6).2⟩
  · refine inputsStand_trans (b := { s.htu with good := good, slew := slewToward s.free off }) ⟨rfl, fun _ hi => hi⟩ ?_
    split
    · exact inputsStand_enterLocked _ _
    split
    · exact inputsStand_enterLocked _ _
    · exact inputsStand_refl _

theorem inputsStand_useBeacon (s : State) (p : Nat) (b : Beacon) (off : Int) (calibrated was : Bool) :
    inputsStand s.htu (useBeacon s p b off calibrated was).htu := by
  have adrift : ∀ t, inputsStand t.htu (reselect (enterAdrift t (errNow t))).htu := fun t =>
    inputsStand_trans (inputsStand_enterAdrift t _) (inputsStand_reselect _)
  unfold useBeacon
  dsimp only
  split
  · split
    · exact inputsStand_sourceLost s
    · exact inputsStand_trans (inputsStand_trans (inputsStand_steer s off) (inputsStand_followLocked _ p)) (inputsStand_reselect _)
  split
  · split
    · exact inputsStand_steer s off
    · exact inputsStand_sourceLost s
  split
  · split
    · split
      · refine inputsStand_trans (inputsStand_reselect s) ?_
        split
        · exact adrift _
        · exact inputsStand_steer _ off
      · exact inputsStand_reselect s
    split
    · exact inputsStand_trans (inputsStand_steer s off) ⟨rfl, fun _ hi => hi⟩
    split
    · split
      · exact inputsStand_sourceLost s
      · exact inputsStand_trans (b := unfollow s.htu) ⟨rfl, fun _ hi => hi⟩ (inputsStand_reselect (setHtu s (unfollow s.htu)))
    · exact inputsStand_refl _
  · exact inputsStand_reselect s

/-! ### A step of hall time on the decks (R72) -/

theorem opAlarm_replies (env : CoreEnv) (d : Deck) (a : Nat) : onlyReplies (opAlarm env d a).2 := by
  unfold opAlarm
  dsimp only
  split
  · split
    · exact (tame_settle _ _).2
    · exact onlyReplies_nil
  · exact onlyReplies_nil

theorem eachDeck_replies {α : Type} (f : α → Deck → DeckRes) (hf : ∀ x d, onlyReplies (f x d).2) (xs : List α) (d : Deck) :
    onlyReplies (eachDeck f xs d).2 := by
  induction xs generalizing d with
  | nil => exact onlyReplies_nil
  | cons x rest ih => exact onlyReplies_append (hf x d) (ih _)

theorem stepDeck_replies (env : CoreEnv) (forward : Bool) (k : Deck) : onlyReplies (stepDeck env forward k).2 := by
  cases forward with
  | false => exact onlyReplies_nil
  | true => exact eachDeck_replies _ (fun a d => opAlarm_replies env d a) _ k

/-- What the decks do at a step of hall time leaves the hall-time unit and the ports alone. -/
theorem afterStep_keeps (before s : State) : (afterStep before s).htu = s.htu ∧ (afterStep before s).ports = s.ports := by
  unfold afterStep
  split
  · exact ⟨rfl, rfl⟩
  · refine List.foldlRecOn (motive := fun t : State => t.htu = s.htu ∧ t.ports = s.ports) _ _ ⟨rfl, rfl⟩ (fun t ht d _ => ?_)
    have hf := onDeck_replies_frame t d (stepDeck (coreEnv t d) (decide (before.htu.t < t.htu.t))) (stepDeck_replies _ _ _)
    exact ⟨(hostFrame_htu hf).trans ht.1, (hostFrame_ports hf).trans ht.2⟩

theorem afterStep_same (before s : State) (h : s.htu.t = before.htu.t) : afterStep before s = s := if_pos h

/-! ### Beacons and TIME frames (R60, R349 to R351) -/

@[simp] theorem linkAt_setLink (h : Htu) (k : Nat) (l : LinkTime) : linkAt (setLink h k l) k = l := mapGet_set_same _ h.links k l

/-- A link that leaves the sources loses its beacon and its count of missed ones; what follows is a choice of source. -/
theorem dropLink_sourceFrame (s : State) (p : Nat) :
    sourceFrame (setHtu s (setLink s.htu p { linkAt s.htu p with beacon := none, missed := 0 })) (dropLink s p) := by
  unfold dropLink
  dsimp only
  split
  · split
    · exact sourceFrame_trans (sourceFrame_setHtu _ _ rfl) (sourceFrame_reselect _)
    split
    · exact sourceFrame_sourceLost _
    · exact ⟨rfl, rfl⟩
  · exact ⟨rfl, rfl⟩

theorem linkAt_dropLink (s : State) (p : Nat) : linkAt (dropLink s p).htu p = { linkAt s.htu p with beacon := none, missed := 0 } := by
  rw [linkAt, (dropLink_sourceFrame s p).2]
  exact linkAt_setLink _ _ _

section
variable (s : State) (p : Nat) (ht : portTrained (portAt s p) = true)
include ht

theorem opBeaconSend_trained : opBeaconSend s p = emit s (.beacon p (ownBeacon s)) := if_pos ht

theorem opTimeStart_trained : opTimeStart s p =
    emit (setHtu s (setLink s.htu p { linkAt s.htu p with t1 := some s.htu.t })) (.timeReq p (stampNow s)) := if_pos ht

theorem opTimeReq_good (t1 : Stamp) : opTimeReq s p true t1 = emit s (.timeResp p t1 (stampNow s) (stampNow s)) := by
  simp only [opTimeReq, ht, Bool.not_true, Bool.false_eq_true, if_false]

theorem opTimeReq_bad (t1 : Stamp) :
    opTimeReq s p false t1 = setPort s p { portAt s p with crcErr := satInc (portAt s p).crcErr } := by
  simp only [opTimeReq, ht, Bool.not_true, Bool.not_false, Bool.false_eq_true, if_false, if_true, modPort]

theorem opTimeResp_bad (t1 t2 t3 : Stamp) : opTimeResp s p false t1 t2 t3 = timeCrcError s p := by
  simp only [opTimeResp, ht, Bool.not_true, Bool.not_false, Bool.false_eq_true, if_false, if_true]

theorem opBeaconReceive_bad (b : Beacon) : opBeaconReceive s p false b = badBeacon s p := by
  simp only [opBeaconReceive, ht, Bool.not_true, Bool.not_false, Bool.false_eq_true, if_false, if_true]

/-- The answer to the TIME_REQ that the unit remembers gives the link its delay; another source may then be chosen. -/
theorem opTimeResp_answer (t1 t2 t3 : Stamp) (h1 : (linkAt s.htu p).t1 = some (stampVal t1)) :
    sourceFrame (setHtu s (setLink s.htu p { linkAt s.htu p with
      t1 := none, asym := BitVec.ofInt 16 (linkAsym s p), exchanges := (linkAt s.htu p).exchanges + 1,
      delay := BitVec.ofInt 32 (max 0 ((((s.htu.t : Int) - stampVal t1) - ((stampVal t3 : Int) - stampVal t2)) / 2 - linkAsym s p / 2)) }))
      (opTimeResp s p true t1 t2 t3) := by
  simp only [opTimeResp, ht, h1, Bool.not_true, Bool.false_eq_true, if_false, if_true]
  exact sourceFrame_reselect _

/-- The offset that a beacon shows (R60). -/
def beaconOffset (s : State) (p : Nat) (b : Beacon) : Int :=
  (b.ns.toNat * 256 + b.frac.toNat + (linkAt s.htu p).delay.toNat : Nat) - (s.htu.t : Int)

/-- What the unit keeps of a link after a good beacon: the beacon, and from the fourth exchange on its offset. -/
theorem linkAt_opBeaconReceive_good (b : Beacon) :
    (linkAt (opBeaconReceive s p true b).htu p).beacon = some b ∧
    (4 ≤ (linkAt s.htu p).exchanges → (linkAt (opBeaconReceive s p true b).htu p).offset = some (beaconOffset s p b)) := by
  simp only [opBeaconReceive, ht, Bool.not_true, Bool.false_eq_true, if_false]
  rw [linkAt_inputsStand (inputsStand_useBeacon _ _ _ _ _ _), setHtu_htu, linkAt_setLink]
  refine ⟨?_, fun h4 => ?_⟩
  · split <;> rfl
  · rw [if_pos (decide_eq_true h4)]
    rfl

end

theorem badBeacon_missing (s : State) (p : Nat) (hm : (linkAt s.htu p).missed < 3) :
    badBeacon s p = setHtu (setPort s p { portAt s p with crcErr := satInc (portAt s p).crcErr })
      (setLink s.htu p { linkAt s.htu p with missed := (linkAt s.htu p).missed + 1 }) :=
  if_neg (by show ¬ 4 ≤ (linkAt s.htu p).missed + 1; omega)

theorem badBeacon_drops (s : State) (p : Nat) (hm : 3 ≤ (linkAt s.htu p).missed) :
    badBeacon s p = dropLink (setPort s p { portAt s p with crcErr := satInc (portAt s p).crcErr }) p :=
  if_pos (by show 4 ≤ (linkAt s.htu p).missed + 1; omega)

theorem portAt_dropLink (s : State) (p q : Nat) : portAt (dropLink s p) q = portAt s q := by
  rw [(dropLink_sourceFrame s p).1]
  rfl

/-! ### O28 -/

/-- Settles O28, frame by frame. -/
theorem timeFramesCarryHallTime : Obligations.TimeFramesCarryHallTime := by
  intro s p ht
  refine ⟨congrArg done (opBeaconSend_trained s p ht), fun t1 => congrArg done (opTimeReq_good s p ht t1),
    fun t1 => congrArg done (opTimeReq_bad s p ht t1), fun t1 t2 t3 => congrArg done (opTimeResp_bad s p ht t1 t2 t3),
    fun b => ⟨fun hm => ?_, fun hm => ?_⟩, ⟨_, congrArg done (opTimeStart_trained s p ht), rfl, ?_⟩,
    fun t1 t2 t3 h1 => ?_, fun b => ⟨_, rfl, ?_⟩⟩
  · refine congrArg done ?_
    rw [opBeaconReceive_bad s p ht, badBeacon_missing s p hm]
    exact afterStep_same _ _ rfl
  · refine ⟨_, rfl, ?_⟩
    obtain ⟨hhtu, hports⟩ := afterStep_keeps s (opBeaconReceive s p false b)
    rw [hhtu, portAt, hports, ← portAt, opBeaconReceive_bad s p ht, badBeacon_drops s p hm, portAt_dropLink, portAt_setPort,
      linkAt_dropLink]
    exact ⟨rfl, rfl, rfl⟩
  · exact congrArg LinkTime.t1 (linkAt_setLink _ _ _)
  · obtain ⟨hframe, hlinks⟩ := opTimeResp_answer s p ht t1 t2 t3 h1
    refine ⟨opTimeResp s p true t1 t2 t3, rfl, hframe, ?_⟩
    rw [linkAt, hlinks, setHtu_htu, ← linkAt, linkAt_setLink]
    exact ⟨rfl, rfl, rfl⟩
  · rw [(afterStep_keeps _ _).1]
    exact linkAt_opBeaconReceive_good s p ht b

end Sys2Proof.Machine
end


section
/-! SUPPORT. The state changes of the hall-time unit, the external input and the hall-time registers (O29, O30). -/
namespace Sys2Proof.Machine
open Sys2Proof

/-! ### State changes (R66, R71) -/

/-- In Locked the loss of the source leads to Holdover, or to another source with its event. -/
theorem sourceLost_locked (s : State) (h2 : s.htu.state = 2) :
    ((sourceLost s).htu.state = 3 ∧ (sourceLost s).htu.source = 0xF) ∨
    ((sourceLost s).htu.state = 2 ∧ (sourceLost s).htu.events.getLsbD 1 = true) := by
  unfold sourceLost
  dsimp only
  split
  · rw [if_pos h2]
    exact .inr ⟨h2, getLsbD_htuEvent (htuEvent s.htu 0) 1 (by decide)⟩
  · rw [if_pos h2]
    exact .inl ⟨rfl, rfl⟩

theorem dropLink_other (s : State) (p : Nat) (h : s.htu.source ≠ BitVec.ofNat 4 p) :
    dropLink s p = setHtu s (setLink s.htu p { linkAt s.htu p with beacon := none, missed := 0 }) := if_neg h

theorem dropLink_selected (s : State) (p : Nat) (h2 : s.htu.state = 2) (hp : s.htu.source = BitVec.ofNat 4 p) :
    dropLink s p = sourceLost (setHtu s (setLink s.htu p { linkAt s.htu p with beacon := none, missed := 0 })) := by
  unfold dropLink
  dsimp only
  rw [if_pos hp, if_neg (by simp [h2]), if_pos (.inr (.inl h2))]

theorem opAcquireNoSource_free (s : State) (h1 : s.htu.state = 1) (hn : bestSource s = none) : opAcquireNoSource s = enterFree s :=
  if_pos ⟨h1, by rw [hn]; rfl⟩

theorem opHoldoverExpire_adrift (s : State) (h3 : s.htu.state = 3) (he : 80 ≤ errNow s) :
    opHoldoverExpire s = enterAdrift s (errNow s) := if_pos ⟨h3, he⟩

/-! ### The external input (R63 to R66) -/

/-- An external input that becomes invalid sets its event; the loss of a source may follow. -/
theorem inputsStand_dropExternal (s : State) (n : Nat) (h : Htu) :
    inputsStand (htuEvent (setLink h 9 { linkAt h 9 with removed := false }) n) (dropExternal s n h).htu := by
  unfold dropExternal
  dsimp only
  split
  · exact inputsStand_sourceLost _
  · exact inputsStand_refl _

theorem dropExternal_keeps (s : State) (n : Nat) (h : Htu) (hn : n < 9) :
    (dropExternal s n h).htu.gmNextSec = h.gmNextSec ∧ (dropExternal s n h).htu.ppsValid = h.ppsValid ∧
    (dropExternal s n h).htu.refValid = h.refValid ∧ (dropExternal s n h).htu.events.getLsbD n = true := by
  obtain ⟨hkeep, hev⟩ := inputsStand_dropExternal s n h
  refine ⟨?_, ?_, ?_, hev n (getLsbD_htuEvent _ n hn)⟩ <;> (rw [hkeep]; rfl)

section
variable (s : State) (cycles : Nat) (hup : htuUp s = true)
include hup

theorem opPpsEdge_unannounced (refOk : Bool) (ha : s.htu.announced = false) :
    opPpsEdge s s.htu.cfgPpsEdge cycles refOk = setHtu s (htuEvent s.htu 7) := by
  simp only [opPpsEdge, hup, ha, bne_self_eq_false, Bool.not_true, Bool.not_false, Bool.or_self, Bool.false_eq_true, if_false, if_true]

variable (ha : s.htu.announced = true)
include ha

theorem opPpsEdge_refBad : opPpsEdge s s.htu.cfgPpsEdge cycles false =
    dropExternal s 8 { s.htu with gmNextSec := s.htu.gmNextSec + 1, refValid := false } := by
  simp only [opPpsEdge, hup, ha, bne_self_eq_false, Bool.not_true, Bool.not_false, Bool.or_self, Bool.false_eq_true, if_false, if_true]

theorem opPpsEdge_outOfTime (hc : cycles < 24999999 ∨ 25000001 < cycles) : opPpsEdge s s.htu.cfgPpsEdge cycles true =
    dropExternal s 7 { s.htu with gmNextSec := s.htu.gmNextSec + 1, ppsValid := false, refValid := true } := by
  have hv : (decide (24999999 ≤ cycles) && decide (cycles ≤ 25000001)) = false := by
    simp only [Bool.and_eq_false_iff, decide_eq_false_iff_not]
    omega
  simp only [opPpsEdge, hup, ha, hv, bne_self_eq_false, Bool.not_true, Bool.not_false, Bool.or_self, Bool.false_eq_true, if_false,
    if_true]

/-- The offset that an edge of the external input shows (R64). -/
def edgeOffset (s : State) : Int := (s.htu.gmNextSec.toNat * 256000000000 : Nat) - (s.htu.t : Int)

omit hup ha in
theorem linkAt_nine_setLink (h : Htu) (l : LinkTime) : (linkAt (setLink h 9 l) 9).offset = l.offset :=
  congrArg LinkTime.offset (linkAt_setLink h 9 l)

/-- An edge in time makes the input valid and gives its offset; the choice of source and the steering come after. -/
theorem opPpsEdge_inTime (h1 : 24999999 ≤ cycles) (h2 : cycles ≤ 25000001) :
    inputsStand (setLink { s.htu with gmNextSec := s.htu.gmNextSec + 1, ppsValid := true, refValid := true } 9
      { linkAt s.htu 9 with offset := some (edgeOffset s), winSum := (linkAt s.htu 9).winSum + edgeOffset s,
                            winCount := (linkAt s.htu 9).winCount + 1 })
      (opPpsEdge s s.htu.cfgPpsEdge cycles true).htu := by
  have hv : (decide (24999999 ≤ cycles) && decide (cycles ≤ 25000001)) = true := by simp [h1, h2]
  simp only [opPpsEdge, hup, ha, hv, bne_self_eq_false, Bool.not_true, Bool.or_self, Bool.false_eq_true, if_false]
  refine inputsStand_trans (inputsStand_reselect (setHtu s _)) ?_
  split
  · split
    · exact inputsStand_trans (inputsStand_enterAdrift _ _) (inputsStand_reselect _)
    · exact inputsStand_steer _ _
  · exact inputsStand_refl _

end

theorem opGmSecond_counts (s : State) (ha : s.htu.announced = true) (hv : (s.htu.ppsValid && s.htu.refValid) = false) :
    opGmSecond s = setHtu s { s.htu with gmNextSec := s.htu.gmNextSec + 1 } :=
  if_pos ⟨ha, by rw [hv]; rfl⟩

/-! ### The comparison window (R68) -/

theorem opDisagreeEnd_agrees (s : State) (hn : firstPair (windowMeans s) = none) :
    opDisagreeEnd s = setHtu s (clearWindows s.htu) := by
  simp only [opDisagreeEnd, opDisagree, hn, Bool.false_eq_true, if_false]

/-- The unit with a pair of links that differ recorded, and its windows cleared. -/
def pairRecorded (s : State) (a b : Nat) (d : Int) : Htu :=
  { htuEvent (clearWindows s.htu) 2 with disA := BitVec.ofNat 4 a, disB := BitVec.ofNat 4 b, disDiff := diffWord d }

theorem opDisagreeEnd_pair (s : State) (a b : Nat) (d : Int) (hp : firstPair (windowMeans s) = some (a, b, d))
    (hl : (windowMeans s).length < 3) (h2 : s.htu.state = 2) :
    opDisagreeEnd s = safetyAct (enterHoldover (setHtu s (pairRecorded s a b d))) 8 := by
  simp only [opDisagreeEnd, opDisagree, hp, if_neg (Nat.not_le.2 hl), if_pos h2, if_true]
  rfl

/-! ### O29 -/

/-- Settles O29, event by event. -/
theorem hallTimeUnitChangesState : Obligations.HallTimeUnitChangesState := by
  intro s
  refine ⟨fun h1 hn => ⟨_, congrArg done (opAcquireNoSource_free s h1 hn), rfl, rfl, rfl⟩, fun h3 he => ?_, fun p h2 hp => ?_,
    fun p hp => congrArg done (dropLink_other s p hp), fun cycles ref hup ha => ?_, fun cycles hup ha => ?_, fun cycles hup ha hc => ?_,
    fun cycles hup ha hlo hhi _ => ?_, ?_, ?_, fun ha hv => congrArg done (opGmSecond_counts s ha hv),
    fun hn => congrArg done (opDisagreeEnd_agrees s hn), fun a b d hp hl h2 => ?_⟩
  · refine ⟨_, congrArg done (opHoldoverExpire_adrift s h3 he), ?_⟩
    rw [enterAdrift_htu]
    exact ⟨rfl, rfl, getLsbD_htuEvent s.htu 4 (by decide)⟩
  · refine ⟨dropLink s p, rfl, ?_⟩
    rw [linkAt_dropLink, dropLink_selected s p h2 hp]
    exact ⟨(inputsStand_lostEvent _).2 0 (getLsbD_htuEvent _ 0 (by decide)), rfl, sourceLost_locked _ h2⟩
  · refine congrArg done ?_
    rw [opPpsEdge_unannounced s cycles hup ref ha]
    exact afterStep_same _ _ rfl
  · obtain ⟨hsec, -, href, hev⟩ := dropExternal_keeps s 8 { s.htu with gmNextSec := s.htu.gmNextSec + 1, refValid := false } (by decide)
    refine ⟨_, rfl, ?_⟩
    rw [(afterStep_keeps _ _).1, opPpsEdge_refBad s cycles hup ha]
    exact ⟨hsec, href, hev⟩
  · obtain ⟨hsec, hpps, -, hev⟩ := dropExternal_keeps s 7
      { s.htu with gmNextSec := s.htu.gmNextSec + 1, ppsValid := false, refValid := true } (by decide)
    refine ⟨_, rfl, ?_⟩
    rw [(afterStep_keeps _ _).1, opPpsEdge_outOfTime s cycles hup ha hc]
    exact ⟨hsec, hpps, hev⟩
  · have hin := opPpsEdge_inTime s cycles hup ha hlo hhi
    refine ⟨_, rfl, ?_⟩
    rw [(afterStep_keeps _ _).1, linkAt_inputsStand hin, linkAt_nine_setLink, hin.1]
    exact ⟨rfl, rfl, rfl, rfl⟩
  · obtain ⟨-, hpps, -, hev⟩ := dropExternal_keeps s 7 { s.htu with ppsValid := false } (by decide)
    exact ⟨_, rfl, hpps, hev⟩
  · obtain ⟨-, -, href, hev⟩ := dropExternal_keeps s 8 { s.htu with refValid := false } (by decide)
    exact ⟨_, rfl, href, hev⟩
  · refine ⟨_, congrArg done (opDisagreeEnd_pair s a b d hp hl h2), rfl, ?_, rfl, rfl, getLsbD_setBit_same _ 8 true (by decide)⟩
    exact (inputsStand_enterHoldover (setHtu s (pairRecorded s a b d))).2 2 (getLsbD_htuEvent (clearWindows s.htu) 2 (by decide))

/-! ### Hall-time registers and alarms (R56, R64, R107) -/

/-- HT.CFG as a write by the owner leaves it, before the choice of source. -/
def cfgWritten (h : Htu) (v : W64) : Htu :=
  { h with cfgGmEn := v.getLsbD 0, cfgGmPrio := v.extractLsb' 1 3, cfgPpsEdge := v.getLsbD 4, cfgSrcMask := v.extractLsb' 8 9,
           announced := h.announced && v.getLsbD 0 }

theorem sourceFrame_ownPrio (s : State) : sourceFrame s (ownPrio s) := by
  unfold ownPrio
  split <;> exact ⟨rfl, rfl⟩

theorem inputsStand_ownPrio (s : State) : inputsStand s.htu (ownPrio s).htu := by
  unfold ownPrio
  split <;> exact ⟨rfl, fun _ hi => hi⟩

section
variable (s : State) (a : Agent) (v : W64) (ho : ownerWrite s a = true)
include ho

theorem opGmWrite_owner : opGmWrite s a v = reselect (setHtu s { s.htu with gmNextSec := v, announced := true }) := if_pos ho

/-- A write of HT.CFG sets its fields; the choice of source comes after. -/
theorem opHtCfg_owner : sourceFrame (setHtu s (cfgWritten s.htu v)) (opHtCfg s a v) ∧
    inputsStand (cfgWritten s.htu v) (opHtCfg s a v).htu := by
  unfold opHtCfg
  rw [if_pos ho]
  dsimp only
  split
  · exact ⟨sourceFrame_sourceLost _, inputsStand_sourceLost _⟩
  · exact ⟨sourceFrame_trans (sourceFrame_reselect _) (sourceFrame_ownPrio _),
      inputsStand_trans (inputsStand_reselect _) (inputsStand_ownPrio _)⟩

end

section
variable (n : Nat)

/-- The deck whose alarm `n` has fired. -/
def alarmFired (k : Deck) (n : Nat) : Deck :=
  { k with alarms := mapSet {} k.alarms n { mapGet {} k.alarms n with enable := false, fired := true } }

theorem workFrame_alarms {k k' : Deck} (h : workFrame k k') : k'.alarms = k.alarms := by rw [h]

theorem opAlarm_alarms (env : CoreEnv) (k : Deck) (he : (mapGet {} k.alarms n : Alarm).enable = true)
    (ht : (mapGet {} k.alarms n : Alarm).time.toNat ≤ env.now) :
    (opAlarm env k n).1.alarms = (alarmFired k n).alarms := by
  unfold opAlarm
  dsimp only
  rw [if_pos (Bool.and_eq_true_iff.2 ⟨he, decide_eq_true ht⟩)]
  split
  · exact workFrame_alarms (tame_settle (alarmFired k n) _).1
  · rfl

theorem opAlarm_signals (env : CoreEnv) (k : Deck) (x : Alarm) (hx : mapGet {} k.alarms n = x) (he : x.enable = true)
    (ht : x.time.toNat ≤ env.now) (ha : objAlloc k x.sync.toNat = true) (hc : objCtx k x.sync.toNat = x.ctx) (hu : syncUp k = true) :
    opAlarm env k n = settle (alarmFired k n) [.signal x.sync.toNat 1] := by
  simp only [opAlarm, hx, he, decide_eq_true ht, ha, hc, hu, beq_self_eq_true, Bool.and_self, if_true, alarmFired]

theorem updWord_signal_fits (x : SyncObj) (o : Nat) (v : BitVec 32) (h : x.count.toNat + v.toNat < 2 ^ 32) :
    updWord x (.signal o v) = { x with count := x.count + v } := if_pos h

end

/-! ### O30 -/

/-- Settles O30, register by register. -/
theorem hallTimeRegisters : Obligations.HallTimeRegisters := by
  refine ⟨fun s a v ho => ⟨⟨_, congrArg done (opGmWrite_owner s a v ho), ?_⟩, ⟨opHtCfg s a v, rfl, ?_⟩⟩, fun s v => ⟨rfl, rfl⟩,
    fun s a hm => congrArg done (if_pos hm), fun s d n => ?_⟩
  · have hin := inputsStand_reselect (setHtu s { s.htu with gmNextSec := v, announced := true })
    refine ⟨(sourceFrame_reselect _).1, ?_⟩
    rw [hin.1]
    exact ⟨rfl, rfl⟩
  · obtain ⟨hframe, hin⟩ := opHtCfg_owner s a v ho
    refine ⟨hframe.1, ?_⟩
    rw [hin.1]
    exact ⟨rfl, rfl, rfl, rfl, rfl⟩
  · intro k x he ht
    have hd : deckAt (onDeck s d (fun k => opAlarm (coreEnv s d) k n)) d = (opAlarm (coreEnv s d) k n).1 :=
      (hostFrame_deckAt (onDeck_replies_frame s d _ (opAlarm_replies _ _ _)) d).trans (deckAt_setDeck s d _)
    refine ⟨_, rfl, ?_⟩
    rw [hd]
    refine ⟨?_, fun ha hc hu hw hfit => ?_⟩
    · rw [opAlarm_alarms n _ k he ht]
      exact mapGet_set_same _ _ _ _
    · rw [opAlarm_signals n _ k x rfl he ht ha hc hu, settle_quiet _ _ hw]
      exact congrArg SyncObj.count ((objAt_objUpdate (alarmFired k n) (.signal x.sync.toNat 1) ha).trans
        (updWord_signal_fits (objAt k x.sync.toNat) _ 1 hfit))

end Sys2Proof.Machine
end


section
/-! SUPPORT. Step epochs, sailings, the deck schedule's events and the shadow check (O31). -/
namespace Sys2Proof.Machine
open Sys2Proof

/-! ### Step epochs (R74, R88, R92) -/

/-- No kernel of a LAUNCH record runs. -/
def noneScheduled (s : State) : Prop := ∀ d e, e ∈ (deckAt s d).launches → ∀ l, e.2 = some l → l.sched = false

/-- The kernels of LAUNCH records that still run on a deck. -/
def lateLaunches (k : Deck) : List (Nat × Launch) :=
  k.launches.filterMap (fun e => match e.2 with
    | some l => if l.sched then some (e.1, l) else none
    | none => none)

theorem stepDeadlines_eq (s : State) (d : Nat) : stepDeadlines s d =
    (lateLaunches (deckAt s d)).foldl (fun s e => fireDetector s 3 (some d) (some e.2.ctx) e.2.cores)
      (modDeck s d (fun k => (lateLaunches (deckAt s d)).foldl (fun k e => setLaunch k e.1 (some { e.2 with sched := false })) k)) := rfl

theorem noneScheduled_late {s : State} (h : noneScheduled s) (d : Nat) : lateLaunches (deckAt s d) = [] := by
  refine List.filterMap_eq_nil_iff.2 (fun e he => ?_)
  split
  · rw [if_neg (by simp [h d e he _ ‹_›])]
  · rfl

theorem noneScheduled_of_decks {s t : State} (hd : t.decks = s.decks) (h : noneScheduled s) : noneScheduled t := by
  simpa only [noneScheduled, deckAt, hd] using h

theorem stepDeadlines_idle (s : State) (d : Nat) (h : noneScheduled s) : stepDeadlines s d = setDeck s d (deckAt s d) := by
  rw [stepDeadlines_eq, noneScheduled_late h d]
  rfl

theorem deckAt_setDeck_self (s : State) (d e : Nat) : deckAt (setDeck s d (deckAt s d)) e = deckAt s e := by
  by_cases h : e = d
  · rw [h, deckAt_setDeck]
  · exact deckAt_setDeck_other s d e _ h

/-- The deadlines of a step fire nothing while no kernel of a LAUNCH record runs. -/
theorem stepDeadlines_all (s : State) (h : noneScheduled s) (ds : List Nat) :
    (ds.foldl stepDeadlines s).tt = s.tt ∧ (ds.foldl stepDeadlines s).htu = s.htu := by
  have all := List.foldlRecOn (motive := fun t : State => (∀ e, deckAt t e = deckAt s e) ∧ t.tt = s.tt ∧ t.htu = s.htu) ds
    stepDeadlines ⟨fun _ => rfl, rfl, rfl⟩ (fun t ⟨hd, htt, hhtu⟩ d _ => by
      rw [stepDeadlines_idle t d (by simpa only [noneScheduled, hd] using h)]
      exact ⟨fun e => (deckAt_setDeck_self t d e).trans (hd e), htt, hhtu⟩)
  exact all.2

/-- The timetable as a step that is no disarm begins. -/
def stepTaken (t : Timetable) : Timetable :=
  let t1 := { t with begun := true, step := BitVec.ofNat 64 (nextStep t) }
  if t.pendingValid ∧ t.pendingStep.toNat ≤ nextStep t then { t1 with activeVar := t.pendingVar, pendingValid := false } else t1

/-- The timetable as a disarm takes effect. -/
def stepDisarmed (t : Timetable) : Timetable :=
  { t with begun := false, step := BitVec.ofNat 64 (nextStep t), armed := false, disarmPending := false, pendingValid := false }

theorem stepTaken_step (t : Timetable) : (stepTaken t).step = BitVec.ofNat 64 (nextStep t) ∧ (stepTaken t).armed = t.armed := by
  unfold stepTaken
  dsimp only
  split <;> exact ⟨rfl, rfl⟩

theorem stepTaken_pending (t : Timetable) (hv : t.pendingValid = true) (hs : t.pendingStep.toNat ≤ nextStep t) :
    (stepTaken t).activeVar = t.pendingVar ∧ (stepTaken t).pendingValid = false := by
  rw [stepTaken, if_pos ⟨hv, hs⟩]
  exact ⟨rfl, rfl⟩

theorem stepTaken_noPending (t : Timetable) (hv : t.pendingValid = false) : (stepTaken t).activeVar = t.activeVar := by
  rw [stepTaken, if_neg (by simp [hv])]

theorem epoch_reached (s : State) (ha : s.tt.armed = true) (he : epochNs s.tt (nextStep s.tt) ≤ hallNs s) :
    ¬ ((!s.tt.armed) = true ∨ hallNs s < epochNs s.tt (nextStep s.tt)) := by
  rw [ha]
  rintro (h | h)
  · exact absurd h (by decide)
  · omega

section
variable (s : State) (ha : s.tt.armed = true) (he : epochNs s.tt (nextStep s.tt) ≤ hallNs s) (hn : noneScheduled s)
include ha he hn

theorem opStepEpoch_disarms (hp : s.tt.disarmPending = true) (hs : s.tt.disarmStep ≤ nextStep s.tt) :
    (opStepEpoch s).tt = stepDisarmed s.tt ∧ (opStepEpoch s).htu.schedOn = false := by
  unfold opStepEpoch
  dsimp only
  rw [if_neg (epoch_reached s ha he), if_pos ⟨hp, hs⟩]
  rw [(stepDeadlines_all _ ?_ _).1, (stepDeadlines_all _ ?_ _).2]
  · exact ⟨rfl, rfl⟩
  all_goals exact noneScheduled_of_decks (s := s) rfl hn

theorem opStepEpoch_takes (hp : ¬ (s.tt.disarmPending = true ∧ s.tt.disarmStep ≤ nextStep s.tt)) :
    (opStepEpoch s).tt = stepTaken s.tt := by
  unfold opStepEpoch
  dsimp only
  rw [if_neg (epoch_reached s ha he), if_neg hp]
  rw [(stepDeadlines_all _ ?_ _).1]
  · rfl
  · exact noneScheduled_of_decks (s := s) rfl hn

end

/-! ### Sailings (R81, R82) -/

section
variable (s : State) (p r : Nat) (x : Sailing) (hx : (activeRecords s p 0)[r]? = some x) (hrun : runsNow s x.start x.len = true)
include hx hrun

theorem opSailing_time (hk : x.kind = 3) (hu : portUp s p = true) (hw : (portAt s p).schedWait = false) :
    opSailing s p r = opTimeStart s p := by
  simp only [opSailing, hx, hrun, hk, hu, hw, Bool.not_true, Bool.not_false, Bool.false_eq_true, if_false, if_true, and_self]

theorem opSailing_coll (hk : x.kind = 1) (hs : sendsSched s p = true) : opSailing s p r = departColl s p x := by
  simp [opSailing, hx, hrun, hk, hs]

end

section
variable (s : State) (p : Nat) (x : Sailing) (hc : s.churn.colls = [])
include hc

theorem slotSender_none (slot tag : Nat) : slotSender s p slot tag = none := by simp [slotSender, slotColls, hc]

theorem ownItems_none : ownItems s p x = [] := by simp only [ownItems, slotSender_none s p hc]

/-- While no collective runs, a sailing carries what it forwards. -/
theorem departColl_forwards (hf : forwardItems s p x ≠ []) :
    departColl s p x = setPort s p { portAt s p with sail := some (sailRun s x (forwardItems s p x)) } := by
  have he : (forwardItems s p x ++ []).isEmpty = false := by simpa using hf
  simp only [departColl, slotSender_none s p hc, ownItems_none s p x hc, he, Bool.false_eq_true, if_false]
  rw [List.append_nil]
  rfl

theorem departColl_vacant (hf : s.churn.forward = []) :
    departColl s p x = sendVacancy (setPort s p { portAt s p with sail := some (sailRun s x []) }) p x (vacancyReason s p x) x.chunkBase := by
  have hi : forwardItems s p x = [] := by simp [forwardItems, hf]
  simp only [departColl, slotSender_none s p hc, ownItems_none s p x hc, hi, List.append_nil, List.isEmpty_nil, if_true]
  rfl

end

/-- A frame that leaves touches its port's replay buffer and sequence number, and is listed as sent. -/
theorem sendFrame_frame (s : State) (p : Nat) (pks : List Packet) :
    (sendFrame s p pks).decks = s.decks ∧ portAt (sendFrame s p pks) p =
      { portAt s p with txSeq := (portAt (sendFrame s p pks) p).txSeq, replayBuf := (portAt (sendFrame s p pks) p).replayBuf } := by
  unfold sendFrame
  dsimp only
  split
  · exact ⟨rfl, rfl⟩
  · refine ⟨rfl, ?_⟩
    have hp : ∀ (q : Port) (o : Output), portAt (emit (setPort s p q) o) p = q := fun q _ => portAt_setPort s p q
    rw [hp]

/-- The vacancy notice of a sailing at port `p` (R82). -/
def vacancyNotice (s : State) (p : Nat) (x : Sailing) (reason chunk : Nat) : Packet :=
  { cls := .m, type := 0, tag := BitVec.ofNat 3 x.tag, dst := neighbour s p, src := ownModule s, srcCore := 0xFFF,
    slot := BitVec.ofNat 16 x.slot, reason := BitVec.ofNat 4 reason, chunk := BitVec.ofNat 32 chunk, step := s.tt.step }

theorem sendVacancy_counts (s : State) (p : Nat) (x : Sailing) (reason chunk : Nat) (hr : (portAt s p).replayBuf.length < 8192)
    (ht : (portAt s p).lpl ≠ 3 ∨ x.tag = 0) :
    (portAt (sendVacancy s p x reason chunk) p).tt.vacantSent = satInc (portAt s p).tt.vacantSent ∧
    (sendVacancy s p x reason chunk).decks = s.decks := by
  have hmay : ¬ ((portAt s p).lpl = 3 ∧ x.tag ≠ 0) := by tauto
  have hmayTag : ¬ ((portAt s p).lpl = 3 ∧ (vacancyNotice s p x reason chunk).tag ≠ 0) := by
    rintro ⟨h3, h0⟩
    rcases ht with ht | ht
    · exact ht h3
    · exact h0 (by rw [vacancyNotice, ht]; rfl)
  have hsend : sendOut s p (vacancyNotice s p x reason chunk) = sendFrame s p [vacancyNotice s p x reason chunk] := if_neg hmayTag
  obtain ⟨hdecks, hport⟩ := sendFrame_frame s p [vacancyNotice s p x reason chunk]
  have hop : sendVacancy s p x reason chunk = modPort (sendFrame s p [vacancyNotice s p x reason chunk]) p
      (fun q => { q with tt := { q.tt with vacantSent := satInc q.tt.vacantSent } }) := by
    rw [← hsend]
    simp only [sendVacancy, canSend, decide_eq_true hr, Bool.not_true, Bool.false_eq_true, if_false, if_neg hmay]
    rfl
  rw [hop, modPort, portAt_setPort, hport]
  exact ⟨rfl, hdecks⟩

/-! ### The deck schedule's events (R100 to R104) -/

theorem setBits_foldl (arg v : Nat) (is : List Nat) (m : SMap Nat) (i : Nat) :
    mapGet 0 (is.foldl (fun m i => if bits arg i 1 = 1 then mapSet 0 m i v else m) m) i =
      if i ∈ is ∧ bits arg i 1 = 1 then v else mapGet 0 m i := by
  induction is generalizing m with
  | nil => simp
  | cons j rest ih =>
    rw [List.foldl_cons, ih]
    by_cases hj : i = j
    · subst hj
      by_cases hb : bits arg i 1 = 1 <;> simp [hb]
    · have hm : mapGet 0 (if bits arg j 1 = 1 then mapSet 0 m j v else m) i = mapGet 0 m i := by
        split
        · exact mapGet_set_other 0 m j i v hj
        · rfl
      simp [hm, hj]

theorem onDeckLaunch_decks (s : State) (d : Nat) (f : Deck → DeckRes) (e : Nat) :
    deckAt (onDeckLaunch s d f) e = deckAt (onDeck s d f) e := by
  unfold onDeckLaunch
  dsimp only
  split <;> rfl

theorem opSchedLaunchRec_misses (s : State) (d r : Nat) (x : SchedRec) (hx : schedNow s d r 1 = some x)
    (hh : streamHead (deckAt s d) x.arg = none) : deckAt (opSchedLaunchRec s d r) d = missLaunch (deckAt s d) := by
  simp only [opSchedLaunchRec, hx]
  rw [onDeckLaunch_decks, onDeck_pure s d _ (missLaunch (deckAt s d)), deckAt_setDeck]
  simp [headHeld, hh, headEcc, thenDeck, opSchedLaunch]

theorem opSchedScrub_opens (s : State) (d r : Nat) (x : SchedRec) (hx : schedNow s d r 2 = some x) (hr : (deckAt s d).reset = .none) :
    opSchedScrub s d r = setDeck s d { deckAt s d with scrubUntil := (List.range 4).foldl (fun m i =>
      if bits x.arg i 1 = 1 then mapSet 0 m i (windowEnd s x) else m) (deckAt s d).scrubUntil } := by
  simp only [opSchedScrub, hx, hr, if_true, modDeck]

theorem opSchedShadow_opens (s : State) (d r : Nat) (x : SchedRec) (hx : schedNow s d r 3 = some x) (hr : (deckAt s d).reset = .none) :
    ∃ sh, opSchedShadow s d r = setDeck s d { deckAt s d with shadowUntil := windowEnd s x, shadow := sh } := by
  simp only [opSchedShadow, hx, if_pos hr]
  exact ⟨_, rfl⟩

/-- Rows handed to the governor wait there, unless they are admitted. -/
theorem mem_handRows (s : State) (d : Nat) (rows : List Nat) (i : Nat) (hi : i ∈ rows) (ha : (deckAt s d).admitted.getLsbD i = false) :
    16 * d + i ∈ (handRows s d rows).power.waitRows := by
  simp only [handRows, List.mem_append, List.mem_eraseDups, List.mem_filter, List.mem_map]
  by_cases hw : 16 * d + i ∈ s.power.waitRows
  · exact .inl hw
  · exact .inr ⟨⟨i, ⟨hi, by rw [ha]; rfl⟩, rfl⟩, by simpa using hw⟩

theorem opSchedRamp_hands (s : State) (d r : Nat) (x : SchedRec) (hx : schedNow s d r 4 = some x) (hp : (deckAt s d).power = .run)
    (hr : (deckAt s d).reset = .none) (ho : (deckAt s d).outOfService = false) :
    opSchedRamp s d r = handRows (modDeck s d (fun k => { k with
      rampRows := k.rampRows ||| (BitVec.ofNat 13 x.arg &&& ~~~ (deckAt s d).admitted) })) d
      ((List.range 13).filter (fun i => bits x.arg i 1 == 1)) := by
  simp only [opSchedRamp, hx, hp, hr, ho, Bool.not_false, and_self, if_true]

/-! ### The shadow check (R257) -/

theorem opShadow_off (s : State) (d p : Nat) (miss : List ShadowMiss) (h : shadowOn s d = false) : opShadow s d p miss = s := by
  simp only [opShadow, h, Bool.not_false, if_true]

theorem opShadow_clean (s : State) (d p : Nat) (h : shadowOn s d = true) :
    ∃ sh : PenShadow, opShadow s d p [] = setDeck s d { deckAt s d with shadow := mapSet {} (deckAt s d).shadow p sh } ∧
      sh.check = (mapGet ({} : PenShadow) (deckAt s d).shadow p).check + 1 := by
  simp only [opShadow, h, Bool.not_true, Bool.false_eq_true, if_false, List.isEmpty_nil, if_true]
  exact ⟨_, rfl, rfl⟩

/-! ### O31 -/

/-- Settles O31, event by event. -/
theorem stepEpochsAndSailings : Obligations.StepEpochsAndSailings := by
  intro s
  refine ⟨fun ha he hn => ⟨opStepEpoch s, rfl, ?_, fun hp hs => ?_, fun hp => ?_⟩, fun p r x hx hrun => ⟨fun hk hu hw ht => ?_,
    fun hk hs hc hf => ?_, fun hk hs hf hc hr ht => ?_⟩, fun d r x => ⟨fun hx hh => ?_, fun hx hr => ?_, fun hx hr => ?_,
    fun hx hp hr ho => ?_⟩, fun d pen => ⟨fun miss h => congrArg done (opShadow_off s d pen miss h), fun h => ?_⟩⟩
  · by_cases hp : s.tt.disarmPending = true ∧ s.tt.disarmStep ≤ nextStep s.tt
    · rw [(opStepEpoch_disarms s ha he hn hp.1 hp.2).1]
      rfl
    · rw [opStepEpoch_takes s ha he hn hp]
      exact (stepTaken_step s.tt).1
  · obtain ⟨htt, hon⟩ := opStepEpoch_disarms s ha he hn hp hs
    rw [htt]
    exact ⟨rfl, hon, rfl⟩
  · rw [opStepEpoch_takes s ha he hn (by simp [hp])]
    exact ⟨(stepTaken_step s.tt).2.trans ha, stepTaken_pending s.tt, stepTaken_noPending s.tt⟩
  · refine ⟨_, congrArg done ((opSailing_time s p r x hx hrun hk hu hw).trans (opTimeStart_trained s p ht)), rfl⟩
  · exact congrArg done ((opSailing_coll s p r x hx hrun hk hs).trans (departColl_forwards s p x hc hf))
  · refine ⟨_, congrArg done ((opSailing_coll s p r x hx hrun hk hs).trans (departColl_vacant s p x hc hf)), ?_⟩
    have hv := sendVacancy_counts (setPort s p { portAt s p with sail := some (sailRun s x []) }) p x (vacancyReason s p x) x.chunkBase
    rw [portAt_setPort] at hv
    exact hv hr ht
  · refine ⟨opSchedLaunchRec s d r, rfl, ?_⟩
    rw [opSchedLaunchRec_misses s d r x hx hh]
    exact ⟨rfl, rfl⟩
  · refine ⟨_, congrArg done (opSchedScrub_opens s d r x hx hr), setDeck_onlyDeck s d _, fun i hi => ?_⟩
    rw [deckAt_setDeck, setBits_foldl]
    simp only [List.mem_range, hi, true_and]
    rfl
  · obtain ⟨sh, hsh⟩ := opSchedShadow_opens s d r x hx hr
    refine ⟨_, congrArg done hsh, setDeck_onlyDeck s d _, ?_⟩
    rw [deckAt_setDeck]
    rfl
  · refine ⟨_, congrArg done (opSchedRamp_hands s d r x hx hp hr ho), fun i hi hb ha => mem_handRows _ _ _ i ?_ ?_⟩
    · exact List.mem_filter.2 ⟨List.mem_range.2 hi, by rw [hb]; rfl⟩
    · rw [deckAt_modDeck]
      exact ha
  · obtain ⟨sh, hsh, hcheck⟩ := opShadow_clean s d pen h
    refine ⟨_, congrArg done hsh, setDeck_onlyDeck s d _, ?_⟩
    rw [deckAt_setDeck, mapGet_set_same]
    exact hcheck

end Sys2Proof.Machine
end


section
/-! SUPPORT. Streams, sync groups, memory regions and queue pairs (O43): what their commands do once it is their turn. -/
namespace Sys2Proof.Machine
open Sys2Proof

/-! ### Replies after an effect -/

section
variable {s : State} (s1 : State) {h : CmdHdr} (hm : muted s h = false) (hl : s1.host.lds = s.host.lds)
include hm hl

/-- A command whose effect leaves the LDs alone has its reply where SR_TAIL named it. -/
theorem replyNow_after (st : Status) (res : Nat) : replied s (replyNow s1 h st res) h st res :=
  replied_of_lds hl (replyNow_replied s1 h st res ((muted_of_lds hl).trans hm))

theorem replyPending_after : replied s (replyPending s1 h) h stPending 0 :=
  replied_of_lds hl (replyPending_replied s1 h ((muted_of_lds hl).trans hm))

end

/-- A reply changes an LD and nothing else of the host side. -/
theorem replyNow_host (s : State) (h : CmdHdr) (st : Status) (res : Nat) :
    (replyNow s h st res).host = { s.host with lds := (replyNow s h st res).host.lds } := by
  simp only [replyNow, writeReply]
  split
  · rfl
  · split <;> rfl

theorem replyNow_regions (s : State) (h : CmdHdr) (st : Status) (res : Nat) : (replyNow s h st res).host.regions = s.host.regions := by
  rw [replyNow_host]

theorem replyNow_qps (s : State) (h : CmdHdr) (st : Status) (res : Nat) : (replyNow s h st res).host.qps = s.host.qps := by
  rw [replyNow_host]

theorem deckAt_replyNow (s : State) (h : CmdHdr) (st : Status) (res d : Nat) : deckAt (replyNow s h st res) d = deckAt s d :=
  hostFrame_deckAt (hostFrame_replyNow s h st res) d

theorem deckAt_replyPending (s : State) (h : CmdHdr) (d : Nat) : deckAt (replyPending s h) d = deckAt s d :=
  hostFrame_deckAt (hostFrame_replyPending s h) d

theorem deckAt_replyLater (s : State) (h : CmdHdr) (d : Nat) : deckAt (replyLater s h) d = deckAt s d :=
  hostFrame_deckAt (hostFrame_replyLater s h) d

theorem boundCmd_open {s : State} {h : CmdHdr} (go : State) (ho : cmdOpen s h = true)
    (hb : (heldBind (ldAt s (ldKey h.ld))).isSome = true) : boundCmd s h go = go := by
  rw [boundCmd, anyCmd_open _ ho, if_pos hb]

/-! ### Free numbers (log entry 5) -/

/-- Of fewer numbers in use than there are, one is free. -/
theorem exists_free (v n : Nat) (used : List Nat) (h : used.length < n) :
    ∃ x, ((List.range (used.length + 1)).map (fun i => (v + i) % n)).find? (fun x => !used.contains x) = some x ∧ x < n ∧ x ∉ used := by
  cases hf : ((List.range (used.length + 1)).map (fun i => (v + i) % n)).find? (fun x => !used.contains x) with
  | some x =>
    obtain ⟨i, -, rfl⟩ := List.mem_map.1 (List.mem_of_find?_eq_some hf)
    exact ⟨_, rfl, Nat.mod_lt _ (by omega), by simpa using List.find?_some hf⟩
  | none =>
    have hsub : ((List.range (used.length + 1)).map (fun i => (v + i) % n)) ⊆ used := fun x hx => by
      simpa using List.find?_eq_none.1 hf x hx
    have hnd : ((List.range (used.length + 1)).map (fun i => (v + i) % n)).Nodup := by
      refine List.Nodup.map_on (fun i hi j hj hij => ?_) List.nodup_range
      rw [List.mem_range] at hi hj
      exact Nat.ModEq.eq_of_lt_of_lt (Nat.ModEq.add_left_cancel' v hij) (by omega) (by omega)
    have hle := (List.subperm_of_subset hnd hsub).length_le
    rw [List.length_map, List.length_range] at hle
    omega

theorem pickFree_some (s : State) (n : Nat) (used : List Nat) (h : used.length < n) :
    ∃ x, pickFree s n used = (some x, { s with free := s.free + 1 }) ∧ x < n ∧ x ∉ used := by
  obtain ⟨x, hx, hlt, hfree⟩ := exists_free (draw 32 s).1.toNat n used h
  exact ⟨x, Prod.ext hx rfl, hlt, hfree⟩

theorem ne_of_not_mem_keys {α : Type} {m : SMap α} {i : Nat} (h : i ∉ m.map (·.1)) (e : Nat × α) (he : e ∈ m) : e.1 ≠ i :=
  fun hi => h (hi ▸ List.mem_map_of_mem he)

/-! ### Streams (R438, R439) -/

section
variable (s : State) (h : CmdHdr)

/-- The ring sizes that STREAM_OPEN takes. -/
theorem ringSize_ok (n : Nat) (hn : ∃ k, n = 2 ^ k ∧ 4 ≤ k ∧ k ≤ 16) :
    (decide (16 ≤ n) && decide (n ≤ 65536) && n &&& (n - 1) == 0) = true := by
  obtain ⟨k, rfl, h4, h16⟩ := hn
  have hlo : 2 ^ 4 ≤ 2 ^ k := Nat.pow_le_pow_right (by decide) h4
  have hhi : 2 ^ k ≤ 2 ^ 16 := Nat.pow_le_pow_right (by decide) h16
  simp only [Nat.and_two_pow_sub_one_eq_mod, Nat.mod_self, beq_self_eq_true, Bool.and_true, Bool.and_eq_true, decide_eq_true_eq]
  exact ⟨hlo, hhi⟩

theorem exec_streamOpen_opens (q : StreamOpenP) (hr : runnable s h (.streamOpen h q) = true)
    (ho : deckOpen s h q.deck (some q.ctx) = true) (hl : ctxLive s q.deck.toNat q.ctx = true)
    (hn : ∃ n, q.entries.toNat = 2 ^ n ∧ 4 ≤ n ∧ n ≤ 16) (hb : q.base.toNat % 128 = 0)
    (he : q.base.toNat + 128 * q.entries.toNat ≤ memEnd) (hf : (deckAt s q.deck.toNat).streams.length < 8192) :
    ∃ t i, exec (.streamOpen h q) s = .next t ∧ replied s t h stGood i ∧ i < 8192 ∧
      (∀ e ∈ (deckAt s q.deck.toNat).streams, e.1 ≠ i) ∧ streamAt (deckAt t q.deck.toNat) i =
        some { ctx := q.ctx.setWidth 4, entries := q.entries.toNat, base := q.base.setWidth 40 } := by
  have hu : ((deckAt s q.deck.toNat).streams.map (·.1)).length < 8192 := by rwa [List.length_map]
  obtain ⟨i, hpick, hi, hfree⟩ := pickFree_some s 8192 ((deckAt s q.deck.toNat).streams.map (·.1)) hu
  let st : Stream := { ctx := q.ctx.setWidth 4, entries := q.entries.toNat, base := q.base.setWidth 40 }
  let s1 := modDeck { s with free := s.free + 1 } q.deck.toNat (fun k => setStream k i (some st))
  have hop : opStreamOpen s h q = replyNow s1 h stGood i := by
    rw [opStreamOpen, deckCmd_open _ ho]
    simp only [hl, ringSize_ok _ hn, hb, he, if_neg (Nat.not_le.2 hu), hpick, beq_self_eq_true, decide_true, Bool.not_true, Bool.and_self,
      Bool.or_self, Bool.false_eq_true, if_false]
    rfl
  refine ⟨_, i, congrArg done (runCmd_runnable (opStreamOpen s h q) hr), ?_⟩
  rw [hop, deckAt_replyNow, deckAt_modDeck, streamAt_setStream]
  exact ⟨replyNow_after s1 (cmdOpen_muted (deckOpen_cmdOpen ho)) rfl stGood i, hi, ne_of_not_mem_keys hfree, rfl⟩

/-- Nothing published, nothing discarded. -/
theorem discardStream_empty (k : Deck) (n : Nat) (st : Status) (x : Stream) (hx : streamAt k n = some x) (hp : x.pubs = []) :
    discardStream st n k = (setStream k n (some x), []) := by
  simp only [discardStream, hx, discardPubs, hp, List.filterMap_nil]
  rw [show ({ x with pubs := [] } : Stream) = x by rw [← hp]]
  rfl

section
variable (q : StreamCloseP) (x : Stream) (hr : runnable s h (.streamClose h q) = true)
  (hx : streamAt (deckAt s q.deck.toNat) q.stream.toNat = some x) (ho : deckOpen s h q.deck (some (x.ctx.setWidth 8)) = true)
  (hc : x.closing = none) (hp : x.pubs = [])
include hr hx ho hc hp

theorem exec_streamClose_frees (hrun : x.run = .none) : ∃ t, exec (.streamClose h q) s = .next t ∧ replied s t h stGood 0 ∧
    streamAt (deckAt t q.deck.toNat) q.stream.toNat = none := by
  let s1 := setDeck s q.deck.toNat (setStream (deckAt s q.deck.toNat) q.stream.toNat (some x))
  let s2 := modDeck s1 q.deck.toNat (fun k => setStream k q.stream.toNat none)
  have hop : opStreamClose s h q = replyNow s2 h stGood 0 := by
    simp only [opStreamClose, hx, Option.map_some, deckCmd_open _ ho, hc, Option.isSome_none, Bool.false_eq_true, if_false,
      onDeck_pure s _ _ _ (discardStream_empty _ _ _ x hx hp), deckAt_setDeck, streamAt_setStream, hrun, if_true]
    rfl
  refine ⟨_, congrArg done (runCmd_runnable (opStreamClose s h q) hr), ?_⟩
  rw [hop, deckAt_replyNow, deckAt_modDeck, streamAt_setStream]
  exact ⟨replyNow_after s2 (cmdOpen_muted (deckOpen_cmdOpen ho)) rfl stGood 0, rfl⟩

theorem exec_streamClose_later (hrun : x.run ≠ .none) : ∃ t, exec (.streamClose h q) s = .next t ∧
    streamAt (deckAt t q.deck.toNat) q.stream.toNat = some { x with closing := some h } := by
  let s1 := setDeck s q.deck.toNat (setStream (deckAt s q.deck.toNat) q.stream.toNat (some x))
  let s2 := modDeck s1 q.deck.toNat (fun k => setStream k q.stream.toNat (some { x with closing := some h }))
  have hop : opStreamClose s h q = replyLater s2 h := by
    simp only [opStreamClose, hx, Option.map_some, deckCmd_open _ ho, hc, Option.isSome_none, Bool.false_eq_true, if_false,
      onDeck_pure s _ _ _ (discardStream_empty _ _ _ x hx hp), deckAt_setDeck, streamAt_setStream, hrun]
    rfl
  refine ⟨_, congrArg done (runCmd_runnable (opStreamClose s h q) hr), ?_⟩
  rw [hop, deckAt_replyLater, deckAt_modDeck, streamAt_setStream]

end

/-! ### LAUNCH (R101, R438) -/

/-- A stream with `n` more entries published. -/
def published (k : Deck) (x : Stream) (n start now : Nat) (h : CmdHdr) : Stream :=
  { x with next := (x.next + n) % x.entries, pubs := x.pubs ++ newPubs k x n start now h }

theorem newPubs_length (k : Deck) (x : Stream) (n start now : Nat) (h : CmdHdr) : (newPubs k x n start now h).length = n := by
  simp only [newPubs, List.length_map, List.length_range]

/-- LAUNCH with its entries in place. -/
def launched (s : State) (h : CmdHdr) (q : LaunchP) (x : Stream) : State :=
  modDeck s q.deck.toNat (fun k => setStream { k with nextOrder := k.nextOrder + q.publish.toNat } q.stream.toNat
    (some (published (deckAt s q.deck.toNat) x q.publish.toNat q.start.toNat (hallNs s) h)))

theorem streamAt_launched (q : LaunchP) (x : Stream) : streamAt (deckAt (launched s h q x) q.deck.toNat) q.stream.toNat =
    some (published (deckAt s q.deck.toNat) x q.publish.toNat q.start.toNat (hallNs s) h) := by
  rw [launched, deckAt_modDeck, streamAt_setStream]

theorem opLaunch_publishes (q : LaunchP) (x : Stream) (hx : streamAt (deckAt s q.deck.toNat) q.stream.toNat = some x)
    (ho : deckOpen s h q.deck (some (x.ctx.setWidth 8)) = true) (hc : x.closing = none)
    (hl : (ctxAt (deckAt s q.deck.toNat) x.ctx.toNat).life = .live) (hfit : x.pubs.length + q.publish.toNat ≤ x.entries)
    (hstart : q.start = 0 ∨
      (newPubs (deckAt s q.deck.toNat) x q.publish.toNat q.start.toNat (hallNs s) h).any (fun p => p.hdr.isSome) = true) :
    opLaunch s h q = if q.start = 0 then replyNow (launched s h q x) h stGood 0 else replyPending (launched s h q x) h := by
  have hgo : ¬ (x.closing.isSome = true ∨ decide ((ctxAt (deckAt s q.deck.toNat) x.ctx.toNat).life ≠ .live) = true ∨
      x.entries < x.pubs.length + q.publish.toNat ∨ (q.start ≠ 0 ∧
        (newPubs (deckAt s q.deck.toNat) x q.publish.toNat q.start.toNat (hallNs s) h).all (fun p => p.hdr.isNone) = true)) := by
    rintro (h1 | h1 | h1 | ⟨h1, h2⟩)
    · rw [hc] at h1
      exact absurd h1 (by decide)
    · exact of_decide_eq_true h1 hl
    · omega
    · rcases hstart with h0 | h0
      · exact h1 h0
      · obtain ⟨p, hp, hs⟩ := List.any_eq_true.1 h0
        have hnone := List.all_eq_true.1 h2 p hp
        rw [Option.isNone_iff_eq_none] at hnone
        rw [hnone] at hs
        exact absurd hs (by decide)
  simp only [opLaunch, hx, Option.map_some, deckCmd_open _ ho]
  rw [if_neg hgo]
  rfl

/-! ### Sync groups (R143, R432) -/

theorem groupAt_foldl_setGroup (gs : List Nat) (x : SyncGroup) (k : Deck) (g : Nat) :
    groupAt (gs.foldl (fun k g => setGroup k g x) k) g = if g ∈ gs then x else groupAt k g := by
  induction gs generalizing k with
  | nil => simp
  | cons j rest ih =>
    rw [List.foldl_cons, ih]
    by_cases hj : g = j
    · subst hj
      simp [groupAt, setGroup]
    · have hset : groupAt (setGroup k j x) g = groupAt k g := mapGet_set_other _ _ _ _ _ hj
      simp [hj, hset]

theorem freeGroups_length (k : Deck) : (freeGroups k).length ≤ 64 :=
  (List.length_filter_le _ _).trans_eq List.length_range

section
variable (q : SyncAllocP) (hr : runnable s h (.syncAlloc h q) = true) (ho : deckOpen s h q.deck (some q.ctx) = true)
  (hl : ctxLive s q.deck.toNat q.ctx = true)
include hr ho hl

theorem exec_syncAlloc_gives (hf : q.free = false) (h0 : 0 < q.count.toNat)
    (hn : q.count.toNat ≤ (freeGroups (deckAt s q.deck.toNat)).length) : ∃ t, exec (.syncAlloc h q) s = .next t ∧
      replied s t h stGood (((freeGroups (deckAt s q.deck.toNat)).take q.count.toNat).headD 0) ∧
      ∀ g, groupAt (deckAt t q.deck.toNat) g = if g ∈ (freeGroups (deckAt s q.deck.toNat)).take q.count.toNat
        then { ctx := q.ctx.setWidth 4, alloc := true } else groupAt (deckAt s q.deck.toNat) g := by
  let gs := (freeGroups (deckAt s q.deck.toNat)).take q.count.toNat
  let s1 := modDeck s q.deck.toNat (fun k => gs.foldl (fun k g => setGroup k g { ctx := q.ctx.setWidth 4, alloc := true }) k)
  let word := natBytes 8 (gs.foldl (fun m g => m + 2 ^ g) 0)
  have hle := freeGroups_length (deckAt s q.deck.toNat)
  have hop : opSyncAlloc s h q = replyNow (slotWrite s1 h 24 word) h stGood (gs.headD 0) := by
    rw [opSyncAlloc, deckCmd_open _ ho]
    simp only [hl, hf, Bool.not_true, Bool.false_eq_true, if_false]
    rw [if_neg (by omega), if_neg (by omega)]
  have hm : muted s1 h = false := (muted_of_lds (s := s) (s' := s1) rfl).trans (cmdOpen_muted (deckOpen_cmdOpen ho))
  refine ⟨_, congrArg done (runCmd_runnable (opSyncAlloc s h q) hr), ?_⟩
  rw [hop, deckAt_replyNow, hostFrame_deckAt (hostFrame_slotWrite s1 h 24 word), deckAt_modDeck]
  exact ⟨replied_of_lds (s' := s1) rfl (slotWrite_replied s1 h stGood _ 24 word hm), groupAt_foldl_setGroup gs _ _⟩

theorem exec_syncAlloc_frees (hf : q.free = true) (hown : ∀ g, g < 64 → q.mask.getLsbD g = true →
      (groupAt (deckAt s q.deck.toNat) g).alloc = true ∧ (groupAt (deckAt s q.deck.toNat) g).ctx = q.ctx.setWidth 4) :
    ∃ t, exec (.syncAlloc h q) s = .next t ∧ replied s t h stGood 0 ∧ ∀ g, g < 64 → q.mask.getLsbD g = true →
      groupAt (deckAt t q.deck.toNat) g = {} ∧ ∀ o, o / 64 = g → objAt (deckAt t q.deck.toNat) o = {} := by
  let gs := (List.range 64).filter (fun g => q.mask.getLsbD g)
  let s1 := modDeck s q.deck.toNat (fun k => { k with groups := k.groups.filter (fun e => !gs.contains e.1),
                                                      objs := k.objs.filter (fun e => !gs.contains (e.1 / 64)) })
  have hall : gs.all (fun g => (groupAt (deckAt s q.deck.toNat) g).alloc &&
      (groupAt (deckAt s q.deck.toNat) g).ctx == q.ctx.setWidth 4) = true := by
    refine List.all_eq_true.2 (fun g hg => ?_)
    obtain ⟨h1, h2⟩ := List.mem_filter.1 hg
    obtain ⟨ha, hx⟩ := hown g (List.mem_range.1 h1) h2
    rw [ha, hx, beq_self_eq_true]
    rfl
  have hop : opSyncAlloc s h q = replyNow s1 h stGood 0 := by
    rw [opSyncAlloc, deckCmd_open _ ho]
    simp only [hl, hf, Bool.not_true, Bool.false_eq_true, if_false, if_true]
    exact if_pos hall
  refine ⟨_, congrArg done (runCmd_runnable (opSyncAlloc s h q) hr), ?_⟩
  rw [hop, deckAt_replyNow, deckAt_modDeck]
  refine ⟨replyNow_after s1 (cmdOpen_muted (deckOpen_cmdOpen ho)) rfl stGood 0, fun g hg hm => ?_⟩
  have hin : gs.contains g = true := List.contains_iff_mem.2 (List.mem_filter.2 ⟨List.mem_range.2 hg, hm⟩)
  refine ⟨(mapGet_filter _ _ (fun e => !gs.contains e) g).trans (if_neg (by rw [hin]; decide)), fun o hg => ?_⟩
  exact (mapGet_filter _ _ (fun e => !gs.contains (e / 64)) o).trans (if_neg (by rw [hg, hin]; decide))

end

theorem objRefused_alloc {k : Deck} {x : BitVec 4} {o : BitVec 12} (h : objRefused k x o = none) : objAlloc k o.toNat = true := by
  by_contra hn
  rw [objRefused, if_pos (by simpa using hn)] at h
  exact absurd h (by simp)

theorem exec_syncPoison_poisons (q : SyncPoisonP) (hr : runnable s h (.syncPoison h q) = true)
    (ho : deckOpen s h q.deck (some q.ctx) = true) (hl : ctxLive s q.deck.toNat q.ctx = true) (hst : q.status ≠ 0)
    (href : objRefused (deckAt s q.deck.toNat) (q.ctx.setWidth 4) q.obj = none)
    (hw : objWaited (deckAt s q.deck.toNat) q.obj.toNat = false) : ∃ t, exec (.syncPoison h q) s = .next t ∧ replied s t h stGood 0 ∧
      (objAt (deckAt t q.deck.toNat) q.obj.toNat).poison = true ∧ (objAt (deckAt t q.deck.toNat) q.obj.toNat).status = q.status := by
  let u : ObjUpd := .poison q.obj.toNat q.status false
  have hop : opSyncPoison s h q = replyNow (setDeck s q.deck.toNat (objUpdate (deckAt s q.deck.toNat) u)) h stGood 0 := by
    rw [opSyncPoison, deckCmd_open _ ho]
    simp only [hl, Bool.not_true, Bool.false_eq_true, hst, or_self, if_false, href]
    rw [onDeck_pure s _ _ _ (settle_quiet _ u hw)]
  refine ⟨_, congrArg done (runCmd_runnable (opSyncPoison s h q) hr), ?_⟩
  have hobj := objAt_objUpdate (deckAt s q.deck.toNat) u (objRefused_alloc href)
  rw [hop, deckAt_replyNow, deckAt_setDeck]
  exact ⟨replyNow_after (setDeck s _ _) (cmdOpen_muted (deckOpen_cmdOpen ho)) rfl stGood 0, congrArg SyncObj.poison hobj, congrArg SyncObj.status hobj⟩

/-! ### Memory regions and queue pairs (R450, R451) -/

theorem exec_memMap_maps (q : MemMapP) (hr : runnable s h (.memMap h q) = true) (ho : deckOpen s h q.deck (some q.ctx) = true)
    (ha : q.access.getLsbD 3 = false) (hl : ctxLive s q.deck.toNat q.ctx = true) (hb : q.base.toNat % 4096 = 0)
    (hn : q.length.toNat % 4096 = 0) (h0 : q.length ≠ 0) (he : q.base.toNat + q.length.toNat ≤ memEnd)
    (hf : s.host.regions.length < 4096) : ∃ t key r, exec (.memMap h q) s = .next t ∧
      replied s t h stGood key ∧ (∀ e ∈ s.host.regions, e.1 ≠ key) ∧ mapGet none t.host.regions key = some r ∧
      r.port = h.ld.port ∧ r.ld = h.ld.ld ∧ r.deck = q.deck.toNat ∧ r.base = q.base.toNat ∧ r.length = q.length.toNat ∧
      r.access = q.access.setWidth 3 := by
  obtain ⟨key, hpick, -, hfree⟩ := pickFree_some s (2 ^ 32) (s.host.regions.map (·.1)) (by rw [List.length_map]; omega)
  let r : Region := { port := h.ld.port, ld := h.ld.ld, deck := q.deck.toNat, ctx := q.ctx.setWidth 4, base := q.base.toNat,
                      length := q.length.toNat, access := q.access.setWidth 3 }
  let s1 : State := { s with free := s.free + 1, host := { s.host with regions := mapSet none s.host.regions key (some r) } }
  have hlen : (q.length == 0) = false := beq_false_of_ne h0
  have hgo : (!ctxLive s q.deck.toNat q.ctx || q.base.toNat % 4096 != 0 || q.length.toNat % 4096 != 0 || q.length == 0 ||
      decide (memEnd < q.base.toNat + q.length.toNat) || decide (4096 ≤ s.host.regions.length)) = false := by
    simp only [Bool.or_eq_false_iff, Bool.not_eq_false', bne_eq_false_iff_eq, decide_eq_false_iff_not]
    exact ⟨⟨⟨⟨⟨hl, hb⟩, hn⟩, hlen⟩, by omega⟩, by omega⟩
  have hop : opMemMap s h q = replyNow s1 h stGood key := by
    rw [opMemMap, deckCmd_open _ ho]
    simp only [ha, hgo, Bool.false_eq_true, if_false, hpick]
    rfl
  refine ⟨_, key, r, congrArg done (runCmd_runnable (opMemMap s h q) hr), ?_⟩
  rw [hop, replyNow_regions]
  exact ⟨replyNow_after s1 (cmdOpen_muted (deckOpen_cmdOpen ho)) rfl stGood key, ne_of_not_mem_keys hfree, mapGet_set_same none s.host.regions key (some r),
    rfl, rfl, rfl, rfl, rfl, rfl⟩

theorem exec_memMap_unmaps (q : MemMapP) (hr : runnable s h (.memMap h q) = true) (ho : deckOpen s h q.deck (some q.ctx) = true)
    (r : Region) (ha : q.access.getLsbD 3 = true) (hg : mapGet none s.host.regions q.rkey.toNat = some r) (hp : r.port = h.ld.port)
    (hl : r.ld = h.ld.ld) : ∃ t, exec (.memMap h q) s = .next t ∧ replied s t h stGood q.rkey.toNat ∧
      mapGet none t.host.regions q.rkey.toNat = none := by
  let s1 : State := { s with host := { s.host with regions := mapSet none s.host.regions q.rkey.toNat none } }
  have hop : opMemMap s h q = replyNow s1 h stGood q.rkey.toNat := by
    rw [opMemMap, deckCmd_open _ ho]
    simp only [ha, if_true, hg]
    exact if_pos ⟨hp, hl⟩
  refine ⟨_, congrArg done (runCmd_runnable (opMemMap s h q) hr), ?_⟩
  rw [hop, replyNow_regions]
  exact ⟨replyNow_after s1 (cmdOpen_muted (deckOpen_cmdOpen ho)) rfl stGood _, mapGet_set_same none s.host.regions _ none⟩

theorem exec_qpOpen_opens (ho : cmdOpen s h = true) (hb : (heldBind (ldAt s (ldKey h.ld))).isSome = true) (q : QpOpenP)
    (hr : runnable s h (.qpOpen h q) = true) (hp : q.port.toNat ≤ 1) (h3 : 3 ≤ q.mtu.toNat) (h5 : q.mtu.toNat ≤ 5)
    (h7 : q.retry.toNat ≤ 7) (hf : s.host.qps.length < 1024) : ∃ t n x, exec (.qpOpen h q) s = .next t ∧ replied s t h stGood n ∧
      (∀ e ∈ s.host.qps, e.1 ≠ n) ∧ n < 2 ^ 24 ∧ mapGet none t.host.qps n = some x ∧ x.port = h.ld.port ∧ x.ld = h.ld.ld ∧
      x.eth = q.port.toNat ∧ x.remoteQpn = q.remoteQpn ∧ x.err = false := by
  obtain ⟨n, hpick, hn, hfree⟩ := pickFree_some s (2 ^ 24) (s.host.qps.map (·.1)) (by rw [List.length_map]; omega)
  let x : Qp := { port := h.ld.port, ld := h.ld.ld, eth := q.port.toNat, mtu := q.mtu, vlan := q.vlan, remoteQpn := q.remoteQpn,
                  sqPsn := q.sqPsn, rqPsn := q.rqPsn, remoteIp := q.remoteIp, nextHop := q.nextHop, retry := q.retry }
  let s1 : State := { s with free := s.free + 1, host := { s.host with qps := mapSet none s.host.qps n (some x) } }
  have hop : opQpOpen s h q = replyNow s1 h stGood n := by
    rw [opQpOpen, boundCmd_open _ ho hb, if_neg (by omega)]
    simp only [hpick]
    rfl
  refine ⟨_, n, x, congrArg done (runCmd_runnable (opQpOpen s h q) hr), ?_⟩
  rw [hop, replyNow_qps]
  exact ⟨replyNow_after s1 (cmdOpen_muted ho) rfl stGood n, ne_of_not_mem_keys hfree, hn, mapGet_set_same none s.host.qps n (some x), rfl, rfl, rfl, rfl, rfl⟩

section
variable (n : BitVec 32) (x : Qp) (hr : runnable s h (.qpClose h n) = true) (ho : cmdOpen s h = true)
  (hx : mapGet none s.host.qps n.toNat = some x)
include hr ho hx

theorem exec_qpClose_closes (hp : x.port = h.ld.port) (hl : x.ld = h.ld.ld) : ∃ t, exec (.qpClose h n) s = .next t ∧
    replied s t h stGood 0 ∧ mapGet none t.host.qps n.toNat = none := by
  let s1 : State := { s with host := { s.host with qps := mapSet none s.host.qps n.toNat none } }
  have hop : opQpClose s h n.toNat = replyNow s1 h stGood 0 := by
    rw [opQpClose, anyCmd_open _ ho, hx]
    exact if_pos ⟨hp, hl⟩
  refine ⟨_, congrArg done (runCmd_runnable (opQpClose s h n.toNat) hr), ?_⟩
  rw [hop, replyNow_qps]
  exact ⟨replyNow_after s1 (cmdOpen_muted ho) rfl stGood 0, mapGet_set_same none s.host.qps _ none⟩

theorem exec_qpClose_refused (hl : x.ld ≠ h.ld.ld) : ∃ t, exec (.qpClose h n) s = .next t ∧ replied s t h stNotBound 0 ∧
    t.host.qps = s.host.qps := by
  have hop : opQpClose s h n.toNat = replyNow s h stNotBound 0 := by
    rw [opQpClose, anyCmd_open _ ho, hx]
    exact if_neg (fun hb => hl hb.2)
  refine ⟨_, congrArg done (runCmd_runnable (opQpClose s h n.toNat) hr), ?_⟩
  rw [hop, replyNow_qps]
  exact ⟨replyNow_replied s h stNotBound 0 (cmdOpen_muted ho), rfl⟩

end

end

/-! ### O43 -/

/-- Settles O43, command by command. -/
theorem streamsGroupsRegionsAndQueuePairs : Obligations.StreamsGroupsRegionsAndQueuePairs := by
  intro s h
  refine ⟨exec_streamOpen_opens s h, fun q x hr hx ho hc hp => ⟨exec_streamClose_frees s h q x hr hx ho hc hp,
    exec_streamClose_later s h q x hr hx ho hc hp⟩, ?_, fun q hr ho hl => ⟨exec_syncAlloc_gives s h q hr ho hl,
    exec_syncAlloc_frees s h q hr ho hl⟩, exec_syncPoison_poisons s h, fun q hr ho => ⟨exec_memMap_maps s h q hr ho,
    exec_memMap_unmaps s h q hr ho⟩, exec_qpOpen_opens s h, fun n x hr ho hx => ⟨exec_qpClose_closes s h n x hr ho hx,
    exec_qpClose_refused s h n x hr ho hx⟩⟩
  intro q x d hr hx ho hc hl hfit
  have hm := cmdOpen_muted (deckOpen_cmdOpen ho)
  have hlen : (published d x q.publish.toNat q.start.toNat (hallNs s) h).pubs.length = x.pubs.length + q.publish.toNat := by
    rw [published, List.length_append, newPubs_length]
  have hrun := congrArg done (runCmd_runnable (opLaunch s h q) hr)
  refine ⟨fun h0 => ?_, fun h0 hany => ?_⟩
  · refine ⟨_, published d x q.publish.toNat q.start.toNat (hallNs s) h, hrun, ?_⟩
    rw [opLaunch_publishes s h q x hx ho hc hl hfit (.inl h0), if_pos h0, deckAt_replyNow, streamAt_launched]
    exact ⟨replyNow_after (launched s h q x) hm rfl stGood 0, rfl, List.take_left, hlen, rfl⟩
  · refine ⟨_, published d x q.publish.toNat q.start.toNat (hallNs s) h, hrun, ?_⟩
    rw [opLaunch_publishes s h q x hx ho hc hl hfit (.inr hany), if_neg h0, deckAt_replyPending, streamAt_launched]
    exact ⟨replyPending_after (launched s h q x) hm rfl, rfl, hlen⟩

end Sys2Proof.Machine
end


section
/-! SUPPORT. The timetable's commands (O44): what TT_LOAD reads and puts in place, what arming a map and the timetable leave
alone, the disarm, the pending variant. -/
namespace Sys2Proof.Machine
open Sys2Proof

/-! ### Commands of the owner LD -/

theorem ownerCmd_open {s : State} {h : CmdHdr} (go : State) (ho : cmdOpen s h = true) (hown : isOwner s (ldKey h.ld) = true) :
    ownerCmd s h go = go := by
  rw [ownerCmd, anyCmd_open _ ho, if_pos hown]

/-! ### Reading an LD's range with nothing for ECC to find (R55) -/

theorem touchedDecks_ldAt {s t : State} (h : touchedDecks s t) (k : Nat) : ldAt t k = ldAt s k := by
  rw [h.1]
  rfl

theorem hdmRead_touched {s t : State} (h : touchedDecks s t) (k off n : Nat) : hdmRead t k off n = hdmRead s k off n := by
  have hup : ∀ d, memUp (deckAt t d) = memUp (deckAt s d) := fun d => memUp_of_stackFrame (h.2 d)
  have hread : ∀ d a m, memRead (deckAt t d) a m = memRead (deckAt s d) a m := fun d a m => memRead_frame (h.2 d) a m
  simp only [hdmRead, touchedDecks_ldAt h, hup, hread]

/-- A command's read of its LD's range that gives data ends self-refresh at most. -/
theorem cmdRead_clean (s : State) (k off n : Nat) (m : Cells) (hc : memClean s) (hm : hdmRead s k off n = (stGood, m)) :
    ∃ t, cmdRead s k off n = ((stGood, m), t) ∧ touchedDecks s t := by
  unfold cmdRead
  cases hb : heldBind (ldAt s k) with
  | none =>
    simp only [hdmRead, hb, Prod.mk.injEq] at hm
    exact absurd hm.1 (by decide)
  | some b =>
    have ht : touchedDecks s (if hdmFits b off n then hdmEcc s b off n [] else s) := by
      split
      · exact touched_hdmEcc s b off n hc
      · exact touchedDecks_refl s
    exact ⟨_, Prod.ext ((hdmRead_touched ht k off n).trans hm) rfl, ht⟩

/-! ### TT_LOAD (R84 to R87) -/

/-- While no timetable is armed a load hits no protected variant. -/
theorem hitsProtected_unarmed (s : State) (q : TtLoadP) (h : s.tt.armed = false) : hitsProtected s q = false := by
  simp [hitsProtected, protectedVars, h]

section
variable (s : State) (k : Nat) (q : TtLoadP) (m : Cells) (hc : memClean s)
include hc

/-- TT_LOAD of records: the bytes stand as `loaded` puts them, and a TRAIN frame may tell the peer. -/
theorem ttLoad_records (ha : s.tt.armed = false) (hk : q.kind.toNat ≤ 2) (hv : q.variant.toNat < 4)
    (hm : hdmRead s k q.source.toNat ((ttShape q.kind.toNat).1 * q.count.toNat) = (stGood, m))
    (hfit : q.base.toNat + q.count.toNat ≤ (ttShape q.kind.toNat).2.1) (hu : q.portOrDeck.toNat < (ttShape q.kind.toNat).2.2)
    (hdir : q.kind = 0 → q.dir.toNat ≤ 1) :
    ∃ s1 t, touchedDecks s s1 ∧ ttLoad s k q = (stGood, t) ∧ t = { loaded s1 q m with out := t.out } := by
  obtain ⟨s1, hread, ht⟩ := cmdRead_clean s k _ _ m hc hm
  have hk3 : q.kind ≠ 3 := fun h => by simp [h] at hk
  have hgo : ¬ (3 < q.kind.toNat ∨ 4 ≤ q.variant.toNat ∨ (ttShape q.kind.toNat).2.2 ≤ q.portOrDeck.toNat ∨
      (ttShape q.kind.toNat).2.1 < q.base.toNat + q.count.toNat ∨ (q.kind = 0 ∧ 1 < q.dir.toNat) ∨ hitsProtected s q = true) := by
    rintro (h | h | h | h | ⟨h0, h⟩ | h)
    · omega
    · omega
    · omega
    · omega
    · have := hdir h0
      omega
    · rw [hitsProtected_unarmed s q ha] at h
      exact absurd h (by decide)
  have hpass : loadPasses s1 (loaded s1 q m) q.variant.toNat = true := by
    rw [loadPasses, show s1.tt.armed = false by rw [ht.1]; exact ha]
    rfl
  simp only [ttLoad, if_neg hk3]
  rw [if_neg hgo, hread]
  simp only [hpass, ne_eq, not_true_eq_false, Bool.not_true, Bool.false_eq_true, if_false]
  split
  · exact ⟨s1, _, ht, rfl, rfl⟩
  · exact ⟨s1, _, ht, rfl, rfl⟩

/-- TT_LOAD of a topology map. -/
theorem ttLoad_map (hk : q.kind = 3) (hv : q.variant = 0) (hu : q.portOrDeck = 0) (hd : q.dir = 0) (hb : q.base = 0) (hn : q.count = 1)
    (hm : hdmRead s k q.source.toNat 256 = (stGood, m)) :
    ∃ s1, touchedDecks s s1 ∧ ttLoad s k q = (stGood, modNet s1 (fun n => { n with mapLoaded := m })) := by
  obtain ⟨s1, hread, ht⟩ := cmdRead_clean s k _ _ m hc hm
  refine ⟨s1, ht, ?_⟩
  simp only [ttLoad, if_pos hk, hv, hu, hd, hb, hn, ne_eq, not_true_eq_false, or_self, if_false, hread]

end

theorem ttRange_loadPort (q : PortTt) (v r base count : Nat) (m : Cells) (hb : base < 65536) (hn : count < 2 ^ 17) :
    ttRange (loadPort q v r base count m) v r = (base, count) := by
  simp only [ttRange, loadPort, mapGet_set_same, BitVec.toNat_ofNat]
  rw [Nat.mod_eq_of_lt hb, Nat.mod_eq_of_lt hn]

theorem schedRange_loadSched (k : Deck) (v base count : Nat) (m : Cells) (hb : base < 2 ^ 13) (hn : count < 2 ^ 14) :
    schedRange (loadSched k v base count m) v = (base, count) := by
  simp only [schedRange, loadSched, mapGet_set_same, BitVec.toNat_ofNat]
  rw [Nat.mod_eq_of_lt hb, Nat.mod_eq_of_lt hn]

theorem sched_of_stackFrame {d d' : Deck} (h : stackFrame d d') : d'.sched = d.sched := by rw [h.1]

section
variable (s : State) (h : CmdHdr) (q : TtLoadP) (m : Cells) (hr : runnable s h (.ttLoad h q) = true)
  (ho : cmdOpen s h = true ∧ isOwner s (ldKey h.ld) = true) (hc : memClean s)
  (hh : cmdHeld s (ldKey h.ld) q.source.toNat (ttBytes q) = false)
  (hf : q.kind = 2 → faultRuns s q.portOrDeck.toNat none = false)
include hr ho hc hh hf

omit hc in
theorem exec_ttLoad_answers : exec (.ttLoad h q) s = done (answer h (ttLoad s (ldKey h.ld) q)) := by
  refine congrArg done ((runCmd_runnable _ hr).trans ?_)
  rw [ownerCmd_open _ ho.1 ho.2, if_neg (fun h2 => by rw [hf h2.1] at h2; exact absurd h2.2 (by decide)), if_neg (by rw [hh]; decide)]

theorem exec_ttLoad_loads (ha : s.tt.armed = false) (h0 : 0 < q.count.toNat) (hk : q.kind.toNat ≤ 2) (hv : q.variant.toNat < 4)
    (hm : hdmRead s (ldKey h.ld) q.source.toNat ((ttShape q.kind.toNat).1 * q.count.toNat) = (stGood, m))
    (hfit : q.base.toNat + q.count.toNat ≤ (ttShape q.kind.toNat).2.1) (hu : q.portOrDeck.toNat < (ttShape q.kind.toNat).2.2) :
    let v := q.variant.toNat
    let u := q.portOrDeck.toNat
    ∃ t, exec (.ttLoad h q) s = .next t ∧
      (q.kind = 0 → q.dir.toNat ≤ 1 → replied s t h stGood 0 ∧
        ttRange (portAt t u).tt v q.dir.toNat = (q.base.toNat, q.count.toNat) ∧
        (portAt t u).tt.mem = mapSplice (portAt s u).tt.mem (16 * q.base.toNat) (16 * q.count.toNat) m) ∧
      (q.kind = 1 → replied s t h stGood 0 ∧ (portAt t u).tt.land =
        mapSplice (portAt s u).tt.land (32768 * v + 8 * q.base.toNat) (8 * q.count.toNat) m) ∧
      (q.kind = 2 → replied s t h stGood 0 ∧ schedRange (deckAt t u) v = (q.base.toNat, q.count.toNat) ∧
        (deckAt t u).sched = mapSplice (deckAt s u).sched (16 * q.base.toNat) (16 * q.count.toNat) m) := by
  intro v u
  refine ⟨_, exec_ttLoad_answers s h q hr ho hh hf, ?_⟩
  by_cases hdir : q.kind = 0 → q.dir.toNat ≤ 1
  · obtain ⟨s1, t, ht, hop, hout⟩ := ttLoad_records s _ q m hc ha hk hv hm hfit hu hdir
    have hlds : t.host.lds = s.host.lds := by
      rw [hout]
      show (loaded s1 q m).host.lds = s.host.lds
      unfold loaded
      dsimp only
      split
      · rw [ht.1]; rfl
      split
      · rw [ht.1]; rfl
      · rw [ht.1]; rfl
    have hreply := replyNow_after t (cmdOpen_muted ho.1) hlds stGood 0
    have hport : portAt (replyNow t h stGood 0) u = portAt (loaded s1 q m) u := by
      rw [portAt, hostFrame_ports (hostFrame_replyNow t h stGood 0), hout, portAt]
    have hdeck : deckAt (replyNow t h stGood 0) u = deckAt (loaded s1 q m) u := by
      rw [deckAt_replyNow, hout, deckAt, deckAt]
    have hports1 : portAt s1 u = portAt s u := by rw [ht.1]; rfl
    simp only [answer, hop]
    rw [hport, hdeck]
    refine ⟨fun h0' _ => ⟨hreply, ?_⟩, fun h1 => ⟨hreply, ?_⟩, fun h2 => ⟨hreply, ?_⟩⟩
    · have hlim : (ttShape q.kind.toNat).2.1 = 65536 := by rw [h0']; rfl
      rw [loaded, if_pos h0', modPort, portAt_setPort, hports1]
      exact ⟨ttRange_loadPort _ _ _ _ _ _ (by omega) (by omega), rfl⟩
    · rw [loaded, if_neg (by rw [h1]; decide), if_pos h1, modPort, portAt_setPort, hports1]
    · have hlim : (ttShape q.kind.toNat).2.1 = 8192 := by rw [h2]; rfl
      rw [loaded, if_neg (by rw [h2]; decide), if_neg (by rw [h2]; decide), deckAt_modDeck]
      refine ⟨schedRange_loadSched _ _ _ _ _ (by omega) (by omega), ?_⟩
      rw [← sched_of_stackFrame (ht.2 u)]
      rfl
  · obtain ⟨h0', hd⟩ := Classical.not_imp.1 hdir
    refine ⟨fun _ hd' => absurd hd' hd, fun h1 => ?_, fun h2 => ?_⟩
    · exact absurd (h0'.symm.trans h1) (by decide)
    · exact absurd (h0'.symm.trans h2) (by decide)

theorem exec_ttLoad_map (hk : q.kind = 3) (hv : q.variant = 0) (hu : q.portOrDeck = 0) (hd : q.dir = 0) (hb : q.base = 0)
    (hn : q.count = 1) (hm : hdmRead s (ldKey h.ld) q.source.toNat 256 = (stGood, m)) :
    ∃ t, exec (.ttLoad h q) s = .next t ∧ replied s t h stGood 0 ∧ t.net = { s.net with mapLoaded := m } := by
  obtain ⟨s1, ht, hop⟩ := ttLoad_map s _ q m hc hk hv hu hd hb hn hm
  refine ⟨_, exec_ttLoad_answers s h q hr ho hh hf, ?_⟩
  rw [answer, hop]
  refine ⟨replyNow_after (modNet s1 _) (cmdOpen_muted ho.1) ?_ stGood 0, ?_⟩
  · rw [ht.1]; rfl
  · rw [hostFrame_net (hostFrame_replyNow _ h stGood 0), ht.1]; rfl

end

/-! ### What arming a map leaves alone (R354 to R356) -/

/-- The rings, the timetable and the armed map are as they were. -/
def armFrame (s t : State) : Prop :=
  (∀ k r, ringAt t k r = ringAt s k r) ∧ t.tt = s.tt ∧ t.net.armed = s.net.armed ∧ t.net.mapArmed = s.net.mapArmed

theorem armFrame_refl (s : State) : armFrame s s := ⟨fun _ _ => rfl, rfl, rfl, rfl⟩

theorem armFrame_trans {a b c : State} (h1 : armFrame a b) (h2 : armFrame b c) : armFrame a c :=
  ⟨fun k r => (h2.1 k r).trans (h1.1 k r), h2.2.1.trans h1.2.1, h2.2.2.1.trans h1.2.2.1, h2.2.2.2.trans h1.2.2.2⟩

theorem armFrame_foldl {α : Type} (f : State → α → State) (hf : ∀ s x, armFrame s (f s x)) (xs : List α) (s : State) :
    armFrame s (xs.foldl f s) :=
  List.foldlRecOn xs f (armFrame_refl s) (fun t ht x _ => armFrame_trans ht (hf t x))

theorem armFrame_link {s t : State} (h : linkFrame s t) : armFrame s t := by
  rw [h]
  exact ⟨fun _ _ => rfl, rfl, rfl, rfl⟩

theorem ringAt_postEvent (s : State) (k : Nat) (st : Status) (deck a0 a1 i r : Nat) :
    ringAt (postEvent s k st deck a0 a1) i r = ringAt s i r := by
  have kept : ∀ x : Ld, x.rings = (ldAt s k).rings → ringAt (setLd s k x) i r = ringAt s i r := fun x hx =>
    ringAt_modLd_kept s k i r (fun _ => x) hx
  simp only [postEvent]
  split
  · exact kept _ rfl
  · split
    · exact kept _ rfl
    · exact kept _ rfl

theorem armFrame_postAll (s : State) (st : Status) (a0 a1 : Nat) : armFrame s (postAll s st a0 a1) := by
  refine armFrame_foldl (fun s k => postEvent s k st 0xFF a0 a1) (fun t k => ⟨fun i r => ringAt_postEvent _ _ _ _ _ _ i r, ?_⟩) _ s
  rw [hostFrame_tt (hostFrame_postEvent t k st 0xFF a0 a1), hostFrame_net (hostFrame_postEvent t k st 0xFF a0 a1)]
  exact ⟨rfl, rfl, rfl⟩

theorem armFrame_portAlarm (s : State) (p : Nat) (st : Status) : armFrame s (portAlarm s p st) :=
  armFrame_trans (armFrame_postAll s st _ _) ⟨fun _ _ => rfl, rfl, rfl, rfl⟩

theorem armFrame_modPort (s : State) (p : Nat) (f : Port → Port) : armFrame s (modPort s p f) := ⟨fun _ _ => rfl, rfl, rfl, rfl⟩

theorem armFrame_startTraining (s : State) (p : Nat) : armFrame s (startTraining s p) := by
  unfold startTraining
  split <;> exact ⟨fun _ _ => rfl, rfl, rfl, rfl⟩

theorem armFrame_refused (s : State) (p n : Nat) (st : Status) (dest : BitVec 3) :
    armFrame s (portAlarm (if (portAt s p).state = 3 then leavePort s p dest (some n)
      else modPort s p (fun q => { portEvent q n with state := dest })) p st) := by
  refine armFrame_trans ?_ (armFrame_portAlarm _ p st)
  split
  · exact armFrame_link (linkFrame_leavePort s p dest _)
  · exact armFrame_modPort s p _

theorem armFrame_comparePort (s : State) (p : Nat) : armFrame s (comparePort s p) := by
  have hinc : armFrame s (incompatible s p) := armFrame_refused s p 5 stIncompatiblePeer 5
  have hmis : armFrame s (miswired s p) := armFrame_refused s p 4 stMiswired 4
  unfold comparePort
  dsimp only
  split
  · split
    · exact hinc
    · exact armFrame_refl s
  split
  · exact hmis
  split
  · exact hinc
  split <;> exact ⟨fun _ _ => rfl, rfl, rfl, rfl⟩

theorem armFrame_armPort (s : State) (p : Nat) : armFrame s (armPort s p) := by
  unfold armPort
  dsimp only
  split
  · split
    · exact armFrame_modPort s p _
    split
    · exact armFrame_trans (armFrame_modPort s p _) (armFrame_link (linkFrame_leavePort _ p 7 none))
    · exact armFrame_trans (armFrame_modPort s p _) (armFrame_modPort _ p _)
  split
  · split
    · exact armFrame_modPort s p _
    · exact armFrame_trans (armFrame_modPort s p _) (armFrame_startTraining _ p)
  split
  · exact armFrame_trans (armFrame_modPort s p _) (armFrame_startTraining _ p)
  split
  · exact armFrame_trans (armFrame_modPort s p _) (armFrame_comparePort _ p)
  · exact armFrame_modPort s p _

/-- Arming the loaded map makes it the armed one; the rings and the timetable stand. -/
theorem armFrame_armMap (s : State) : armFrame (modNet s (fun n => { n with armed := true, mapArmed := n.mapLoaded })) (armMap s) :=
  armFrame_trans (armFrame_foldl armPort armFrame_armPort _ _)
    (armFrame_foldl sendTrain (fun _ _ => ⟨fun _ _ => rfl, rfl, rfl, rfl⟩) _ _)

theorem armFrame_renumber (s : State) : armFrame s (renumber s) := by
  unfold renumber
  split <;> exact ⟨fun _ _ => rfl, rfl, rfl, rfl⟩

/-! ### TT_ARM and TT_SELECT_VARIANT (R88 to R92) -/

/-- The timetable that TT_ARM puts in place of `t`. -/
def armedTt (t : Timetable) (q : TtArmP) : Timetable :=
  { t with armed := true, begun := false, e0 := q.e0, p := q.p, step := 0, activeVar := BitVec.ofNat 2 q.variant.toNat,
           pendingValid := false, disarmPending := false }

/-- The state after the map and the checks' finding are in place, before the timetable is armed. -/
def armReady (s : State) : State := renumber (armMap (recordArmErr s none))

theorem armReady_keeps (s : State) :
    (∀ k r, ringAt (armReady s) k r = ringAt s k r) ∧ (armReady s).net.armed = true ∧ (armReady s).net.mapArmed = s.net.mapLoaded := by
  obtain ⟨hring, -, harm, hmap⟩ := armFrame_trans (armFrame_armMap (recordArmErr s none)) (armFrame_renumber _)
  exact ⟨hring, harm, hmap⟩

theorem ttArm_arms (s : State) (q : TtArmP) (hd : q.disarm = false) (ha : s.tt.armed = false) (h2 : s.htu.state = 2)
    (hmap : mapRefusal s s.net.mapLoaded = 0) (hfail : armFail s (mapBits s.net.mapLoaded 49 9) q.p.toNat = none)
    (h5 : q.e0.toNat % 5 = 0) (he : hallNs s + 1000000 ≤ q.e0.toNat) (hp : q.p ≠ 0) (hv : q.variant.toNat < 4)
    (hl : variantLoaded s q.variant.toNat = true) :
    ttArm s q = (stGood, setTt (armReady s) (armedTt (armReady s).tt q)) := by
  have hgo : ¬ (s.tt.armed = true ∨ q.e0.toNat % 5 ≠ 0 ∨ q.e0.toNat < hallNs s + 1000000 ∨ q.p = 0 ∨ 4 ≤ q.variant.toNat ∨
      (!variantLoaded s q.variant.toNat) = true ∨ (0 : Nat) ≠ 0 ∨ (none : Option (Nat × ArmErr)).isSome = true) := by
    simp only [ha, h5, hp, hl, Bool.false_eq_true, ne_eq, not_true_eq_false, Bool.not_true, Option.isSome_none, or_false, false_or]
    omega
  unfold ttArm
  dsimp only
  rw [if_neg (by rw [hd]; decide), if_neg (not_not.2 h2), hmap, hfail, if_neg hgo, if_neg (by decide)]
  rfl

theorem ttArm_adrift (s : State) (q : TtArmP) (hd : q.disarm = false) (h2 : s.htu.state ≠ 2) : ttArm s q = (stAdrift, s) := by
  unfold ttArm
  rw [if_neg (by rw [hd]; decide), if_pos h2]

theorem ttArm_disarms (s : State) (q : TtArmP) (hd : q.disarm = true) (ha : s.tt.armed = true) (hp : s.tt.disarmPending = false) :
    ttArm s q = (stGood, setTt s { s.tt with disarmPending := true, disarmStep := disarmAt s }) := by
  unfold ttArm
  rw [if_pos hd, if_neg (by rw [ha]; decide), if_neg (by rw [hp]; decide)]

/-- The step of a disarm begins at least 4,000 ticks ahead (R92). -/
theorem disarmAt_ahead (s : State) (hp : s.tt.p ≠ 0) : hallNs s + 20000 ≤ epochNs s.tt (disarmAt s) := by
  unfold disarmAt epochNs
  dsimp only
  split
  · omega
  · have hpos : 0 < 5 * s.tt.p.toNat := by
      have : s.tt.p.toNat ≠ 0 := fun h => hp (BitVec.eq_of_toNat_eq h)
      omega
    have hdiv := Nat.lt_div_mul_add hpos (a := hallNs s + 20000 - s.tt.e0.toNat + 5 * s.tt.p.toNat - 1)
    rw [show 5 * ((hallNs s + 20000 - s.tt.e0.toNat + 5 * s.tt.p.toNat - 1) / (5 * s.tt.p.toNat) * s.tt.p.toNat) =
      (hallNs s + 20000 - s.tt.e0.toNat + 5 * s.tt.p.toNat - 1) / (5 * s.tt.p.toNat) * (5 * s.tt.p.toNat) by ring]
    omega

theorem ttSelect_notes (s : State) (q : TtSelectP) (ha : s.tt.armed = true) (hv : q.variant.toNat < 4)
    (hl : variantLoaded s q.variant.toNat = true) (he : hallNs s + 20000 ≤ epochNs s.tt q.step.toNat) :
    ttSelect s q = (stGood, setTt s { s.tt with
      pendingVar := BitVec.ofNat 2 q.variant.toNat, pendingValid := true, pendingStep := q.step }) := by
  have hgo : ¬ ((!s.tt.armed) = true ∨ 4 ≤ q.variant.toNat ∨ (!variantLoaded s q.variant.toNat) = true ∨
      epochNs s.tt q.step.toNat < hallNs s + 20000) := by
    simp only [ha, hl, Bool.not_true, Bool.false_eq_true, false_or]
    omega
  exact if_neg hgo

theorem replyNow_setTt (s : State) (t : Timetable) (h : CmdHdr) (st : Status) (res : Nat) (hm : muted s h = false) :
    replied s (replyNow (setTt s t) h st res) h st res :=
  replyNow_after (setTt s t) hm rfl st res

section
variable (s : State) (h : CmdHdr) (ho : cmdOpen s h = true ∧ isOwner s (ldKey h.ld) = true)
include ho

theorem exec_ttArm_answers (q : TtArmP) (hr : runnable s h (.ttArm h q) = true) :
    exec (.ttArm h q) s = done (answer h (ttArm s q)) :=
  congrArg done ((runCmd_runnable _ hr).trans (ownerCmd_open _ ho.1 ho.2))

theorem exec_ttArm_arms (q : TtArmP) (hr : runnable s h (.ttArm h q) = true)
    (hop : ttArm s q = (stGood, setTt (armReady s) (armedTt (armReady s).tt q))) (hv : q.variant.toNat < 4) :
    ∃ t, exec (.ttArm h q) s = .next t ∧ replied s t h stGood 0 ∧
      t.tt.armed = true ∧ t.tt.e0 = q.e0 ∧ t.tt.p = q.p ∧ t.tt.activeVar.toNat = q.variant.toNat ∧ t.tt.begun = false ∧
      t.net.armed = true ∧ t.net.mapArmed = s.net.mapLoaded := by
  obtain ⟨hring, harm, hmap⟩ := armReady_keeps s
  have hhost := hostFrame_replyNow (setTt (armReady s) (armedTt (armReady s).tt q)) h stGood 0
  refine ⟨_, exec_ttArm_answers s h ho q hr, ?_⟩
  rw [answer, hop, hostFrame_tt hhost, hostFrame_net hhost]
  generalize armReady s = r at hring harm hmap
  refine ⟨?_, rfl, rfl, rfl, ?_, rfl, harm, hmap⟩
  · refine replied_of_ring (congrArg Ring.srTail (hring _ _)) (replyNow_replied _ h stGood 0 ?_)
    exact (muted_of_ring (hring _ _)).trans (cmdOpen_muted ho.1)
  · show (BitVec.ofNat 2 q.variant.toNat).toNat = _
    rw [BitVec.toNat_ofNat, Nat.mod_eq_of_lt hv]

theorem exec_ttArm_adrift (q : TtArmP) (hr : runnable s h (.ttArm h q) = true) (hd : q.disarm = false) (h2 : s.htu.state ≠ 2) :
    ∃ t, exec (.ttArm h q) s = .next t ∧ replied s t h stAdrift 0 ∧ t.tt = s.tt := by
  refine ⟨_, exec_ttArm_answers s h ho q hr, ?_⟩
  rw [answer, ttArm_adrift s q hd h2]
  exact ⟨replyNow_replied s h stAdrift 0 (cmdOpen_muted ho.1), hostFrame_tt (hostFrame_replyNow s h stAdrift 0)⟩

theorem exec_ttArm_disarms (q : TtArmP) (hr : runnable s h (.ttArm h q) = true) (hd : q.disarm = true) (ha : s.tt.armed = true)
    (hp : s.tt.disarmPending = false) : ∃ t, exec (.ttArm h q) s = .next t ∧ replied s t h stGood 0 ∧
      t.tt.disarmPending = true ∧ (s.tt.p ≠ 0 → hallNs s + 20000 ≤ epochNs s.tt t.tt.disarmStep) := by
  refine ⟨_, exec_ttArm_answers s h ho q hr, ?_⟩
  rw [answer, ttArm_disarms s q hd ha hp, hostFrame_tt (hostFrame_replyNow _ h stGood 0)]
  exact ⟨replyNow_setTt s _ h stGood 0 (cmdOpen_muted ho.1), rfl, disarmAt_ahead s⟩

theorem exec_ttSelect_notes (q : TtSelectP) (hr : runnable s h (.ttSelectVariant h q) = true) (ha : s.tt.armed = true)
    (hv : q.variant.toNat < 4) (hl : variantLoaded s q.variant.toNat = true) (he : hallNs s + 20000 ≤ epochNs s.tt q.step.toNat) :
    ∃ t, exec (.ttSelectVariant h q) s = .next t ∧ replied s t h stGood 0 ∧
      t.tt = { s.tt with pendingVar := BitVec.ofNat 2 q.variant.toNat, pendingValid := true, pendingStep := q.step } := by
  refine ⟨_, congrArg done ((runCmd_runnable _ hr).trans (ownerCmd_open _ ho.1 ho.2)), ?_⟩
  rw [answer, ttSelect_notes s q ha hv hl he, hostFrame_tt (hostFrame_replyNow _ h stGood 0)]
  exact ⟨replyNow_setTt s _ h stGood 0 (cmdOpen_muted ho.1), rfl⟩

end

end Sys2Proof.Machine
end


section
/-! SUPPORT. JOB_EPOCH, SNAPSHOT and its two ends (O44): the context's hold, the fingerprint area, the copy that ships. -/
namespace Sys2Proof.Machine
open Sys2Proof

theorem ctxAt_memWrite (k : Deck) (a n : Nat) (src : Cells) (x : Nat) : ctxAt (memWrite k a n src) x = ctxAt k x := by
  rw [memWrite_frame]
  rfl

/-! ### JOB_EPOCH (R266, R267, R276) -/

/-- The hold of a context whose step JOB_EPOCH begins. -/
def jobHold (o : Hold) (q : JobEpochP) : Hold :=
  { o with
    step := q.step, attempt := 0, status := 0, origin := 0, gate := 0, defer := false, applyObj := q.applyObj,
    mbase := q.mbase.setWidth 40, msize := q.msize.setWidth 40, base := q.hbase.setWidth 40, size := q.hsize.setWidth 40,
    fpSlots := q.fpSlots.setWidth 13, top := 0, entries := 0, configured := true, opening := false }

/-- The context as JOB_EPOCH leaves it, before the fingerprint area is zeroed. -/
def jobDeck (k : Deck) (q : JobEpochP) : Deck :=
  setCtx k q.ctx.toNat { ctxAt k q.ctx.toNat with hold := jobHold (ctxAt k q.ctx.toNat).hold q }

theorem memWriteSt_jobDeck (k : Deck) (q : JobEpochP) (a n : Nat) : memWriteSt (jobDeck k q) a n = memWriteSt k a n := rfl

section
variable (s : State) (h : CmdHdr)

theorem opJobEpoch_begins (q : JobEpochP) (ho : deckOpen s h q.deck (some q.ctx) = true)
    (hl : ctxLive s q.deck.toNat q.ctx = true) (hj : jobRefused s q = false) :
    opJobEpoch s h q = replyNow (modDeck s q.deck.toNat (fun k => memWrite (jobDeck k q) (fpArea q).1 (fpArea q).2 [])) h
      (memWriteSt (deckAt s q.deck.toNat) (fpArea q).1 (fpArea q).2) 0 := by
  have hgo : ¬ ((!ctxLive s q.deck.toNat q.ctx || jobRefused s q) = true) := by rw [hl, hj]; decide
  rw [opJobEpoch, deckCmd_open _ ho]
  exact if_neg hgo

theorem exec_jobEpoch_begins (q : JobEpochP) (hr : runnable s h (.jobEpoch h q) = true)
    (ho : deckOpen s h q.deck (some q.ctx) = true) (hl : ctxLive s q.deck.toNat q.ctx = true) (hj : jobRefused s q = false)
    (hh : rangeHeld (deckAt s q.deck.toNat) (fpArea q).1 (fpArea q).2 = false)
    (hw : memWriteSt (deckAt s q.deck.toNat) (fpArea q).1 (fpArea q).2 = stGood) :
    ∃ t, exec (.jobEpoch h q) s = .next t ∧ replied s t h stGood 0 ∧
      (∀ a, deckByte t q.deck.toNat a =
        if (fpArea q).1 ≤ a ∧ a < (fpArea q).1 + (fpArea q).2 then 0 else deckByte s q.deck.toNat a) ∧
      (ctxAt (deckAt t q.deck.toNat) q.ctx.toNat).hold = jobHold (ctxAt (deckAt s q.deck.toNat) q.ctx.toNat).hold q := by
  let s1 := modDeck s q.deck.toNat (fun k => memWrite (jobDeck k q) (fpArea q).1 (fpArea q).2 [])
  have hdeck : ∀ res, deckAt (replyNow s1 h stGood res) q.deck.toNat =
      memWrite (jobDeck (deckAt s q.deck.toNat) q) (fpArea q).1 (fpArea q).2 [] := fun res => by
    rw [deckAt_replyNow, deckAt_modDeck]
  have hexec : exec (.jobEpoch h q) s = done (replyNow s1 h stGood 0) := by
    refine congrArg done ((if_neg (by rw [hh]; decide)).trans ((runCmd_runnable _ hr).trans ?_))
    rw [opJobEpoch_begins s h q ho hl hj, hw]
  refine ⟨_, hexec, replyNow_after s1 (cmdOpen_muted (deckOpen_cmdOpen ho)) rfl stGood 0, fun a => ?_, ?_⟩
  · rw [deckByte, hdeck, cellGet_memWrite _ _ _ _ ((memWriteSt_jobDeck _ q _ _).trans hw)]
    rfl
  · rw [hdeck, ctxAt_memWrite, jobDeck, ctxAt_setCtx]

/-! ### SNAPSHOT (R293) -/

theorem exec_snapshot_starts (q : SnapshotP) (hr : runnable s h (.snapshot h q) = true)
    (ho : deckOpen s h q.deck (some q.ctx) = true) (hl : ctxLive s q.deck.toNat q.ctx = true) (hj : snapRefused s q = false) :
    ∃ t, exec (.snapshot h q) s = .next t ∧ replied s t h stPending 0 ∧
      (ctxAt (deckAt t q.deck.toNat) q.ctx.toNat).hold.snapState = 1 := by
  have hgo : ¬ ((!ctxLive s q.deck.toNat q.ctx || snapRefused s q) = true) := by rw [hl, hj]; decide
  refine ⟨_, congrArg done (runCmd_runnable (opSnapshot s h q) hr), ?_⟩
  rw [opSnapshot, deckCmd_open _ ho]
  dsimp only
  rw [if_neg hgo, deckAt_replyPending, deckAt_modDeck, ctxAt_setCtx]
  exact ⟨replyPending_after (modDeck s q.deck.toNat _) (cmdOpen_muted (deckOpen_cmdOpen ho)) rfl, rfl⟩

end

/-! ### The copy of a snapshot (R294, R295) -/

theorem ctxAt_of_stackFrame {d d' : Deck} (h : stackFrame d d') (x : Nat) : ctxAt d' x = ctxAt d x := by
  rw [h.1]
  rfl

/-- Without poison nothing of a write is discarded. -/
theorem memWritePartial_whole (d : Deck) (a : Nat) (bs : List Byte) (hb : d.memBad = []) : (memWritePartial d a bs).2 = false := by
  have h0 : ∀ k, mapGet false d.memBad k = false := by intro k; rw [hb]; rfl
  simp [memWritePartial, h0]

section
variable (s : State) (d : Nat) (x : BitVec 4) (j : SnapJob) (k : Deck)

theorem snapCopy_beyond (h : memEnd < j.dst.toNat + 32 + j.length.toNat) : snapCopy s d x j k = (stBadParam, k) := if_pos h

variable (hin : j.dst.toNat + 32 + j.length.toNat ≤ memEnd)
include hin

theorem snapCopy_poison (h : memRead k (ctxAt k x.toNat).hold.mbase.toNat j.length.toNat = none) :
    snapCopy s d x j k = (stMemPoison, k) := by
  simp only [snapCopy, if_neg (Nat.not_lt.2 hin), h]

/-- A copy that stands: the context as it was, the master region's bytes behind the 32 of the header. -/
theorem snapCopy_stands (m : Cells) (h : memRead k (ctxAt k x.toNat).hold.mbase.toNat j.length.toNat = some m) (hb : k.memBad = [])
    (hw : memWriteSt k j.dst.toNat (32 + j.length.toNat) = stGood) :
    ∃ k', snapCopy s d x j k = (stGood, k') ∧ ctxAt k' x.toNat = ctxAt k x.toNat ∧
      ∀ i, i < j.length.toNat → cellGet k'.mem (j.dst.toNat + 32 + i) = cellGet k.mem ((ctxAt k x.toNat).hold.mbase.toNat + i) := by
  let bs := readBytes m 0 j.length.toNat
  let all := snapHeader s d x (ctxAt k x.toNat).hold.snapTag bs ++ bs
  have hhead : (snapHeader s d x (ctxAt k x.toNat).hold.snapTag bs).length = 32 := natBytes_length _ _
  have hbs : bs.length = j.length.toNat := by simp [bs, readBytes]
  have hall : all.length = 32 + j.length.toNat := by rw [List.length_append, hhead, hbs]
  refine ⟨memWrite k j.dst.toNat all.length (bytesCells all), ?_, ctxAt_memWrite _ _ _ _ _, fun i hi => ?_⟩
  · simp only [snapCopy, if_neg (Nat.not_lt.2 hin), h, memWritePartial_whole _ _ _ hb, Bool.false_eq_true, if_false, hw]
    exact congrArg _ (memWritePartial_clean k j.dst.toNat all hb)
  · rw [cellGet_memWrite _ _ _ _ (by rw [hall]; exact hw), if_pos (by omega), cellGet_bytesCells]
    have hidx : j.dst.toNat + 32 + i - j.dst.toNat = 32 + i := by omega
    have hget : bs.getD i 0 = cellGet m i := by
      simp [bs, readBytes, List.getD_eq_getElem?_getD, hi]
    rw [hidx, List.getD_append_right _ _ _ _ (by omega), hhead, Nat.add_sub_cancel_left, hget, memRead_get _ _ _ _ h, if_pos hi]

end

theorem deckAt_replyFinal (s : State) (h : CmdHdr) (st : Status) (res d : Nat) : deckAt (replyFinal s h st res) d = deckAt s d :=
  hostFrame_deckAt (hostFrame_replyFinal s h st res) d

/-- The context of a snapshot whose copy gave `r`: it ships, or it ends. -/
def copyCtx (ships : Bool) (c : Ctx) (st : Status) : Ctx :=
  if st ≠ stGood then { c with snap := none, hold := { openWaiting c.hold with snapState := 4, snapStatus := st } }
  else if ships then { c with hold := { openWaiting c.hold with snapState := 2 } }
  else { c with snap := none, hold := { openWaiting c.hold with snapState := 4, snapStatus := stLinkLost } }

section
variable (s : State) (d : Fin 8) (x : BitVec 4) (j : SnapJob) (hj : (ctxAt (deckAt s d) x.toNat).snap = some j)

/-- A snapshot that ended without a copy to ship. -/
def snapEnded (t : State) (st : Status) : Prop :=
  (ctxAt (deckAt t d) x.toNat).hold.snapState = 4 ∧ (ctxAt (deckAt t d) x.toNat).hold.snapStatus = st ∧
    (ctxAt (deckAt t d) x.toNat).snap = none

include hj

/-- The deck after SNAPSHOT_COPY_DONE: what the copy gave, and the context told of it. -/
theorem deckAt_opSnapCopied (hst : (ctxAt (deckAt s d) x.toNat).hold.snapState = 1)
    (hr : rangeHeld (deckAt s d) (ctxAt (deckAt s d) x.toNat).hold.mbase.toNat j.length.toNat = false)
    (hw : rangeHeld (deckAt s d) j.dst.toNat (32 + j.length.toNat) = false) (hlat : (deckAt s d).latent = []) :
    ∃ s0 k, stackFrame (deckAt s d) k ∧ deckAt (opSnapCopied s d x) d =
      setCtx (snapCopy s0 d x j k).2 x.toNat
        (copyCtx (qpShips s j.hdr.ld j.qpn.toNat) (ctxAt (snapCopy s0 d x j k).2 x.toNat) (snapCopy s0 d x j k).1) := by
  obtain ⟨s0, hs0⟩ : ∃ s0, s0 = setDeck s d (touch (deckAt s d) (ctxAt (deckAt s d) x.toNat).hold.mbase.toNat j.length.toNat) :=
    ⟨_, rfl⟩
  have hgo : ¬ ((decide ((ctxAt (deckAt s d) x.toNat).hold.snapState ≠ 1) ||
      rangeHeld (deckAt s d) (ctxAt (deckAt s d) x.toNat).hold.mbase.toNat j.length.toNat ||
      rangeHeld (deckAt s d) j.dst.toNat (32 + j.length.toNat)) = true) := by
    simp [hst, hr, hw]
  have hq : qpShips s0 j.hdr.ld j.qpn.toNat = qpShips s j.hdr.ld j.qpn.toNat := by rw [hs0]; rfl
  refine ⟨s0, deckAt s0 d, ?_, ?_⟩
  · rw [hs0, deckAt_setDeck]
    exact touch_frame _ _ _
  · unfold opSnapCopied
    simp only [hj]
    rw [if_neg hgo, onDeck_eccRange_nil s d _ _ _ hlat, ← hs0, ← hq]
    generalize snapCopy s0 d x j (deckAt s0 d) = r
    unfold copyCtx
    split
    · rw [deckAt_replyFinal, deckAt_setDeck]
    split
    · exact (deckAt_replyFinal _ _ _ _ _).trans (deckAt_setDeck _ _ _)
    · rw [deckAt_replyFinal, deckAt_setDeck]

end

section
variable (s : State) (d : Fin 8) (x : BitVec 4) (j : SnapJob) (hj : (ctxAt (deckAt s d) x.toNat).snap = some j)
include hj

theorem exec_snapshotCopyDone_ends (hst : (ctxAt (deckAt s d) x.toNat).hold.snapState = 1)
    (hr : rangeHeld (deckAt s d) (ctxAt (deckAt s d) x.toNat).hold.mbase.toNat j.length.toNat = false)
    (hw : rangeHeld (deckAt s d) j.dst.toNat (32 + j.length.toNat) = false) (hlat : (deckAt s d).latent = []) :
    ∃ t, exec (.snapshotCopyDone d x) s = .next t ∧
      (memEnd < j.dst.toNat + 32 + j.length.toNat → snapEnded d x t stBadParam) ∧
      (j.dst.toNat + 32 + j.length.toNat ≤ memEnd →
        memRead (deckAt s d) (ctxAt (deckAt s d) x.toNat).hold.mbase.toNat j.length.toNat = none → snapEnded d x t stMemPoison) ∧
      (j.dst.toNat + 32 + j.length.toNat ≤ memEnd →
        (memRead (deckAt s d) (ctxAt (deckAt s d) x.toNat).hold.mbase.toNat j.length.toNat).isSome = true →
        (deckAt s d).memBad = [] → memWriteSt (deckAt s d) j.dst.toNat (32 + j.length.toNat) = stGood →
        (∀ i, i < j.length.toNat → deckByte t d (j.dst.toNat + 32 + i) =
          deckByte s d ((ctxAt (deckAt s d) x.toNat).hold.mbase.toNat + i)) ∧
        (qpShips s j.hdr.ld j.qpn.toNat = true → (ctxAt (deckAt t d) x.toNat).hold.snapState = 2 ∧
          (ctxAt (deckAt t d) x.toNat).snap = some j) ∧
        (qpShips s j.hdr.ld j.qpn.toNat = false → snapEnded d x t stLinkLost)) := by
  obtain ⟨s0, k, hk, hdeck⟩ := deckAt_opSnapCopied s d x j hj hst hr hw hlat
  have hctx : ctxAt k x.toNat = ctxAt (deckAt s d) x.toNat := ctxAt_of_stackFrame hk _
  have hread : memRead k (ctxAt k x.toNat).hold.mbase.toNat j.length.toNat =
      memRead (deckAt s d) (ctxAt (deckAt s d) x.toNat).hold.mbase.toNat j.length.toNat := by rw [hctx, memRead_frame hk]
  refine ⟨_, rfl, fun hend => ?_, fun hin hnone => ?_, fun hin hsome hb hgood => ?_⟩
  · rw [snapCopy_beyond s0 d x j k hend] at hdeck
    rw [snapEnded, hdeck, ctxAt_setCtx, copyCtx, if_pos (show stBadParam ≠ stGood by decide)]
    exact ⟨rfl, rfl, rfl⟩
  · rw [snapCopy_poison s0 d x j k hin (hread.trans hnone)] at hdeck
    rw [snapEnded, hdeck, ctxAt_setCtx, copyCtx, if_pos (show stMemPoison ≠ stGood by decide)]
    exact ⟨rfl, rfl, rfl⟩
  · obtain ⟨m, hm⟩ := Option.isSome_iff_exists.1 hsome
    obtain ⟨k', hcopy, hctx', hbytes⟩ := snapCopy_stands s0 d x j k hin m (hread.trans hm)
      ((memBad_of_stackFrame hk).trans hb) ((memWriteSt_frame hk _ _).trans hgood)
    rw [hcopy] at hdeck
    refine ⟨fun i hi => ?_, fun hq => ?_, fun hq => ?_⟩
    · rw [deckByte, hdeck]
      refine (hbytes i hi).trans ?_
      rw [hctx, mem_of_stackFrame hk]
      rfl
    · rw [hdeck, ctxAt_setCtx, copyCtx, if_neg (fun hne => hne rfl), if_pos hq]
      exact ⟨rfl, by rw [hctx', hctx, hj]⟩
    · rw [snapEnded, hdeck, ctxAt_setCtx, copyCtx, if_neg (fun hne => hne rfl), if_neg (by rw [hq]; decide)]
      exact ⟨rfl, rfl, rfl⟩

theorem exec_snapshotShipDone_valid (hst : (ctxAt (deckAt s d) x.toNat).hold.snapState = 2)
    (hq : qpShips s j.hdr.ld j.qpn.toNat = true) :
    ∃ t, exec (.snapshotShipDone d x true) s = .next t ∧ onlyDeck s t d ∧ (ctxAt (deckAt t d) x.toNat).hold.snapState = 3 ∧
      (ctxAt (deckAt t d) x.toNat).snap = none := by
  have hgo : (ctxAt (deckAt s d) x.toNat).snap.isSome ∧ (ctxAt (deckAt s d) x.toNat).hold.snapState = 2 := ⟨by rw [hj]; rfl, hst⟩
  refine ⟨_, rfl, ?_⟩
  unfold opSnapShipped
  dsimp only
  rw [if_pos hgo]
  refine ⟨setDeck_onlyDeck s d _, ?_⟩
  rw [deckAt_modDeck, ctxAt_setCtx]
  simp only [hj, hq, Bool.and_self, if_true, and_self]

end

end Sys2Proof.Machine
end


section
/-! SUPPORT. RESET (O44): what a compute or a full reset of a deck leaves whatever collectives are on the module, and the
module reset that is due 10 µs later. -/
namespace Sys2Proof.Machine
open Sys2Proof

/-! ### The members of collectives that a reset ends (R409) -/

/-- Of every deck only the contexts differ. -/
def ctxsOnly (s t : State) : Prop := ∀ e, deckAt t e = { deckAt s e with ctxs := (deckAt t e).ctxs }

theorem ctxsOnly_refl (s : State) : ctxsOnly s s := fun _ => rfl

theorem ctxsOnly_trans {a b c : State} (h1 : ctxsOnly a b) (h2 : ctxsOnly b c) : ctxsOnly a c := fun e => by rw [h2 e, h1 e]

theorem ctxsOnly_of_churnFrame {s t : State} (h : churnFrame s t) : ctxsOnly s t := fun e => by
  rw [h]
  rfl

theorem ctxsOnly_setCtx (s : State) (d : Nat) (x : Nat) (f : Deck → Ctx) : ctxsOnly s (modDeck s d (fun k => setCtx k x (f k))) := fun e => by
  by_cases he : e = d
  · subst he
    rw [deckAt_modDeck]
    rfl
  · rw [modDeck, deckAt_setDeck_other _ _ _ _ he]

theorem churnFrame_tellLocal (s : State) (c : Coll) (st : Status) : churnFrame s (tellLocal s c st) :=
  churnFrame_foldl _ (fun t e => churnFrame_noteMember t e st) _ s

theorem ctxsOnly_resetColls (s : State) (d : Nat) (p : BitVec 4 → Bool) : ctxsOnly s (resetColls s d p) := by
  refine List.foldlRecOn _ _ (ctxsOnly_refl s) (fun t ht c _ => ctxsOnly_trans ht ?_)
  have hput : ctxsOnly t (putColl t { c with silent := true }) := ctxsOnly_of_churnFrame (churnFrame_putColl t _)
  have hctx := ctxsOnly_trans hput (ctxsOnly_setCtx (putColl t { c with silent := true }) d c.ctx.toNat (fun k =>
    { ctxAt k c.ctx.toNat with running := (ctxAt k c.ctx.toNat).running.erase c.desc.slot }))
  dsimp only
  split
  · exact hctx
  · exact ctxsOnly_trans hctx (ctxsOnly_of_churnFrame (churnFrame_trans (churnFrame_tellLocal _ _ _) (churnFrame_flood _ _ _ _ _)))

theorem ctxsOnly_resetMembers (s : State) (d : Nat) (x : Scope) : ctxsOnly s (resetMembers s d x) := by
  cases x with
  | engine => exact ctxsOnly_refl s
  | ctx _ c => exact ctxsOnly_resetColls s d _
  | compute => exact ctxsOnly_resetColls s d _
  | full => exact ctxsOnly_resetColls s d _
  | module => exact ctxsOnly_resetColls s d _
  | cmdp => exact ctxsOnly_resetColls s d _

theorem deckAt_modRst (s : State) (f : Rst → Rst) (d : Nat) : deckAt (modRst s f) d = deckAt s d := rfl

/-! ### A whole deck in reset (R523) -/

/-- The scopes that are a whole deck. -/
def wholeDeck (x : Scope) (d : Nat) : Prop := scopeDeck x = some d ∧ 3 ≤ scopeLevel x

/-- A reset of a whole deck that no running one absorbs: the deck's memory and its reset state are what its part of the reset
gives. -/
theorem deckReset_whole (s : State) (x : Scope) (cores : List Nat) (src det d : Nat) (esc : Bool) (hdr : Option CmdHdr)
    (hx : wholeDeck x d) (hr : resetRuns s x = false) :
    let t := deckReset s x cores src det esc hdr
    (deckAt t d).reset = (resetOnDeck x cores (deckAt s d)).1.reset ∧ (deckAt t d).mem = (resetOnDeck x cores (deckAt s d)).1.mem := by
  obtain ⟨hd, hlev⟩ := hx
  intro t
  obtain ⟨w, hw⟩ : ∃ w, w = causeWord (scopeLevel x) src (if src = 3 then det else 0) d
    (if scopeLevel x = 1 then (scopeCtx x).toNat else 0) esc (nextReset s) := ⟨_, rfl⟩
  obtain ⟨s1, hs1⟩ : ∃ s1, s1 = takeSample (recordCause s w) x cores w := ⟨_, rfl⟩
  have h1 : deckAt s1 d = deckAt s d := by
    rw [hs1, takeSample_rst]
    rfl
  obtain ⟨s2, hs2⟩ : ∃ s2, s2 = resetMembers (putDeck s1 d (resetOnDeck x cores (deckAt s1 d))) d x := ⟨_, rfl⟩
  have h2 : deckAt s2 d = { (resetOnDeck x cores (deckAt s d)).1 with ctxs := (deckAt s2 d).ctxs } := by
    have hput := hostFrame_deckAt (putDeck_replies s1 d _ (resetOnDeck_replies x cores (deckAt s1 d))) d
    rw [deckAt_setDeck, h1] at hput
    have hm := ctxsOnly_resetMembers (putDeck s1 d (resetOnDeck x cores (deckAt s1 d))) d x d
    rw [← hs2, h1, hput] at hm
    exact hm
  obtain ⟨stamp, hst⟩ : ∃ f, f = stampCleared (clockNs s) x (scopeCores (deckAt s1 d) x cores) := ⟨_, rfl⟩
  have hstamp : ∀ k, (stamp k).reset = k.reset ∧ (stamp k).mem = k.mem := fun k => by
    rw [hst]
    cases x with
    | compute => exact ⟨rfl, rfl⟩
    | full => exact ⟨rfl, rfl⟩
    | ctx => exact absurd hlev (Nat.not_le.2 (by decide : 1 < 3))
    | engine => exact absurd hlev (Nat.not_le.2 (by decide : 2 < 3))
    | module => exact ⟨rfl, rfl⟩
    | cmdp => exact ⟨rfl, rfl⟩
  obtain ⟨s3, hs3⟩ : ∃ s3, s3 = modDeck s2 d stamp := ⟨_, rfl⟩
  have h3 : deckAt s3 d = stamp (deckAt s2 d) := by rw [hs3, deckAt_modDeck]
  have hdrop : (deckAt (dropNotices (repairRows s3 [d]) d) d).reset = (deckAt s3 d).reset ∧
      (deckAt (dropNotices (repairRows s3 [d]) d) d).mem = (deckAt s3 d).mem := by
    rw [hostFrame_deckAt (hostFrame_dropNotices _ d), (repairRows_frame s3 d).2.2]
    exact ⟨rfl, rfl⟩
  have ht : deckAt t d = deckAt (if scopeLevel x = 4 then dropNotices (repairRows s3 [d]) d else s3) d := by
    simp only [t]
    unfold deckReset
    rw [hd]
    dsimp only
    rw [if_neg (by rw [hr]; decide), deckAt_modRst, ← hw, ← hs1, ← hs2, ← hst, ← hs3,
      hostFrame_deckAt (hostFrame_postDeck _ d stIsolated _ 0)]
  have hlast : (deckAt t d).reset = (deckAt s3 d).reset ∧ (deckAt t d).mem = (deckAt s3 d).mem := by
    rw [ht]
    split
    · exact hdrop
    · exact ⟨rfl, rfl⟩
  rw [hlast.1, hlast.2, h3, (hstamp _).1, (hstamp _).2, h2]
  exact ⟨rfl, rfl⟩

theorem computeReset_mem (k : Deck) : (computeReset k).1.mem = k.mem := by rw [(computeReset_frame k).1]

/-- No reset that would absorb one of the deck's compute domain, nor one of the module: none absorbs one of the whole deck. -/
theorem resetRuns_full (s : State) (d : Fin 8) (hr : resetRuns s (.compute d) = false) (hm : ∀ r ∈ s.rst.running, r.scope ≠ .module) :
    resetRuns s (.full d) = false := by
  rw [resetRuns, List.any_eq_false] at hr ⊢
  intro r hin hcov
  rw [Bool.and_eq_true, decide_eq_true_eq] at hcov
  obtain ⟨hc, hl⟩ := hcov
  refine hr r hin ?_
  cases hs : r.scope with
  | full e =>
    rw [hs] at hc
    have he : d = e := by simpa [scopeCovers, scopeDeck, Fin.ext_iff] using hc
    simp [scopeCovers, scopeDeck, scopeLevel, he]
  | module => exact absurd hs (hm r hin)
  | ctx e c => rw [hs] at hl; exact absurd hl (Nat.not_le.2 (show 1 < 4 by decide))
  | engine e c i => rw [hs] at hl; exact absurd hl (Nat.not_le.2 (show 2 < 4 by decide))
  | compute e => rw [hs] at hl; exact absurd hl (Nat.not_le.2 (show 3 < 4 by decide))
  | cmdp => rw [hs] at hl; exact absurd hl (Nat.not_le.2 (show 0 < 4 by decide))

section
variable (s : State) (h : CmdHdr) (q : ResetP)

theorem deckOpen_lt (d : BitVec 8) (x : Option (BitVec 8)) (ho : deckOpen s h d x = true) : d.toNat < 8 := by
  simp only [deckOpen, Bool.and_eq_true, decide_eq_true_eq] at ho
  exact ho.1.1.2

theorem opResetDeck_whole (x : Scope) (hl : 3 ≤ q.level.toNat) (ho : deckOpen s h q.deck none = true) (hr : resetRuns s x = false) :
    opResetDeck s h q x = replyNow (applyReset s x [q.core.toNat] 5 0 false (some h)) h stGood 0 := by
  have h12 : ¬ q.level.toNat ≤ 2 := by omega
  have hgo : ¬ (((q.level.toNat = 1 ∨ (q.level.toNat = 2 ∧ q.core = 0xFFFF)) ∧ (!ctxLive s q.deck.toNat q.ctx) = true) ∨
      (q.level.toNat = 2 ∧ q.core ≠ 0xFFFF ∧ 3200 ≤ q.core.toNat)) := by omega
  unfold opResetDeck
  dsimp only
  rw [if_neg h12, deckCmd_open _ ho, if_neg hgo, if_neg (by rw [hr]; decide)]

/-- RESET of a whole deck: what the deck's part of the reset gives. -/
theorem exec_reset_whole (x : Scope) (hr : runnable s h (.reset h q) = true) (ho : deckOpen s h q.deck none = true)
    (hl : 3 ≤ q.level.toNat) (hop : opReset s h q = opResetDeck s h q x) (hx : wholeDeck x q.deck.toNat) (hrun : resetRuns s x = false)
    (happ : applyReset s x [q.core.toNat] 5 0 false (some h) = deckReset s x [q.core.toNat] 5 0 false (some h)) :
    ∃ t, exec (.reset h q) s = .next t ∧
      (deckAt t q.deck.toNat).reset = (resetOnDeck x [q.core.toNat] (deckAt s q.deck.toNat)).1.reset ∧
      (deckAt t q.deck.toNat).mem = (resetOnDeck x [q.core.toNat] (deckAt s q.deck.toNat)).1.mem := by
  refine ⟨_, congrArg done (runCmd_runnable (opReset s h q) hr), ?_⟩
  rw [hop, opResetDeck_whole s h q x hl ho hrun, deckAt_replyNow, happ]
  exact deckReset_whole s x _ 5 0 _ false (some h) hx hrun

theorem exec_reset_compute (hr : runnable s h (.reset h q) = true) (ho : deckOpen s h q.deck none = true) (hl : q.level = 3)
    (hrun : resetRuns s (.compute (Fin.ofNat 8 q.deck.toNat)) = false) :
    ∃ t, exec (.reset h q) s = .next t ∧ (deckAt t q.deck.toNat).reset = .compute := by
  have hop : opReset s h q = opResetDeck s h q (.compute (Fin.ofNat 8 q.deck.toNat)) := by
    unfold opReset resetScope
    rw [hl]
    rfl
  have hx : wholeDeck (.compute (Fin.ofNat 8 q.deck.toNat)) q.deck.toNat :=
    ⟨congrArg some (Nat.mod_eq_of_lt (deckOpen_lt s h _ _ ho)), Nat.le_refl 3⟩
  obtain ⟨t, ht, hreset, -⟩ := exec_reset_whole s h q _ hr ho (by rw [hl]; decide) hop hx hrun rfl
  exact ⟨t, ht, hreset.trans (computeReset_frame _).2.2.1⟩

theorem exec_reset_full (hr : runnable s h (.reset h q) = true) (ho : deckOpen s h q.deck none = true) (hl : q.level = 4)
    (hrun : resetRuns s (.compute (Fin.ofNat 8 q.deck.toNat)) = false) (hm : ∀ r ∈ s.rst.running, r.scope ≠ .module) :
    ∃ t, exec (.reset h q) s = .next t ∧ (deckAt t q.deck.toNat).reset = .full ∧ (deckAt t q.deck.toNat).mem = [] := by
  have hop : opReset s h q = opResetDeck s h q (.full (Fin.ofNat 8 q.deck.toNat)) := by
    unfold opReset resetScope
    rw [hl]
    rfl
  have hx : wholeDeck (.full (Fin.ofNat 8 q.deck.toNat)) q.deck.toNat :=
    ⟨congrArg some (Nat.mod_eq_of_lt (deckOpen_lt s h _ _ ho)), show 3 ≤ 4 by decide⟩
  obtain ⟨t, ht, hreset, hmem⟩ := exec_reset_whole s h q _ hr ho (by rw [hl]; decide) hop hx (resetRuns_full s _ hrun hm) rfl
  obtain ⟨-, hfull, hnil, -⟩ := fullReset_deck (deckAt s q.deck.toNat)
  exact ⟨t, ht, hreset.trans hfull, hmem.trans hnil⟩

theorem exec_reset_module (hr : runnable s h (.reset h q) = true) (hl : q.level = 5)
    (ho : cmdOpen s h = true ∧ isOwner s (ldKey h.ld) = true) (hb : boundLds s = [ldKey h.ld]) (hm : s.mgmt.stageState ≠ 4)
    (hrun : resetRuns s .module = false) :
    ∃ t, exec (.reset h q) s = .next t ∧ replied s t h stGood 0 ∧ t.rst = { s.rst with resetDue := some (clockNs s + 10000) } ∧
      t.decks = s.decks := by
  have halone : ¬ ((boundLds s).any (fun k => k != ldKey h.ld) = true) := by simp [hb]
  have hop : opReset s h q = modRst (replyNow s h stGood 0) (fun r => { r with resetDue := some (clockNs s + 10000) }) := by
    unfold opReset resetScope
    rw [hl]
    refine (ownerCmd_open _ ho.1 ho.2).trans ?_
    rw [if_neg halone, if_neg (by rw [hrun]; rintro (h4 | h4); exacts [hm h4, absurd h4 (by decide)])]
  have hframe := hostFrame_replyNow s h stGood 0
  refine ⟨_, congrArg done (runCmd_runnable (opReset s h q) hr), ?_⟩
  rw [hop]
  refine ⟨replyNow_replied s h stGood 0 (cmdOpen_muted ho.1), ?_, ?_⟩
  · rw [modRst, hostFrame_rst hframe]
  · exact (show _ = (replyNow s h stGood 0).decks from rfl).trans (hostFrame_decks hframe)

end

end Sys2Proof.Machine
end


section
/-! SUPPORT. QUIESCE and its end, the firmware commands, ATTEST (O44): a command that answers PENDING and owes a final reply. -/
namespace Sys2Proof.Machine
open Sys2Proof

/-! ### Replies -/

theorem hostFrame_mgmt {s t : State} (h : hostFrame s t) : t.mgmt = s.mgmt := by rw [h]

/-- The ring of a command whose PENDING reply is written: it is marked as started, its final reply still owed. -/
def pendRing (h : CmdHdr) (q : Ring) : Ring :=
  { q with srTail := q.srTail + 1, taken := q.taken.map (fun t => if sameCmd h t then { t with pending := true, started := true } else t) }

theorem ringAt_replyPending (s : State) (h : CmdHdr) (hm : muted s h = false) :
    ringAt (replyPending s h) (ldKey h.ld) h.ring.val = pendRing h (ringAt s (ldKey h.ld) h.ring.val) := by
  simp only [replyPending, writeReply, hm, Bool.false_eq_true, if_false, Bool.false_and, ringAt_modLd, mapGet_set_same]
  rfl

theorem replyPending_host (s : State) (h : CmdHdr) :
    (replyPending s h).host = { s.host with lds := (replyPending s h).host.lds } := by
  simp only [replyPending, writeReply]
  split
  · rfl
  · split <;> rfl

theorem replyFinal_host (s : State) (h : CmdHdr) (st : Status) (res : Nat) :
    (replyFinal s h st res).host = { s.host with lds := (replyFinal s h st res).host.lds } := by
  simp only [replyFinal, writeReply]
  split
  · split
    · rfl
    · split <;> rfl
  · rfl

theorem find_pendRing (h : CmdHdr) (q : Ring) :
    (pendRing h q).taken.find? (sameCmd h) =
      (q.taken.find? (sameCmd h)).map (fun t => if sameCmd h t then { t with pending := true, started := true } else t) := by
  have hsame : sameCmd h ∘ (fun t => if sameCmd h t then { t with pending := true, started := true } else t) = sameCmd h := by
    funext t
    simp only [Function.comp]
    split <;> rfl
  rw [pendRing, List.find?_map, hsame]

theorem muted_replyPending (s : State) (h : CmdHdr) (hm : muted s h = false) : muted (replyPending s h) h = false := by
  have hm' := hm
  unfold muted at hm' ⊢
  rw [ringAt_replyPending s h hm, find_pendRing]
  cases hf : (ringAt s (ldKey h.ld) h.ring.val).taken.find? (sameCmd h) with
  | none => rfl
  | some t =>
    rw [hf] at hm'
    simp only [Option.map_some]
    split <;> exact hm'

theorem owed_replyPending {s : State} {h : CmdHdr} {c : Instr} (hr : runnable s h c = true) (hm : muted s h = false) :
    (ringAt (replyPending s h) (ldKey h.ld) h.ring.val).taken.any (sameCmd h) = true := by
  obtain ⟨t, ht⟩ := runnable_taken hr
  rw [ringAt_replyPending s h hm, List.any_eq_true, ← List.find?_isSome, find_pendRing, ht]
  rfl

/-- A reply stands where the LD's rings and its area stand. -/
theorem replied_of_target {s t t' : State} {h : CmdHdr} {st : Status} {res : Nat}
    (hring : ringAt t' (ldKey h.ld) h.ring.val = ringAt t (ldKey h.ld) h.ring.val)
    (hmem : (ldAt t' (ldKey h.ld)).mem = (ldAt t (ldKey h.ld)).mem) (hr : replied s t h st res) : replied s t' h st res := by
  simpa only [replied, hring, hmem] using hr

theorem replied_of_target_lds {s t t' : State} {h : CmdHdr} {st : Status} {res : Nat} (hl : t'.host.lds = t.host.lds)
    (hr : replied s t h st res) : replied s t' h st res := by
  simpa only [replied, ringAt, ldAt, hl] using hr

/-! ### QUIESCE (R36, R431) -/

theorem quiesced_foldl (b : Bool) (ds : List Nat) (s : State) (d : Nat) :
    (deckAt (ds.foldl (fun s d => modDeck s d (fun k => { k with quiesced := b })) s) d).quiesced =
      if d ∈ ds then b else (deckAt s d).quiesced := by
  induction ds generalizing s with
  | nil => rfl
  | cons e rest ih =>
    rw [List.foldl_cons, ih]
    by_cases hr : d ∈ rest
    · rw [if_pos hr, if_pos (List.mem_cons_of_mem e hr)]
    · rw [if_neg hr]
      by_cases he : d = e
      · subst he
        rw [deckAt_modDeck, if_pos List.mem_cons_self]
      · rw [modDeck, deckAt_setDeck_other _ _ _ _ he, if_neg (by simp [he, hr])]

theorem host_foldl_modDeck (f : Deck → Deck) (ds : List Nat) (s : State) :
    (ds.foldl (fun s d => modDeck s d f) s).host = s.host :=
  List.foldlRecOn (motive := fun t : State => t.host = s.host) ds _ rfl (fun _ ht _ _ => ht)

theorem mem_maskDecks (m : BitVec 8) (d : Nat) (hd : d < 8) : d ∈ maskDecks m ↔ m.getLsbD d = true := by
  simp [maskDecks, hd]

section
variable (s : State) (h : CmdHdr)

theorem exec_quiesce_stops (q : QuiesceP) (hr : runnable s h (.quiesce h q) = true) (ho : cmdOpen s h = true)
    (hall : holdsAll s (ldKey h.ld) q.decks = true) (hf : (maskDecks q.decks).any (fun d => faultRuns s d none) = false) :
    ∃ t, exec (.quiesce h q) s = .next t ∧
      (∀ d, d < 8 → (deckAt t d).quiesced = if q.decks.getLsbD d then !q.release else (deckAt s d).quiesced) ∧
      (q.release = false → replied s t h stPending 0 ∧ t.host.quiesces = s.host.quiesces ++
        [{ hdr := h, decks := q.decks, since := clockNs s, timeoutUs := q.timeoutUs.toNat }]) := by
  obtain ⟨s1, hs1⟩ : ∃ s1, s1 = (maskDecks q.decks).foldl (fun s d => modDeck s d (fun k => { k with quiesced := !q.release }))
    (replyPending s h) := ⟨_, rfl⟩
  have hop : opQuiesce s h q = if q.release then replyFinal s1 h stGood 0
      else { s1 with host := { s1.host with quiesces := s1.host.quiesces ++
        [{ hdr := h, decks := q.decks, since := clockNs s, timeoutUs := q.timeoutUs.toNat }] } } := by
    unfold opQuiesce
    rw [anyCmd_open _ ho, if_neg (by rw [hall]; decide), if_neg (by rw [hf]; decide)]
    dsimp only
    rw [← hs1]
  have hhost : s1.host = (replyPending s h).host := by rw [hs1]; exact host_foldl_modDeck _ _ _
  have hdecks : ∀ d, d < 8 → (deckAt s1 d).quiesced = if q.decks.getLsbD d then !q.release else (deckAt s d).quiesced := fun d hd => by
    rw [hs1, quiesced_foldl, deckAt_replyPending]
    simp only [mem_maskDecks _ d hd]
  refine ⟨_, congrArg done (runCmd_runnable (opQuiesce s h q) hr), fun d hd => ?_, fun hrel => ?_⟩
  · rw [hop, ← hdecks d hd]
    split
    · rw [deckAt_replyFinal]
    · rfl
  · rw [hop, if_neg (by rw [hrel]; decide)]
    refine ⟨replied_of_target_lds (congrArg (·.lds) hhost) (replyPending_replied s h (cmdOpen_muted ho)), ?_⟩
    show s1.host.quiesces ++ _ = _
    rw [hhost, replyPending_host]

/-! ### QUIESCE_END (R431) -/

/-- The window of R538 opens for an LD. -/
def openLegacy (s : State) (k now : Nat) : State := modLd s k (fun x => { x with legacyWindow := true, legacyAt := now })

theorem replied_openLegacy {s : State} {h : CmdHdr} {st : Status} {res : Nat} (t : State) (now : Nat) (hr : replied s t h st res) :
    replied s (openLegacy t (ldKey h.ld) now) h st res := by
  refine replied_of_target ?_ ?_ hr
  · rw [openLegacy, ringAt_modLd]
    rfl
  · rw [openLegacy, ldAt_modLd]

section
variable (j : QuiesceJob) (hq : s.host.quiesces = [j]) (hj : j.hdr = h)
include hq hj

theorem find_quiesce : s.host.quiesces.find? (fun i => decide (i.hdr.ld = h.ld ∧ i.hdr.ring = h.ring)) = some j := by
  rw [hq, List.find?_cons_of_pos (by simp [hj])]

theorem exec_quiesceEnd_waits (hi : (maskDecks j.decks).all (deckIdle s) = false) (ht : clockNs s < j.since + 1000 * j.timeoutUs) :
    exec (.quiesceEnd h.ld h.ring) s = .next s := by
  refine congrArg done (?_ : opQuiesceEnd s h.ld h.ring = s)
  simp only [opQuiesceEnd, find_quiesce s h j hq hj, hi, ht, Bool.not_false, decide_true, Bool.and_self, if_true]

theorem exec_quiesceEnd_ends (c : TakenCmd) (hc : (ringAt s (ldKey h.ld) h.ring.val).taken = [c]) (hch : c.hdr = h)
    (hcm : c.mute = false) (hgo : (maskDecks j.decks).all (deckIdle s) = true ∨ j.since + 1000 * j.timeoutUs ≤ clockNs s) :
    ∃ t, exec (.quiesceEnd h.ld h.ring) s = .next t ∧ t.host.quiesces = [] ∧
      replied s t h (if (maskDecks j.decks).all (deckIdle s) then stGood else stLate) 0 := by
  obtain ⟨s1, hs1⟩ : ∃ s1, s1 = { s with host := { s.host with quiesces := s.host.quiesces.erase j } } := ⟨_, rfl⟩
  have hlds : s1.host.lds = s.host.lds := by rw [hs1]
  have hnone : s1.host.quiesces = [] := by
    rw [hs1]
    show s.host.quiesces.erase j = []
    simp [hq]
  have hsame : sameCmd h c = true := by simp [sameCmd, hch]
  have hmute : muted s h = false := by rw [muted, hc, List.find?_cons_of_pos hsame]; exact hcm
  have hmute1 : muted s1 h = false := (muted_of_lds hlds).trans hmute
  have howed : (ringAt s1 (ldKey h.ld) h.ring.val).taken.any (sameCmd h) = true := by
    have hring : ringAt s1 (ldKey h.ld) h.ring.val = ringAt s (ldKey h.ld) h.ring.val := by simp only [ringAt, ldAt, hlds]
    rw [hring, hc, List.any_cons, hsame]
    rfl
  have hnot : ¬ ((!(maskDecks j.decks).all (deckIdle s) && decide (clockNs s < j.since + 1000 * j.timeoutUs)) = true) := by
    rcases hgo with hi | ht
    · simp [hi]
    · simp [Nat.not_lt.2 ht]
  have hreply : ∀ st, replied s (replyFinal s1 h st 0) h st 0 := fun st => by
    rw [replyFinal_owed s1 h st 0 howed]
    exact replied_of_lds hlds (writeReply_replied s1 h st 0 true hmute1)
  have hquies : ∀ st, (replyFinal s1 h st 0).host.quiesces = [] := fun st => by rw [replyFinal_host, hnone]
  have hend : ∀ (st : Status) (b : Bool),
      let t := if b then openLegacy (replyFinal s1 h st 0) (ldKey h.ld) (clockNs s) else replyFinal s1 h st 0
      t.host.quiesces = [] ∧ replied s t h st 0 := fun st b => by
    cases b with
    | false => exact ⟨hquies st, hreply st⟩
    | true => exact ⟨hquies st, replied_openLegacy _ _ (hreply st)⟩
  refine ⟨_, rfl, ?_⟩
  unfold opQuiesceEnd
  rw [find_quiesce s h j hq hj]
  dsimp only
  rw [if_neg hnot, ← hs1, hj]
  exact hend _ _

end

/-! ### Firmware (R479, R480) -/

theorem fwCmd_open (go : State) (ho : cmdOpen s h = true ∧ isOwner s (ldKey h.ld) = true) (hr : s.mgmt.recovery = false) :
    fwCmd s h go = go := by
  rw [fwCmd, if_neg (by rw [hr]; decide), ownerCmd_open _ ho.1 ho.2]

/-- The staging memory after the first chunk of FW_STAGE. -/
def stagedChunk (s : State) (h : CmdHdr) (q : FwStageP) (m : Cells) : Mgmt :=
  stageChunk (clockNs s) (beginStage (clockNs s) s.mgmt 1 (some h.ld)) m q.length.toNat

theorem opFwStage_first (q : FwStageP) (m : Cells) (hc : memClean s) (ho : cmdOpen s h = true ∧ isOwner s (ldKey h.ld) = true)
    (hrec : s.mgmt.recovery = false) (hown : s.mgmt.stageOwner = 0) (hoff : q.offset = 0) (hlen : q.length.toNat ≤ 0x1000000)
    (hm : hdmRead s (ldKey h.ld) q.source.toNat q.length.toNat = (stGood, m)) :
    ∃ s1, opFwStage s h q = if q.last then setMgmt s1 { stagedChunk s h q m with stageState := 2, stageCmd := some h }
      else replyFinal (setMgmt s1 (stagedChunk s h q m)) h stGood 0 := by
  obtain ⟨s0, hread, -⟩ := cmdRead_clean s _ _ _ m hc hm
  have hsrc : stageSource s h q = ((stGood, m), s0) := by
    rw [stageSource, if_neg (by rw [hrec]; decide), hread]
  have hgo : ¬ (¬ (s.mgmt.stageOwner = 0 ∨ s.mgmt.stageOwner = 1 ∧ s.mgmt.stageLd = some h.ld ∧ s.mgmt.stageState = 1) ∨
      q.offset.toNat ≠ (if s.mgmt.stageOwner = 0 then 0 else s.mgmt.stageBytes.toNat) ∨
      0x1000000 < (if s.mgmt.stageOwner = 0 then 0 else s.mgmt.stageBytes.toNat) + q.length.toNat) := by
    rw [if_pos hown, hoff]
    simp [hown, hlen]
  refine ⟨replyPending s0 h, ?_⟩
  unfold opFwStage
  rw [fwCmd_open s h _ ho hrec]
  dsimp only
  rw [if_neg hgo, hsrc, if_neg (fun hne => hne rfl), if_pos hown]
  rfl

theorem exec_fwStage_first (q : FwStageP) (m : Cells) (hr : runnable s h (.fwStage h q) = true) (hc : memClean s)
    (hh : cmdHeld s (ldKey h.ld) q.source.toNat q.length.toNat = false) (ho : cmdOpen s h = true ∧ isOwner s (ldKey h.ld) = true)
    (hrec : s.mgmt.recovery = false) (hown : s.mgmt.stageOwner = 0) (hoff : q.offset = 0) (hlen : q.length.toNat ≤ 0x1000000)
    (hm : hdmRead s (ldKey h.ld) q.source.toNat q.length.toNat = (stGood, m)) :
    ∃ t, exec (.fwStage h q) s = .next t ∧ t.mgmt.stageOwner = 1 ∧ t.mgmt.stageBytes.toNat = q.length.toNat ∧
      t.mgmt.stageState = (if q.last then 2 else 1) ∧ t.mgmt.stageLd = some h.ld := by
  obtain ⟨s1, hop⟩ := opFwStage_first s h q m hc ho hrec hown hoff hlen hm
  have hbytes : (stagedChunk s h q m).stageBytes.toNat = q.length.toNat := by
    show (0#25 + BitVec.ofNat 25 q.length.toNat).toNat = _
    rw [BitVec.zero_add, BitVec.toNat_ofNat, Nat.mod_eq_of_lt (by omega)]
  refine ⟨_, congrArg done ((if_neg (by rw [hh]; decide)).trans (runCmd_runnable _ hr)), ?_⟩
  rw [hop]
  cases q.last with
  | true => exact ⟨rfl, hbytes, rfl, rfl⟩
  | false =>
    rw [if_neg (by decide), hostFrame_mgmt (hostFrame_replyFinal _ h stGood 0)]
    exact ⟨rfl, hbytes, rfl, rfl⟩

theorem exec_fwActivate_writes (hr : runnable s h (.fwActivate h) = true) (ho : cmdOpen s h = true ∧ isOwner s (ldKey h.ld) = true)
    (hrec : s.mgmt.recovery = false) (h3 : s.mgmt.stageState = 3) :
    ∃ t, exec (.fwActivate h) s = .next t ∧ replied s t h stPending 0 ∧ t.mgmt.stageState = 4 ∧ t.mgmt.stageCmd = some h := by
  let s1 := setMgmt s (beginWrite s.mgmt (some h))
  have hop : opFwActivate s h = replyPending s1 h := by
    rw [opFwActivate, fwCmd_open s h _ ho hrec, if_neg (fun hne => hne h3)]
  refine ⟨_, congrArg done (runCmd_runnable (opFwActivate s h) hr), ?_⟩
  rw [hop, hostFrame_mgmt (hostFrame_replyPending s1 h)]
  exact ⟨replyPending_after s1 (cmdOpen_muted ho.1) rfl, rfl, rfl⟩

/-! ### ATTEST (R472) -/

/-- The first two bytes of a reply are its status. -/
theorem readNat_two_of_sixteen (m : Cells) (a : Nat) (st : Status) (x : Nat) (hx : readNat m a 16 = st.toNat + 2 ^ 16 * x) :
    readNat m a 2 = st.toNat := by
  have hst := st.isLt
  have h16 : readNat m a 16 = (cellGet m a).toNat + 256 * ((cellGet m (a + 1)).toNat + 256 * readNat m (a + 1 + 1) 14) := rfl
  have h2 : readNat m a 2 = (cellGet m a).toNat + 256 * ((cellGet m (a + 1)).toNat + 256 * 0) := rfl
  have h0 := (cellGet m a).isLt
  have h1 := (cellGet m (a + 1)).isLt
  omega

theorem exec_attest_refused (q : AttestP) (hr : runnable s h (.attest h q) = true)
    (hh : cmdHeld s (ldKey h.ld) q.dest.toNat q.destLen.toNat = false) (ho : cmdOpen s h = true)
    (hb : (heldBind (ldAt s (ldKey h.ld))).isSome = true) (hsig : maySign s = false) :
    ∃ t, exec (.attest h q) s = .next t ∧ t = { s with host := t.host, out := t.out } ∧
      (ringAt t (ldKey h.ld) h.ring.val).srTail = (ringAt s (ldKey h.ld) h.ring.val).srTail + 2 ∧
      readNat (ldAt t (ldKey h.ld)).mem
        (0x20000 + 0x2000 * h.ring.val + 16 * (((ringAt s (ldKey h.ld) h.ring.val).srTail + 1).toNat % 512)) 2 = stAuthFailed.toNat := by
  have hm := cmdOpen_muted ho
  have hop : opAttest s h q = replyFinal (replyPending s h) h stAuthFailed 0 := by
    rw [opAttest, boundCmd_open _ ho hb]
    exact if_pos (by rw [hsig]; rfl)
  have htail : (ringAt (replyPending s h) (ldKey h.ld) h.ring.val).srTail = (ringAt s (ldKey h.ld) h.ring.val).srTail + 1 := by
    rw [ringAt_replyPending s h hm]
    rfl
  obtain ⟨hsr, hword⟩ := writeReply_replied (replyPending s h) h stAuthFailed 0 true (muted_replyPending s h hm)
  refine ⟨_, congrArg done ((if_neg (by rw [hh]; decide)).trans (runCmd_runnable _ hr)), ?_⟩
  rw [hop]
  refine ⟨hostFrame_trans (hostFrame_replyPending s h) (hostFrame_replyFinal _ h stAuthFailed 0), ?_⟩
  rw [replyFinal_owed _ h stAuthFailed 0 (owed_replyPending hr hm), hsr, htail]
  rw [htail] at hword
  refine ⟨by rw [BitVec.add_assoc]; rfl, ?_⟩
  refine readNat_two_of_sixteen _ _ stAuthFailed (h.opcode.toNat + 2 ^ 16 * h.seq.toNat + 2 ^ 48 * h.tag.toNat) ?_
  rw [hword]
  omega

end

end Sys2Proof.Machine
end


section
/-! SETTLED. O44: the timetable's commands, JOB_EPOCH, SNAPSHOT, RESET, QUIESCE, the firmware commands and ATTEST. -/
namespace Sys2Proof.Machine
open Sys2Proof

/-- Settles O44, command by command: each runs once it is its turn, and its reply stands where SR_TAIL named it. -/
theorem timetableJobsSnapshotsAndResets : Obligations.TimetableJobsSnapshotsAndResets := by
  unfold Obligations.TimetableJobsSnapshotsAndResets
  intro s h k owns
  refine ⟨?ttLoad, ?ttArm, ?ttSelect, ?job, ?snapshot, ?copy, ?reset, ?quiesce, ?quiesceEnd, ?stage, ?activate, ?attest⟩
  case ttLoad =>
    intro q m hr ho hc hh hf ha h0 v u
    exact ⟨exec_ttLoad_loads s h q m hr ho hc hh hf ha h0, exec_ttLoad_map s h q m hr ho hc hh hf⟩
  case ttArm =>
    intro q hr ho
    refine ⟨fun hd ha h2 hmap hfail h5 he hp hv hl => ?_, exec_ttArm_adrift s h ho q hr, exec_ttArm_disarms s h ho q hr⟩
    exact exec_ttArm_arms s h ho q hr (ttArm_arms s q hd ha h2 hmap hfail h5 he hp hv hl) hv
  case ttSelect =>
    intro q hr ho
    exact exec_ttSelect_notes s h ho q hr
  case job =>
    intro q hr ho hl hj hh hw
    obtain ⟨t, ht, hreply, hbytes, hhold⟩ := exec_jobEpoch_begins s h q hr ho hl hj hh hw
    refine ⟨t, ht, hreply, hbytes, ?_⟩
    rw [hhold]
    exact ⟨rfl, rfl, rfl, rfl, rfl, rfl, rfl, rfl, rfl, rfl, rfl, rfl⟩
  case snapshot => exact exec_snapshot_starts s h
  case copy =>
    intro d x j c hj n dst ended
    exact ⟨exec_snapshotCopyDone_ends s d x j hj, exec_snapshotShipDone_valid s d x j hj⟩
  case reset =>
    intro q hr
    refine ⟨fun ho hm _ hrun => ⟨fun hl => exec_reset_compute s h q hr ho hl hrun, fun hl => exec_reset_full s h q hr ho hl hrun hm⟩, ?_⟩
    exact fun hl ho hb hm hrun => exec_reset_module s h q hr hl ho hb hm hrun
  case quiesce => exact exec_quiesce_stops s h
  case quiesceEnd =>
    intro j c hq hj hc hch hcm idle
    exact ⟨exec_quiesceEnd_ends s h j hq hj c hc hch hcm, exec_quiesceEnd_waits s h j hq hj⟩
  case stage =>
    intro q m hr hc hh ho hrec hown hoff hlen hm
    exact exec_fwStage_first s h q m hr hc hh ho hrec hown hoff hlen hm
  case activate => exact exec_fwActivate_writes s h
  case attest => exact exec_attest_refused s h

end Sys2Proof.Machine
end


section
/-! SETTLED. O45 fails: the statement does not say that the deck's running launches carry numbers below the next one, and a
STREAM_KERNEL whose entry is refused then hands the rows of an older launch to the governor. -/
namespace Sys2Proof.Machine
open Sys2Proof

/-- A stream with one entry published, the last. -/
def oneEntry : Stream := { ctx := 0, entries := 16, base := 0, pubs := [{ slot := 0, order := 0 }] }

/-- Deck 0 runs, and the head of stream 7 is a KERNEL entry (kind 1) of 0 words, which its check refuses; stream 8 runs a
launch on core 0 whose number, 0, is not below `nextLaunch`, which is 0 too. -/
def strayDeck : Deck :=
  { mem := [(0, 1)], ctxs := [(0, { life := .live })], streams := [(7, some oneEntry)],
    launches := [(0, some { stream := 8, ctx := 0, cores := [0] })] }

/-- The witness state of the refutation. -/
def strayLaunch : State := setDeck State.reset 0 strayDeck

/-- The entry is all that the statement asks of a head entry. -/
theorem strayLaunch_head :
    streamAt (deckAt strayLaunch 0) 7 = some oneEntry ∧ deckRuns (deckAt strayLaunch 0) = true ∧
      (ctxAt (deckAt strayLaunch 0) 0).life = .live ∧ memReadOk (deckAt strayLaunch 0) (entryAddr oneEntry 0) 128 = true ∧
      entryKind (deckAt strayLaunch 0) oneEntry 0 = 1 ∧ entryCheck (deckAt strayLaunch 0) oneEntry 0 = none ∧
      headHeld (deckAt strayLaunch 0) 7 = false ∧ kernelOk (kernelEntry (deckAt strayLaunch 0) oneEntry 0) = false := by
  refine ⟨?_, ?_, ?_, ?_, ?_, ?_, ?_, ?_⟩ <;> decide

/-- What STREAM_KERNEL leaves of the rows that wait for admission. -/
def rowsWaiting (r : Res) : List Nat :=
  match r with
  | .next t => t.power.waitRows
  | _ => []

/-- No row waited; now row 0 of deck 0 does, though no kernel started. -/
theorem strayLaunch_rows : strayLaunch.power.waitRows = [] ∧ rowsWaiting (exec (.streamKernel 0 7) strayLaunch) = [0] := by
  refine ⟨?_, ?_⟩ <;> decide

/-- Refutes O45: of a refused KERNEL entry it claims that nothing but the deck differs, for every state; where a launch's
number is not below `nextLaunch`, its rows are taken for those of a kernel that just started and wait for admission. -/
theorem not_streamEntriesRunInOrder : ¬ Obligations.StreamEntriesRunInOrder := by
  unfold Obligations.StreamEntriesRunInOrder
  intro h
  obtain ⟨hx, hruns, hlive, hread, hkind, hcheck, hheld, hok⟩ := strayLaunch_head
  obtain ⟨hrows, hrows'⟩ := strayLaunch_rows
  obtain ⟨-, -, -, -, -, -, -, -, hrefused, -⟩ := h strayLaunch 0 7 oneEntry { slot := 0, order := 0 } []
  obtain ⟨t, ht, ⟨honly, -⟩, -⟩ :=
    hrefused ⟨hx, rfl, rfl, rfl, rfl, hruns, hlive, hread, hkind, rfl, hcheck, rfl, hheld⟩ rfl hok
  have hpower : t.power.waitRows = [] := by
    rw [honly]
    exact hrows
  rw [ht] at hrows'
  exact absurd (hpower.symm.trans hrows') (by decide)

end Sys2Proof.Machine
end


section
/-! SETTLED. Integer operations of the scalar processor (O4, O5): an instruction in order writes one register and retires. -/
namespace Sys2Proof.Machine
open Sys2Proof

section
variable {s : State} {c : CoreRef} (hi : canIssue s c = true) (hn : plainNext (coreOf s c) = true)
include hi hn

/-- A scalar instruction in order that only writes `v` to `rd` retires with that write. -/
theorem exec_writes {i : Instr} {wf : Bool} {body : Core → CoreStep} {rd : BitVec 5} {v : W64}
    (hx : exec i s = scalarOp s c wf body) (hw : wf = true) (hb : body (coreOf s c) = .seq (sSet (coreOf s c) rd v)) :
    exec i s = .next (putCore s c (retired (coreOf s c) rd v)) := by
  rw [hx, hw]
  exact scalarOp_seq s c body _ hi hn hb (sSet_loops _ _ _)

/-- An integer register operation writes `op RS1 RS2`. -/
theorem exec_rr {i : Instr} {op : W64 → W64 → W64} {f : FmtR} (hf : wfR2 f = true) (v : W64)
    (hx : exec i s = scalarOp s c (wfR2 f) (bodyRR op f)) (hv : op (sreg s c f.rs1) (sreg s c f.rs2) = v) :
    exec i s = .next (putCore s c (retired (coreOf s c) f.rd v)) :=
  exec_writes hi hn hx hf (congrArg (fun v => CoreStep.seq (sSet (coreOf s c) f.rd v)) hv)

/-- An integer immediate operation writes `op RS1 IMM32`. -/
theorem exec_ri {i : Instr} {wf : Bool} {op : W64 → W64 → W64} {f : FmtI} (hf : wf = true) (v : W64)
    (hx : exec i s = scalarOp s c wf (bodyRI op f)) (hv : op (sreg s c f.rs1) (f.imm.signExtend 64) = v) :
    exec i s = .next (putCore s c (retired (coreOf s c) f.rd v)) :=
  exec_writes hi hn hx hf (congrArg (fun v => CoreStep.seq (sSet (coreOf s c) f.rd v)) hv)

end

theorem aluSlt_eq (a b : W64) : aluSlt a b = if a.toInt < b.toInt then 1 else 0 := by
  simp [aluSlt, boolWord, BitVec.slt]

theorem aluSltu_eq (a b : W64) : aluSltu a b = if a.toNat < b.toNat then 1 else 0 := by
  simp [aluSltu, boolWord, BitVec.ult]

/-- A shift immediate in order stands below 64 and is its own sign extension. -/
theorem signExtend_shift (x : BitVec 32) (h : x.toNat < 64) : (x.signExtend 64).toNat % 64 = x.toNat := by
  rw [BitVec.signExtend_eq_setWidth_of_msb_false (by rw [BitVec.msb_eq_decide]; simp; omega)]
  simp; omega

/-- IMM32[31:6] is 0 where the immediate stands below 64. -/
theorem wfIShift_of_lt {f : FmtI} (hf : wfI f = true) (h : f.imm.toNat < 64) : wfIShift f = true := by
  have h0 : f.imm.extractLsb' 6 26 = 0 := BitVec.eq_of_toNat_eq (by
    simp [Nat.shiftRight_eq_div_pow, Nat.div_eq_of_lt h])
  simp [wfIShift, hf, h0]

/-- LIH puts the immediate above RS1[31:0]. -/
theorem lih_value (x : BitVec 32) (a : W64) : (x.setWidth 64 <<< 32) ||| (a &&& 0xFFFFFFFF) = x ++ a.setWidth 32 := by
  have hm : a.toNat &&& (0xFFFFFFFF : W64).toNat = a.toNat % 2 ^ 32 := Nat.and_two_pow_sub_one_eq_mod a.toNat 32
  have hx : (x.toNat % 2 ^ 64) <<< 32 % 2 ^ 64 = x.toNat <<< 32 := by
    rw [Nat.shiftLeft_eq, Nat.shiftLeft_eq]
    omega
  refine BitVec.eq_of_toNat_eq ?_
  rw [BitVec.toNat_or, BitVec.toNat_and, BitVec.toNat_shiftLeft, BitVec.toNat_append, BitVec.toNat_setWidth,
    BitVec.toNat_setWidth, hm, hx]

/-- Settles O4: each operation is `bodyRR` of its function of RS1 and RS2. -/
theorem registerOperations : Obligations.RegisterOperations := by
  unfold Obligations.RegisterOperations
  intro s c f hi hn h3 h0 k a b n
  have hw : wfR2 f = true := by simp [wfR2, h3, h0]
  exact ⟨exec_rr hi hn hw _ rfl rfl, exec_rr hi hn hw _ rfl rfl, exec_rr hi hn hw _ rfl rfl, exec_rr hi hn hw _ rfl rfl,
    exec_rr hi hn hw _ rfl rfl, exec_rr hi hn hw _ rfl rfl, exec_rr hi hn hw _ rfl rfl, exec_rr hi hn hw _ rfl rfl,
    exec_rr hi hn hw _ rfl (aluSlt_eq a b), exec_rr hi hn hw _ rfl (aluSltu_eq a b),
    exec_rr hi hn hw _ rfl (BitVec.eq_of_toNat_eq (by simp [a, b])), exec_rr hi hn hw _ rfl rfl, exec_rr hi hn hw _ rfl rfl,
    exec_rr hi hn hw _ rfl rfl, exec_rr hi hn hw _ rfl rfl, exec_rr hi hn hw _ rfl rfl⟩

/-- Settles O5: as O4, with the immediate in the place of RS2; a shift takes IMM32[5:0]. -/
theorem immediateOperations : Obligations.ImmediateOperations := by
  unfold Obligations.ImmediateOperations
  intro s c f hi hn h2 h0 k a b
  have hw : wfI f = true := by simp [wfI, h2, h0]
  refine ⟨exec_ri hi hn hw _ rfl rfl, exec_ri hi hn hw _ rfl rfl, exec_ri hi hn hw _ rfl rfl, exec_ri hi hn hw _ rfl rfl,
    exec_ri hi hn hw _ rfl (aluSlt_eq a b), exec_ri hi hn hw _ rfl (aluSltu_eq a b), ?lih, fun hs => ?shifts⟩
  case lih =>
    exact exec_writes hi hn (i := .lih c f) rfl hw
      (congrArg (fun v => CoreStep.seq (sSet k f.rd v)) (lih_value f.imm a))
  case shifts =>
    have hsh : (b.toNat % 64) = f.imm.toNat := signExtend_shift f.imm hs
    have hw' := wfIShift_of_lt hw hs
    exact ⟨exec_ri hi hn hw' _ rfl (congrArg (a <<< ·) hsh), exec_ri hi hn hw' _ rfl (congrArg (a >>> ·) hsh),
      exec_ri hi hn hw' _ rfl (congrArg a.sshiftRight hsh)⟩

end Sys2Proof.Machine
end


section
/-! SETTLED. Loads and stores of the scalar processor (O6, O7): what an access inside data memory or to one unit of the scratchpad reads and changes. -/
namespace Sys2Proof.Machine
open Sys2Proof

/-! ### Data memory and the scratchpad (R120, R122, R125) -/

theorem dmemOk_iff (a n : Nat) : dmemOk a n = true ↔ a + n ≤ 32768 ∧ a % n = 0 := by
  simp [dmemOk]

/-- An aligned address inside data memory holds the whole access. -/
theorem dmemOk_of_aligned {a n : Nat} (hn : n ∣ 32768) (ha : a < 32768) (hm : a % n = 0) : dmemOk a n = true := by
  obtain ⟨q, rfl⟩ := Nat.dvd_of_mod_eq_zero hm
  obtain ⟨r, hr⟩ := hn
  rw [dmemOk_iff]
  have hq : q < r := Nat.lt_of_mul_lt_mul_left (hr ▸ ha)
  exact ⟨by rw [hr, ← Nat.mul_succ]; exact Nat.mul_le_mul_left n hq, hm⟩

theorem dmemOk_outside {a n : Nat} (hn : 0 < n) (h : a % n ≠ 0 ∨ 32767 < a) : dmemOk a n = false := by
  rw [← Bool.not_eq_true, dmemOk_iff]
  omega

theorem spadAddrOk_iff (a : Nat) : spadAddrOk a = true ↔ a < 262144 ∧ a % 8 = 0 := by
  simp [spadAddrOk]

theorem bodyLoad_ok {n : Nat} {sx : Bool} {f : FmtI} {k : Core} (h : dmemOk (memAddr f k) n = true) :
    bodyLoad n sx f k = .seq (sSet k f.rd (if sx then (BitVec.ofNat (8 * n) (readNat k.dmem (memAddr f k) n)).signExtend 64
      else BitVec.ofNat 64 (readNat k.dmem (memAddr f k) n))) := by
  simp only [bodyLoad, h, Bool.not_true, Bool.false_eq_true, if_false]

theorem bodyLoad_outside {n : Nat} (sx : Bool) {f : FmtI} {k : Core} (h : dmemOk (memAddr f k) n = false) :
    bodyLoad n sx f k = .fault stBadParam := by
  simp only [bodyLoad, h, Bool.not_false, if_true]

theorem bodyStore_ok {n : Nat} {f : FmtI} {k : Core} (h : dmemOk (memAddr f k) n = true) :
    bodyStore n f k = .seq { k with dmem := writeNat k.dmem (memAddr f k) n (sGet k f.rs2).toNat } := by
  simp only [bodyStore, h, Bool.not_true, Bool.false_eq_true, if_false]

theorem bodyStore_outside {n : Nat} {f : FmtI} {k : Core} (h : dmemOk (memAddr f k) n = false) :
    bodyStore n f k = .fault stBadParam := by
  simp only [bodyStore, h, Bool.not_false, if_true]

section
variable {k : Core} {a : Nat} (ha : a < 262144) (hm : a % 8 = 0)
include ha hm

/-- Eight bytes from an aligned address lie in one unit. -/
theorem unitsOf_word : unitsOf (a / 32) (a % 32) 8 = [a / 32] := by
  have h1 : (a % 32 + 8 + 31) / 32 = 1 := by omega
  have h2 : a / 32 % 8192 = a / 32 := by omega
  simp [unitsOf, h1, h2]

theorem spadByte_word (i : Nat) (hi : i < 8) : spadByte k (a / 32) (a % 32 + i) = cellGet k.spad (a + i) := by
  have h : (a / 32 + (a % 32 + i) / 32) % 8192 * 32 + (a % 32 + i) % 32 = a + i := by omega
  rw [spadByte, h]

/-- An aligned word of the scratchpad whose unit has no error is read whole. -/
theorem spadRead_word (hok : unitOk k (a / 32) = true) : spadRead k (a / 32) (a % 32) 8 = some (readBytes k.spad a 8) := by
  simp only [spadRead, unitsOf_word ha hm, List.all_cons, List.all_nil, hok, Bool.and_true, if_true, readBytes]
  refine congrArg some (List.map_congr_left fun i hi => spadByte_word ha hm i (List.mem_range.1 hi))

end

/-- A fold that writes at most one byte for each of the `n` offsets from `base` leaves what `g` names there, and every other
byte. -/
theorem cellGet_foldl_offsets (f : Cells → Nat → Cells) (base : Nat) (g : Nat → Option Byte)
    (hf : ∀ m b x, cellGet (f m b) x = if x = base + b then (g b).getD (cellGet m x) else cellGet m x) (n : Nat) (m : Cells)
      (x : Nat) :
    cellGet ((List.range n).foldl f m) x = if base ≤ x ∧ x < base + n then (g (x - base)).getD (cellGet m x) else cellGet m x := by
  induction n with
  | zero => simp
  | succ n ih =>
    rw [List.range_succ, List.foldl_append, List.foldl_cons, List.foldl_nil, hf, ih]
    by_cases hx : x = base + n
    · subst hx
      simp
    · rw [if_neg hx]
      exact if_congr (by omega) rfl rfl

theorem bytesNat_readBytes (m : Cells) (a n : Nat) : bytesNat (readBytes m a n) = readNat m a n := by
  induction n generalizing a with
  | zero => rfl
  | succ n ih =>
    have hr : readBytes m a (n + 1) = cellGet m a :: readBytes m (a + 1) n := by
      simp [readBytes, List.range_succ_eq_map, Function.comp_def, Nat.add_assoc, Nat.add_comm 1]
    rw [hr, bytesNat, readNat, ih]

theorem bodyLds_ok {f : FmtI} {k : Core} (ha : memAddr f k < 262144) (hm : memAddr f k % 8 = 0)
    (hok : unitOk k (memAddr f k / 32) = true) :
    bodyLds f k = .seq (sSet k f.rd (BitVec.ofNat 64 (readNat k.spad (memAddr f k) 8))) := by
  simp only [bodyLds, (spadAddrOk_iff _).2 ⟨ha, hm⟩, spadRead_word ha hm hok, bytesNat_readBytes, Bool.not_true,
    Bool.false_eq_true, if_false]

/-- What `spadWrite` finds at offset `p` of the first unit when it writes `bs` from offset `off`. -/
def wordAt (off : Nat) (bs : List (Option Byte)) (p : Nat) : Option Byte := if p < off then none else (bs[p - off]?).join

/-- A write that lies in one unit whose error state is good and does not fill it goes byte by byte. -/
theorem spadWrite_one (k : Core) (u off : Nat) (bs : List (Option Byte)) (hu : (off + bs.length + 31) / 32 = 1)
    (hok : unitOk k (u % 8192) = true) (hp : ∃ p, p < 32 ∧ wordAt off bs p = none) :
    ∃ m, spadWrite k u off bs = ({ k with spad := m }, false) ∧
      ∀ x, cellGet m x = if u % 8192 * 32 ≤ x ∧ x < u % 8192 * 32 + 32
        then (wordAt off bs (x - u % 8192 * 32)).getD (cellGet k.spad x) else cellGet k.spad x := by
  have hc : (List.range 32).countP (fun b => (wordAt off bs (32 * 0 + b)).isSome) ≠ 32 := by
    obtain ⟨p, hp, hn⟩ := hp
    intro h
    have hall := (List.countP_eq_length (p := fun b => (wordAt off bs (32 * 0 + b)).isSome) (l := List.range 32)).1
      (by simpa using h)
    simpa [hn] using hall p (List.mem_range.2 hp)
  simp only [wordAt] at hc
  simp only [spadWrite, hu, List.range_one, List.any_cons, List.any_nil, Nat.add_zero, hok, Bool.not_true, Bool.and_false,
    Bool.or_false, Bool.false_eq_true, if_false, List.foldl_cons, List.foldl_nil, if_neg hc]
  refine ⟨_, rfl, fun x => ?_⟩
  refine cellGet_foldl_offsets _ _ (wordAt off bs) (fun m b x => ?_) 32 k.spad x
  simp only [wordAt, Nat.mul_zero, Nat.zero_add]
  split
  · rename_i v hv
    rw [hv, cellGet, cellSet, mapGet_set]; rfl
  · rename_i hv
    rw [hv]; simp

/-- Writing an aligned word to a unit without an error changes its eight bytes and no mark of an error. -/
theorem spadWriteAll_word {k : Core} {a : Nat} (ha : a < 262144) (hm : a % 8 = 0) (hok : unitOk k (a / 32) = true) (v : Nat) :
    ∃ m, spadWriteAll k (a / 32) (a % 32) (natBytes 8 v) = ({ k with spad := m }, false) ∧
      ∀ x, cellGet m x = if a ≤ x ∧ x < a + 8 then (natBytes 8 v).getD (x - a) 0 else cellGet k.spad x := by
  have hu : a / 32 % 8192 = a / 32 := by omega
  have hin : ∀ p, wordAt (a % 32) ((natBytes 8 v).map some) p =
      if a % 32 ≤ p ∧ p < a % 32 + 8 then some ((natBytes 8 v).getD (p - a % 32) 0) else none := by
    intro p
    by_cases h : p < a % 32
    · simp [wordAt, h, show ¬ a % 32 ≤ p by omega]
    · by_cases h8 : p < a % 32 + 8
      · have hl : p - a % 32 < (natBytes 8 v).length := by rw [natBytes_length]; omega
        simp [wordAt, h, h8, show a % 32 ≤ p by omega, List.getElem?_eq_getElem hl, List.getD_eq_getElem?_getD]
      · have hl : (natBytes 8 v).length ≤ p - a % 32 := by rw [natBytes_length]; omega
        simp [wordAt, h, h8, List.getElem?_eq_none hl]
  obtain ⟨m, hw, hx⟩ := spadWrite_one k (a / 32) (a % 32) ((natBytes 8 v).map some)
    (by rw [List.length_map, natBytes_length]; omega) (by rw [hu]; exact hok)
    ⟨(a % 32 + 8) % 32, by omega, by rw [hin, if_neg (by omega)]⟩
  refine ⟨m, hw, fun x => ?_⟩
  rw [hx, hu, hin]
  by_cases h : a ≤ x ∧ x < a + 8
  · rw [if_pos (by omega), if_pos (by omega), if_pos h, Option.getD_some, show x - a / 32 * 32 - a % 32 = x - a by omega]
  · rw [if_neg h]
    split
    · rw [if_neg (by omega), Option.getD_none]
    · rfl

theorem bodySts_ok {f : FmtI} {k : Core} (ha : memAddr f k < 262144) (hm : memAddr f k % 8 = 0)
    (hok : unitOk k (memAddr f k / 32) = true) :
    ∃ m, bodySts f k = .seq { k with spad := m } ∧ readNat m (memAddr f k) 8 = (sGet k f.rs2).toNat ∧
      ∀ x, x < memAddr f k ∨ memAddr f k + 8 ≤ x → cellGet m x = cellGet k.spad x := by
  obtain ⟨m, hw, hx⟩ := spadWriteAll_word ha hm hok (sGet k f.rs2).toNat
  refine ⟨m, ?_, ?_, fun x h => ?_⟩
  · simp only [bodySts, (spadAddrOk_iff _).2 ⟨ha, hm⟩, hw, Bool.not_true, Bool.false_eq_true, if_false]
  · rw [readNat_of_bytes m (memAddr f k) 8 (sGet k f.rs2).toNat
        (fun i hi => by rw [hx, if_pos (by omega), Nat.add_sub_cancel_left])]
    exact Nat.mod_eq_of_lt (sGet k f.rs2).isLt
  · rw [hx, if_neg (by omega)]

theorem bodyLds_outside {f : FmtI} {k : Core} (h : memAddr f k % 8 ≠ 0) : bodyLds f k = .fault stBadParam := by
  simp [bodyLds, spadAddrOk, h]

theorem bodySts_outside {f : FmtI} {k : Core} (h : memAddr f k % 8 ≠ 0) : bodySts f k = .fault stBadParam := by
  simp [bodySts, spadAddrOk, h]

/-- Apart from MEM_POISON, LDS and STS issue as every scalar instruction does. -/
theorem opSpadScalar_eq (d : Deck) (i : Nat) (wf : Bool) (body : Core → CoreStep) (h : body (coreAt d i) ≠ .fault stMemPoison) :
    opSpadScalar d i wf body = (issueScalar d i wf body, []) := by
  simp only [opSpadScalar, h, decide_false, Bool.and_false, Bool.false_eq_true, if_false]

theorem spadOp_eq (s : State) (c : CoreRef) (wf : Bool) (body : Core → CoreStep) (h : body (coreOf s c) ≠ .fault stMemPoison) :
    done (onDeck s c.deck (fun k => opSpadScalar k c.core wf body)) = scalarOp s c wf body := by
  rw [scalarOp, onDeck_pure s c.deck _ _ (opSpadScalar_eq (deckAt s c.deck) c.core wf body h), onDeck_pure s c.deck _ _ rfl]

/-- Settles O6: each load is `bodyLoad` of its width and extension, LDS the word of its unit. -/
theorem dataMemoryLoads : Obligations.DataMemoryLoads := by
  unfold Obligations.DataMemoryLoads
  intro s c f hi hn h2 h0 k a
  have hw : wfI f = true := by simp [wfI, h2, h0]
  have load : ∀ {i : Instr} (n : Nat) (sx : Bool), n ∣ 32768 → exec i s = scalarOp s c (wfI f) (bodyLoad n sx f) → a < 32768 →
      a % n = 0 → exec i s = .next (putCore s c (retired k f.rd
        (if sx then (BitVec.ofNat (8 * n) (readNat k.dmem a n)).signExtend 64 else BitVec.ofNat 64 (readNat k.dmem a n)))) :=
    fun n sx hd hx ha hm => exec_writes hi hn hx hw (bodyLoad_ok (dmemOk_of_aligned hd ha hm))
  refine ⟨fun ha => ⟨load 1 false (by decide) rfl ha (Nat.mod_one a), load 1 true (by decide) rfl ha (Nat.mod_one a)⟩,
    fun ha hm => ⟨load 2 false (by decide) rfl ha hm, load 2 true (by decide) rfl ha hm⟩,
    fun ha hm => ⟨load 4 false (by decide) rfl ha hm, load 4 true (by decide) rfl ha hm⟩,
    fun ha hm => load 8 false (by decide) rfl ha hm, fun ha hm hok => ?lds⟩
  case lds =>
    have hb := bodyLds_ok (f := f) (k := k) ha hm hok
    exact exec_writes hi hn (spadOp_eq s c (wfI f) (bodyLds f) (by rw [hb]; exact CoreStep.noConfusion)) hw hb

/-- Settles O7: each store is `bodyStore` of its width, STS a word of its unit. -/
theorem storesChangeOnlyTheirBytes : Obligations.StoresChangeOnlyTheirBytes := by
  unfold Obligations.StoresChangeOnlyTheirBytes
  intro s c f hi hn hd h0 k a v
  have hw : wfIStore f = true := by simp [wfIStore, hd, h0]
  have store : ∀ {i : Instr} (n : Nat), n ∣ 32768 → exec i s = scalarOp s c (wfIStore f) (bodyStore n f) → a < 32768 → a % n = 0 →
      ∃ m, exec i s = .next (putCore s c { k with dmem := m, pc := k.pc + 1 }) ∧ readNat m a n = v.toNat % 256 ^ n ∧
        ∀ x, x < a ∨ a + n ≤ x → cellGet m x = cellGet k.dmem x := by
    intro i n hdvd hx ha hm
    refine ⟨writeNat k.dmem a n v.toNat, ?_, readNat_writeNat _ _ _ _, fun x h => cellGet_writeNat_other _ _ _ _ _ h⟩
    rw [hx, hw]
    exact scalarOp_seq s c _ _ hi hn (bodyStore_ok (dmemOk_of_aligned hdvd ha hm)) rfl
  refine ⟨?_, fun ha hm hok => ?sts⟩
  · simp only [List.forall_mem_cons, List.not_mem_nil, false_imp_iff, implies_true, and_true]
    exact ⟨store 1 (by decide) rfl, store 2 (by decide) rfl, store 4 (by decide) rfl, store 8 (by decide) rfl⟩
  case sts =>
    obtain ⟨m, hb, hr, ho⟩ := bodySts_ok (f := f) (k := k) ha hm hok
    refine ⟨m, ?_, hr, ho⟩
    have hx := spadOp_eq s c (wfIStore f) (bodySts f) (by rw [hb]; exact CoreStep.noConfusion)
    rw [hw] at hx
    calc exec (.sts c f) s = done (onDeck s c.deck (fun k => opSpadScalar k c.core (wfIStore f) (bodySts f))) := rfl
      _ = _ := by rw [hw, hx]; exact scalarOp_seq s c _ _ hi hn hb rfl

end Sys2Proof.Machine
end


section
/-! SETTLED. Faults, FP32 and branches of the scalar processor (O8 to O10): what an address or a target out of range does, and which loops a branch ends. -/
namespace Sys2Proof.Machine
open Sys2Proof

/-! ### Faults of a scalar instruction -/

/-- The core that records a fault: `faultedWith` in CORE_FAULT, and no register, memory or PC changed. -/
theorem coreOf_coreFault (s : State) (c : CoreRef) (st : Status) (e : BitVec 2) :
    let t := setDeck s c.deck (coreFault (deckAt s c.deck) c.core st e (coreOf s c).pc)
    (coreOf t c).fault = faultedWith (coreOf s c) st e ∧ sameRegs (coreOf s c) (coreOf t c) := by
  obtain ⟨hregs, hfault, -⟩ := coreFault_core (deckAt s c.deck) c.core st e (coreOf s c).pc
  simp only [coreOf, deckAt_setDeck]
  exact ⟨hfault, hregs⟩

/-- A scalar instruction in order whose body faults records the fault. -/
theorem exec_faults {s : State} {c : CoreRef} (hi : canIssue s c = true) {i : Instr} {wf : Bool} {body : Core → CoreStep}
    {st : Status} (hx : exec i s = scalarOp s c wf body) (hw : wf = true) (hb : body (coreOf s c) = .fault st) :
    ∃ t, exec i s = .next t ∧ (coreOf t c).fault = faultedWith (coreOf s c) st 0 ∧ sameRegs (coreOf s c) (coreOf t c) := by
  refine ⟨_, ?_, coreOf_coreFault s c st 0⟩
  rw [hx, hw]
  exact scalarOp_fault s c body st hi hb

theorem goTo_beyond (k : Core) {t : Nat} (h : 8191 < t) : goTo k t = .fault stBadParam := if_pos h
theorem goTo_inside (k : Core) {t : Nat} (h : t ≤ 8191) : goTo k t = .jump k t := if_neg (by omega)

theorem bodyBranch_taken {cond : W64 → W64 → Bool} {f : FmtI} {k : Core} (h : cond (sGet k f.rs1) (sGet k f.rs2) = true) :
    bodyBranch cond f k = goTo k f.imm.toNat := if_pos h

theorem bodyBranch_not_taken {cond : W64 → W64 → Bool} {f : FmtI} {k : Core} (h : cond (sGet k f.rs1) (sGet k f.rs2) = false) :
    bodyBranch cond f k = .seq k := if_neg (by rw [h]; exact Bool.false_ne_true)

/-- Retiring from the last word with no loop running faults there (R122; log entry 8). -/
theorem retireOn_past (d : Deck) (i : Nat) (k : Core) (w : Nat) (hl : k.loops = []) (hw : 8191 ≤ w) :
    retireOn d i k w = coreFault (setCore d i k) i stBadParam 0 k.pc := by
  have hr : retire k w = (k, true) := by
    have h : 8191 < w + 1 := by omega
    simp only [retire, hl, endFrames, gt_iff_lt, h, if_true]
    rw [← hl]
  rw [retireOn, hr]
  rfl

/-- Settles O8: `dmemOk`, `spadAddrOk` or `goTo` refuses the address, and the refusal changes no register. -/
theorem misalignedOrOutsideAccessFaults : Obligations.MisalignedOrOutsideAccessFaults := by
  unfold Obligations.MisalignedOrOutsideAccessFaults
  intro s c f hi h0 k a faults
  have faulted : ∀ {i : Instr} {wf : Bool} {body : Core → CoreStep}, exec i s = scalarOp s c wf body → wf = true →
      body k = .fault stBadParam → faults i := by
    intro i wf body hx hw hb
    obtain ⟨t, ht, hf, hs, -, -, -, hdm, hsp, -, -, -, -, hpc⟩ := exec_faults hi hx hw hb
    exact ⟨t, ht, hf, hdm, hsp, hs, hpc⟩
  refine ⟨fun h2 => ?load, fun hd => ?store, fun hm => ⟨fun h2 => ?lds, fun hd => ?sts⟩,
    fun ht => ⟨fun h1 h2 => ?jal, fun hd => ?branch⟩,
    fun ht h2 => ?jalr, fun hpc hl => ?past, fun hn => ?next⟩
  case load =>
    have hw : wfI f = true := by simp [wfI, h2, h0]
    have load : ∀ {i : Instr} (n : Nat) (sx : Bool), 0 < n → exec i s = scalarOp s c (wfI f) (bodyLoad n sx f) →
        a % n ≠ 0 ∨ 32767 < a → faults i := fun n sx hn hx h => faulted hx hw (bodyLoad_outside sx (dmemOk_outside hn h))
    simp only [List.forall_mem_cons, List.not_mem_nil, false_imp_iff, implies_true, and_true]
    exact ⟨load 1 false (by decide) rfl, load 1 true (by decide) rfl, load 2 false (by decide) rfl, load 2 true (by decide) rfl,
      load 4 false (by decide) rfl, load 4 true (by decide) rfl, load 8 false (by decide) rfl⟩
  case store =>
    have hw : wfIStore f = true := by simp [wfIStore, hd, h0]
    have store : ∀ {i : Instr} (n : Nat), 0 < n → exec i s = scalarOp s c (wfIStore f) (bodyStore n f) →
        a % n ≠ 0 ∨ 32767 < a → faults i := fun n hn hx h => faulted hx hw (bodyStore_outside (dmemOk_outside hn h))
    simp only [List.forall_mem_cons, List.not_mem_nil, false_imp_iff, implies_true, and_true]
    exact ⟨store 1 (by decide) rfl, store 2 (by decide) rfl, store 4 (by decide) rfl, store 8 (by decide) rfl⟩
  case lds =>
    have hb : bodyLds f k = .fault stBadParam := bodyLds_outside hm
    exact faulted (spadOp_eq s c (wfI f) (bodyLds f) (by rw [hb]; decide)) (by simp [wfI, h2, h0]) hb
  case sts =>
    have hb : bodySts f k = .fault stBadParam := bodySts_outside hm
    exact faulted (spadOp_eq s c (wfIStore f) (bodySts f) (by rw [hb]; decide)) (by simp [wfIStore, hd, h0]) hb
  case jal => exact faulted (i := .jal c f) rfl (by simp [wfJal, h1, h2, h0]) (goTo_beyond _ ht)
  case branch =>
    have hw : wfIStore f = true := by simp [wfIStore, hd, h0]
    have branch : ∀ {i : Instr} (cond : W64 → W64 → Bool), exec i s = scalarOp s c (wfIStore f) (bodyBranch cond f) →
        cond (sreg s c f.rs1) (sreg s c f.rs2) = true → faults i :=
      fun cond hx h => faulted hx hw ((bodyBranch_taken h).trans (goTo_beyond _ ht))
    simp only [List.forall_mem_cons, List.not_mem_nil, false_imp_iff, implies_true, and_true]
    exact ⟨branch _ rfl, branch _ rfl, branch _ rfl, branch (fun a b => !a.slt b) rfl, branch _ rfl,
      branch (fun a b => !a.ult b) rfl⟩
  case jalr => exact faulted (i := .jalr c f) rfl (by simp [wfI, h2, h0]) (goTo_beyond _ ht)
  case past =>
    obtain ⟨hregs, hfault, -⟩ := coreFault_core (setCore (deckAt s c.deck) c.core k) c.core stBadParam 0 k.pc
    rw [coreAt_setCore] at hregs hfault
    have hd : issueScalar (deckAt s c.deck) c.core true bodyNop =
        coreFault (setCore (deckAt s c.deck) c.core k) c.core stBadParam 0 k.pc := by
      rw [← retireOn_past _ _ k k.pc.toNat hl (by rw [hpc]; decide)]
      simp only [issueScalar, show scalarReady (coreAt (deckAt s c.deck) c.core) = true from hi, bodyNop]
      rfl
    refine ⟨setDeck s c.deck _, congrArg done (onDeck_pure s c.deck _ _ (Prod.ext hd rfl)), ?_⟩
    simp only [coreOf, deckAt_setDeck]
    obtain ⟨hs, -, -, -, hdm, hsp, -, -, -, -, hp⟩ := hregs
    exact ⟨hfault, hdm, hsp, hs, hp⟩
  case next => exact scalarOp_seq s c bodyNop k hi hn rfl rfl

/-! ### Scalar FP32 -/

/-- A comparison with a NaN gives 0 (R204). -/
theorem fvCmp_nan {x y : FVal} (h : x = .nan ∨ y = .nan) : fvLtC x y = false ∧ fvLe x y = false ∧ fvEq x y = false := by
  rcases h with rfl | rfl
  · exact ⟨rfl, rfl, rfl⟩
  · cases x <;> exact ⟨rfl, rfl, rfl⟩

/-- Settles O9: each operation is one of `bodyF2`, `bodyF3`, `bodyFcmp` or a conversion. -/
theorem floatOperations : Obligations.FloatOperations := by
  unfold Obligations.FloatOperations
  intro s c f hi hn h0 k a b x ans cmp
  have f2 : ∀ {i : Instr} (op : W32 → W32 → W32), f.rs3 = 0 → exec i s = scalarOp s c (wfR2 f) (bodyF2 op f) → ans i (op a b) :=
    fun op h3 hx => exec_writes hi hn hx (by simp [wfR2, h3, h0]) rfl
  have fcmp : ∀ {i : Instr} (op : FVal → FVal → Bool) (v : Bool), f.rs3 = 0 → exec i s = scalarOp s c (wfR2 f) (bodyFcmp op f) →
      op (f32 a) (f32 b) = v → cmp i v :=
    fun op v h3 hx hv => exec_writes hi hn hx (by simp [wfR2, h3, h0])
      (congrArg (fun v => CoreStep.seq (sSet k f.rd (boolWord v))) hv)
  refine ⟨?ffma, fun h3 => ⟨f2 _ h3 rfl, f2 _ h3 rfl, f2 _ h3 rfl, f2 _ h3 rfl, f2 _ h3 rfl, fcmp _ _ h3 rfl rfl,
    fcmp _ _ h3 rfl rfl, fcmp _ _ h3 rfl rfl, fun hnan => ?nan⟩, fun h3 h2 => ?convert⟩
  case ffma => exact exec_writes hi hn (i := .ffma c f) rfl (by simp [wfR3, h0]) rfl
  case nan =>
    obtain ⟨hlt, hle, heq⟩ := fvCmp_nan hnan
    exact ⟨fcmp _ _ h3 rfl hlt, fcmp _ _ h3 rfl hle, fcmp _ _ h3 rfl heq⟩
  case convert =>
    have hw : wfR1 f = true := by simp [wfR1, h2, h3, h0]
    have trunc : exec (.fcvtLS c f) s = .next (putCore s c (retired k f.rd (toInt64Trunc (f32 a)))) :=
      exec_writes hi hn (i := .fcvtLS c f) rfl hw rfl
    refine ⟨exec_writes hi hn (i := .fcvtSL c f) rfl hw rfl, trunc, fun hnan => ?_⟩
    rw [trunc, hnan]
    rfl

/-! ### Branches and the loops they end (R142) -/

/-- A branch to `t` leaves the loops from the innermost one that holds `t`. -/
def leaves (t : Nat) (g : LoopFrame) : Bool := !(decide (g.first ≤ t) && decide (t ≤ g.last))

/-- The loops that a branch leaves are dropped with live count 0; no other count changes. -/
theorem dropFrames_spec (fs : List LoopFrame) (live : SMap (BitVec 32)) (t : Nat) :
    (dropFrames fs live t).1 = fs.drop (fs.takeWhile (leaves t)).length ∧
    (∀ g ∈ fs.takeWhile (leaves t), mapGet 0 (dropFrames fs live t).2 g.ctr.toNat = 0) ∧
    ∀ n, (∀ g ∈ fs.takeWhile (leaves t), g.ctr.toNat ≠ n) → mapGet 0 (dropFrames fs live t).2 n = mapGet 0 live n := by
  induction fs generalizing live with
  | nil => exact ⟨rfl, fun g hg => absurd hg List.not_mem_nil, fun _ _ => rfl⟩
  | cons g rest ih =>
    obtain ⟨hdrop, hzero, hkeep⟩ := ih (mapSet 0 live g.ctr.toNat 0)
    by_cases h : g.first ≤ t ∧ t ≤ g.last
    · have hl : leaves t g = false := by simp [leaves, h]
      simp [dropFrames, h, hl]
    · have hl : leaves t g = true := by simp [leaves]; omega
      simp only [dropFrames, if_neg h, List.takeWhile_cons, hl, if_true, List.length_cons, List.drop_succ_cons, List.mem_cons]
      refine ⟨hdrop, ?_, fun n hn => ?_⟩
      · rintro x (rfl | hx)
        · by_cases hin : ∃ y ∈ rest.takeWhile (leaves t), y.ctr.toNat = x.ctr.toNat
          · obtain ⟨y, hy, he⟩ := hin
            have hy0 := hzero y hy
            rwa [he] at hy0
          · rw [hkeep _ (fun y hy he => hin ⟨y, hy, he⟩), mapGet_set_same]
        · exact hzero x hx
      · rw [hkeep n (fun y hy => hn y (.inr hy)), mapGet_set_other _ _ _ _ _ (Ne.symm (hn g (.inl rfl)))]

/-- A scalar command that jumps answers the state with that core at its target. -/
theorem scalarOp_jump {s : State} {c : CoreRef} (hi : canIssue s c = true) {body : Core → CoreStep} {k' : Core} {t : Nat}
    (hb : body (coreOf s c) = .jump k' t) : scalarOp s c true body = .next (putCore s c (jumpTo k' t)) := by
  have hd : issueScalar (deckAt s c.deck) c.core true body = setCore (deckAt s c.deck) c.core (jumpTo k' t) := by
    simp [issueScalar, show scalarReady (coreAt (deckAt s c.deck) c.core) = true from hi,
      show body (coreAt (deckAt s c.deck) c.core) = .jump k' t from hb]
  rw [scalarOp, onDeck_pure s c.deck _ _ (Prod.ext hd rfl)]
  rfl

theorem sSet_live (k : Core) (r : BitVec 5) (v : W64) : (sSet k r v).live = k.live := by
  unfold sSet
  split <;> rfl

/-- Settles O10: `goTo` reaches its word, and `dropFrames` ends the loops left. -/
theorem takenBranchesEndLoops : Obligations.TakenBranchesEndLoops := by
  unfold Obligations.TakenBranchesEndLoops
  intro s c f hi h0 k a b out goes
  have jumps : ∀ {i : Instr} {wf : Bool} {body : Core → CoreStep} {t : Nat} {k' : Core}, exec i s = scalarOp s c wf body →
      wf = true → body k = goTo k' t → t ≤ 8191 → k'.loops = k.loops → k'.live = k.live → goes i t k' := by
    intro i wf body t k' hx hw hb ht hl hv
    obtain ⟨hdrop, hzero, hkeep⟩ := dropFrames_spec k.loops k.live t
    refine ⟨(dropFrames k.loops k.live t).2, ?_, hzero, hkeep⟩
    rw [hx, hw, scalarOp_jump hi (hb.trans (goTo_inside k' ht)), jumpTo, hl, hv, hdrop]
    rfl
  refine ⟨fun hd => ?branch, fun h1 h2 ht => ?jal, fun h2 ht => ?jalr⟩
  case branch =>
    have hw : wfIStore f = true := by simp [wfIStore, hd, h0]
    have branch : ∀ {i : Instr} {p : Bool} (cond : W64 → W64 → Bool), exec i s = scalarOp s c (wfIStore f) (bodyBranch cond f) →
        cond a b = p → (p = true → f.imm.toNat ≤ 8191 → goes i f.imm.toNat k) ∧
        (p = false → plainNext k = true → exec i s = .next (putCore s c { k with pc := k.pc + 1 })) := by
      intro i p cond hx hp
      refine ⟨fun h ht => jumps hx hw (bodyBranch_taken (hp.trans h)) ht rfl rfl, fun h hn => ?_⟩
      rw [hx, hw]
      exact scalarOp_seq s c _ k hi hn (bodyBranch_not_taken (hp.trans h)) rfl
    have hge : (!a.slt b) = decide (b.toInt ≤ a.toInt) := by simp [BitVec.slt, ← decide_not]
    have hgeu : (!a.ult b) = decide (b.toNat ≤ a.toNat) := by simp [BitVec.ult, ← decide_not]
    simp only [List.forall_mem_cons, List.not_mem_nil, false_imp_iff, implies_true, and_true]
    exact ⟨branch _ rfl rfl, branch _ rfl rfl, branch _ rfl rfl, branch _ rfl hge, branch _ rfl rfl, branch _ rfl hgeu⟩
  case jal => exact jumps (i := .jal c f) rfl (by simp [wfJal, h1, h2, h0]) rfl ht (sSet_loops _ _ _) (sSet_live _ _ _)
  case jalr => exact jumps (i := .jalr c f) rfl (by simp [wfI, h2, h0]) rfl ht (sSet_loops _ _ _) (sSet_live _ _ _)

end Sys2Proof.Machine
end


section
/-! SETTLED. Loops: a LOOP starts or skips its body; the inner end check runs first (O13, O14). -/
namespace Sys2Proof.Machine
open Sys2Proof

/-! ### Operations that change one core -/

/-- An operation that only replaces core `c` answers the state with that core replaced. -/
theorem onDeck_core {s : State} {c : CoreRef} {op : Deck → Deck} {k' : Core}
    (h : op (deckAt s c.deck) = setCore (deckAt s c.deck) c.core k') :
    done (onDeck s c.deck (fun d => (op d, []))) = .next (putCore s c k') := by
  rw [onDeck_pure s c.deck _ _ (Prod.ext h rfl)]
  rfl

/-- An operation that faults core `c` records the fault and changes no register. -/
theorem onDeck_faults {s : State} {c : CoreRef} {op : Deck → Deck} {st : Status} {e : BitVec 2}
    (h : op (deckAt s c.deck) = coreFault (deckAt s c.deck) c.core st e (coreOf s c).pc) :
    ∃ t, done (onDeck s c.deck (fun d => (op d, []))) = .next t ∧ (coreOf t c).fault = faultedWith (coreOf s c) st e ∧
      sameRegs (coreOf s c) (coreOf t c) := by
  refine ⟨_, ?_, coreOf_coreFault s c st e⟩
  rw [onDeck_pure s c.deck _ _ (Prod.ext h rfl)]
  rfl

/-- Retiring at the instruction's own word, where that is no last word of a loop (R138). -/
theorem retireOn_next (d : Deck) (i : Nat) (k k' : Core) (hn : plainNext k = true) (hl : k'.loops = k.loops) :
    retireOn d i k' k.pc.toNat = setCore d i { k' with pc := k.pc + 1 } := by
  obtain ⟨hloops, hpc⟩ := (plainNext_iff k).1 hn
  rw [retireOn_plain d i k' k.pc.toNat (by rw [hl]; exact hloops) hpc, pc_next]

theorem run_of_canIssue {s : State} {c : CoreRef} (hi : canIssue s c = true) : (coreOf s c).run = .ready := by
  simp only [canIssue, scalarReady, Bool.and_eq_true, decide_eq_true_eq] at hi
  exact hi.1

/-! ### LOOP (R138, R139, R141) -/

/-- What R141 asks of a body that starts at word `first` and ends at word `last`, for counter `n`. -/
def bodyFits (k : Core) (n : BitVec 2) (first last : Nat) : Prop :=
  (∀ g ∈ k.loops, g.ctr ≠ n) ∧ (∀ g ∈ k.loops.head?, last ≤ g.last) ∧ endsBody (lastOp k.imem first last 4096) = false

section
variable (f : FmtC) (k : Core)

/-- The last word of the body of a LOOP at PC (LM1). -/
def loopLast : Nat := k.pc.toNat + (fieldC f 32 12).toNat + 1

/-- The core with the loop counter's value latched and live (R138, R140). -/
def loopCounted : Core :=
  { k with live := mapSet 0 k.live (fieldC f 8 2).toNat (mapGet 0 k.lc (fieldC f 8 2).toNat)
           latched := mapSet 0 k.latched (fieldC f 8 2).toNat (mapGet 0 k.lc (fieldC f 8 2).toNat) }

/-- The core inside the loop that it starts. -/
def loopStarted : Core :=
  { loopCounted f k with
    loops := { ctr := fieldC f 8 2, first := k.pc.toNat + 1, last := loopLast f k } :: k.loops }

/-- A LOOP whose body fits latches its count, and starts where that is not 0. -/
theorem bodyLoop_fits (h : bodyFits k (fieldC f 8 2) (k.pc.toNat + 1) (loopLast f k)) :
    bodyLoop f k = .seq (if mapGet 0 k.lc (fieldC f 8 2).toNat = 0 then loopCounted f k else loopStarted f k) := by
  obtain ⟨hctr, hlast, hop⟩ := h
  simp only [bodyLoop]
  rw [if_neg]
  · split <;> rfl
  · simp only [loopLast] at hlast hop
    cases hl : k.loops with
    | nil => simp [hop]
    | cons g rest =>
      rw [hl] at hlast hctr
      simpa [hop, hlast g rfl] using hctr

/-- A LOOP whose body does not fit faults. -/
theorem bodyLoop_unfit (h : ¬ bodyFits k (fieldC f 8 2) (k.pc.toNat + 1) (loopLast f k)) : bodyLoop f k = .fault stBadParam := by
  simp only [bodyLoop]
  rw [if_pos]
  by_contra hc
  refine h ?_
  cases hl : k.loops with
  | nil => simpa [bodyFits, hl, loopLast] using hc
  | cons g rest => simpa [bodyFits, hl, loopLast, and_assoc] using hc

end

section
variable (d : Deck) (i : Nat) (f : FmtC) (hi : scalarReady (coreAt d i) = true) (hw : wfLoop f = true)
include hi hw

/-- A LOOP that goes on retires at its own word, or at the end of the body it skips (R139). -/
theorem opLoop_seq {k' : Core} (hb : bodyLoop f (coreAt d i) = .seq k') :
    opLoop d i f = retireOn d i k'
      (if mapGet 0 (coreAt d i).lc (fieldC f 8 2).toNat = 0 then loopLast f (coreAt d i) else (coreAt d i).pc.toNat) := by
  simp only [opLoop, hi, hw, hb, Bool.not_true, Bool.false_eq_true, if_false]
  split <;> rfl

theorem opLoop_fault {st : Status} (hb : bodyLoop f (coreAt d i) = .fault st) :
    opLoop d i f = coreFault d i st 0 (coreAt d i).pc := by
  simp only [opLoop, hi, hw, hb, Bool.not_true, Bool.false_eq_true, if_false]

end

/-- Settles O13: `bodyLoop_fits` and `bodyLoop_unfit` give what LOOP leaves, which retires at its own word or at the end of the
body it skips. -/
theorem loopStartsOrSkips : Obligations.LoopStartsOrSkips := by
  unfold Obligations.LoopStartsOrSkips
  intro s c f hi hw k n first last cnt fits
  refine ⟨fun hfit hcnt hn => onDeck_core ?starts, fun hfit hcnt hl hlast => onDeck_core ?skips, fun hfit => ?faults⟩
  case starts =>
    have hb : bodyLoop f k = .seq (loopStarted f k) := (bodyLoop_fits f k hfit).trans (congrArg CoreStep.seq (if_neg hcnt))
    obtain ⟨hloops, hpc⟩ := (plainNext_iff k).1 hn
    have hend : ∀ g ∈ (loopStarted f k).loops, g.last ≠ k.pc.toNat := by
      intro g hg
      rcases List.mem_cons.1 hg with rfl | hg
      · show loopLast f k ≠ k.pc.toNat
        rw [loopLast]
        omega
      · exact hloops g hg
    refine (opLoop_seq _ _ f hi hw hb).trans ((congrArg (retireOn _ _ _) (if_neg hcnt)).trans ?_)
    exact (retireOn_plain _ _ _ _ hend hpc).trans (by rw [pc_next]; rfl)
  case skips =>
    have hb : bodyLoop f k = .seq (loopCounted f k) := (bodyLoop_fits f k hfit).trans (congrArg CoreStep.seq (if_pos hcnt))
    have hend : ∀ g ∈ (loopCounted f k).loops, g.last ≠ last := by
      intro g hg
      rw [show (loopCounted f k).loops = k.loops from rfl, hl] at hg
      exact absurd hg List.not_mem_nil
    refine (opLoop_seq _ _ f hi hw hb).trans ((congrArg (retireOn _ _ _) (if_pos hcnt)).trans ?_)
    refine (retireOn_plain _ _ _ _ hend hlast).trans ?_
    simp only [loopCounted, show mapGet 0 k.lc (fieldC f 8 2).toNat = 0 from hcnt]
    rfl
  case faults =>
    have hd := opLoop_fault (deckAt s c.deck) c.core f hi hw (bodyLoop_unfit f k hfit)
    obtain ⟨t, ht, hf, -, -, -, -, -, -, -, -, hlive, hloops, -⟩ := onDeck_faults (op := fun d => opLoop d c.core f) hd
    exact ⟨t, ht, hf, hloops, hlive⟩

/-- Settles O14: the end checks run from the innermost loop out (`endFrames`). -/
theorem innerLoopEndsBeforeOuter : Obligations.InnerLoopEndsBeforeOuter := by
  unfold Obligations.InnerLoopEndsBeforeOuter
  intro s c inner outer rest hi k n m hl h1 h2 hne hf1 hf2
  have retires : ∀ r : List LoopFrame × SMap (BitVec 32) × Nat, endFrames k.loops k.live k.pc.toNat = r → r.2.2 ≤ 8191 →
      exec (.nop c { body := 0 }) s = .next (putCore s c { k with loops := r.1, live := r.2.1, pc := BitVec.ofNat 13 r.2.2 }) := by
    intro r hr hle
    refine onDeck_core (op := fun d => issueScalar d c.core true bodyNop) ?_
    simp only [issueScalar, show scalarReady (coreAt (deckAt s c.deck) c.core) = true from hi, bodyNop, retireOn, retire]
    rw [show coreAt (deckAt s c.deck) c.core = k from rfl, hr]
    simp [Nat.not_lt.2 hle]
  refine ⟨fun hn => ?again, fun hn hm => ?outer⟩
  case again =>
    have hr : endFrames k.loops k.live k.pc.toNat = (k.loops, mapSet 0 k.live inner.ctr.toNat (n - 1), inner.first) := by
      rw [hl, endFrames, if_pos h1]
      exact if_pos hn
    exact retires _ hr hf1
  case outer =>
    have hm' : mapGet 0 (mapSet 0 k.live inner.ctr.toNat 0) outer.ctr.toNat = m :=
      mapGet_set_other _ _ _ _ _ (fun h => hne (BitVec.eq_of_toNat_eq h.symm))
    have hr : endFrames k.loops k.live k.pc.toNat =
        (outer :: rest, mapSet 0 (mapSet 0 k.live inner.ctr.toNat 0) outer.ctr.toNat (m - 1), outer.first) := by
      have hn0 : ¬ n - 1 ≠ 0 := by rw [hn]; decide
      rw [hl, endFrames, if_pos h1]
      simp only [endFrames, if_pos h2, hm', if_pos hm]
      exact if_neg hn0
    exact retires _ hr hf2

end Sys2Proof.Machine
end


section
/-! SETTLED. Fences, WAIT on an object, WAITT and END (O15 to O17). -/
namespace Sys2Proof.Machine
open Sys2Proof

/-! ### Fences (R110, R113, R128) -/

/-- A fence in order lets issue go on: what it does where it need not wait. -/
theorem issueScalar_next (d : Deck) (i : Nat) (hi : scalarReady (coreAt d i) = true) (hn : plainNext (coreAt d i) = true) :
    issueScalar d i true (fun c => .seq c) = setCore d i { coreAt d i with pc := (coreAt d i).pc + 1 } :=
  issueScalar_seq d i _ _ hi hn rfl rfl

section
variable (d : Deck) (i : Nat) (f : FmtC) (hi : scalarReady (coreAt d i) = true) (hn : plainNext (coreAt d i) = true)
  (hw : wfFence f = true)
include hi hn hw

/-- FENCE (kind 0) goes on where no earlier instruction of MASK is incomplete, else issue stalls. -/
theorem opFence_kind0 (h0 : fieldC f 8 2 = 0) : opFence d i f = setCore d i
    (if maskBusy (coreAt d i) (fieldC f 10 4) (coreAt d i).seq then { coreAt d i with run := .fence (fieldC f 10 4) }
     else { coreAt d i with pc := (coreAt d i).pc + 1 }) := by
  simp only [opFence, hw, issueScalar_next d i hi hn, hi, Bool.not_true, Bool.or_false, Bool.false_eq_true, if_false, h0, if_true]
  split <;> rfl

/-- FENCE.PASS (kind 1) goes on, and is kept while its sources are busy and it names a destination. -/
theorem opFence_kind1 (h1 : fieldC f 8 2 = 1) : opFence d i f = setCore d i
    (if maskBusy (coreAt d i) (fieldC f 10 4) (coreAt d i).seq && fieldC f 14 4 != 0 then
      { coreAt d i with
        passes := (coreAt d i).passes ++ [{ src := fieldC f 10 4, dst := fieldC f 14 4, seq := (coreAt d i).seq }],
        pc := (coreAt d i).pc + 1 }
     else { coreAt d i with pc := (coreAt d i).pc + 1 }) := by
  have h0 : ¬ fieldC f 8 2 = 0 := by rw [h1]; decide
  simp only [opFence, hw, issueScalar_next d i hi hn, hi, Bool.not_true, Bool.or_false, Bool.false_eq_true, if_false, h1,
    show ¬ (1 : BitVec 2) = 0 by decide, if_true]
  split
  · exact retireOn_next d i _ _ hn rfl
  · rfl

/-- FENCE.SOURCE (kind 2) goes on where every mover instruction has read its source, else issue stalls. -/
theorem opFence_kind2 (h2 : fieldC f 8 2 = 2) : opFence d i f = setCore d i
    (if sourcesRead (coreAt d i) then { coreAt d i with pc := (coreAt d i).pc + 1 }
      else { coreAt d i with run := .fenceSource }) := by
  simp only [opFence, hw, issueScalar_next d i hi hn, hi, Bool.not_true, Bool.or_false, Bool.false_eq_true, if_false, h2,
    show ¬ (2 : BitVec 2) = 0 by decide, show ¬ (2 : BitVec 2) = 1 by decide]
  split <;> rfl

end

theorem sourcesRead_iff (k : Core) : sourcesRead k = true ↔ ∀ e ∈ k.xq, e.srcRead = true := by simp [sourcesRead]

theorem sourcesRead_eq_false (k : Core) : sourcesRead k = false ↔ ∃ e ∈ k.xq, e.srcRead = false := by
  simp [sourcesRead]

/-- The core after FENCE_RELEASE has dropped the FENCE.PASS entries whose engines are done. -/
def passesKept (k : Core) : Core := { k with passes := k.passes.filter (fun p => maskBusy k p.src p.seq) }

section
variable (d : Deck) (i : Nat)

/-- FENCE_RELEASE of a stalled FENCE. -/
theorem opFenceRelease_fence {m : BitVec 4} (hr : (coreAt d i).run = .fence m) : opFenceRelease d i =
    if maskBusy (coreAt d i) m (coreAt d i).seq then setCore d i (passesKept (coreAt d i))
    else retireOn d i { passesKept (coreAt d i) with run := .ready } (coreAt d i).pc.toNat := by
  simp only [opFenceRelease]
  split
  · rename_i m' h
    cases h.symm.trans hr
    rfl
  · rename_i h
    cases h.symm.trans hr
  · rename_i h _
    exact absurd hr (h m)

/-- FENCE_RELEASE of a stalled FENCE.SOURCE. -/
theorem opFenceRelease_source (hr : (coreAt d i).run = .fenceSource) : opFenceRelease d i =
    if sourcesRead (coreAt d i) then retireOn d i { passesKept (coreAt d i) with run := .ready } (coreAt d i).pc.toNat
    else setCore d i (passesKept (coreAt d i)) := by
  simp only [opFenceRelease]
  split
  · rename_i h
    cases h.symm.trans hr
  · rfl
  · rename_i h
    exact absurd hr h

end

/-- Settles O15: kind by kind, then the two ends of FENCE_RELEASE. -/
theorem fencesWaitAndRelease : Obligations.FencesWaitAndRelease := by
  unfold Obligations.FencesWaitAndRelease
  intro s c f k mask goesOn
  have hnext : plainNext k = true → retireOn (deckAt s c.deck) c.core { passesKept k with run := .ready } k.pc.toNat =
      setCore (deckAt s c.deck) c.core { passesKept k with run := .ready, pc := k.pc + 1 } := fun hn => retireOn_next _ _ k _ hn rfl
  refine ⟨fun hi hn hw => ⟨fun h0 hb => onDeck_core ?done, fun h0 hb => onDeck_core ?stalls, fun h1 hb => onDeck_core ?passDone,
    fun h1 hb hd => onDeck_core ?pass, fun h1 hd => onDeck_core ?passEmpty, fun h2 hx => onDeck_core ?read,
    fun h2 hx => onDeck_core ?unread⟩, fun m h => ?waits, fun m h hn => ?releases⟩
  case done => exact (opFence_kind0 _ _ f hi hn hw h0).trans (congrArg (setCore _ _) (if_neg (ne_true_of_eq_false hb)))
  case stalls => exact (opFence_kind0 _ _ f hi hn hw h0).trans (congrArg (setCore _ _) (if_pos hb))
  case passDone =>
    exact (opFence_kind1 _ _ f hi hn hw h1).trans
      (congrArg (setCore _ _) (if_neg (fun h => ne_true_of_eq_false hb (Bool.and_elim_left h))))
  case pass =>
    exact (opFence_kind1 _ _ f hi hn hw h1).trans (congrArg (setCore _ _) (if_pos (Bool.and_intro hb (bne_iff_ne.2 hd))))
  case passEmpty =>
    exact (opFence_kind1 _ _ f hi hn hw h1).trans
      (congrArg (setCore _ _) (if_neg (fun h => bne_iff_ne.1 (Bool.and_elim_right h) hd)))
  case read => exact (opFence_kind2 _ _ f hi hn hw h2).trans (congrArg (setCore _ _) (if_pos ((sourcesRead_iff k).2 hx)))
  case unread =>
    exact (opFence_kind2 _ _ f hi hn hw h2).trans
      (congrArg (setCore _ _) (if_neg (ne_true_of_eq_false ((sourcesRead_eq_false k).2 hx))))
  case waits =>
    refine onDeck_core (op := fun d => opFenceRelease d c.core) ?_
    rcases h with ⟨hr, hb⟩ | ⟨hr, hx⟩
    · exact (opFenceRelease_fence _ _ hr).trans (if_pos hb)
    · exact (opFenceRelease_source _ _ hr).trans (if_neg (ne_true_of_eq_false ((sourcesRead_eq_false k).2 hx)))
  case releases =>
    refine onDeck_core (op := fun d => opFenceRelease d c.core) ?_
    rcases h with ⟨hr, hb⟩ | ⟨hr, hx⟩
    · exact (opFenceRelease_fence _ _ hr).trans ((if_neg (ne_true_of_eq_false hb)).trans (hnext hn))
    · exact (opFenceRelease_source _ _ hr).trans ((if_pos ((sourcesRead_iff k).2 hx)).trans (hnext hn))

/-! ### WAIT (R150, R151) -/

section
variable (env : CoreEnv) (d : Deck) (i : Nat) (f : FmtC) (hi : scalarReady (coreAt d i) = true) (hw : wfWait f = true)
  (ho : objRefused d (coreAt d i).ctx (fieldC f 32 12) = none)
include hi hw ho

/-- A WAIT whose object releases it ends at once. -/
theorem opWait_released {st : Status}
    (hr : released (objAt d (fieldC f 32 12).toNat) (sGet (coreAt d i) (fieldC f 13 5)) = some st) :
    opWait env d i f = releaseCore d i (fieldC f 8 5) st := by
  simp only [opWait, hi, hw, ho, hr, Bool.not_true, Bool.false_eq_true, if_false]

/-- A WAIT whose object does not release it stalls issue and joins the deck's waiters. -/
theorem opWait_waits (hr : released (objAt d (fieldC f 32 12).toNat) (sGet (coreAt d i) (fieldC f 13 5)) = none) :
    opWait env d i f = { setCore d i { coreAt d i with run := .object } with
      waiters := d.waiters ++
        [{ who := .core i, sd := fieldC f 8 5, obj := fieldC f 32 12,
           target := sGet (coreAt d i) (fieldC f 13 5), start := env.clock }] } := by
  simp only [opWait, hi, hw, ho, hr, Bool.not_true, Bool.false_eq_true, if_false]
  rfl

end

theorem objRefused_none {d : Deck} {x : BitVec 4} {o : BitVec 12} (ha : objAlloc d o.toNat = true) (hc : objCtx d o.toNat = x) :
    objRefused d x o = none := by
  simp [objRefused, ha, hc]

theorem released_poison {x : SyncObj} (h : x.poison = true) (target : W64) : released x target = some x.status := if_pos h

theorem released_count {x : SyncObj} {target : W64} (h : x.poison = false) (hc : target.toNat ≤ x.count.toNat) :
    released x target = some stGood := (if_neg (ne_true_of_eq_false h)).trans (if_pos hc)

theorem released_not {x : SyncObj} {target : W64} (h : x.poison = false) (hc : x.count.toNat < target.toNat) :
    released x target = none := (if_neg (ne_true_of_eq_false h)).trans (if_neg (Nat.not_le.2 hc))

theorem sSet_run (k : Core) (r : BitVec 5) (v : W64) : (sSet k r v).run = k.run := by
  unfold sSet
  split <;> rfl

/-- A WAIT that ends with a status its register can take retires with it. -/
theorem releaseCore_takes (d : Deck) (i : Nat) (sd : BitVec 5) (st : Status) (hr : (coreAt d i).run = .ready)
    (hn : plainNext (coreAt d i) = true) (h : ¬ (sd = 0 ∧ st ≠ 0)) :
    releaseCore d i sd st = setCore d i (retired (coreAt d i) sd (st.setWidth 64)) := by
  have hrun : ({ sSet (coreAt d i) sd (st.setWidth 64) with run := .ready } : Core) = sSet (coreAt d i) sd (st.setWidth 64) := by
    rw [← hr, ← sSet_run (coreAt d i) sd (st.setWidth 64)]
  simp only [releaseCore, if_neg h, hrun]
  exact retireOn_next d i _ _ hn (sSet_loops _ _ _)

/-- An error that s0 would take faults the core. -/
theorem releaseCore_faults (d : Deck) (i : Nat) (st : Status) (hr : (coreAt d i).run = .ready) (h : st ≠ 0) :
    releaseCore d i 0 st = coreFault (setCore d i (coreAt d i)) i st 0 (coreAt d i).pc := by
  have hrun : ({ coreAt d i with run := .ready } : Core) = coreAt d i := by rw [← hr]
  simp only [releaseCore, hrun]
  exact if_pos ⟨trivial, h⟩

/-- Settles O16: `released` says what the object does with the WAIT, `releaseCore` what a release does. -/
theorem waitOnAnObject : Obligations.WaitOnAnObject := by
  unfold Obligations.WaitOnAnObject
  intro s c f hi hn hw k d o sd x target ha hc
  have hr := run_of_canIssue hi
  have ho : objRefused d k.ctx o = none := objRefused_none ha hc
  refine ⟨fun hp hsd => onDeck_core ?takes, fun hp hsd hst => ?faults, fun hp hle => onDeck_core ?counts, fun hp hlt => ?waits⟩
  case takes =>
    rw [opWait_released _ d c.core f hi hw ho (released_poison hp target)]
    exact releaseCore_takes d c.core sd x.status hr hn (fun h => hsd.elim (fun h0 => h0 h.1) h.2)
  case counts =>
    rw [opWait_released _ d c.core f hi hw ho (released_count hp hle)]
    exact releaseCore_takes d c.core sd stGood hr hn (fun h => h.2 rfl)
  case faults =>
    have hd := opWait_released (coreEnv s c.deck) d c.core f hi hw ho (released_poison hp target)
    rw [show fieldC f 8 5 = 0 from hsd, releaseCore_faults d c.core x.status hr hst] at hd
    obtain ⟨⟨hs, -⟩, hfault, -⟩ := coreFault_core (setCore d c.core k) c.core x.status 0 k.pc
    rw [coreAt_setCore] at hs hfault
    refine ⟨_, congrArg done (onDeck_pure s c.deck _ _ (Prod.ext hd rfl)), ?_⟩
    simp only [coreOf, deckAt_setDeck]
    exact ⟨hfault, hs⟩
  case waits =>
    have hd := opWait_waits (coreEnv s c.deck) d c.core f hi hw ho (released_not hp hlt)
    exact congrArg done (onDeck_pure s c.deck _ _ (Prod.ext hd rfl))

/-! ### WAITT and END (R151, R152, R187) -/

/-- The boundary is the first tick at or after the time, at the earliest the next one (R152). -/
theorem waittBoundary_spec (now t : Nat) : waittBoundary now t % 5 = 0 ∧ t ≤ waittBoundary now t ∧ now < waittBoundary now t ∧
    (waittBoundary now t < t + 5 ∨ waittBoundary now t ≤ now + 5) := by
  unfold waittBoundary
  omega

section
variable (env : CoreEnv) (d : Deck) (i : Nat) (f : FmtC)

theorem opWaitt_near (hi : scalarReady (coreAt d i) = true) (hw : wfWaitt f = true)
    (ht : (sGet (coreAt d i) (fieldC f 13 5)).toNat ≤ env.now + 2 ^ 32) :
    opWaitt env d i f = setCore d i { coreAt d i with
      run := .time (sGet (coreAt d i) (fieldC f 13 5)).toNat
        (waittBoundary env.now (sGet (coreAt d i) (fieldC f 13 5)).toNat) } := by
  simp only [opWaitt, hi, hw, Bool.not_true, Bool.false_eq_true, if_false, gt_iff_lt, Nat.not_lt.2 ht]

theorem opWaitt_far (hi : scalarReady (coreAt d i) = true) (hw : wfWaitt f = true)
    (ht : env.now + 2 ^ 32 < (sGet (coreAt d i) (fieldC f 13 5)).toNat) :
    opWaitt env d i f = coreFault d i stBadParam 0 (coreAt d i).pc := by
  simp only [opWaitt, hi, hw, Bool.not_true, Bool.false_eq_true, if_false, gt_iff_lt, ht, if_true]

theorem opWaittExpire_reached {t b : Nat} (hr : (coreAt d i).run = .time t b) (hb : b ≤ env.now)
    (hn : plainNext (coreAt d i) = true) :
    opWaittExpire env d i = setCore d i { coreAt d i with run := .ready, pc := (coreAt d i).pc + 1 } := by
  simp only [opWaittExpire]
  split
  · rename_i t' b' h
    cases h.symm.trans hr
    exact (if_pos hb).trans (retireOn_next d i _ { coreAt d i with run := .ready } hn rfl)
  · rename_i h
    exact absurd hr (h t b)

theorem opEnd_ready (hi : scalarReady (coreAt d i) = true) (hw : wfNone f = true) :
    opEnd d i f = setCore d i { coreAt d i with run := if enginesIdle (coreAt d i) then .ended else .endWait } := by
  simp only [opEnd, hi, hw, Bool.not_true, Bool.false_eq_true, if_false]
  split <;> rfl

end

/-- Settles O17: WAITT waits to `waittBoundary` or faults, its expiry retires it, END ends or waits. -/
theorem waitForHallTime : Obligations.WaitForHallTime := by
  unfold Obligations.WaitForHallTime
  intro s c f k t
  refine ⟨fun hi hw ht => ⟨waittBoundary (hallNs s) t, onDeck_core ?near, waittBoundary_spec _ _⟩, fun hi hw ht => ?far,
    fun u b hr hb hn => onDeck_core (op := fun d => opWaittExpire (coreEnv s c.deck) d c.core) ?expires,
    fun hi he => onDeck_core ?ends, fun hi he => onDeck_core ?waits⟩
  case near => exact opWaitt_near (coreEnv s c.deck) _ _ f hi hw ht
  case far =>
    obtain ⟨u, hu, hf, -⟩ := onDeck_faults (op := fun d => opWaitt (coreEnv s c.deck) d c.core f)
      (opWaitt_far (coreEnv s c.deck) _ _ f hi hw ht)
    exact ⟨u, hu, hf⟩
  case expires => exact opWaittExpire_reached (coreEnv s c.deck) _ _ hr hb hn
  case ends => exact (opEnd_ready _ _ _ hi rfl).trans (by rw [show enginesIdle (coreAt _ _) = true from he]; rfl)
  case waits => exact (opEnd_ready _ _ _ hi rfl).trans (by rw [show enginesIdle (coreAt _ _) = false from he]; rfl)

end Sys2Proof.Machine
end


section
/-! SETTLED. Vector and matrix instructions: issue, start and completion (O20, O21, O23). -/
namespace Sys2Proof.Machine
open Sys2Proof

/-! ### Issuing an engine instruction (R110, R111, R192) -/

section
variable (d : Deck) (i : Nat) (e : Engine) (res : Bool) (check : Core → Option Status) (put : Core → Core)
  (hr : (coreAt d i).run = .ready) (hw : wideNext (coreAt d i) = true) (hq : queueFull (coreAt d i) e = false)
include hr hw hq

/-- An engine instruction that passes its checks and gives a result stalls issue for it (R115). -/
theorem issueEngine_result (hc : check (coreAt d i) = none) :
    issueEngine d i e true true check put =
      setCore d i { put (coreAt d i) with seq := (coreAt d i).seq + 1, run := .result e (coreAt d i).seq } := by
  have h9 : ((coreAt d i).pc == 8191) = false := beq_eq_false_iff_ne.2 (wideNext_pc _ hw)
  simp only [issueEngine, hr, hq, hc, wideNext_fits _ hw, h9]
  rfl

/-- An engine instruction whose issue check fails faults its core with the engine's number. -/
theorem issueEngine_refused {st : Status} (hc : check (coreAt d i) = some st) :
    issueEngine d i e true res check put = coreFault d i st (engineCode e) (coreAt d i).pc := by
  have h9 : ((coreAt d i).pc == 8191) = false := beq_eq_false_iff_ne.2 (wideNext_pc _ hw)
  simp only [issueEngine, hr, hq, hc, h9]
  rfl

end

/-- Settles O20: each instruction is `opVec` or `opTly`, which join the queue or fault on the Tally's range. -/
theorem vectorInstructionsQueue : Obligations.VectorInstructionsQueue := by
  unfold Obligations.VectorInstructionsQueue
  intro s c f hr hw hl k queued
  have hq : queueFull k .vector = false := decide_eq_false (Nat.not_le.2 hl)
  have vec : ∀ {i : Instr} {wf : Bool} (op : BitVec 8),
      exec i s = done (onDeck s c.deck (fun d => (opVec d c.core op wf false f, []))) → wf = true → queued i op := by
    rintro i wf op hx rfl
    rw [show queued i op = (exec i s = _) from rfl, hx]
    exact onDeck_core (issueEngine_plain _ _ .vector _ _ hr hw hq rfl rfl)
  refine ⟨vec _ rfl, vec _ rfl, vec _ rfl, vec _ rfl, vec _ rfl, vec _ rfl, vec _ rfl, vec _ rfl, vec _ rfl, vec _ rfl, vec _ rfl,
    vec _ rfl, fun hf => ?vext, fun ht => ?tally, fun ht => ?range⟩
  case vext =>
    refine onDeck_core (op := fun d => opVec d c.core 0x8C (wfVext f) true f) ?_
    rw [hf]
    exact issueEngine_result _ _ .vector _ _ hr hw hq rfl
  case tally =>
    have tly : ∀ {i : Instr} {wf : Bool} (op : BitVec 8),
        exec i s = done (onDeck s c.deck (fun d => (opTly d c.core op wf f, []))) → wf = true → queued i op := by
      rintro i wf op hx rfl
      rw [show queued i op = (exec i s = _) from rfl, hx]
      exact onDeck_core (issueEngine_plain _ _ .vector _ _ hr hw hq (if_pos ht) rfl)
    exact ⟨tly _ rfl, tly _ rfl⟩
  case range =>
    have refused : ∀ {i : Instr} {wf : Bool} (op : BitVec 8),
        exec i s = done (onDeck s c.deck (fun d => (opTly d c.core op wf f, []))) → wf = true →
        ∃ t, exec i s = .next t ∧ (coreOf t c).fault = faultedWith k stBadParam 1 ∧ (coreOf t c).vq = k.vq := by
      rintro i wf op hx rfl
      have hd : opTly (deckAt s c.deck) c.core op true f = coreFault (deckAt s c.deck) c.core stBadParam 1 k.pc :=
        issueEngine_refused _ _ .vector _ _ _ hr hw hq (if_neg ht)
      obtain ⟨-, hfault, hvq, -⟩ := coreFault_core (deckAt s c.deck) c.core stBadParam 1 k.pc
      refine ⟨_, hx.trans (congrArg done (onDeck_pure s c.deck _ _ (Prod.ext hd rfl))), ?_⟩
      simp only [coreOf, deckAt_setDeck]
      exact ⟨hfault, hvq⟩
    simp only [List.forall_mem_cons, List.not_mem_nil, false_imp_iff, implies_true, and_true]
    exact ⟨refused _ rfl, refused _ rfl⟩

theorem sameRegs_refl (k : Core) : sameRegs k k := ⟨rfl, rfl, rfl, rfl, rfl, rfl, rfl, rfl, rfl, rfl, rfl⟩

theorem sameRegs_trans {a b c : Core} (h : sameRegs a b) (h' : sameRegs b c) : sameRegs a c := by
  obtain ⟨h1, h2, h3, h4, h5, h6, h7, h8, h9, h10, h11⟩ := h
  obtain ⟨g1, g2, g3, g4, g5, g6, g7, g8, g9, g10, g11⟩ := h'
  exact ⟨g1.trans h1, g2.trans h2, g3.trans h3, g4.trans h4, g5.trans h5, g6.trans h6, g7.trans h7, g8.trans h8, g9.trans h9,
    g10.trans h10, g11.trans h11⟩

/-! ### What an END that waited does (R187) -/

/-- Writing a core twice writes it once, where the first value is not the default that a map leaves out. -/
theorem setCore_setCore (d : Deck) (i : Nat) (k k' : Core) (h : k ≠ {}) (h' : k' ≠ {}) :
    setCore (setCore d i k) i k' = setCore d i k' := by
  have key : ∀ m : SMap Core, mapInsert (mapInsert m i k) i k' = mapInsert m i k' := by
    intro m
    induction m with
    | nil => simp [mapInsert]
    | cons e rest ih =>
      obtain ⟨j, x⟩ := e
      by_cases h1 : i < j
      · simp [mapInsert, h1]
      · by_cases h2 : j = i
        · simp [mapInsert, h2]
        · simp [mapInsert, h1, h2, ih]
  simp only [setCore, mapSet, if_neg h, if_neg h', key]

/-- A core whose END waits ends once no engine has work. -/
def endIfIdle (k : Core) : Core := if k.run = .endWait ∧ enginesIdle k = true then { k with run := .ended } else k

theorem ne_default_of_run {k : Core} (h : k.run ≠ .idle) : k ≠ {} := by
  rintro rfl
  exact h rfl

theorem settleEnd_setCore (d : Deck) (i : Nat) (k : Core) : settleEnd (setCore d i k) i = setCore d i (endIfIdle k) := by
  simp only [settleEnd, coreAt_setCore, endIfIdle]
  split
  · rename_i h
    exact setCore_setCore d i k _ (ne_default_of_run (by rw [h.1]; decide)) (ne_default_of_run RunState.noConfusion)
  · rfl

/-- The end of a wait changes no register, fault or queue of the core. -/
theorem settleEnd_core (d : Deck) (i : Nat) :
    sameRegs (coreAt d i) (coreAt (settleEnd d i) i) ∧ (coreAt (settleEnd d i) i).fault = (coreAt d i).fault ∧
      (coreAt (settleEnd d i) i).mq = (coreAt d i).mq := by
  simp only [settleEnd]
  split
  · rw [coreAt_setCore]
    exact ⟨sameRegs_refl _, rfl, rfl⟩
  · exact ⟨sameRegs_refl _, rfl, rfl⟩

/-! ### ENGINE_INSTRUCTION_COMPLETE (R113) -/

/-- A register write commutes with a change of the vector queue. -/
theorem sSet_vq (k : Core) (r : BitVec 5) (v : W64) (q : List VecEntry) :
    sSet { k with vq := q } r v = { sSet k r v with vq := q } := by
  unfold sSet
  split <;> rfl

theorem sSet_pc (k : Core) (r : BitVec 5) (v : W64) : (sSet k r v).pc = k.pc := by
  unfold sSet
  split <;> rfl

section
variable (d : Deck) (i : Nat)

/-- The head of the vector queue, where no FENCE.PASS holds it and it is no Tally instruction. -/
theorem completeVecHead_eq {e : VecEntry} {rest : List VecEntry} (hq : (coreAt d i).vq = e :: rest)
    (hp : passHolds (coreAt d i) 1 e.seq = false) (h0 : e.op ≠ 0x90) (h1 : e.op ≠ 0x91) :
    completeVecHead d i = completeVec d i e rest := by
  simp only [completeVecHead, hq, hp, Bool.false_eq_true, if_false, h0, h1, or_self]

/-- A row instruction whose rows meet no error leaves what they wrote. -/
theorem completeVec_rows {e : VecEntry} {rest : List VecEntry} {k' : Core} (hop : e.op ≠ 0x8C)
    (hrun : runRows (vecRow e) 0 e.n { coreAt d i with vq := rest } = (k', false)) :
    completeVec d i e rest = (setCore d i (endIfIdle k'), []) := by
  simp only [completeVec, if_neg hop, hrun, Bool.false_eq_true, if_false, settleEnd_setCore]

/-- A core that waits for result `seq` takes it and goes on behind the instruction (R115). -/
theorem giveResult_waiting {e : Engine} {seq : Nat} (rd : BitVec 5) (v : W64) (hr : (coreAt d i).run = .result e seq)
    (hn : wideNext (coreAt d i) = true) :
    giveResult d i seq rd v = setCore d i { sSet (coreAt d i) rd v with run := .ready, pc := (coreAt d i).pc + 2 } := by
  obtain ⟨hloops, hpc⟩ := (wideNext_iff _).1 hn
  have hend : ∀ g ∈ ({ sSet (coreAt d i) rd v with run := .ready } : Core).loops, g.last ≠ (coreAt d i).pc.toNat + 1 :=
    fun g hg => (hloops g (sSet_loops (coreAt d i) rd v ▸ hg)).2
  have hret := retireOn_plain d i { sSet (coreAt d i) rd v with run := .ready } ((coreAt d i).pc.toNat + 1) hend (by omega)
  rw [pc_next2, ← sSet_pc (coreAt d i) rd v] at hret
  rw [← sSet_pc (coreAt d i) rd v]
  simp only [giveResult]
  split
  · rename_i e' n h
    cases h.symm.trans ((sSet_run _ _ _).trans hr)
    exact (if_pos rfl).trans hret
  · rename_i h
    exact absurd ((sSet_run _ _ _).trans hr) (h e seq)

/-- VEXT gives its register the lane, and issue goes on. -/
theorem completeVec_vext {e : VecEntry} {rest : List VecEntry} {r : Nat} (hop : e.op = 0x8C) (ha : e.a = .vreg r)
    (hr : (coreAt d i).run = .result .vector e.seq) (hn : wideNext (coreAt d i) = true) :
    completeVec d i e rest = (setCore d i { sSet (coreAt d i) (e.ext.extractLsb' 0 5)
        ((mapGet 0 (coreAt d i).v (32 * (r % 16) + (e.ext.extractLsb' 5 5).toNat)).setWidth 64) with
          vq := rest, run := .ready, pc := (coreAt d i).pc + 2 }, []) := by
  have hcore := coreAt_setCore d i { coreAt d i with vq := rest }
  simp only [completeVec, if_pos hop, ha]
  rw [giveResult_waiting (setCore d i { coreAt d i with vq := rest }) i _ _ (by rw [hcore]; exact hr) (by rw [hcore]; exact hn),
    hcore, sSet_vq, setCore_setCore _ _ _ _ (ne_default_of_run (by rw [hr]; exact RunState.noConfusion))
      (ne_default_of_run RunState.noConfusion), settleEnd_setCore]
  exact congrArg (fun k => (setCore d i k, [])) (if_neg (fun h => RunState.noConfusion h.1))

/-- A started matrix instruction that meets no error leaves its effect. -/
theorem completeMatHead_rows {e : MatEntry} {rest : List MatEntry} {k' : Core} (hq : (coreAt d i).mq = e :: rest)
    (hs : e.started = true) (hrun : runMat e { coreAt d i with mq := rest } = (k', false)) :
    completeMatHead d i = (setCore d i (endIfIdle k'), []) := by
  simp only [completeMatHead, hq, hs, Bool.not_true, Bool.false_eq_true, if_false, hrun, settleEnd_setCore]

end

/-- Settles O21: the head of either queue leaves with its rows, or gives its register the lane. -/
theorem engineInstructionsComplete : Obligations.EngineInstructionsComplete := by
  unfold Obligations.EngineInstructionsComplete
  intro s c k after
  have answers : ∀ {e : Engine} {k' : Core}, opEngineDone (deckAt s c.deck) c.core e = (setCore (deckAt s c.deck) c.core k', []) →
      exec (.engineInstructionComplete c e) s = .next (putCore s c k') :=
    fun h => congrArg done (onDeck_pure s c.deck _ _ h)
  refine ⟨fun e rest hq hp hx h0 h1 k' hrun => answers ?rows, fun e rest r hq hp hx ha hr hn => answers ?vext,
    fun e rest hq hs k' hrun => answers ?matrix⟩
  case rows => exact (completeVecHead_eq _ _ hq hp h0 h1).trans (completeVec_rows _ _ hx hrun)
  case vext =>
    exact (completeVecHead_eq _ _ hq hp (by rw [hx]; decide) (by rw [hx]; decide)).trans (completeVec_vext _ _ hx ha hr hn)
  case matrix => exact completeMatHead_rows _ _ hq hs hrun

/-! ### Matrix instructions (R185, R193, R239, R240) -/

section
variable (d : Deck) (i : Nat) {e : MatEntry} {rest : List MatEntry} (hq : (coreAt d i).mq = e :: rest) (hs : e.started = false)
  (hg : e.gang = false) (hp : passHolds (coreAt d i) 2 e.seq = false)
include hq hs hg hp

theorem opMatStart_starts (hok : startOk (coreAt d i) e = true) :
    opMatStart d i = setCore d i { coreAt d i with mq := { e with started := true, lead := none } :: rest, matPc := e.pc } := by
  have hst : startable (coreAt d i) = some e := by simp [startable, hq, hs, hp]
  simp only [opMatStart, hst, hg, hok, Bool.false_eq_true, if_false, if_true, markStarted, hq]

theorem opMatStart_faults (hok : startOk (coreAt d i) e = false) :
    opMatStart d i = settleEnd (coreFault (setCore d i { coreAt d i with mq := rest }) i stBadParam 2 e.pc) i := by
  have hst : startable (coreAt d i) = some e := by simp [startable, hq, hs, hp]
  simp only [opMatStart, hst, hg, hok, Bool.false_eq_true, if_false, dropMat, hq, List.drop_one, List.tail_cons]

end

/-- Settles O23: the four instructions are `opMat`; MATRIX_START marks the head or takes it off and faults. -/
theorem matrixInstructionsQueueAndStart : Obligations.MatrixInstructionsQueueAndStart := by
  unfold Obligations.MatrixInstructionsQueueAndStart
  intro s c f k queued
  refine ⟨fun hr hw hl hg => ?queue, fun e rest hq hs hng hp => ⟨fun hok => onDeck_core ?start, fun hop hpair => ?fault⟩⟩
  case queue =>
    have hfull : queueFull k .matrix = false := decide_eq_false (Nat.not_le.2 hl)
    have hcheck : (if f.gang = 1 ∧ wholePen (deckAt s c.deck) c.core = false then some stBadParam else none) = none := by
      refine if_neg (fun h => hg.elim (fun h0 => ?_) (fun h1 => ?_))
      · exact absurd (h0.symm.trans h.1) (by decide)
      · exact absurd (h1.symm.trans h.2) (by decide)
    have mat : ∀ {i : Instr} {wf : Bool} (op : BitVec 8),
        exec i s = done (onDeck s c.deck (fun d => (opMat d c.core op wf f, []))) → wf = true → queued i op := by
      rintro i wf op hx rfl
      rw [show queued i op = (exec i s = _) from rfl, hx]
      exact onDeck_core (issueEngine_plain _ _ .matrix _ _ hr hw hfull hcheck rfl)
    exact ⟨mat _ rfl, mat _ rfl, mat _ rfl, mat _ rfl⟩
  case start =>
    refine opMatStart_starts _ _ hq hs hng hp ?_
    rcases hok with h | h
    · exact Bool.or_eq_true_iff.2 (.inl (bne_iff_ne.2 h))
    · exact Bool.or_eq_true_iff.2 (.inr h)
  case fault =>
    have hok : startOk k e = false := by simp [startOk, hop, hpair]
    have hd := opMatStart_faults (deckAt s c.deck) c.core hq hs hng hp hok
    refine ⟨setDeck s c.deck (settleEnd
      (coreFault (setCore (deckAt s c.deck) c.core { k with mq := rest }) c.core stBadParam 2 e.pc)
      c.core), congrArg done (onDeck_pure s c.deck _ _ (Prod.ext hd rfl)), setDeck_onlyDeck _ _ _, ?_⟩
    obtain ⟨hregs, hfault, -, -, hmq⟩ :=
      coreFault_core (setCore (deckAt s c.deck) c.core { k with mq := rest }) c.core stBadParam 2 e.pc
    obtain ⟨hregs', hfault', hmq'⟩ :=
      settleEnd_core (coreFault (setCore (deckAt s c.deck) c.core { k with mq := rest }) c.core stBadParam 2 e.pc) c.core
    rw [coreAt_setCore] at hregs hfault hmq
    simp only [coreOf, deckAt_setDeck]
    exact ⟨sameRegs_trans hregs hregs', by rw [hmq']; exact hmq, hfault'.trans hfault⟩

end Sys2Proof.Machine
end


section
/-! SETTLED. Mover instructions join their queue (O25). -/
namespace Sys2Proof.Machine
open Sys2Proof

/-! ### A mover instruction joins its queue (R111, R115, R130, R181) -/

/-- The core with `e` at the tail of its mover's queue, gone on by two words; a SYNCRD stalls issue for its result. -/
def movJoined (k : Core) (op : BitVec 8) (e : MovEntry) : Core :=
  let k' := { k with xq := k.xq ++ [e], seq := k.seq + 1 }
  if op = opSYNCRD then { k' with run := .result .mover k.seq } else { k' with pc := k.pc + 2 }

/-- The entry once it has started. -/
def movStarted (e : MovEntry) : MovEntry := { e with started := true }

theorem movJoined_xq (k : Core) (op : BitVec 8) (e : MovEntry) : (movJoined k op e).xq = k.xq ++ [e] := by
  unfold movJoined
  dsimp only
  split <;> rfl

theorem movJoined_ctx (k : Core) (op : BitVec 8) (e : MovEntry) : (movJoined k op e).ctx = k.ctx := by
  unfold movJoined
  dsimp only
  split <;> rfl

theorem movJoined_ne_default (k : Core) (op : BitVec 8) (e : MovEntry) : movJoined k op e ≠ {} := by
  intro h
  have hx := (movJoined_xq k op e).symm.trans (congrArg Core.xq h)
  exact absurd hx (by simp)

section
variable (env : CoreEnv) (d : Deck) (i : Nat) (op : BitVec 8) (f : FmtX) (hr : (coreAt d i).run = .ready)
  (hw : wideNext (coreAt d i) = true) (hl : (coreAt d i).xq.length < 32) (hc : movIssue env d op f (coreAt d i) = none)
include hr hw hl hc

/-- An instruction that passes its issue checks and whose destination the gate does not refuse joins the queue. -/
theorem opMovI_open (hg : movGated env d op f (movArgs f (coreAt d i)) = false) :
    opMovI env d i op true f = pump env (setCore d i (movJoined (coreAt d i) op (movEntry env op f (coreAt d i)))) i := by
  have hq : queueFull (coreAt d i) .mover = false := decide_eq_false (Nat.not_le.2 hl)
  have hissue : issueEngine d i .mover true (op == opSYNCRD) (movIssue env d op f)
      (fun c => { c with xq := c.xq ++ [movEntry env op f c] }) =
      setCore d i (movJoined (coreAt d i) op (movEntry env op f (coreAt d i))) := by
    by_cases hs : op = opSYNCRD
    · rw [beq_iff_eq.2 hs, issueEngine_result d i .mover _ _ hr hw hq hc, movJoined]
      exact congrArg (setCore d i) (if_pos hs).symm
    · rw [beq_eq_false_iff_ne.2 hs, issueEngine_plain d i .mover _ _ hr hw hq hc rfl, movJoined]
      exact congrArg (setCore d i) (if_neg hs).symm
  simp only [opMovI, hg, Bool.and_false, Bool.false_eq_true, if_false, hissue]

/-- One that the closed gate refuses and that names no completion object faults the core with VOTE_FAILED (R282). -/
theorem opMovI_shut (hg : movGated env d op f (movArgs f (coreAt d i)) = true) (hcen : f.cen = 0) :
    opMovI env d i op true f = (coreFault d i stVoteFailed 3 (coreAt d i).pc, []) := by
  have hq : queueFull (coreAt d i) .mover = false := decide_eq_false (Nat.not_le.2 hl)
  have h9 : ((coreAt d i).pc != 8191) = true := bne_iff_ne.2 (wideNext_pc _ hw)
  have h0 : ¬ f.cen = 1 := by rw [hcen]; decide
  simp only [opMovI, hr, h9, wideNext_fits _ hw, hq, hc, hg, decide_true, Bool.and_true, Bool.not_false, if_true, if_neg h0]

end

/-! ### What the pump does with the instruction that just joined (R112, R131) -/

/-- A packet keeps what names its ends when it gets its fence fields and its TXN. -/
def sameEnds (p q : Packet) : Prop := q.dst = p.dst ∧ q.src = p.src ∧ q.srcCore = p.srcCore

theorem trackPlain_ends (env : CoreEnv) (m : BitVec 17) (p : Packet) (c : Core) : sameEnds p (trackPlain env m p c).1 := by
  unfold trackPlain
  split
  · exact ⟨rfl, rfl, rfl⟩
  · split <;> exact ⟨rfl, rfl, rfl⟩

theorem trackFenced_ends (env : CoreEnv) (m : BitVec 17) (p : Packet) (c : Core) : sameEnds p (trackFenced env m p c).1 := by
  simp only [trackFenced]
  split <;> exact ⟨rfl, rfl, rfl⟩

theorem sendPacket_ends (env : CoreEnv) (seq left : Nat) (fenced : Bool) (p : Packet) (c : Core) :
    sameEnds p (sendPacket env seq left fenced p c).1 := by
  cases fenced <;> simp only [sendPacket, Bool.false_eq_true, if_false, if_true] <;> generalize freeTxn _ = t
  · exact trackPlain_ends env p.dst p c
  · exact trackFenced_ends env p.dst p c

theorem sendPacket_xq (env : CoreEnv) (seq left : Nat) (fenced : Bool) (p : Packet) (c : Core) :
    (sendPacket env seq left fenced p c).2.xq = c.xq := by
  cases fenced <;> simp only [sendPacket, Bool.false_eq_true, if_false, if_true] <;> generalize freeTxn _ = t
  · exact (trackPlain_spec env p.dst p c).2.2.2
  · exact (trackFenced_spec env p.dst p c).2.2.2

section
variable (env : CoreEnv) (d : Deck) (i : Nat) (e : MovEntry)

/-- A remote GET, SIG or SYNCRD queues one packet from its core to its target and stands as started. -/
theorem startRemote_request (h : e.op ≠ opPUT ∧ e.op ≠ opATOM) :
    ∃ q : Packet, ∃ d', startRemote env d i e = (queuePackets env d' [q], []) ∧ d'.txq = d.txq ∧ q.dst = e.target ∧
      q.src = env.module ∧ q.srcCore = BitVec.ofNat 12 i ∧
      ∀ x ∈ (coreAt d' i).xq, ∃ y ∈ (coreAt d i).xq, (y.started = true → x.started = true) ∧
        (y.seq = e.seq → x.started = true) := by
  have hop : ¬ (e.op = opPUT ∨ e.op = opATOM) := fun hh => hh.elim h.1 h.2
  have sends : ∀ (left : Nat) (p : Packet), p.dst = e.target ∧ p.src = env.module ∧ p.srcCore = BitVec.ofNat 12 i →
      let q := sendPacket env e.seq left e.f p (coreAt d i)
      let d1 := modCore (setCore d i q.2) i (fun c => movMod c e.seq (fun x => { x with started := true, sent := 1, rest := 1 }))
      ∃ q' : Packet, ∃ d', (queuePackets env d1 [q.1], ([] : List DeckEff)) = (queuePackets env d' [q'], []) ∧ d'.txq = d.txq ∧
        q'.dst = e.target ∧ q'.src = env.module ∧ q'.srcCore = BitVec.ofNat 12 i ∧
        ∀ x ∈ (coreAt d' i).xq, ∃ y ∈ (coreAt d i).xq, (y.started = true → x.started = true) ∧
          (y.seq = e.seq → x.started = true) := by
    rintro left p ⟨hdst, hsrc, hcore⟩
    obtain ⟨h1, h2, h3⟩ := sendPacket_ends env e.seq left e.f p (coreAt d i)
    refine ⟨_, _, rfl, rfl, h1.trans hdst, h2.trans hsrc, h3.trans hcore, fun x hx => ?_⟩
    rw [modCore, coreAt_setCore, coreAt_setCore] at hx
    simp only [movMod, sendPacket_xq, List.mem_map] at hx
    obtain ⟨y, hy, rfl⟩ := hx
    refine ⟨y, hy, ?_⟩
    split
    · exact ⟨fun _ => rfl, fun _ => rfl⟩
    · rename_i hne
      exact ⟨id, fun he => absurd he hne⟩
  simp only [startRemote, if_neg hop]
  refine sends _ _ ?_
  split
  · exact ⟨rfl, rfl, rfl⟩
  · split <;> exact ⟨rfl, rfl, rfl⟩

end

section
variable (env : CoreEnv) (d : Deck) (i : Nat) (op : BitVec 8) (e : MovEntry) (k : Core)
  (hx : ∀ x ∈ k.xq, x.started = true ∧ x.value = none) (hs : e.started = false) (hv : e.value = none)
include hx

include hs in
/-- Behind entries that have all started, the entry that joined is the oldest that has not. -/
theorem find_joined : (movJoined k op e).xq.find? (fun x => !x.started) = some e := by
  have hnone : k.xq.find? (fun x => !x.started) = none :=
    List.find?_eq_none.2 (fun x h => by simp [(hx x h).1])
  rw [movJoined_xq, List.find?_append, hnone]
  simp [hs]

include hv in
/-- No word of a SYNCRD waits. -/
theorem deliverRead_joined : deliverRead (setCore d i (movJoined k op e)) i = setCore d i (movJoined k op e) := by
  have hval : ∀ x ∈ (movJoined k op e).xq, x.value = none := by
    rw [movJoined_xq]
    intro x h
    rcases List.mem_append.1 h with h | h
    · exact (hx x h).2
    · rw [List.mem_singleton.1 h, hv]
  simp only [deliverRead, coreAt_setCore]
  split
  · rfl
  · rename_i y rest hq
    rw [hval y (by rw [hq]; exact List.mem_cons_self)]

include hs hv

/-- An instruction that cannot start yet waits in the queue. -/
theorem pump_waits (hc : canStart env (movJoined k op e) e = false) :
    pump env (setCore d i (movJoined k op e)) i = (setCore d i (movJoined k op e), []) := by
  rw [pump, deliverRead_joined d i op e k hx hv, pumpFuel]
  simp only [coreAt_setCore, find_joined op e k hx hs, hc, Bool.false_and, Bool.false_eq_true, if_false]

/-- An instruction that can start and acts within its own module is marked started; HPUSH and HPOP take their turn. -/
theorem pump_starts (hc : canStart env (movJoined k op e) e = true) (hrem : e.remote = false) :
    pump env (setCore d i (movJoined k op e)) i = ({ setCore d i (movJoined k op (movStarted e)) with
      holdQ := if e.op = opHPUSH ∨ e.op = opHPOP then d.holdQ ++ [(k.ctx, i, e.seq)] else d.holdQ }, []) := by
  have hmod : movMod (movJoined k op e) e.seq (fun x => { x with started := true }) = movJoined k op (movStarted e) := by
    have hmap : k.xq.map (fun x => if x.seq = e.seq then { x with started := true } else x) = k.xq := by
      refine (List.map_congr_left fun x h => ?_).trans (List.map_id' k.xq)
      split
      · rw [← (hx x h).1]
      · rfl
    unfold movMod movJoined
    dsimp only
    split
    · simp only [List.map_append, hmap, List.map_cons, List.map_nil, if_true, movStarted]
    · simp only [List.map_append, hmap, List.map_cons, List.map_nil, if_true, movStarted]
  have hall : ∀ x ∈ (movJoined k op (movStarted e)).xq, x.started = true := by
    rw [movJoined_xq]
    intro x h
    rcases List.mem_append.1 h with h | h
    · exact (hx x h).1
    · rw [List.mem_singleton.1 h]
      rfl
  have hset : modCore (setCore d i (movJoined k op e)) i (fun c => movMod c e.seq (fun x => { x with started := true })) =
      setCore d i (movJoined k op (movStarted e)) := by
    rw [modCore, coreAt_setCore, hmod, setCore_setCore _ _ _ _ (movJoined_ne_default _ _ _) (movJoined_ne_default _ _ _)]
  have hheld : sourceHeld env (setCore d i (movJoined k op e)) e = false := by simp only [sourceHeld, hrem, Bool.false_and]
  have hrest : ∀ q, pumpFuel env 31 { setCore d i (movJoined k op (movStarted e)) with holdQ := q } i =
      ({ setCore d i (movJoined k op (movStarted e)) with holdQ := q }, []) :=
    fun q => pumpFuel_started env 31 _ i (by
      rw [show coreAt { setCore d i (movJoined k op (movStarted e)) with holdQ := q } i =
        coreAt (setCore d i (movJoined k op (movStarted e))) i from rfl, coreAt_setCore]
      exact hall)
  rw [pump, deliverRead_joined d i op e k hx hv, pumpFuel]
  simp only [coreAt_setCore, find_joined op e k hx hs, hc, hheld, hrem, hset, movJoined_ctx, Bool.not_false, Bool.and_self,
    Bool.false_eq_true, if_false, if_true, List.nil_append]
  split
  · exact Prod.mk.eta.trans (hrest _)
  · exact Prod.mk.eta.trans (hrest d.holdQ)

/-- A remote request that can start queues one packet. -/
theorem pump_requests (hc : canStart env (movJoined k op e) e = true) (hrem : e.remote = true) (h : e.op ≠ opPUT ∧ e.op ≠ opATOM) :
    ∃ q : Packet, ∃ d', pump env (setCore d i (movJoined k op e)) i = (queuePackets env d' [q], []) ∧ d'.txq = d.txq ∧
      q.dst = e.target ∧ q.src = env.module ∧ q.srcCore = BitVec.ofNat 12 i := by
  obtain ⟨q, d', hstart, htxq, hdst, hsrc, hcore, hxq⟩ := startRemote_request env (setCore d i (movJoined k op e)) i e h
  refine ⟨q, d', ?_, htxq, hdst, hsrc, hcore⟩
  have hall : ∀ x ∈ (coreAt (queuePackets env d' [q]) i).xq, x.started = true := by
    intro x hm
    obtain ⟨y, hy, h1, h2⟩ := hxq x hm
    rw [coreAt_setCore, movJoined_xq] at hy
    rcases List.mem_append.1 hy with hy | hy
    · exact h1 (hx y hy).1
    · exact h2 (by rw [List.mem_singleton.1 hy])
  have hheld : sourceHeld env (setCore d i (movJoined k op e)) e = false := by
    simp only [sourceHeld, beq_eq_false_iff_ne.2 h.1, beq_eq_false_iff_ne.2 h.2, Bool.or_self, Bool.and_false, Bool.false_and]
  rw [pump, deliverRead_joined d i op e k hx hv, pumpFuel]
  simp only [coreAt_setCore, find_joined op e k hx hs, hc, hheld, hrem, hstart, pumpFuel_started env 31 _ i hall, Bool.not_false,
    Bool.and_self, if_true, List.append_nil]

end

/-- Settles O25: an open instruction joins the queue, and the pump starts it, sends its request or leaves it; a shut one faults. -/
theorem moverInstructionsQueue : Obligations.MoverInstructionsQueue := by
  unfold Obligations.MoverInstructionsQueue
  intro s c f hr hw hl hx k d env ok joined queued refused shut
  have issue : ∀ {i : Instr} {wf : Bool} (op : BitVec 8),
      exec i s = done (onDeck s c.deck (fun d => opMovI (coreEnv s c.deck) d c.core op wf f)) → wf = true →
      (ok op → queued i op) ∧ (shut op → refused i) := by
    rintro i wf op hi rfl
    have answer : ∀ {d' : Deck}, opMovI env d c.core op true f = (d', []) → exec i s = .next (setDeck s c.deck d') :=
      fun h => hi.trans (congrArg done (onDeck_pure s c.deck _ _ h))
    refine ⟨fun ⟨hc, hg⟩ => ?_, fun ⟨hc, hg, hcen⟩ => ?_⟩
    · have hopen := opMovI_open env d c.core op f hr hw hl hc hg
      refine ⟨fun hst => ?waits, fun hst hrem => ?starts, fun hst hrem hop => ?requests⟩
      case waits => exact answer (hopen.trans (pump_waits env d c.core op _ k hx rfl rfl hst))
      case starts => exact answer (hopen.trans (pump_starts env d c.core op _ k hx rfl rfl hst hrem))
      case requests =>
        have hne : op ≠ opPUT ∧ op ≠ opATOM := by rcases hop with rfl | rfl | rfl <;> decide
        obtain ⟨q, d', hpump, htxq, hdst, hsrc, hcore⟩ := pump_requests env d c.core op (movEntry env op f k) k
          hx rfl rfl hst hrem hne
        refine ⟨_, answer (hopen.trans hpump), q, ?_, hdst, hsrc, hcore⟩
        rw [deckAt_setDeck, ← htxq]
        rfl
    · refine ⟨_, answer (opMovI_shut env d c.core op f hr hw hl hc hg hcen), ?_⟩
      obtain ⟨⟨-, -, -, -, -, -, -, -, -, -, hpc⟩, hfault, -, hxq, -⟩ := coreFault_core d c.core stVoteFailed 3 k.pc
      simp only [coreOf, deckAt_setDeck]
      exact ⟨hfault, hxq, hpc⟩
  simp only [List.forall_mem_cons, List.not_mem_nil, false_imp_iff, implies_true, and_true]
  exact ⟨issue _ rfl, issue _ rfl, issue _ rfl, issue _ rfl, issue _ rfl, issue _ rfl, issue _ rfl, issue _ rfl, issue _ rfl⟩

end Sys2Proof.Machine
end


section
/-! SETTLED. A MOV within stack memory ends at its object (O26). -/
namespace Sys2Proof.Machine
open Sys2Proof

/-! ### Counters of the stacks leave what reads and writes meet -/

/-- Only the stacks of a deck differ, and of each neither its remapped rows nor its failed channels. -/
def sameRows (d d' : Deck) : Prop :=
  d' = { d with stks := d'.stks } ∧
  ∀ k, (stackAt d' k).remap = (stackAt d k).remap ∧ (stackAt d' k).chFailed = (stackAt d k).chFailed

theorem sameRows_refl (d : Deck) : sameRows d d := ⟨rfl, fun _ => ⟨rfl, rfl⟩⟩

theorem sameRows_trans {a b c : Deck} (h1 : sameRows a b) (h2 : sameRows b c) : sameRows a c := by
  refine ⟨by rw [h2.1, h1.1], fun k => ?_⟩
  exact ⟨(h2.2 k).1.trans (h1.2 k).1, (h2.2 k).2.trans (h1.2 k).2⟩

theorem sameRows_modStack (d : Deck) (k : Nat) (f : Stack → Stack) (hr : ∀ x, (f x).remap = x.remap)
    (hc : ∀ x, (f x).chFailed = x.chFailed) :
    sameRows d (modStack d k f) := by
  refine ⟨rfl, fun j => ?_⟩
  simp only [modStack, setStack, stackAt, mapGet_set]
  split
  · rename_i h
    rw [h]
    exact ⟨hr _, hc _⟩
  · exact ⟨rfl, rfl⟩

/-- Counting priority-3 reads changes counters alone (R308). -/
theorem sameRows_notePrio3 (d : Deck) (a n : Nat) : sameRows d (notePrio3 d a n) := by
  unfold notePrio3
  split
  · exact sameRows_refl d
  · exact List.foldlRecOn (motive := fun t => sameRows d t) _ _ (sameRows_refl d)
      (fun t ht i _ => sameRows_trans ht (sameRows_modStack t _ _ (fun _ => rfl) (fun _ => rfl)))

section
variable {d d' : Deck} (h : sameRows d d') (a n : Nat)
include h

theorem deadPages_sameRows : deadPages d' a n = deadPages d a n := by
  have hp : ∀ p, pageDead d' p = pageDead d p := by
    intro p
    simp only [pageDead, h.2]
  simp only [deadPages, h.2, hp]

theorem memReadOk_sameRows : memReadOk d' a n = memReadOk d a n := by
  have hb : d'.memBad = d.memBad := by rw [h.1]
  simp only [memReadOk, deadPages_sameRows h, hb]

theorem memWriteSt_sameRows : memWriteSt d' a n = memWriteSt d a n := by
  simp only [memWriteSt, deadPages_sameRows h]

end

/-! ### A MOV within stack memory (R112, R130, R135) -/

/-- Only the bytes, poison, standing errors and stacks of a deck's memory differ. -/
def memFrame (d d' : Deck) : Prop := d' = { d with mem := d'.mem, memBad := d'.memBad, latent := d'.latent, stks := d'.stks }

section
variable (env : CoreEnv) (d : Deck) (i : Nat) (e : MovEntry) (hop : e.op = opMOV) (hsrc : placeOf env e.src.toNat e.len = .stack)
  (hdst : placeOf env e.dst.toNat e.len = .stack) (hr : memReadOk d e.src.toNat e.len = true)
  (hw : memWriteSt d e.dst.toNat e.len = stGood) (hl : d.latent = [])
include hop hsrc hdst hr hw hl

/-- The copy: the destination holds the source's bytes as they stood, and the transfer ends without error. -/
theorem localMove_copies (now : Nat) :
    ∃ d', localMove env now d i e [] = endTransfer d' i e stGood ∧ memFrame d d' ∧
      ∀ x, cellGet d'.mem x =
        if e.dst.toNat ≤ x ∧ x < e.dst.toNat + e.len then cellGet d.mem (e.src.toNat + (x - e.dst.toNat)) else cellGet d.mem x := by
  have ht := touch_frame d e.src.toNat e.len
  have hread : memRead d e.src.toNat e.len = some (mapSlice d.mem e.src.toNat e.len) := if_pos hr
  have hdata : readDeck env (touch d e.src.toNat e.len) e.src.toNat e.len = .data (mapSlice d.mem e.src.toNat e.len) := by
    simp only [readDeck, hsrc, memRead_frame ht, hread]
  have hst : memWriteSt (touch d e.src.toNat e.len) e.dst.toNat e.len = stGood := (memWriteSt_frame ht _ _).trans hw
  have hmem : (touch d e.src.toNat e.len).mem = d.mem := mem_of_stackFrame ht
  refine ⟨memWrite (touch d e.src.toNat e.len) e.dst.toNat e.len (mapSlice d.mem e.src.toNat e.len), ?_, ?_, fun x => ?_⟩
  · have hne : ¬ e.op = opMOVT := by rw [hop]; decide
    simp only [localMove, hsrc, if_true, eccRange_nil now e.src.toNat e.len d hl, hdata, if_neg hne, writeDeck, hdst, writeSt, hst,
      List.nil_append]
  · unfold memFrame
    rw [memWrite_frame, ht.1]
  · rw [cellGet_memWrite _ _ _ _ hst, hmem]
    by_cases hx : e.dst.toNat ≤ x ∧ x < e.dst.toNat + e.len
    · rw [if_pos hx, if_pos hx, memRead_get d e.src.toNat e.len _ hread, if_pos (by omega)]
    · rw [if_neg hx, if_neg hx]

end

/-- The end of the one transfer of a core leaves its mover empty and the deck's bytes alone, asks for replies alone, and signals
an object that nobody waits on by AMT. -/
theorem endTransfer_one (d : Deck) (i : Nat) (e : MovEntry) (hq : (coreAt d i).xq = [e]) :
    (coreAt (endTransfer d i e stGood).1 i).xq = [] ∧ (endTransfer d i e stGood).1.mem = d.mem ∧
      onlyReplies (endTransfer d i e stGood).2 ∧
      ∀ o, e.cobj = some o → objAlloc d o.toNat = true → objWaited d o.toNat = false →
        (objAt d o.toNat).count.toNat + e.amt.toNat < 2 ^ 32 →
        (objAt (endTransfer d i e stGood).1 o.toNat).count.toNat = (objAt d o.toNat).count.toNat + e.amt.toNat := by
  obtain ⟨hwork, hreplies⟩ := tame_endTransfer d i e stGood
  refine ⟨endTransfer_xq d i e stGood hq, by rw [hwork], hreplies, fun o ho ha hw hv => ?_⟩
  rw [endTransfer_quiet d i e stGood o ho hw]
  exact (endedObj_objUpdate (dropTransfer d i e) i o e.amt stGood ha).1 rfl hv

/-- MOVER_TRANSFER_COMPLETE of a core's only transfer, one that has started within its module and waits for nothing. -/
theorem opTransferComplete_one (s : State) (d i : Nat) (e : MovEntry) (errs : List SectorErr)
    (hq : (coreAt (deckAt s d) i).xq = [e])
    (hs : e.started = true) (hr : e.remote = false) (hh : movHeld s d i e = false) :
    opTransferComplete s d i e.seq errs = endMove (movPrio3 s d e) d i e errs := by
  simp only [opTransferComplete, movAt_one _ e _ hq rfl, hs, hr, hh, Bool.not_true, Bool.or_self, Bool.false_eq_true, if_false]

/-- Counting priority-3 reads changes only counters of the deck's stacks. -/
theorem movPrio3_frame (s : State) (d : Nat) (e : MovEntry) :
    sameRows (deckAt s d) (deckAt (movPrio3 s d e) d) ∧ (coreEnv (movPrio3 s d e) d).window = (coreEnv s d).window := by
  unfold movPrio3
  split
  · rw [deckAt_modDeck]
    exact ⟨sameRows_notePrio3 _ _ _, rfl⟩
  · exact ⟨sameRows_refl _, rfl⟩

theorem placeOf_window {env env' : CoreEnv} (h : env'.window = env.window) (a n : Nat) : placeOf env' a n = placeOf env a n := by
  simp only [placeOf, h]

/-- Settles O26: the copy, then the end of the transfer, then nothing left for the pump. -/
theorem transfersEndAtTheirObject : Obligations.TransfersEndAtTheirObject := by
  unfold Obligations.TransfersEndAtTheirObject
  intro s c e d env hq hs hrem hop hsrc hdst hr hw hl hh
  obtain ⟨hrows, hwin⟩ := movPrio3_frame s c.deck e
  let s1 := movPrio3 s c.deck e
  let d1 := deckAt s1 c.deck
  have hq1 : (coreAt d1 c.core).xq = [e] := by rw [show d1 = _ from hrows.1]; exact hq
  obtain ⟨d2, hcopy, hmem, hbytes⟩ := localMove_copies (coreEnv s1 c.deck) d1 c.core e hop ((placeOf_window hwin _ _).trans hsrc)
    ((placeOf_window hwin _ _).trans hdst) ((memReadOk_sameRows hrows _ _).trans hr) ((memWriteSt_sameRows hrows _ _).trans hw)
    (by rw [show d1 = _ from hrows.1]; exact hl) (coreEnv s1 c.deck).now
  have hq2 : (coreAt d2 c.core).xq = [e] := by rw [hmem]; exact hq1
  obtain ⟨hempty, hkeep, hreplies, hobj⟩ := endTransfer_one d2 c.core e hq2
  have hres : thenDeck (localMove (coreEnv s1 c.deck) (coreEnv s1 c.deck).now d1 c.core e [])
      (fun k => pump (coreEnv s1 c.deck) k c.core) = endTransfer d2 c.core e stGood := by
    simp only [thenDeck, hcopy, pump_empty _ _ _ hempty, List.append_nil]
  let t := onDeck s1 c.deck (fun k => thenDeck (localMove (coreEnv s1 c.deck) (coreEnv s1 c.deck).now k c.core e [])
    (fun k => pump (coreEnv s1 c.deck) k c.core))
  have ht : deckAt t c.deck = (endTransfer d2 c.core e stGood).1 :=
    (deckAt_onDeck_replies s1 c.deck _ (by rw [hres]; exact hreplies)).trans (congrArg Prod.fst hres)
  have hbyte : ∀ x, deckByte t c.deck x = cellGet d2.mem x := fun x => by rw [deckByte, ht, hkeep]
  have hd1 : d1.mem = d.mem := by rw [show d1 = _ from hrows.1]
  refine ⟨t, ?_, by rw [coreOf, ht]; exact hempty, fun i hi => ?_, fun a ha => ?_, fun o ho halloc hwait hv => ?_⟩
  · have hmove : endMove s1 c.deck c.core e [] = t := if_pos (.inl hop)
    exact congrArg done ((opTransferComplete_one s c.deck c.core e [] hq hs hrem hh).trans hmove)
  · rw [hbyte, hbytes, if_pos (by omega), Nat.add_sub_cancel_left, hd1]
    rfl
  · rw [hbyte, hbytes, if_neg (by omega), hd1]
    rfl
  · have hsame : d2.objs = d.objs ∧ d2.groups = d.groups ∧ d2.waiters = d.waiters := by
      rw [hmem, show d1 = _ from hrows.1]
      exact ⟨rfl, rfl, rfl⟩
    obtain ⟨hobjs, hgroups, hwaiters⟩ := hsame
    have hat : objAt d2 o.toNat = objAt d o.toNat := by rw [objAt, hobjs, objAt]
    rw [ht, ← hat]
    refine hobj o ho ?_ ?_ (by rw [hat]; exact hv)
    · rw [objAlloc, groupAt, hgroups]
      exact halloc
    · rw [objWaited, hwaiters]
      exact hwait

end Sys2Proof.Machine
end


section
/-! SETTLED. The end of a faulted launch, and a wait that is too long (O27). -/
namespace Sys2Proof.Machine
open Sys2Proof

/-! ### What the releases of a cycle leave as they are -/

/-- An update that clears no poison. -/
def keepsPoison (u : ObjUpd) : Bool :=
  match u with
  | .set _ _ => false
  | .signal _ _ => true
  | .poison _ _ _ => true

/-- No core changes its launch, no launch comes up, and no poisoned object is cleared. -/
def endKept (d d' : Deck) : Prop :=
  (∀ j, (coreAt d' j).launch = (coreAt d j).launch) ∧ (∀ id, launchAt d id = none → launchAt d' id = none) ∧
    ∀ o, (objAt d o).poison = true → (objAt d' o).poison = true

theorem endKept_refl (d : Deck) : endKept d d := ⟨fun _ => rfl, fun _ h => h, fun _ h => h⟩

theorem endKept_trans {a b c : Deck} (h1 : endKept a b) (h2 : endKept b c) : endKept a c :=
  ⟨fun j => (h2.1 j).trans (h1.1 j), fun id h => h2.2.1 id (h1.2.1 id h), fun o h => h2.2.2 o (h1.2.2 o h)⟩

theorem endKept_of_parts {d d' : Deck} (hc : d'.cores = d.cores) (hl : d'.launches = d.launches) (ho : d'.objs = d.objs) :
    endKept d d' := by
  rw [endKept]
  simp only [coreAt, launchAt, objAt, hc, hl, ho]
  simp

theorem endKept_foldl {α : Type} (f : Deck → α → Deck) (xs : List α) (hf : ∀ d, ∀ x ∈ xs, endKept d (f d x)) (d : Deck) :
    endKept d (xs.foldl f d) :=
  List.foldlRecOn xs f (endKept_refl d) (fun t ht x hx => endKept_trans ht (hf t x hx))

theorem endKept_setCore (d : Deck) (i : Nat) (c : Core) (h : c.launch = (coreAt d i).launch) : endKept d (setCore d i c) := by
  refine ⟨fun j => ?_, fun _ h => h, fun _ h => h⟩
  by_cases hj : j = i
  · rw [hj, coreAt_setCore, h]
  · rw [coreAt_setCore_other d i j c hj]

theorem stopCore_launch (c : Core) : (stopCore c).launch = c.launch := by
  unfold stopCore
  cases c.run <;> rfl

theorem endKept_stopCores (d : Deck) (is : List Nat) : endKept d (stopCores d is) :=
  endKept_trans (endKept_foldl (fun d i => modCore d i stopCore) is (fun d i _ => endKept_setCore d i _ (stopCore_launch _)) d)
    (endKept_of_parts rfl rfl rfl)

/-- A launch that stands is written again. -/
theorem endKept_setLaunch (d : Deck) (n : Nat) (l l' : Launch) (h : launchAt d n = some l) :
    endKept d (setLaunch d n (some l')) := by
  refine ⟨fun _ => rfl, fun id hid => ?_, fun _ h => h⟩
  have hne : id ≠ n := by
    rintro rfl
    simp [h] at hid
  exact (mapGet_set_other none d.launches n id (some l') hne).trans hid

theorem endKept_coreFault (d : Deck) (i : Nat) (st : Status) (e : BitVec 2) (pc : BitVec 13) :
    endKept d (coreFault d i st e pc) := by
  have hset : endKept d (setCore d i (if (coreAt d i).fault.valid then coreAt d i
      else { coreAt d i with fault := { status := st, pc := pc, engine := e, valid := true } })) := by
    apply endKept_setCore
    split <;> rfl
  unfold coreFault
  dsimp only
  split
  · exact endKept_trans hset (endKept_stopCores _ _)
  · split
    · exact endKept_trans hset (endKept_stopCores _ _)
    · next hla => exact endKept_trans (endKept_trans hset (endKept_setLaunch _ _ _ _ hla)) (endKept_stopCores _ _)

theorem retire_launch (c : Core) (w : Nat) : (retire c w).1.launch = c.launch := by
  unfold retire
  dsimp only
  split <;> rfl

theorem sSet_launch (k : Core) (r : BitVec 5) (v : W64) : (sSet k r v).launch = k.launch := by
  unfold sSet
  split <;> rfl

theorem endKept_retireOn (d : Deck) (i : Nat) (c : Core) (w : Nat) (h : c.launch = (coreAt d i).launch) :
    endKept d (retireOn d i c w) := by
  have hset := endKept_setCore d i (retire c w).1 ((retire_launch c w).trans h)
  unfold retireOn
  dsimp only
  split
  · exact endKept_trans hset (endKept_coreFault _ _ _ _ _)
  · exact hset

theorem endKept_releaseCore (d : Deck) (i : Nat) (sd : BitVec 5) (st : Status) : endKept d (releaseCore d i sd st) := by
  unfold releaseCore
  dsimp only
  split
  · exact endKept_trans (endKept_setCore d i { coreAt d i with run := .ready } rfl) (endKept_coreFault _ _ _ _ _)
  · exact endKept_retireOn d i _ _ (sSet_launch _ _ _)

theorem updWord_poison (x : SyncObj) (u : ObjUpd) (hu : keepsPoison u = true) (hx : x.poison = true) :
    (updWord x u).poison = true := by
  cases u with
  | set => cases hu
  | signal =>
    simp only [updWord]
    split <;> exact hx
  | poison => rfl

theorem endKept_objUpdate (d : Deck) (u : ObjUpd) (hu : keepsPoison u = true) : endKept d (objUpdate d u) := by
  have hframe : (objUpdate d u).cores = d.cores ∧ (objUpdate d u).launches = d.launches := by
    unfold objUpdate
    split <;> exact ⟨rfl, rfl⟩
  refine ⟨fun j => by rw [coreAt, hframe.1, coreAt], fun id h => by rw [launchAt, hframe.2]; exact h, fun o h => ?_⟩
  by_cases ho : o = u.obj
  · by_cases ha : objAlloc d u.obj = true
    · rw [ho, objAt_objUpdate d u ha]
      exact updWord_poison _ _ hu (ho ▸ h)
    · rw [objUpdate, if_neg ha]
      exact h
  · rw [objAt_objUpdate_other d u o ho]
    exact h

theorem mem_cycleOrder {ups : List ObjUpd} {u : ObjUpd} : u ∈ cycleOrder ups ↔ u ∈ ups := by
  cases u <;> simp [cycleOrder]

theorem discardPubs_poisons (d : Deck) (n : Nat) (s : Stream) (st : Status) :
    ∀ u ∈ (discardPubs d n s st).2.1, ∃ o, u = .poison o st false := by
  intro u hu
  simp only [discardPubs, List.mem_filterMap, Option.map_eq_some_iff] at hu
  obtain ⟨p, -, o, -, rfl⟩ := hu
  exact ⟨o.toNat, rfl⟩

/-- What the end of a stream entry with `st` asks of an object: a poison with `st`, or a signal where it ended well. -/
def endsWith (st : Status) (u : ObjUpd) : Prop := (∃ o, u = .poison o st false) ∨ (st = stGood ∧ ∃ o v, u = .signal o v)

theorem endsWith_keepsPoison {st : Status} {u : ObjUpd} (h : endsWith st u) : keepsPoison u = true := by
  rcases h with ⟨o, rfl⟩ | ⟨-, o, v, rfl⟩ <;> rfl

/-- What an entry that ends with `st` asks of its own object. -/
def ownUpdates (own : Option (BitVec 12)) (st : Status) (amt : BitVec 16) : List ObjUpd :=
  match own with
  | none => []
  | some o => if st = stGood then [.signal o.toNat (amt.setWidth 32)] else [.poison o.toNat st false]

theorem ownUpdates_endWith (own : Option (BitVec 12)) (st : Status) (amt : BitVec 16) :
    ∀ u ∈ ownUpdates own st amt, endsWith st u := by
  cases own with
  | none => simp [ownUpdates]
  | some o =>
    by_cases hs : st = stGood
    · simp [ownUpdates, hs, endsWith]
    · intro u hu
      rw [ownUpdates, if_neg hs, List.mem_singleton] at hu
      exact .inl ⟨o.toNat, hu⟩

/-- The end of an entry asks first of its own object, then of those of the entries that it discards. -/
theorem endEntry_updates (d : Deck) (n : Nat) (st : Status) (own : Option (BitVec 12)) (amt : BitVec 16) (hdr : Option CmdHdr)
    (s : Stream) (h : streamAt d n = some s) :
    ∃ more, (endEntry d n st own amt hdr).2.1 = ownUpdates own st amt ++ more ∧ ∀ u ∈ more, endsWith st u := by
  have hdrop := discardPubs_poisons (setStream d n (some { s with run := StreamRun.none })) n { s with run := StreamRun.none } st
  refine ⟨if st = stGood then [] else (discardPubs (setStream d n (some { s with run := StreamRun.none })) n
    { s with run := StreamRun.none } st).2.1, ?_, fun u hu => ?_⟩
  · simp only [endEntry, ownUpdates, h]
    by_cases hs : st = stGood
    · simp only [if_pos hs]
      split <;> rfl
    · simp only [if_neg hs]
      split <;> rfl
  · by_cases hs : st = stGood
    · simp [hs] at hu
    · rw [if_neg hs] at hu
      exact .inl (hdrop u hu)

theorem endEntry_endWith (d : Deck) (n : Nat) (st : Status) (own : Option (BitVec 12)) (amt : BitVec 16) (hdr : Option CmdHdr) :
    ∀ u ∈ (endEntry d n st own amt hdr).2.1, endsWith st u := by
  intro u hu
  cases hs : streamAt d n with
  | none => simp [endEntry, hs] at hu
  | some s =>
    obtain ⟨more, hm, hmore⟩ := endEntry_updates d n st own amt hdr s hs
    rw [hm, List.mem_append] at hu
    exact hu.elim (ownUpdates_endWith own st amt u) (hmore u)

/-- The end of an entry writes streams alone. -/
theorem endEntry_parts (d : Deck) (n : Nat) (st : Status) (own : Option (BitVec 12)) (amt : BitVec 16) (hdr : Option CmdHdr) :
    (endEntry d n st own amt hdr).1 = { d with streams := (endEntry d n st own amt hdr).1.streams } := by
  unfold endEntry
  split
  · rfl
  · by_cases hs : st = stGood
    · simp only [if_pos hs]
      split <;> rfl
    · simp only [if_neg hs]
      split <;> rfl

theorem endKept_endEntry (d : Deck) (n : Nat) (st : Status) (own : Option (BitVec 12)) (amt : BitVec 16) (hdr : Option CmdHdr) :
    endKept d (endEntry d n st own amt hdr).1 := by
  rw [endEntry_parts]
  exact endKept_of_parts rfl rfl rfl

/-- Releasing waiters, and what the releases ask for in turn. -/
theorem endKept_evalWaiters (ws : List Waiter) (d : Deck) :
    endKept d (evalWaiters ws d).1 ∧ ∀ u ∈ (evalWaiters ws d).2.1, keepsPoison u = true := by
  induction ws generalizing d with
  | nil => exact ⟨endKept_refl d, by simp [evalWaiters]⟩
  | cons w rest ih =>
    have hdrop : endKept d { d with waiters := d.waiters.filter (fun x => x.who ≠ w.who) } := endKept_of_parts rfl rfl rfl
    unfold evalWaiters
    split
    · exact ih d
    split
    · exact ih d
    dsimp only
    split
    · exact ⟨endKept_trans (endKept_trans hdrop (endKept_releaseCore _ _ _ _)) (ih _).1, (ih _).2⟩
    · refine ⟨endKept_trans (endKept_trans hdrop (endKept_endEntry _ _ _ _ _ _)) (ih _).1, fun u hu => ?_⟩
      rcases List.mem_append.1 hu with hu | hu
      · exact endsWith_keepsPoison (endEntry_endWith _ _ _ _ _ _ u hu)
      · exact (ih _).2 u hu

theorem endKept_cycle (d : Deck) (ups : List ObjUpd) (h : ∀ u ∈ ups, keepsPoison u = true) :
    endKept d ((cycleOrder ups).foldl objUpdate d) :=
  endKept_foldl objUpdate _ (fun d u hu => endKept_objUpdate d u (h u (mem_cycleOrder.1 hu))) d

theorem endKept_settleFuel (fuel : Nat) (d : Deck) (ups : List ObjUpd) (h : ∀ u ∈ ups, keepsPoison u = true) :
    endKept d (settleFuel fuel d ups).1 := by
  induction fuel generalizing d ups with
  | zero => exact endKept_refl d
  | succ k ih =>
    cases ups with
    | nil => exact endKept_refl d
    | cons u rest =>
      exact endKept_trans (endKept_trans (endKept_cycle d _ h) (endKept_evalWaiters _ _).1) (ih _ _ (endKept_evalWaiters _ _).2)

/-- All that a cycle's updates release leaves what the cycle itself wrote. -/
theorem endKept_settle (d : Deck) (ups : List ObjUpd) (h : ∀ u ∈ ups, keepsPoison u = true) :
    endKept ((cycleOrder ups).foldl objUpdate d) (settle d ups).1 := by
  cases ups with
  | nil => exact endKept_refl d
  | cons u rest => exact endKept_trans (endKept_evalWaiters _ _).1 (endKept_settleFuel _ _ _ (endKept_evalWaiters _ _).2)

/-! ### The poison that an entry ending with an error leaves -/

theorem objAlloc_objUpdate (d : Deck) (u : ObjUpd) (o : Nat) : objAlloc (objUpdate d u) o = objAlloc d o := by
  unfold objUpdate
  split <;> rfl

/-- Poisons with one status leave that status on every allocated object that they name. -/
theorem objAt_poisons (ups : List ObjUpd) (st : Status) (o : Nat) (d : Deck) (hall : ∀ u ∈ ups, ∃ p, u = .poison p st false)
    (ha : objAlloc d o = true)
    (ho : .poison o st false ∈ ups ∨ ((objAt d o).poison = true ∧ (objAt d o).status = st)) :
    (objAt (ups.foldl objUpdate d) o).poison = true ∧ (objAt (ups.foldl objUpdate d) o).status = st := by
  induction ups generalizing d with
  | nil => simpa using ho
  | cons u rest ih =>
    rw [List.foldl_cons]
    refine ih _ (fun x hx => hall x (List.mem_cons_of_mem _ hx)) (by rw [objAlloc_objUpdate]; exact ha) ?_
    obtain ⟨p, rfl⟩ := hall u List.mem_cons_self
    by_cases hp : o = p
    · have hw := objAt_objUpdate d (.poison p st false) (hp ▸ ha)
      rw [show (ObjUpd.poison p st false).obj = p from rfl, ← hp] at hw
      rw [← hp, hw]
      exact .inr ⟨rfl, rfl⟩
    · have hu := objAt_objUpdate_other d (.poison p st false) o hp
      rw [hu]
      rcases ho with hm | hm
      · simp only [List.mem_cons, ObjUpd.poison.injEq, hp, false_and, false_or] at hm
        exact .inl hm
      · exact .inr hm

/-- An entry of a stream that ends with an error poisons its object, with its status where nobody waits. -/
theorem finishEntry_poisons (d : Deck) (n : Nat) (st : Status) (o : BitVec 12) (amt : BitVec 16) (hdr : Option CmdHdr)
    (hs : (streamAt d n).isSome = true) (ha : objAlloc d o.toNat = true) (hst : st ≠ 0) :
    (objAt (finishEntry d n st (some o) amt hdr).1 o.toNat).poison = true ∧
      (d.waiters = [] → (objAt (finishEntry d n st (some o) amt hdr).1 o.toNat).status = st) := by
  obtain ⟨s, hs⟩ := Option.isSome_iff_exists.1 hs
  let r := endEntry d n st (some o) amt hdr
  obtain ⟨more, hups, -⟩ := endEntry_updates d n st (some o) amt hdr s hs
  have hmem : .poison o.toNat st false ∈ r.2.1 := by
    rw [show r.2.1 = _ from hups, ownUpdates, if_neg hst]
    simp
  have hall : ∀ u ∈ r.2.1, ∃ p, u = .poison p st false := fun u hu =>
    (endEntry_endWith d n st (some o) amt hdr u hu).resolve_right (fun hg => hst hg.1)
  have ha' : objAlloc r.1 o.toNat = true := by
    rw [show r.1 = _ from endEntry_parts d n st (some o) amt hdr]
    exact ha
  have hp := objAt_poisons (cycleOrder r.2.1) st o.toNat r.1 (fun u hu => hall u (mem_cycleOrder.1 hu)) ha'
    (.inl (mem_cycleOrder.2 hmem))
  refine ⟨(endKept_settle r.1 r.2.1 (fun u hu => endsWith_keepsPoison (endEntry_endWith _ _ _ _ _ _ u hu))).2.2 _ hp.1,
    fun hw => ?_⟩
  have hidle := settle_idle r.1 r.2.1 (by rw [show r.1 = _ from endEntry_parts d n st (some o) amt hdr]; exact hw)
  rw [show (finishEntry d n st (some o) amt hdr).1 = (settle r.1 r.2.1).1 from rfl, hidle]
  exact hp.2

theorem endKept_finishEntry (d : Deck) (n : Nat) (st : Status) (own : Option (BitVec 12)) (amt : BitVec 16) (hdr : Option CmdHdr) :
    endKept d (finishEntry d n st own amt hdr).1 := by
  have hups := fun u hu => endsWith_keepsPoison (endEntry_endWith d n st own amt hdr u hu)
  exact endKept_trans (endKept_trans (endKept_endEntry d n st own amt hdr) (endKept_cycle _ _ hups)) (endKept_settle _ _ hups)

/-! ### The end of a faulted launch (R156, R437) -/

theorem freeCores_parts (d : Deck) (is : List Nat) : freeCores d is = { d with cores := (freeCores d is).cores } := by
  induction is generalizing d with
  | nil => rfl
  | cons i rest ih => exact ih (modCore d i (fun c => { c with run := .idle, launch := none }))

theorem freeCores_launch (d : Deck) (is : List Nat) (i : Nat) (h : i ∈ is ∨ (coreAt d i).launch = none) :
    (coreAt (freeCores d is) i).launch = none := by
  induction is generalizing d with
  | nil => simpa [freeCores] using h
  | cons j rest ih =>
    refine ih (modCore d j (fun c => { c with run := .idle, launch := none })) ?_
    by_cases hj : i = j
    · exact .inr (by rw [hj, modCore, coreAt_setCore])
    · rw [modCore, coreAt_setCore_other _ _ _ _ hj]
      exact h.imp_left (fun hm => (List.mem_cons.1 hm).resolve_left hj)

/-- The deck once a launch has given its cores back. -/
def launchGone (d : Deck) (id : Nat) (l : Launch) : Deck := setLaunch (freeCores d l.cores) id none

theorem opLaunchStop_idle (d : Deck) (id : Nat) (l : Launch) (st : Status) (hl : launchAt d id = some l) (hf : l.faulted = some st)
    (hi : ∀ i ∈ l.cores, enginesIdle (coreAt d i) = true) :
    opLaunchStop d id = finishEntry (launchGone d id l) l.stream st l.cobj l.amt l.hdr := by
  simp only [opLaunchStop, hl, hf]
  exact if_pos (List.all_eq_true.2 hi)

/-! ### A wait that is too long (R155) -/

/-- The waiters once the wait of `w` is reported. -/
def waitReported (w : Who) (y : Waiter) : Waiter := if y.who = w then { y with reported := true } else y

/-- The deck with the timed-out bit of the object that `x` waits on set and the wait of `w` reported. -/
def waitTimed (d : Deck) (w : Who) (x : Waiter) : Deck :=
  let g := groupAt d (x.obj.toNat / 64)
  { setGroup d (x.obj.toNat / 64) { g with timed := setBit g.timed (x.obj.toNat % 64) true } with
    waiters := d.waiters.map (waitReported w) }

theorem opSyncTimeout_overdue (env : CoreEnv) (d : Deck) (w : Who) (x : Waiter)
    (hx : d.waiters.find? (fun y => decide (y.who = w)) = some x) (ho : waitOverdue env.clock d x = true) :
    ∃ a0 a1 cores, opSyncTimeout env d w = (waitTimed d w x,
      [.async stSyncTimeout a0 a1, .report { detector := 2, ctx := some (objCtx d x.obj.toNat), cores := cores }]) := by
  simp only [opSyncTimeout, hx, ho]
  exact ⟨_, _, _, rfl⟩

/-- An operation that posts one event and reports one fault, of a detector whose action is 0. -/
theorem onDeck_reports (s : State) (d : Nat) (f : Deck → DeckRes) (k : Deck) (st : Status) (a0 : BitVec 32) (a1 : BitVec 64)
    (r : Report)
    (hf : f (deckAt s d) = (k, [.async st a0 a1, .report r])) (ha : actionOf s r.detector = 0) :
    onDeck s d f = counted (postDeck (setDeck s d k) d st a0.toNat a1.toNat) r.detector := by
  have hfire : onDeck s d f = fireDetector (postDeck (setDeck s d k) d st a0.toNat a1.toNat) r.detector (some d) r.ctx r.cores := by
    simp [onDeck, applyRes, putDeck, collsOf, fireReports, reportsOf, hf, applyEff]
  rw [hfire]
  apply fireDetector_count
  rw [actionOf, hostFrame_rst (hostFrame_postDeck _ _ _ _ _)]
  exact ha

/-- Settles O27: the poison of the launch's object is set in the first cycle of the entry's end, and nothing that the cycle
releases clears a poison or brings a launch back. -/
theorem faultedLaunchesPoisonTheirObject : Obligations.FaultedLaunchesPoisonTheirObject := by
  unfold Obligations.FaultedLaunchesPoisonTheirObject
  refine ⟨fun s d id l st hl hf hi => ?_, fun s d w x hx ho ha => ?_⟩
  · have hop := opLaunchStop_idle (deckAt s d) id l st hl hf hi
    have hkept := endKept_finishEntry (launchGone (deckAt s d) id l) l.stream st l.cobj l.amt l.hdr
    obtain ⟨hcores, hlaunch, -⟩ := hkept
    have hgone : launchGone (deckAt s d) id l =
        { deckAt s d with cores := (launchGone (deckAt s d) id l).cores, launches := (launchGone (deckAt s d) id l).launches } := by
      rw [launchGone, freeCores_parts]
      rfl
    refine ⟨_, rfl, ?_⟩
    rw [deckAt_onDeck_replies s d _ (tame_launchStop _ _).2, hop]
    refine ⟨hlaunch id (launchAt_setLaunch _ _ _), fun i hm => (hcores i).trans (freeCores_launch _ _ _ (.inl hm)), ?_⟩
    intro o hco hs halloc hst
    rw [hco]
    have hp := finishEntry_poisons (launchGone (deckAt s d) id l) l.stream st o l.amt l.hdr (by rw [hgone]; exact hs)
      (by rw [hgone]; exact halloc) hst
    exact ⟨hp.1, fun hw => hp.2 (by rw [hgone]; exact hw)⟩
  · obtain ⟨a0, a1, cores, hop⟩ := opSyncTimeout_overdue (coreEnv s d) (deckAt s d) w x hx ho
    have hframe := hostFrame_postDeck (setDeck s d (waitTimed (deckAt s d) w x)) d stSyncTimeout a0.toNat a1.toNat
    refine ⟨_, congrArg done (onDeck_reports s d _ _ _ _ _ _ hop ha), ?_⟩
    have hdeck : deckAt (counted (postDeck (setDeck s d (waitTimed (deckAt s d) w x)) d stSyncTimeout a0.toNat a1.toNat) 2) d =
        waitTimed (deckAt s d) w x := (hostFrame_deckAt hframe d).trans (deckAt_setDeck _ _ _)
    rw [hdeck]
    refine ⟨?_, ?_, ?_⟩
    · rw [waitTimed, groupAt, setGroup]
      simp only [mapGet_set_same]
      exact getLsbD_setBit_same _ _ _ (Nat.mod_lt _ (by decide))
    · simp only [counted, hostFrame_rst hframe, mapMod, mapGet_set_same]
      rfl
    · simp only [waitTimed, List.map_map]
      refine List.map_congr_left (fun y _ => ?_)
      simp only [Function.comp_apply, waitReported]
      split <;> rfl

end Sys2Proof.Machine
end


section
/-! SETTLED. What reset leaves (O56). -/
namespace Sys2Proof.Machine
open Sys2Proof

/-! ### What reset leaves

No core, context, port or LD is listed in the state after reset, so each reads as its default. -/

theorem coreOf_reset (c : CoreRef) : coreOf State.reset c = {} := rfl

theorem ctxAt_reset (d : Fin 8) (c : Nat) : ctxAt (deckAt State.reset d) c = {} := rfl

theorem sGet_reset (n : BitVec 5) : sGet {} n = 0 := by
  unfold sGet
  split <;> rfl

/-- The words of the 13 register families, of which a register has one. -/
def familyWords (ht tt tly hold mem lnk chn cmd mbx mgt pwr saf rst : W64) : W64 :=
  ht ||| tt ||| tly ||| hold ||| mem ||| lnk ||| chn ||| cmd ||| mbx ||| mgt ||| pwr ||| saf ||| rst

theorem familyWords_hold (w : W64) : familyWords 0 0 0 w 0 0 0 0 0 0 0 0 0 = w := by simp [familyWords]
theorem familyWords_tly (w : W64) : familyWords 0 0 w 0 0 0 0 0 0 0 0 0 0 = w := by simp [familyWords]
theorem familyWords_rst (w : W64) : familyWords 0 0 0 0 0 0 0 0 0 0 0 0 w = w := by simp [familyWords]

/-- A step-status register reads the hold unit of its context. -/
theorem regWord_holdStepStatus (s : State) (a : Agent) (d : Fin 8) (c : BitVec 4) :
    regWord s a (.holdStepStatus d c) = packWord [(0, (ctxAt (deckAt s d) c.toNat).hold.status.toNat),
      (16, (ctxAt (deckAt s d) c.toNat).hold.origin.toNat)] :=
  familyWords_hold (holdWord s (.holdStepStatus d c))

/-- A TLY.CTL register reads its context. -/
theorem regWord_tlyCtl (s : State) (a : Agent) (d : Fin 8) (c : BitVec 4) :
    regWord s a (.tlyCtl d c) = packWord [(0, boolNat (ctxAt (deckAt s d) c.toNat).clearing),
      (8, (ctxAt (deckAt s d) c.toNat).hbias.toNat)] :=
  familyWords_tly (tlyWord s (.tlyCtl d c))

/-- A backup register reads its own word. -/
theorem regWord_bkp (s : State) (a : Agent) (n : Fin 16) : regWord s a (.bkp n) = mapGet 0 s.rst.bkp n :=
  familyWords_rst (rstWord s (.bkp n))

/-- Settles O56: the registers that stand once are evaluated; those of a context, a core, a port or an LD read a default. -/
theorem resetLeavesTheSpecsValues : Obligations.ResetLeavesTheSpecsValues := by
  unfold Obligations.ResetLeavesTheSpecsValues
  refine ⟨rfl, rfl, rfl, rfl, rfl, rfl, rfl, rfl, rfl, rfl, rfl, rfl, rfl, rfl, rfl, fun d c => ?_, fun n => ?_, fun c n => ?_,
    fun _ => rfl, fun _ => rfl, rfl, rfl, rfl, rfl, rfl, rfl, fun _ _ => rfl⟩
  case refine_1 =>
    rw [regWord_holdStepStatus, regWord_tlyCtl, ctxAt_reset]
    exact ⟨rfl, rfl⟩
  case refine_2 =>
    rw [regWord_bkp]
    rfl
  case refine_3 =>
    rw [sreg, coreOf_reset]
    exact ⟨sGet_reset n, rfl, rfl, rfl, rfl, rfl⟩

end Sys2Proof.Machine
end


section
/-! SETTLED. Words of the core instructions (O57, O58): a format reads back what it packs and packs what it read, so decoder and
encoder undo each other. -/
namespace Sys2Proof

/-! ### Extracting from words that are put together, and putting extracts together

The widths of these words are sums that are written out as numbers, so each lemma leaves the type of its words open. -/

theorem extractLsb'_append_low {n m lo k : Nat} (x : BitVec n) (y : BitVec m) (h : lo + k ≤ m) :
    BitVec.extractLsb' (n := no_index _) lo k (HAppend.hAppend (γ := BitVec (no_index _)) x y) = y.extractLsb' lo k := by
  ext i hi
  have hlt : lo + i < m := by omega
  simp [BitVec.getLsbD_append, hlt]

theorem extractLsb'_append_high {n m lo k : Nat} (x : BitVec n) (y : BitVec m) (h : m ≤ lo) :
    BitVec.extractLsb' (n := no_index _) lo k (HAppend.hAppend (γ := BitVec (no_index _)) x y) = x.extractLsb' (lo - m) k := by
  ext i hi
  have hge : ¬ lo + i < m := by omega
  simp [BitVec.getLsbD_append, hge, Nat.sub_add_comm h]

theorem append_adjacent {W n m hi lo : Nat} (w : BitVec W) (h : hi = lo + m) :
    HAppend.hAppend (γ := BitVec (no_index _)) (w.extractLsb' hi n) (w.extractLsb' lo m) = w.extractLsb' lo (n + m) :=
  BitVec.extractLsb'_append_extractLsb'_eq_extractLsb' h

theorem zero_append (z : Nat) {n : Nat} (x : BitVec n) :
    HAppend.hAppend (γ := BitVec (no_index _)) 0#z x = x.setWidth (z + n) := by
  refine BitVec.eq_of_toNat_eq ?_
  rw [BitVec.toNat_append, BitVec.toNat_setWidth,
    Nat.mod_eq_of_lt (x.isLt.trans_le (Nat.pow_le_pow_right (by decide) (Nat.le_add_left n z)))]
  simp

theorem setWidth_append_adjacent {W v n m hi lo : Nat} (w : BitVec W) (h : hi = lo + m) :
    HAppend.hAppend (γ := BitVec (no_index _)) ((w.extractLsb' hi n).setWidth v) (w.extractLsb' lo m) =
      (w.extractLsb' lo (n + m)).setWidth (v + m) := by
  rw [← append_adjacent w h, BitVec.setWidth_append_of_eq rfl, BitVec.setWidth_eq]

/-! ### What a format reads of the words it packs -/

/-- `pack` puts the opcode into the low byte (R160), and `read` gets every field back. -/
structure ReadsBack {F : Type} (read : BitVec 128 → F) (pack : BitVec 8 → F → BitVec 128) : Prop where
  opcode : ∀ op f, (pack op f).extractLsb' 0 8 = op
  fields : ∀ op f, read (pack op f) = f

theorem ReadsBack.opcode_mod {F : Type} {read : BitVec 128 → F} {pack : BitVec 8 → F → BitVec 128} (hb : ReadsBack read pack)
    (op : BitVec 8) (f : F) : (pack op f).toNat % 256 = op.toNat := by
  have h := congrArg BitVec.toNat (hb.opcode op f)
  rwa [BitVec.extractLsb'_toNat, Nat.shiftRight_zero] at h

theorem opcode_append {n : Nat} (x : BitVec n) (op : BitVec 8) : (x ++ op).extractLsb' 0 8 = op :=
  (extractLsb'_append_low x op (Nat.le_refl 8)).trans BitVec.extractLsb'_eq_self

theorem readC_readsBack : ReadsBack readC packC where
  opcode _ _ := opcode_append _ _
  fields _ _ := by simp [readC, packC, extractLsb'_append_low, extractLsb'_append_high]

theorem readR_readsBack : ReadsBack readR packR where
  opcode _ _ := opcode_append _ _
  fields _ _ := by simp [readR, packR, extractLsb'_append_low, extractLsb'_append_high]

theorem readI_readsBack : ReadsBack readI packI where
  opcode _ _ := opcode_append _ _
  fields _ _ := by simp [readI, packI, extractLsb'_append_low, extractLsb'_append_high]

theorem readV_readsBack : ReadsBack readV packV where
  opcode _ _ := opcode_append _ _
  fields _ _ := by simp [readV, packV, extractLsb'_append_low, extractLsb'_append_high]

theorem readM_readsBack : ReadsBack readM packM where
  opcode _ _ := opcode_append _ _
  fields _ _ := by simp [readM, packM, extractLsb'_append_low, extractLsb'_append_high]

theorem readX_readsBack : ReadsBack readX packX where
  opcode _ _ := opcode_append _ _
  fields _ _ := by simp [readX, packX, extractLsb'_append_low, extractLsb'_append_high]

/-- A 64-bit instruction leaves the upper half 0 (R161). -/
theorem packC_upper (op : BitVec 8) (f : FmtC) : (packC op f).extractLsb' 64 64 = 0 := by
  simp [packC, extractLsb'_append_high]

theorem packR_upper (op : BitVec 8) (f : FmtR) : (packR op f).extractLsb' 64 64 = 0 := by
  simp [packR, extractLsb'_append_high]

theorem packI_upper (op : BitVec 8) (f : FmtI) : (packI op f).extractLsb' 64 64 = 0 := by
  simp [packI, extractLsb'_append_high]

/-! ### What a format packs of the words it read -/

/-- The words that an encoding keeps: all of them, or the low half where the opcode is below 0x80 (R161). -/
def keptWords (w : BitVec 128) : BitVec 128 :=
  if (w.extractLsb' 0 8).toNat < 0x80 then (w.extractLsb' 0 64).setWidth 128 else w

section
variable {w : BitVec 128} {op : BitVec 8} (h : (w.extractLsb' 0 8).toNat = op.toNat)
include h

theorem keptWords_narrow (hop : op.toNat < 0x80) : keptWords w = (w.extractLsb' 0 64).setWidth 128 := if_pos (h ▸ hop)
theorem keptWords_wide (hop : 0x80 ≤ op.toNat) : keptWords w = w := if_neg (Nat.not_lt.2 (h ▸ hop))

theorem packC_readC (hop : op.toNat < 0x80) : packC op (readC w) = keptWords w := by
  rw [keptWords_narrow h hop, ← BitVec.eq_of_toNat_eq h]
  simp [readC, packC, zero_append, setWidth_append_adjacent]

theorem packR_readR (hop : op.toNat < 0x80) : packR op (readR w) = keptWords w := by
  rw [keptWords_narrow h hop, ← BitVec.eq_of_toNat_eq h]
  simp [readR, packR, zero_append, setWidth_append_adjacent]

theorem packI_readI (hop : op.toNat < 0x80) : packI op (readI w) = keptWords w := by
  rw [keptWords_narrow h hop, ← BitVec.eq_of_toNat_eq h]
  simp [readI, packI, zero_append, setWidth_append_adjacent]

theorem packV_readV (hop : 0x80 ≤ op.toNat) : packV op (readV w) = keptWords w := by
  rw [keptWords_wide h hop, ← BitVec.eq_of_toNat_eq h]
  simp [readV, packV, append_adjacent]

theorem packM_readM (hop : 0x80 ≤ op.toNat) : packM op (readM w) = keptWords w := by
  rw [keptWords_wide h hop, ← BitVec.eq_of_toNat_eq h]
  simp [readM, packM, append_adjacent]

theorem packX_readX (hop : 0x80 ≤ op.toNat) : packX op (readX w) = keptWords w := by
  rw [keptWords_wide h hop, ← BitVec.eq_of_toNat_eq h]
  simp [readX, packX, append_adjacent]

end

/-! ### Decoder and encoder (chapter 04's opcode tables) -/

/-- The words of `i` decode to it on core `c`, and a 64-bit instruction leaves the upper half 0. -/
def Respelled (c : CoreRef) (i : Instr) : Prop :=
  ∃ w, encodeCore i = some w ∧ decodeCore c w = some i ∧ ((w.extractLsb' 0 8).toNat < 0x80 → w.extractLsb' 64 64 = 0)

/-- An instruction that encoder and decoder take for the same opcode and format decodes from its words. -/
theorem ReadsBack.respelled {F : Type} {read : BitVec 128 → F} {pack : BitVec 8 → F → BitVec 128} (hb : ReadsBack read pack)
    {c : CoreRef} {op : BitVec 8} {mk : F → Instr} (f : F) (he : encodeCore (mk f) = some (pack op f))
    (hd : ∀ w, w.extractLsb' 0 8 = op → decodeCore c w = some (mk (read w)))
    (hu : op.toNat < 0x80 → (pack op f).extractLsb' 64 64 = 0) : Respelled c (mk f) := by
  refine ⟨pack op f, he, ?_, fun h => hu ?_⟩
  · rw [hd _ (hb.opcode op f), hb.fields]
  · rwa [hb.opcode] at h

/-- Every core instruction decodes from its words. -/
theorem respelled_of_core {c : CoreRef} {i : Instr} (h : instrCore i = some c) : Respelled c i := by
  cases i with
  | nop _ f | endKernel _ f | csrr _ f | csrw _ f | loop _ f | fence _ f | waitObj _ f | waitt _ f =>
    cases h
    exact readC_readsBack.respelled f rfl (fun w h => by rw [decodeCore, h]; rfl) (fun _ => packC_upper _ f)
  | add _ f | sub _ f | andOp _ f | orOp _ f | xor _ f | sll _ f | srl _ f | sra _ f | slt _ f | sltu _ f | mul _ f | mulhu _ f
  | div _ f | divu _ f | rem _ f | remu _ f | fadd _ f | fsub _ f | fmul _ f | ffma _ f | fmin _ f | fmax _ f | flt _ f | fle _ f
  | feq _ f | fcvtSL _ f | fcvtLS _ f =>
    cases h
    exact readR_readsBack.respelled f rfl (fun w h => by rw [decodeCore, h]; rfl) (fun _ => packR_upper _ f)
  | addi _ f | andi _ f | ori _ f | xori _ f | slli _ f | srli _ f | srai _ f | slti _ f | sltiu _ f | lih _ f | ldb _ f | ldh _ f
  | ldw _ f | ldd _ f | ldbs _ f | ldhs _ f | ldws _ f | stb _ f | sth _ f | stw _ f | std _ f | lds _ f | sts _ f | beq _ f
  | bne _ f | blt _ f | bge _ f | bltu _ f | bgeu _ f | jal _ f | jalr _ f =>
    cases h
    exact readI_readsBack.respelled f rfl (fun w h => by rw [decodeCore, h]; rfl) (fun _ => packI_upper _ f)
  | vadd _ f | vsub _ f | vmul _ f | vfma _ f | vmin _ f | vmax _ f | vcmp _ f | vsel _ f | vcvt _ f | vqnt _ f | vrsqs _ f
  | vbcst _ f | vext _ f | tlyacc _ f | tlyctr _ f =>
    cases h
    exact readV_readsBack.respelled f rfl (fun w h => by rw [decodeCore, h]; rfl) (fun h => absurd h (by decide))
  | mlds _ f | mmul _ f | mdrn _ f | mzero _ f =>
    cases h
    exact readM_readsBack.respelled f rfl (fun w h => by rw [decodeCore, h]; rfl) (fun h => absurd h (by decide))
  | mov _ f | movt _ f | put _ f | get _ f | atom _ f | sig _ f | syncrd _ f | hpush _ f | hpop _ f =>
    cases h
    exact readX_readsBack.respelled f rfl (fun w h => by rw [decodeCore, h]; rfl) (fun h => absurd h (by decide))
  | _ => cases h

/-- Whatever words decode, the instruction is one of that core, and its words are those: its fields are what its format read of
them, and `hop` names its opcode. -/
theorem encodeCore_of_decodeCore {c : CoreRef} {w : BitVec 128} {i : Instr} (h : decodeCore c w = some i) :
    instrCore i = some c ∧ encodeCore i = some (keptWords w) := by
  unfold decodeCore at h
  split at h <;> rename_i hop <;> cases h
  all_goals
    refine ⟨rfl, congrArg some ?_⟩
    simp only [packC_readC, packR_readR, packI_readI, packV_readV, packM_readM, packX_readX, hop, BitVec.reduceToNat,
      Nat.reduceLT, Nat.reduceLeDiff]

/-- Settles O58: each row of the encoder packs the fields that the decoder's row of the same opcode reads. -/
theorem decodeAndEncodeAgree : Obligations.DecodeAndEncodeAgree := by
  unfold Obligations.DecodeAndEncodeAgree
  exact ⟨fun c i h => respelled_of_core h, fun c w i h => encodeCore_of_decodeCore h⟩

/-- Settles O57: the decoder is run on each word. -/
theorem wordsOfTheWorkedExamples : Obligations.WordsOfTheWorkedExamples := by
  unfold Obligations.WordsOfTheWorkedExamples
  exact fun c => ⟨rfl, rfl, rfl, rfl, rfl, rfl, rfl, rfl, rfl, rfl⟩

end Sys2Proof
end


section
/-! SETTLED. Encodings that fault at issue: CSR numbers outside the summary (O11), reserved opcodes (O18), encodings that break
R191 (O19). -/
namespace Sys2Proof.Machine
open Sys2Proof

/-! ### CSR numbers (R188) -/

/-- The read-only numbers of the CSR summary. -/
def csrReadOnly (n : Nat) : Prop := n ≤ 4 ∨ (0x28 ≤ n ∧ n ≤ 0x2A)

/-- The numbers of the CSR summary. -/
def csrKnown (n : Nat) : Prop := csrReadOnly n ∨ (0x10 ≤ n ∧ n ≤ 0x17) ∨ (0x20 ≤ n ∧ n ≤ 0x22)

theorem csrRead_unknown (env : CoreEnv) (i : Nat) (k : Core) {n : Nat} (h : ¬ csrKnown n) : csrRead env i k n = none := by
  simp only [csrKnown, csrReadOnly] at h
  simp only [csrRead]
  rw [if_neg (by omega), if_neg (by omega), if_neg (by omega), if_neg (by omega), if_neg (by omega), if_neg (by omega),
    if_neg (by omega), if_neg (by omega)]

theorem csrWrite_unknown (k : Core) {n : Nat} (v : W64) (h : ¬ csrKnown n) : csrWrite k n v = none := by
  simp only [csrKnown, csrReadOnly] at h
  simp only [csrWrite]
  rw [if_neg (by omega), if_neg (by omega), if_neg (by omega)]

theorem csrWrite_ignored (k : Core) {n : Nat} (v : W64) (h : csrReadOnly n ∨ n = 0x10) : csrWrite k n v = some k := by
  simp only [csrReadOnly] at h
  exact if_pos (by omega)

theorem bodyCsrr_unknown (env : CoreEnv) (i : Nat) {f : FmtC} (k : Core) (h : ¬ csrKnown (fieldC f 32 12).toNat) :
    bodyCsrr env i f k = .fault stBadParam := by
  simp only [bodyCsrr, csrRead_unknown env i k h]

theorem bodyCsrw_unknown {f : FmtC} (k : Core) (h : ¬ csrKnown (fieldC f 32 12).toNat) : bodyCsrw f k = .fault stBadParam := by
  simp only [bodyCsrw, csrWrite_unknown k _ h]

/-- Settles O11: `csrRead` and `csrWrite` have no value for such a number, and a write that is ignored changes no core. -/
theorem csrNumbersOutsideTheSummaryFault : Obligations.CsrNumbersOutsideTheSummaryFault := by
  unfold Obligations.CsrNumbersOutsideTheSummaryFault
  intro s c f hi k n ro known
  refine ⟨fun hk => ?_, fun h hw hn => exec_csrw_of_write s c f k hi hn hw (csrWrite_ignored k _ h) rfl⟩
  have faulted : ∀ {i : Instr} {wf : Bool} {body : Core → CoreStep}, exec i s = scalarOp s c wf body →
      body k = .fault stBadParam → wf = true →
      ∃ t, exec i s = .next t ∧ (coreOf t c).fault = faultedWith k stBadParam 0 ∧ (coreOf t c).s = k.s ∧
        (coreOf t c).t = k.t ∧ (coreOf t c).lc = k.lc ∧ (coreOf t c).pc = k.pc := by
    intro i wf body hx hb hw
    obtain ⟨t, ht, hf, hs, -, -, -, -, -, htr, hlc, -, -, hpc⟩ := exec_faults hi hx hw hb
    exact ⟨t, ht, hf, hs, htr, hlc, hpc⟩
  simp only [List.forall_mem_cons, List.not_mem_nil, false_imp_iff, implies_true, and_true]
  exact ⟨faulted (i := .csrr c f) rfl (bodyCsrr_unknown _ _ k hk), faulted (i := .csrw c f) rfl (bodyCsrw_unknown k hk)⟩

/-! ### What a fault at issue leaves (R156, R190, R191) -/

/-- Command `i` faults core `c` with `st` at engine `e`: registers, memories, PC and queues keep what they hold, but the matrix
queue may lose what waits for a rendezvous. -/
def FaultsCore (s : State) (c : CoreRef) (i : Instr) (st : Status) (e : BitVec 2) : Prop :=
  ∃ t, exec i s = .next t ∧ (coreOf t c).fault = faultedWith (coreOf s c) st e ∧ sameRegs (coreOf s c) (coreOf t c) ∧
    (coreOf t c).vq = (coreOf s c).vq ∧ (coreOf t c).mq.Sublist (coreOf s c).mq ∧ (coreOf t c).xq = (coreOf s c).xq

section
variable {s : State} {c : CoreRef} {i : Instr} {st : Status} {e : BitVec 2}

/-- The state in which core `c` has faulted at its PC. -/
def coreFaulted (s : State) (c : CoreRef) (st : Status) (e : BitVec 2) : State :=
  setDeck s c.deck (coreFault (deckAt s c.deck) c.core st e (coreOf s c).pc)

theorem faultsCore_of_exec (hx : exec i s = .next (coreFaulted s c st e)) : FaultsCore s c i st e := by
  obtain ⟨hregs, hfault, hvq, hxq, hmq⟩ := coreFault_core (deckAt s c.deck) c.core st e (coreOf s c).pc
  refine ⟨_, hx, ?_⟩
  simp only [coreOf, coreFaulted, deckAt_setDeck]
  exact ⟨hfault, hregs, hvq, hmq, hxq⟩

/-- An operation of the deck that only faults the core. -/
theorem faultsCore_of_op {op : Deck → DeckRes} (hx : exec i s = done (onDeck s c.deck op))
    (ho : op (deckAt s c.deck) = (coreFault (deckAt s c.deck) c.core st e (coreOf s c).pc, [])) : FaultsCore s c i st e :=
  faultsCore_of_exec (hx.trans (congrArg done (onDeck_pure s c.deck op _ ho)))

/-- An operation that asks for nothing and only faults the core. -/
theorem faultsCore_of_pure {op : Deck → Deck} (hx : exec i s = done (onDeck s c.deck (fun d => (op d, []))))
    (ho : op (deckAt s c.deck) = coreFault (deckAt s c.deck) c.core st e (coreOf s c).pc) : FaultsCore s c i st e :=
  faultsCore_of_op hx (Prod.ext ho rfl)

end

/-- Settles O18: `opBadOpcode` is the fault of a ready core where `opDefined` does not know the opcode. -/
theorem reservedOpcodesFault : Obligations.ReservedOpcodesFault := by
  unfold Obligations.ReservedOpcodesFault
  intro s c w hr hop k
  have hd : opBadOpcode (deckAt s c.deck) c.core w = coreFault (deckAt s c.deck) c.core stBadOpcode 0 k.pc := by
    simp only [opBadOpcode, show (coreAt (deckAt s c.deck) c.core).run = .ready from hr, hop, ne_eq, not_true_eq_false, decide_false,
      Bool.or_self, Bool.false_eq_true, if_false]
    rfl
  have hx : exec (.badOpcodeIssue c w) s = .next (coreFaulted s c stBadOpcode 0) :=
    congrArg done (onDeck_pure s c.deck _ _ (Prod.ext hd rfl))
  obtain ⟨t, ht, hfault, hregs, hvq, hmq, hxq⟩ := faultsCore_of_exec hx
  refine ⟨t, ht, hfault, hregs, hvq, hxq, hmq, ?_⟩
  cases hx.symm.trans ht
  exact setDeck_onlyDeck _ _ _

/-! ### Encodings that break R191

Each operation that issues an instruction checks the encoding before it does anything else. -/

section
variable (d : Deck) (i : Nat)

theorem opEnd_bad {f : FmtC} (hi : scalarReady (coreAt d i) = true) (hw : wfNone f = false) :
    opEnd d i f = coreFault d i stBadParam 0 (coreAt d i).pc := by
  simp only [opEnd, hi, hw, Bool.not_true, Bool.not_false, Bool.false_eq_true, if_false, if_true]

theorem opLoop_bad {f : FmtC} (hi : scalarReady (coreAt d i) = true) (hw : wfLoop f = false) :
    opLoop d i f = coreFault d i stBadParam 0 (coreAt d i).pc := by
  simp only [opLoop, hi, hw, Bool.not_true, Bool.not_false, Bool.false_eq_true, if_false, if_true]

theorem opFence_bad {f : FmtC} (hi : scalarReady (coreAt d i) = true) (hw : wfFence f = false) :
    opFence d i f = coreFault d i stBadParam 0 (coreAt d i).pc := by
  simp only [opFence, hw, issueScalar_bad d i _ hi, Bool.not_false, Bool.or_true, if_true]

theorem opWait_bad (env : CoreEnv) {f : FmtC} (hi : scalarReady (coreAt d i) = true) (hw : wfWait f = false) :
    opWait env d i f = coreFault d i stBadParam 0 (coreAt d i).pc := by
  simp only [opWait, hi, hw, Bool.not_true, Bool.not_false, Bool.false_eq_true, if_false, if_true]

theorem opWaitt_bad (env : CoreEnv) {f : FmtC} (hi : scalarReady (coreAt d i) = true) (hw : wfWaitt f = false) :
    opWaitt env d i f = coreFault d i stBadParam 0 (coreAt d i).pc := by
  simp only [opWaitt, hi, hw, Bool.not_true, Bool.not_false, Bool.false_eq_true, if_false, if_true]

theorem opSpadScalar_bad (body : Core → CoreStep) (hi : scalarReady (coreAt d i) = true) :
    opSpadScalar d i false body = (coreFault d i stBadParam 0 (coreAt d i).pc, []) := by
  simp only [opSpadScalar, issueScalar_bad d i body hi, Bool.and_false, Bool.false_and, Bool.false_eq_true, if_false]

section
variable (e : Engine) {wf : Bool} (res : Bool) (check : Core → Option Status) (put : Core → Core) (hr : (coreAt d i).run = .ready)
include hr

/-- An engine instruction that is not in order, or begins at word 8,191, faults its core (R161, R191). -/
theorem issueEngine_bad (hw : wf = false ∨ (coreAt d i).pc = 8191) :
    issueEngine d i e wf res check put = coreFault d i stBadParam (engineCode e) (coreAt d i).pc := by
  have hbad : ((coreAt d i).pc == 8191 || !wf) = true := by
    rcases hw with rfl | h
    · exact Bool.or_true _
    · rw [h]; rfl
  simp only [issueEngine, hr, hbad, ne_eq, not_true_eq_false, if_false, if_true]

/-- One that finds room and passes its issue checks faults at the last word of a running loop's body (R141, R192). -/
theorem issueEngine_last (hq : queueFull (coreAt d i) e = false) (hc : check (coreAt d i) = none)
    (hl : wideFits (coreAt d i) = false) :
    issueEngine d i e wf res check put = coreFault d i stBadParam (engineCode e) (coreAt d i).pc := by
  simp only [issueEngine, hr, hq, hc, hl, ne_eq, not_true_eq_false, Bool.not_false, Bool.false_eq_true, if_false, if_true, ite_self]

end

theorem wideFits_of_last {k : Core} (h : ∃ g ∈ k.loops, g.last = k.pc.toNat) : wideFits k = false := by
  obtain ⟨g, hg, hl⟩ := h
  exact List.all_eq_false.2 ⟨g, hg, by simp [hl]⟩

/-- The pump finds nothing to do where every entry has started and no word of a SYNCRD waits. -/
theorem pump_idle (env : CoreEnv) (h : ∀ x ∈ (coreAt d i).xq, x.started = true ∧ x.value = none) : pump env d i = (d, []) := by
  have hd : deliverRead d i = d := by
    simp only [deliverRead]
    split
    · rfl
    · rename_i e rest hq
      simp only [(h e (by rw [hq]; exact List.mem_cons_self)).2]
  rw [pump, hd]
  exact pumpFuel_started env 32 d i (fun x hx => (h x hx).1)

/-- A mover instruction that is not in order, or begins at word 8,191, faults its core; the pump then does nothing. -/
theorem opMovI_bad (env : CoreEnv) (op : BitVec 8) {wf : Bool} (f : FmtX) (hr : (coreAt d i).run = .ready)
    (hw : wf = false ∨ (coreAt d i).pc = 8191) (hx : ∀ x ∈ (coreAt d i).xq, x.started = true ∧ x.value = none) :
    opMovI env d i op wf f = (coreFault d i stBadParam 3 (coreAt d i).pc, []) := by
  have hgate : ((coreAt d i).pc != 8191 && wideFits (coreAt d i) && wf) = false := by
    rcases hw with rfl | h
    · exact Bool.and_false _
    · rw [h]; rfl
  obtain ⟨-, -, -, hxq, -⟩ := coreFault_core d i stBadParam 3 (coreAt d i).pc
  have hpump := pump_idle (coreFault d i stBadParam 3 (coreAt d i).pc) i env (by rw [hxq]; exact hx)
  simp only [opMovI, issueEngine_bad d i .mover _ _ _ hr hw, engineCode, hr, decide_true, Bool.true_and, hgate, Bool.false_and,
    Bool.false_eq_true, if_false, hpump]

end

/-- What O19 asks of instruction `i` of core `c` with opcode `op`. -/
def BrokenFaults (s : State) (c : CoreRef) (i : Instr) (op : Nat) : Prop :=
  (wellFormed i = false ∨ (128 ≤ op ∧ (coreOf s c).pc = 8191) ∨
    (0x80 ≤ op ∧ op ≤ 0x8C ∧ (coreOf s c).vq.length < 16 ∧ ∃ g ∈ (coreOf s c).loops, g.last = (coreOf s c).pc.toNat) ∨
    (0xA0 ≤ op ∧ op ≤ 0xA3 ∧ (coreOf s c).mq.length < 16 ∧ wholePen (deckAt s c.deck) c.core = true ∧
      ∃ g ∈ (coreOf s c).loops, g.last = (coreOf s c).pc.toNat)) →
  (opEngine op = 3 → ∀ e ∈ (coreOf s c).xq, e.started = true ∧ e.value = none) → FaultsCore s c i stBadParam (opEngine op)

section
variable {s : State} {c : CoreRef} {i : Instr} {op : Nat}

/-- A 64-bit instruction has only its own fields to break. -/
theorem brokenFaults_scalar (hop : op < 0x80) (h : wellFormed i = false → FaultsCore s c i stBadParam 0) :
    BrokenFaults s c i op := by
  intro hb _
  rw [show opEngine op = 0 from if_pos hop]
  rcases hb with hw | ⟨h80, -⟩ | ⟨h80, -⟩ | ⟨hA0, -⟩
  · exact h hw
  all_goals omega

variable (hi : canIssue s c = true)
include hi

theorem brokenFaults_scalarOp {body : Core → CoreStep} (hop : op < 0x80) (hx : exec i s = scalarOp s c (wellFormed i) body) :
    BrokenFaults s c i op := by
  refine brokenFaults_scalar hop fun hw => faultsCore_of_pure hx ?_
  rw [hw]
  exact issueScalar_bad _ _ body hi

theorem brokenFaults_spadScalar {body : Core → CoreStep} (hop : op < 0x80)
    (hx : exec i s = done (onDeck s c.deck (fun d => opSpadScalar d c.core (wellFormed i) body))) : BrokenFaults s c i op := by
  refine brokenFaults_scalar hop fun hw => faultsCore_of_op hx ?_
  rw [hw]
  exact opSpadScalar_bad _ _ body hi

/-- A vector instruction faults for its own fields, for the last word of instruction memory or of a running body. -/
theorem brokenFaults_vec {o : BitVec 8} {res : Bool} {f : FmtV} (hop : 0x80 ≤ op ∧ op ≤ 0x8C)
    (hx : exec i s = done (onDeck s c.deck (fun d => (opVec d c.core o (wellFormed i) res f, [])))) : BrokenFaults s c i op := by
  have hr := run_of_canIssue hi
  intro hb _
  rw [show opEngine op = 1 from (if_neg (by omega)).trans (if_pos (by omega))]
  refine faultsCore_of_pure hx ?_
  rcases hb with hw | ⟨-, hpc⟩ | ⟨-, -, hq, hg⟩ | ⟨hA0, -⟩
  · exact issueEngine_bad _ _ .vector res _ _ hr (.inl hw)
  · exact issueEngine_bad _ _ .vector res _ _ hr (.inr hpc)
  · exact issueEngine_last _ _ .vector res _ _ hr (decide_eq_false (Nat.not_le.2 hq)) rfl (wideFits_of_last hg)
  · omega

theorem brokenFaults_tly {o : BitVec 8} {f : FmtV} (hop : 0x90 ≤ op ∧ op ≤ 0x91)
    (hx : exec i s = done (onDeck s c.deck (fun d => (opTly d c.core o (wellFormed i) f, [])))) : BrokenFaults s c i op := by
  have hr := run_of_canIssue hi
  intro hb _
  rw [show opEngine op = 1 from (if_neg (by omega)).trans (if_pos (by omega))]
  refine faultsCore_of_pure hx ?_
  rcases hb with hw | ⟨-, hpc⟩ | ⟨-, h8C, -⟩ | ⟨hA0, -⟩
  · exact issueEngine_bad _ _ .vector false _ _ hr (.inl hw)
  · exact issueEngine_bad _ _ .vector false _ _ hr (.inr hpc)
  all_goals omega

/-- As `brokenFaults_vec`; a launch with the whole pen passes the check of ganged instructions (R240). -/
theorem brokenFaults_mat {o : BitVec 8} {f : FmtM} (hop : 0xA0 ≤ op ∧ op ≤ 0xA3)
    (hx : exec i s = done (onDeck s c.deck (fun d => (opMat d c.core o (wellFormed i) f, [])))) : BrokenFaults s c i op := by
  have hr := run_of_canIssue hi
  intro hb _
  rw [show opEngine op = 2 from (if_neg (by omega)).trans ((if_neg (by omega)).trans (if_pos (by omega)))]
  refine faultsCore_of_pure hx ?_
  rcases hb with hw | ⟨-, hpc⟩ | ⟨-, h8C, -⟩ | ⟨-, -, hq, hpen, hg⟩
  · exact issueEngine_bad _ _ .matrix false _ _ hr (.inl hw)
  · exact issueEngine_bad _ _ .matrix false _ _ hr (.inr hpc)
  · omega
  · exact issueEngine_last _ _ .matrix false _ _ hr (decide_eq_false (Nat.not_le.2 hq))
      (if_neg fun h => absurd (hpen.symm.trans h.2) (by decide)) (wideFits_of_last hg)

theorem brokenFaults_mov {env : CoreEnv} {o : BitVec 8} {f : FmtX} (hop : 0xB0 ≤ op)
    (hx : exec i s = done (onDeck s c.deck (fun d => opMovI env d c.core o (wellFormed i) f))) : BrokenFaults s c i op := by
  have hr := run_of_canIssue hi
  have he : opEngine op = 3 := (if_neg (by omega)).trans ((if_neg (by omega)).trans (if_neg (by omega)))
  intro hb hidle
  rw [he]
  refine faultsCore_of_op hx (opMovI_bad _ _ env o f hr ?_ (hidle he))
  rcases hb with hw | ⟨-, hpc⟩ | ⟨-, h8C, -⟩ | ⟨-, hA3, -⟩
  · exact .inl hw
  · exact .inr hpc
  all_goals omega

/-- Every core instruction is issued by one of these operations. -/
theorem brokenFaults_of_core {w : BitVec 128} (hc : instrCore i = some c) (hw : encodeCore i = some w) :
    BrokenFaults s c i (w.toNat % 256) := by
  cases i with
  | nop _ f | csrr _ f | csrw _ f =>
    cases hc
    cases hw
    exact brokenFaults_scalarOp hi (by rw [readC_readsBack.opcode_mod]; decide) rfl
  | endKernel _ f =>
    cases hc
    cases hw
    exact brokenFaults_scalar (by rw [readC_readsBack.opcode_mod]; decide)
      fun hw => faultsCore_of_pure rfl (opEnd_bad _ _ hi hw)
  | loop _ f =>
    cases hc
    cases hw
    exact brokenFaults_scalar (by rw [readC_readsBack.opcode_mod]; decide)
      fun hw => faultsCore_of_pure rfl (opLoop_bad _ _ hi hw)
  | fence _ f =>
    cases hc
    cases hw
    exact brokenFaults_scalar (by rw [readC_readsBack.opcode_mod]; decide)
      fun hw => faultsCore_of_pure rfl (opFence_bad _ _ hi hw)
  | waitObj _ f =>
    cases hc
    cases hw
    exact brokenFaults_scalar (by rw [readC_readsBack.opcode_mod]; decide)
      fun hw => faultsCore_of_pure rfl (opWait_bad _ _ _ hi hw)
  | waitt _ f =>
    cases hc
    cases hw
    exact brokenFaults_scalar (by rw [readC_readsBack.opcode_mod]; decide)
      fun hw => faultsCore_of_pure rfl (opWaitt_bad _ _ _ hi hw)
  | add _ f | sub _ f | andOp _ f | orOp _ f | xor _ f | sll _ f | srl _ f | sra _ f | slt _ f | sltu _ f | mul _ f | mulhu _ f
  | div _ f | divu _ f | rem _ f | remu _ f | fadd _ f | fsub _ f | fmul _ f | ffma _ f | fmin _ f | fmax _ f | flt _ f | fle _ f
  | feq _ f | fcvtSL _ f | fcvtLS _ f =>
    cases hc
    cases hw
    exact brokenFaults_scalarOp hi (by rw [readR_readsBack.opcode_mod]; decide) rfl
  | addi _ f | andi _ f | ori _ f | xori _ f | slli _ f | srli _ f | srai _ f | slti _ f | sltiu _ f | lih _ f | ldb _ f | ldh _ f
  | ldw _ f | ldd _ f | ldbs _ f | ldhs _ f | ldws _ f | stb _ f | sth _ f | stw _ f | std _ f | beq _ f | bne _ f | blt _ f
  | bge _ f | bltu _ f | bgeu _ f | jal _ f | jalr _ f =>
    cases hc
    cases hw
    exact brokenFaults_scalarOp hi (by rw [readI_readsBack.opcode_mod]; decide) rfl
  | lds _ f | sts _ f =>
    cases hc
    cases hw
    exact brokenFaults_spadScalar hi (by rw [readI_readsBack.opcode_mod]; decide) rfl
  | vadd _ f | vsub _ f | vmul _ f | vfma _ f | vmin _ f | vmax _ f | vcmp _ f | vsel _ f | vcvt _ f | vqnt _ f | vrsqs _ f
  | vbcst _ f | vext _ f =>
    cases hc
    cases hw
    exact brokenFaults_vec hi (by rw [readV_readsBack.opcode_mod]; decide) rfl
  | tlyacc _ f | tlyctr _ f =>
    cases hc
    cases hw
    exact brokenFaults_tly hi (by rw [readV_readsBack.opcode_mod]; decide) rfl
  | mlds _ f | mmul _ f | mdrn _ f | mzero _ f =>
    cases hc
    cases hw
    exact brokenFaults_mat hi (by rw [readM_readsBack.opcode_mod]; decide) rfl
  | mov _ f | movt _ f | put _ f | get _ f | atom _ f | sig _ f | syncrd _ f | hpush _ f | hpop _ f =>
    cases hc
    cases hw
    exact brokenFaults_mov hi (by rw [readX_readsBack.opcode_mod]; decide) rfl
  | _ => cases hc

end

/-- Settles O19: by the operation that issues the instruction, whose check of the encoding faults the core. -/
theorem brokenEncodingsFault : Obligations.BrokenEncodingsFault := by
  unfold Obligations.BrokenEncodingsFault
  exact fun s i c w hc hw hi => brokenFaults_of_core hi hc hw

end Sys2Proof.Machine
end


section
/-! SETTLED. The Tally unit: sending and applying updates (O22). -/
namespace Sys2Proof.Machine
open Sys2Proof

/-! ### Sums of a Tally (R225) -/

@[simp] theorem satAdd_zero {w : Nat} (v : BitVec w) : satAdd v 0 = v := by
  simp [satAdd, v.isLt]

/-- The larger of two words by an unsigned comparison. -/
theorem toNat_ite_ult {w : Nat} (x y : BitVec w) : (if x.ult y then y else x).toNat = max x.toNat y.toNat := by
  rw [BitVec.ult_eq_decide]
  by_cases h : x.toNat < y.toNat
  · rw [if_pos (decide_eq_true h), max_eq_right h.le]
  · rw [if_neg (by simpa using h), max_eq_left (Nat.not_lt.1 h)]

/-- One bin of an update added to the bins of a Tally, with the note whether a bin has saturated. -/
def addBin (a : SMap (BitVec 32) × Bool) (p : Nat × Nat) : SMap (BitVec 32) × Bool :=
  (mapSet 0 a.1 p.1 (satAdd (mapGet 0 a.1 p.1) p.2), a.2 || (satSum (mapGet 0 a.1 p.1) p.2).2)

/-- A bin that an update does not list stays as it is. -/
theorem foldl_addBin_absent (bs : SMap Nat) (a : SMap (BitVec 32) × Bool) (b : Nat) (h : b ∉ bs.map Prod.fst) :
    mapGet 0 (bs.foldl addBin a).1 b = mapGet 0 a.1 b := by
  induction bs generalizing a with
  | nil => rfl
  | cons p rest ih =>
    obtain ⟨hb, hrest⟩ := not_or.1 (mt List.mem_cons.2 h)
    exact (ih _ hrest).trans (mapGet_set_other _ _ _ _ _ hb)

/-- Where an update lists each bin once, each bin grows by what is listed for it. -/
theorem foldl_addBin (bs : SMap Nat) (a : SMap (BitVec 32) × Bool) (b : Nat) (h : (bs.map Prod.fst).Nodup) :
    mapGet 0 (bs.foldl addBin a).1 b = satAdd (mapGet 0 a.1 b) (mapGet 0 bs b) := by
  induction bs generalizing a with
  | nil => exact (satAdd_zero _).symm
  | cons p rest ih =>
    obtain ⟨k, n⟩ := p
    obtain ⟨hk, hrest⟩ := List.nodup_cons.1 h
    rw [List.foldl_cons]
    by_cases hb : k = b
    · subst hb
      rw [foldl_addBin_absent rest _ k hk]
      simp [addBin, mapGet]
    · rw [ih _ hrest]
      simp [addBin, mapGet, hb, mapGet_set_other _ _ _ _ _ (Ne.symm hb)]

section
variable (t : Tally) (u : TlyUpdate)

/-- AMAX keeps the larger magnitude. -/
theorem tallyApply_amax : (tallyApply t u).1.amax.toNat = max t.amax.toNat u.amax.toNat := toNat_ite_ult _ _

/-- The bins of a Tally grow by what an update lists for them. -/
theorem tallyApply_bins (h : (u.bins.map Prod.fst).Nodup) (b : Nat) :
    mapGet 0 (tallyApply t u).1.bins b = satAdd (mapGet 0 t.bins b) (mapGet 0 u.bins b) := foldl_addBin u.bins (t.bins, false) b h

end

/-! ### TALLY_UPDATE_APPLY (R225) -/

theorem endIfIdle_vq (k : Core) : (endIfIdle k).vq = k.vq := by
  unfold endIfIdle
  split <;> rfl

section
variable (d : Deck) (i : Nat) (u : TlyUpdate) (rest : List TlyUpdate)

/-- The deck whose Tally has taken the update `u`, before the update's instruction leaves its core. -/
def tallyTaken : Deck :=
  let r := tallyApply (mapGet {} d.tallies u.tally.toNat) u
  { d with tallies := mapSet {} d.tallies u.tally.toNat r.1, tlyQueue := rest,
           binSat := if r.2 then satInc d.binSat else d.binSat }

/-- The update's own Tally has taken it. -/
theorem tallyTaken_same : mapGet {} (tallyTaken d u rest).tallies u.tally.toNat =
    (tallyApply (mapGet {} d.tallies u.tally.toNat) u).1 := mapGet_set_same _ _ _ _

/-- Every other Tally stays as it is. -/
theorem tallyTaken_other (n : Nat) (h : n ≠ u.tally.toNat) :
    mapGet {} (tallyTaken d u rest).tallies n = mapGet {} d.tallies n := mapGet_set_other _ _ _ _ _ h

/-- The core whose Tally instruction has completed. -/
def tallyEnded (k : Core) : Core := endIfIdle { k with vq := k.vq.drop 1, tallySent := false }

/-- The oldest update reaches its Tally, and its instruction leaves its core. -/
theorem opTallyApply_eq (h : d.tlyQueue = u :: rest) :
    opTallyApply d = setCore (tallyTaken d u rest) u.core (tallyEnded (coreAt d u.core)) := by
  simp only [opTallyApply, h, settleEnd_setCore]
  rfl

/-! ### Sending an update (R223, R224) -/

/-- A Tally instruction at the head of the vector queue that no FENCE.PASS holds sends its update. -/
theorem completeVecHead_tally {e : VecEntry} {rest : List VecEntry} (hq : (coreAt d i).vq = e :: rest)
    (hp : passHolds (coreAt d i) 1 e.seq = false) (hop : e.op = 0x90 ∨ e.op = 0x91) :
    completeVecHead d i = sendTally d i e rest := by
  simp only [completeVecHead, hq, hp, Bool.false_eq_true, if_false, if_pos hop]

/-- TLYACC sends what the scan of its rows found (R223). -/
theorem sendTally_scan {e : VecEntry} {rest : List VecEntry} {u : TlyUpdate} (hop : e.op = 0x90)
    (hs : (coreAt d i).tallySent = false)
    (hu : tallyScan e (ctxAt d (coreAt d i).ctx.toNat).hbias (coreAt d i) 0 e.n { core := i, tally := e.ext.extractLsb' 0 12 } =
      some u) :
    sendTally d i e rest =
      ({ setCore d i { coreAt d i with tallySent := true } with tlyQueue := d.tlyQueue ++ [u] }, []) := by
  have hop' : ¬ e.op = 0x91 := by rw [hop]; decide
  simp only [sendTally, hs, Bool.false_eq_true, if_false, if_neg hop', hu]

/-- TLYCTR sends the core's two counters and zeroes them (R224). -/
theorem sendTally_counters {e : VecEntry} {rest : List VecEntry} (hop : e.op = 0x91) (hs : (coreAt d i).tallySent = false) :
    sendTally d i e rest =
      ({ setCore d i { coreAt d i with satc := 0, flsc := 0, tallySent := true } with
          tlyQueue := d.tlyQueue ++ [{ core := i, tally := e.ext.extractLsb' 0 12, sats := (coreAt d i).satc.toNat,
                                       flushes := (coreAt d i).flsc.toNat }] }, []) := by
  simp only [sendTally, hs, Bool.false_eq_true, if_false, if_pos hop]

end

/-- Settles O22: an update reaches its Tally by `opTallyApply_eq`, its bins by induction over what it lists; a Tally
instruction at the head of the queue sends its update. -/
theorem tallyUpdatesSaturate : Obligations.TallyUpdatesSaturate := by
  unfold Obligations.TallyUpdatesSaturate
  refine ⟨fun s d u rest hq => ?apply, fun s c e rest u hq hop hp hs hu => ?scan,
    fun s c e rest hq hop hp hs => ?counters⟩
  case apply =>
    refine ⟨modDeck s d opTallyApply, rfl, modDeck_onlyDeck s d _, ?_⟩
    rw [deckAt_modDeck, opTallyApply_eq _ u rest hq, setCore_tallies, coreAt_setCore, setCore_tlyQueue, tallyTaken_same]
    exact ⟨rfl, rfl, rfl, rfl, rfl, tallyApply_amax _ u, rfl, tallyApply_bins _ u, endIfIdle_vq _, tallyTaken_other _ u rest⟩
  case scan =>
    exact congrArg done (onDeck_pure s c.deck _ _
      ((completeVecHead_tally _ _ hq hp (.inl hop)).trans (sendTally_scan _ _ hop hs hu)))
  case counters =>
    exact congrArg done (onDeck_pure s c.deck _ _
      ((completeVecHead_tally _ _ hq hp (.inr hop)).trans (sendTally_counters _ _ hop hs)))

end Sys2Proof.Machine
end


section
/-! SETTLED. Mailboxes, locks and the clearing of a context's Tallies (O46). -/
namespace Sys2Proof.Machine
open Sys2Proof

/-! ### MBX_RING (R444, R445) -/

section
variable (s : State) (a : Agent) (m : Nat)

@[simp] theorem modMbx_same (f : Mailbox → Mailbox) :
    mapGet {} (modMbx s m f).host.mbx m = f (mapGet {} s.host.mbx m) := mapGet_set_same _ _ _ _

theorem modMbx_other (f : Mailbox → Mailbox) (j : Nat) (h : j ≠ m) :
    mapGet {} (modMbx s m f).host.mbx j = mapGet {} s.host.mbx j := mapGet_set_other _ _ _ _ _ h

theorem opMbxRing_down (h : mbxDown s m = true) : opMbxRing s a m = emit s (.aborted a) := by
  simp only [opMbxRing, h, if_true]

section
variable (hd : mbxDown s m = false)
include hd

theorem opMbxRing_refused (hs : mbxSender s a m = false) :
    opMbxRing s a m = emit s (.value a (stNotBound.setWidth 64)) := by
  simp only [opMbxRing, hd, hs, Bool.false_eq_true, if_false, Bool.not_false, if_true]

/-- A sender that the mailbox takes finds its queue full, or queues the staged notice. -/
theorem opMbxRing_taken (hs : mbxSender s a m = true) (hv : m < 8 → (deckAt s m).mbxValid = true) :
    opMbxRing s a m =
      if 16 ≤ (mapGet ({} : Mailbox) s.host.mbx m).queue.length then
        emit (modMbx s m (fun b => { b with full := satInc b.full })) (.value a (stPending.setWidth 64))
      else emit (modMbx s m (fun b => { b with queue := b.queue ++ [stagedNotice s a m] })) (.value a (stGood.setWidth 64)) := by
  have hctx : ¬ (m < 8 ∧ (deckAt s m).mbxValid = false) := fun h => Bool.false_ne_true (h.2.symm.trans (hv h.1))
  simp only [opMbxRing, hd, hs, Bool.not_true, Bool.false_eq_true, if_false, if_neg hctx]

end

end

/-! ### MBX_DELIVER (R446) -/

section
variable (s : State) (d : Nat)

/-- The address in deck `d`'s area that its next notice takes. -/
def noticeAddr : Nat := (deckAt s d).mbxBase.toNat + 16 * (mapGet 0 s.host.delivered d % 16)

/-- The 16 bytes of a notice. -/
def noticeCells (q : W64 × W64) : Cells := bytesCells (natBytes 8 q.1.toNat ++ natBytes 8 q.2.toNat)

/-- The module whose mailbox of deck `d` has given up its oldest notice, leaving `rest`. -/
def noticeTaken (rest : List (W64 × W64)) : State :=
  { s with host := { (modMbx s d (fun b => { b with queue := rest })).host with
      delivered := mapSet 0 s.host.delivered d (mapGet 0 s.host.delivered d + 1) } }

theorem noticeTaken_queue (rest : List (W64 × W64)) : (mapGet ({} : Mailbox) (noticeTaken s d rest).host.mbx d).queue = rest :=
  congrArg Mailbox.queue (modMbx_same s d (fun b => { b with queue := rest }))

theorem noticeTaken_delivered (rest : List (W64 × W64)) :
    mapGet 0 (noticeTaken s d rest).host.delivered d = mapGet 0 s.host.delivered d + 1 :=
  mapGet_set_same 0 s.host.delivered d (mapGet 0 s.host.delivered d + 1)

/-- The deck with a notice in its area. -/
def noticeStored (q : W64 × W64) : Deck := memWrite (deckAt s d) (noticeAddr s d) 16 (noticeCells q)

/-- A notice in its area touches nothing of the sync unit, nor which object SYNC names. -/
theorem noticeStored_sync (q : W64 × W64) : (noticeStored s d q).objs = (deckAt s d).objs ∧
    (noticeStored s d q).groups = (deckAt s d).groups ∧ (noticeStored s d q).waiters = (deckAt s d).waiters ∧
    (noticeStored s d q).mbxSync = (deckAt s d).mbxSync := by
  rw [noticeStored, memWrite_frame]
  exact ⟨rfl, rfl, rfl, rfl⟩

/-- The deck with a notice in its area and SYNC signalled by one. -/
def noticeDeck (q : W64 × W64) : Deck :=
  objUpdate (noticeStored s d q) (.signal (noticeStored s d q).mbxSync.toNat 1)

variable {q : W64 × W64} {rest : List (W64 × W64)} (hq : (mapGet ({} : Mailbox) s.host.mbx d).queue = q :: rest)
  (hv : (deckAt s d).mbxValid = true) (hup : syncUp (deckAt s d) = true)
  (ha : objAlloc (deckAt s d) (deckAt s d).mbxSync.toNat = true)
  (hc : objCtx (deckAt s d) (deckAt s d).mbxSync.toNat = (deckAt s d).mbxCtx)
  (hw : objWaited (deckAt s d) (deckAt s d).mbxSync.toNat = false) (hst : memWriteSt (deckAt s d) (noticeAddr s d) 16 = stGood)
  (hh : rangeHeld (deckAt s d) (noticeAddr s d) 16 = false)

include hq hv hup ha hc hw hst hh in
/-- A notice is delivered: its bytes are written, then SYNC is signalled. -/
theorem opMbxDeliver_delivers :
    opMbxDeliver s d = setDeck (setDeck (noticeTaken s d rest) d (noticeStored s d q)) d (noticeDeck s d q) := by
  have hfull : ¬ (deckAt s d).reset = .full := by
    intro h
    simp [syncUp, memUp, h] at hup
  obtain ⟨-, -, hwaiters, hsync⟩ := noticeStored_sync s d q
  have hquiet : objWaited (noticeStored s d q) (noticeStored s d q).mbxSync.toNat = false := by
    rw [hsync, objWaited, hwaiters]
    exact hw
  have hdeck := deckAt_setDeck (noticeTaken s d rest) d (noticeStored s d q)
  have hgo : opMbxDeliver s d = onDeck (setDeck (noticeTaken s d rest) d (noticeStored s d q)) d
      (fun k => settle k [.signal k.mbxSync.toNat 1]) := by
    unfold noticeAddr at hst hh
    simp only [opMbxDeliver, hq, if_neg hfull, hv, hup, hh, ha, hc, hst, Bool.not_false, Bool.and_self, if_true, beq_self_eq_true]
    rfl
  rw [hgo]
  exact onDeck_pure _ d _ _ (hdeck.symm ▸ settle_quiet (noticeStored s d q) _ hquiet)

include ha in
/-- SYNC of a delivered notice counts one more. -/
theorem noticeDeck_count (hv : (objAt (deckAt s d) (deckAt s d).mbxSync.toNat).count.toNat + 1 < 2 ^ 32) :
    (objAt (noticeDeck s d q) (deckAt s d).mbxSync.toNat).count.toNat =
      (objAt (deckAt s d) (deckAt s d).mbxSync.toNat).count.toNat + 1 := by
  obtain ⟨hobjs, hgroups, -, hsync⟩ := noticeStored_sync s d q
  have hat : objAt (noticeStored s d q) (deckAt s d).mbxSync.toNat = objAt (deckAt s d) (deckAt s d).mbxSync.toNat := by
    rw [objAt, hobjs, objAt]
  have halloc : objAlloc (noticeStored s d q) (deckAt s d).mbxSync.toNat = true := by
    rw [objAlloc, groupAt, hgroups]
    exact ha
  rw [noticeDeck, hsync, objCount_signal _ _ _ halloc (by rw [hat]; exact hv), hat, BitVec.toNat_add]
  exact Nat.mod_eq_of_lt hv

include hst in
/-- The bytes of a deck that has taken a notice. -/
theorem cellGet_noticeDeck (y : Nat) :
    cellGet (noticeDeck s d q).mem y =
      if noticeAddr s d ≤ y ∧ y < noticeAddr s d + 16 then cellGet (noticeCells q) (y - noticeAddr s d)
      else cellGet (deckAt s d).mem y := by
  rw [noticeDeck, objUpdate_mem, noticeStored, cellGet_memWrite _ _ _ _ hst]

end

/-! ### LCK_READ and LCK_WRITE (R447, R448) -/

section
variable (s : State) (a : Agent) (n : Nat)

/-- The module whose lock `n` has owner number `o`. -/
def setLock (o : Nat) : State := { s with host := { s.host with locks := mapSet 0 s.host.locks n o } }

theorem setLock_same (o : Nat) : mapGet 0 (setLock s n o).host.locks n = o := mapGet_set_same 0 s.host.locks n o

theorem setLock_other (o j : Nat) (h : j ≠ n) : mapGet 0 (setLock s n o).host.locks j = mapGet 0 s.host.locks j :=
  mapGet_set_other 0 s.host.locks n j o h

theorem opLckRead_closed (h : lockOpen s a n = false) : opLckRead s a n = unsupported s a := by
  simp only [opLckRead, h, Bool.not_false, if_true]

theorem opLckWrite_closed (v : W64) (h : lockOpen s a n = false) : opLckWrite s a n v = unsupported s a := by
  simp only [opLckWrite, h, Bool.not_false, if_true]

section
variable (h : lockOpen s a n = true)
include h

theorem opLckRead_free (ho : mapGet 0 s.host.locks n = 0) :
    opLckRead s a n = emit (setLock s n (ownerNumber s a)) (.value a 0) := by
  simp only [opLckRead, h, Bool.not_true, Bool.false_eq_true, if_false, ho, if_true]
  rfl

theorem opLckRead_owned (ho : mapGet 0 s.host.locks n ≠ 0) :
    opLckRead s a n = emit s (.value a (BitVec.ofNat 64 (mapGet 0 s.host.locks n))) := by
  simp only [opLckRead, h, Bool.not_true, Bool.false_eq_true, if_false, if_neg ho]

theorem opLckWrite_frees (v : W64) (h0 : mapGet 0 s.host.locks n ≠ 0) (ho : mapGet 0 s.host.locks n = ownerNumber s a)
    (hv : v.toNat % 64 = mapGet 0 s.host.locks n) : opLckWrite s a n v = setLock s n 0 := by
  have hb : bits v.toNat 0 6 = mapGet 0 s.host.locks n := (bits_zero _ _).trans hv
  simp only [opLckWrite, h, Bool.not_true, Bool.false_eq_true, if_false, if_pos (And.intro h0 (And.intro ho hb))]
  rfl

/-- A write by another than the owner is counted. -/
theorem opLckWrite_ignored (v : W64) (ho : mapGet 0 s.host.locks n ≠ ownerNumber s a) :
    opLckWrite s a n v = { s with host := { s.host with lckIgnored := satInc s.host.lckIgnored } } := by
  simp only [opLckWrite, h, Bool.not_true, Bool.false_eq_true, if_false, ho, false_and, and_false]

end

end

/-! ### TLY_CLEAR (R226) -/

section
variable (k : Deck) (x : Nat)

/-- The Tallies of every context but `x`. -/
def otherTallies : SMap Tally := k.tallies.filter (fun e => e.1 / 256 != x)

/-- A context's 256 Tallies stand at their reset value once they are cleared. -/
theorem mapGet_otherTallies (i : Nat) (h : i < 256) : mapGet {} (otherTallies k x) (256 * x + i) = {} := by
  have hx : (256 * x + i) / 256 = x := by omega
  rw [otherTallies, mapGet_filter _ _ (fun j => j / 256 != x), hx, bne_self_eq_false, if_neg Bool.false_ne_true]

end

/-- The deck after a write of `v` to TLY.CTL of context `x`. -/
def tlyCleared (k : Deck) (x : BitVec 4) (v : W64) : Deck :=
  { setCtx k x.toNat { ctxAt k x.toNat with
      hbias := v.extractLsb' 8 8, clearing := (ctxAt k x.toNat).clearing || v.getLsbD 0 } with
    tallies := if v.getLsbD 0 then otherTallies k x.toNat else k.tallies }

theorem opTlyClear_writes (s : State) (a : Agent) (d : Nat) (x : BitVec 4) (v : W64) (h : deckWriter s a d = true) :
    opTlyClear s a d x v = modDeck s d (fun k => tlyCleared k x v) := by
  simp only [opTlyClear, h, Bool.not_true, Bool.false_eq_true, if_false]
  refine congrArg (modDeck s d) (funext fun k => ?_)
  cases hv : v.getLsbD 0 <;> simp only [tlyCleared, hv] <;> rfl

theorem ctxAt_tlyCleared (k : Deck) (x : BitVec 4) (v : W64) :
    ctxAt (tlyCleared k x v) x.toNat = { ctxAt k x.toNat with
      hbias := v.extractLsb' 8 8, clearing := (ctxAt k x.toNat).clearing || v.getLsbD 0 } := ctxAt_setCtx k _ _

/-- Settles O46: each command by the lemma about its operation, case by case. -/
theorem mailboxesLocksAndTallyClear : Obligations.MailboxesLocksAndTallyClear := by
  unfold Obligations.MailboxesLocksAndTallyClear
  refine fun s a => ⟨fun m => ⟨fun h => ?down, fun hd hs => ?refused, fun hd hs hv => ⟨fun hq => ?queued, fun hq => ?full⟩⟩,
    fun d q rest hq hv hup ha hc hw hst hh hn => ?deliver,
    fun n => ⟨fun h => ⟨?read, fun v h0 ho hv => ?frees, fun v ho => ?ignored⟩, fun h => ?closed⟩,
    fun d x v => ⟨fun h => ?clear, ?cleared⟩⟩
  case down => exact congrArg done (opMbxRing_down s a m h)
  case refused => exact congrArg done (opMbxRing_refused s a m hd hs)
  case queued =>
    exact ⟨_, congrArg done ((opMbxRing_taken s a m hd hs hv).trans (if_neg (Nat.not_le.2 hq))), rfl,
      congrArg Mailbox.queue (modMbx_same s m _), modMbx_other s m _⟩
  case full =>
    have hm := modMbx_same s m (fun b => { b with full := satInc b.full })
    exact ⟨_, congrArg done ((opMbxRing_taken s a m hd hs hv).trans (if_pos hq)), rfl,
      (congrArg Mailbox.queue hm :), (congrArg Mailbox.full hm :)⟩
  case deliver =>
    refine ⟨_, congrArg done (opMbxDeliver_delivers s d hq hv hup ha hc hw hst hh), noticeTaken_queue s d rest,
      noticeTaken_delivered s d rest, ?_, fun y => ?_⟩
    · rw [deckAt_setDeck]
      exact noticeDeck_count s d ha hn
    · rw [deckByte, deckAt_setDeck]
      exact cellGet_noticeDeck s d hst y
  case read =>
    by_cases ho : mapGet 0 s.host.locks n = 0
    · refine ⟨_, congrArg done (opLckRead_free s a n h ho), ?_, ?_, setLock_other s n _⟩
      · rw [ho]
        rfl
      · rw [if_pos ho]
        exact setLock_same s n _
    · exact ⟨_, congrArg done (opLckRead_owned s a n h ho), rfl, (if_neg ho).symm, fun j hj => rfl⟩
  case frees => exact ⟨setLock s n 0, congrArg done (opLckWrite_frees s a n h v h0 ho hv), setLock_same s n 0, rfl⟩
  case ignored => exact congrArg done (opLckWrite_ignored s a n h v ho)
  case closed =>
    exact ⟨congrArg done (opLckRead_closed s a n h), fun v => congrArg done (opLckWrite_closed s a n v h)⟩
  case clear =>
    refine ⟨_, congrArg done (opTlyClear_writes s a d x v h), modDeck_onlyDeck s d _, ?_⟩
    beta_reduce
    rw [deckAt_modDeck, ctxAt_tlyCleared]
    refine ⟨rfl, fun hon => ⟨by simp only [hon, Bool.or_true], fun i hi => ?_⟩, fun hoff => ?_⟩
    · rw [show (tlyCleared (deckAt s d) x v).tallies = otherTallies (deckAt s d) x.toNat from if_pos hon]
      exact mapGet_otherTallies _ _ i hi
    · exact ⟨if_neg (by rw [hoff]; decide), by simp only [hoff, Bool.or_false]⟩
  case cleared =>
    refine ⟨opTlyClearDone s d x, rfl, modDeck_onlyDeck s d _, ?_⟩
    beta_reduce
    rw [opTlyClearDone, deckAt_modDeck, ctxAt_setCtx]
    exact ⟨rfl, rfl⟩

end Sys2Proof.Machine
end


section
/-! SETTLED. Ganged matrix instructions start together or fault (O24). -/
namespace Sys2Proof.Machine
open Sys2Proof

/-! ### Changing each core of a list -/

theorem coreAt_modCore (d : Deck) (i j : Nat) (f : Core → Core) :
    coreAt (modCore d i f) j = if j = i then f (coreAt d j) else coreAt d j := by
  split
  · next h => rw [h, modCore, coreAt_setCore]
  · next h => exact coreAt_setCore_other d i j _ h

/-- A change of each core of a list without repetition reaches those cores, once each. -/
theorem coreAt_foldl_modCore (f : Core → Core) (is : List Nat) (h : is.Nodup) (d : Deck) (j : Nat) :
    coreAt (is.foldl (fun d i => modCore d i f) d) j = if j ∈ is then f (coreAt d j) else coreAt d j := by
  induction is generalizing d with
  | nil => rfl
  | cons i rest ih =>
    obtain ⟨hi, hrest⟩ := List.nodup_cons.1 h
    rw [List.foldl_cons, ih hrest, coreAt_modCore]
    by_cases hj : j = i
    · subst hj
      simp [hi]
    · simp [hj]

theorem penCores_nodup (pen : Nat) : (penCores pen).Nodup :=
  List.nodup_range.map fun a b (h : 16 * pen + a = 16 * pen + b) => Nat.add_left_cancel h

theorem penCores_length (pen : Nat) : (penCores pen).length = 16 := rfl

/-! ### The head of the matrix queue -/

/-- What can start is the head of the queue. -/
theorem startable_head {c : Core} {e : MatEntry} (h : startable c = some e) : ∃ rest, c.mq = e :: rest := by
  unfold startable at h
  split at h
  · exact absurd h nofun
  · next a rest hq =>
    split at h
    · exact absurd h nofun
    · exact ⟨rest, Option.some.inj h ▸ hq⟩

theorem gangHead_cons {c : Core} (h : gangHead c = true) : ∃ e rest, c.mq = e :: rest := by
  unfold gangHead at h
  split at h
  · exact absurd h Bool.false_ne_true
  · next e rest hq => exact ⟨e, rest, hq⟩

theorem markStarted_head {c : Core} {e : MatEntry} {rest : List MatEntry} (hq : c.mq = e :: rest)
    (lead : Option (List (List Nat) × List Nat)) :
    markStarted c lead = { c with mq := { e with started := true, lead := lead } :: rest, matPc := e.pc } := by
  simp only [markStarted, hq]

/-! ### GANG_RENDEZVOUS (R241 to R243) -/

/-- The start of a core's ganged head, with the rows of the lead core for an MMUL (R242). -/
def gangStart (rows : Option (List (List Nat) × List Nat)) (c : Core) : Core :=
  markStarted c (match c.mq with
    | [] => none
    | e :: _ => if e.op = 0xA1 then rows else none)

/-- Instructions that all have the bits `w` have those of the first one. -/
theorem all_low_eq_head {es : List MatEntry} {w : BitVec 32} (h : ∀ e ∈ es, e.low = w) :
    es.all (fun e => some e.low == es[0]?.map (·.low)) = true := by
  refine List.all_eq_true.2 fun e he => beq_iff_eq.2 ?_
  cases es with
  | nil => exact absurd he List.not_mem_nil
  | cons a rest => exact congrArg some ((h e he).trans (h a List.mem_cons_self).symm)

/-- A rendezvous of instructions with the same bits whose formats pair starts each of them. -/
theorem opGang_starts (d : Deck) (pen : Nat) (w : BitVec 32)
    (h : ∀ i ∈ penCores pen, ∃ e, startable (coreAt d i) = some e ∧ e.gang = true ∧ e.low = w ∧ startOk (coreAt d i) e = true) :
    ∃ rows, opGang d pen = (penCores pen).foldl (fun d i => modCore d i (gangStart rows)) d := by
  have hall : ((penCores pen).map fun i => (startable (coreAt d i)).filter (·.gang)).all (·.isSome) = true := by
    rw [List.all_map, List.all_eq_true]
    intro i hi
    obtain ⟨e, hst, hg, -, -⟩ := h i hi
    simp [hst, hg]
  have hlow : ∀ e ∈ ((penCores pen).map fun i => (startable (coreAt d i)).filter (·.gang)).filterMap id, e.low = w := by
    intro e he
    obtain ⟨o, ho, hoe⟩ := List.mem_filterMap.1 he
    obtain ⟨i, hi, rfl⟩ := List.mem_map.1 ho
    obtain ⟨e', hst, -, hw, -⟩ := h i hi
    cases hst.symm.trans (Option.filter_eq_some_iff.1 hoe).1
    exact hw
  have hpair : (penCores pen).all (fun i => match (coreAt d i).mq with
      | [] => false
      | e :: _ => startOk (coreAt d i) e) = true := by
    refine List.all_eq_true.2 fun i hi => ?_
    obtain ⟨e, hst, -, -, hok⟩ := h i hi
    obtain ⟨rest, hq⟩ := startable_head hst
    simpa only [hq] using hok
  exact ⟨_, (if_pos hall).trans (if_pos (Bool.and_eq_true_iff.2 ⟨all_low_eq_head hlow, hpair⟩))⟩

/-- A started head changes no register and records no fault. -/
theorem gangStart_core {c : Core} {e : MatEntry} {rest : List MatEntry} (hq : c.mq = e :: rest)
    (rows : Option (List (List Nat) × List Nat)) :
    (∃ e', (gangStart rows c).mq = e' :: rest ∧ e'.started = true) ∧ sameRegs c (gangStart rows c) ∧
      (gangStart rows c).fault = c.fault := by
  rw [gangStart, markStarted_head hq]
  exact ⟨⟨_, rfl, rfl⟩, sameRegs_refl c, rfl⟩

/-! ### The faults of a gang (R244) -/

/-- CORE_FAULT after a BAD_PARAM at the matrix engine with PC `pc`: the first one stays (R156). -/
def gangFaulted (f : CoreFault) (pc : BitVec 13) : CoreFault :=
  if f.valid then f else { status := stBadParam, pc := pc, engine := 2, valid := true }

theorem gangFaulted_twice (f : CoreFault) (pc : BitVec 13) : gangFaulted (gangFaulted f pc) pc = gangFaulted f pc := by
  by_cases h : f.valid = true <;> simp [gangFaulted, h]

/-- A fault of one core leaves another core's fault, and takes from its matrix queue at most what waits for a
rendezvous. -/
theorem coreFault_core_other (d : Deck) (i j : Nat) (st : Status) (e : BitVec 2) (pc : BitVec 13) (h : j ≠ i) :
    (coreAt (coreFault d i st e pc) j).fault = (coreAt d j).fault ∧
      (coreAt (coreFault d i st e pc) j).mq.Sublist (coreAt d j).mq := by
  have hstop : ∀ (d' : Deck) (is : List Nat), coreAt d' j = coreAt d j →
      (coreAt (stopCores d' is) j).fault = (coreAt d j).fault ∧ (coreAt (stopCores d' is) j).mq.Sublist (coreAt d j).mq := by
    intro d' is hd
    obtain ⟨-, hfault, -, -, hmq⟩ := stopCores_core is d' j
    rw [hd] at hfault hmq
    exact ⟨hfault, hmq⟩
  have hset := fun c => coreAt_setCore_other d i j c h
  unfold coreFault
  dsimp only
  split
  · exact hstop _ _ (hset _)
  · split
    · exact hstop _ _ (hset _)
    · exact hstop _ _ (hset _)

theorem settleEnd_core_other (d : Deck) (i j : Nat) (h : j ≠ i) : coreAt (settleEnd d i) j = coreAt d j := by
  unfold settleEnd
  dsimp only
  split
  · exact coreAt_setCore_other d i j _ h
  · rfl

/-- The fault of one core of a gang with its instruction's PC. -/
def gangFault (d : Deck) (p : Nat × BitVec 13) : Deck := settleEnd (coreFault d p.1 stBadParam 2 p.2) p.1

theorem gangFault_core (d : Deck) (p : Nat × BitVec 13) (j : Nat) :
    (coreAt (gangFault d p) j).fault = (if j = p.1 then gangFaulted (coreAt d j).fault p.2 else (coreAt d j).fault) ∧
      (coreAt (gangFault d p) j).mq.Sublist (coreAt d j).mq := by
  by_cases hj : j = p.1
  · obtain ⟨-, hfault, -, -, hmq⟩ := coreFault_core d p.1 stBadParam 2 p.2
    obtain ⟨-, hfault', hmq'⟩ := settleEnd_core (coreFault d p.1 stBadParam 2 p.2) p.1
    rw [if_pos hj, hj]
    exact ⟨hfault'.trans hfault, hmq'.symm ▸ hmq⟩
  · rw [if_neg hj, gangFault, settleEnd_core_other _ _ _ hj]
    exact coreFault_core_other d p.1 j _ _ _ hj

/-- After the faults of a list, a core of the list holds its own and the others record nothing; `pc` is the PC that the
list gives core `j`. -/
theorem foldl_gangFault_core (ps : List (Nat × BitVec 13)) (d : Deck) (j : Nat) (pc : BitVec 13)
    (hpc : ∀ p ∈ ps, j = p.1 → p.2 = pc) :
    (coreAt (ps.foldl gangFault d) j).fault =
        (if j ∈ ps.map Prod.fst then gangFaulted (coreAt d j).fault pc else (coreAt d j).fault) ∧
      (coreAt (ps.foldl gangFault d) j).mq.Sublist (coreAt d j).mq := by
  induction ps generalizing d with
  | nil => exact ⟨rfl, List.Sublist.refl _⟩
  | cons p rest ih =>
    obtain ⟨hfault, hmq⟩ := gangFault_core d p j
    obtain ⟨ihfault, ihmq⟩ := ih (gangFault d p) fun q hq => hpc q (List.mem_cons_of_mem _ hq)
    refine ⟨?_, ihmq.trans hmq⟩
    rw [List.foldl_cons, ihfault, hfault]
    by_cases hj : j = p.1
    · simp [← hj, hpc p List.mem_cons_self hj, gangFaulted_twice]
    · simp [hj]

/-! ### GANG_TIMEOUT (R244) -/

/-- The cores of a pen that hold a waiting ganged instruction at the head. -/
def gangHeld (d : Deck) (pen : Nat) : List Nat := (penCores pen).filter (fun i => gangHead (coreAt d i))

/-- Those cores with the PCs of the instructions. -/
def gangPcs (d : Deck) (pen : Nat) : List (Nat × BitVec 13) :=
  (gangHeld d pen).filterMap (fun i => (coreAt d i).mq.head?.map (fun e => (i, e.pc)))

section
variable {d : Deck} {pen : Nat}

theorem mem_gangHeld {j : Nat} : j ∈ gangHeld d pen ↔ j ∈ penCores pen ∧ gangHead (coreAt d j) = true := List.mem_filter

theorem mem_gangPcs {p : Nat × BitVec 13} :
    p ∈ gangPcs d pen ↔ p.1 ∈ gangHeld d pen ∧ ∃ e, (coreAt d p.1).mq.head? = some e ∧ e.pc = p.2 := by
  obtain ⟨j, pc⟩ := p
  simp only [gangPcs, List.mem_filterMap, Option.map_eq_some_iff, Prod.mk.injEq]
  constructor
  · rintro ⟨i, hi, e, he, rfl, rfl⟩
    exact ⟨hi, e, he, rfl⟩
  · rintro ⟨hj, e, he, rfl⟩
    exact ⟨j, hj, e, he, rfl, rfl⟩

/-- Each held core has a head, so it is on the list of PCs. -/
theorem gangPcs_cores {j : Nat} : j ∈ (gangPcs d pen).map Prod.fst ↔ j ∈ gangHeld d pen := by
  constructor
  · intro h
    obtain ⟨p, hp, rfl⟩ := List.mem_map.1 h
    exact (mem_gangPcs.1 hp).1
  · intro h
    obtain ⟨e, rest, hq⟩ := gangHead_cons (mem_gangHeld.1 h).2
    exact List.mem_map.2 ⟨(j, e.pc), mem_gangPcs.2 ⟨h, e, congrArg List.head? hq, rfl⟩, rfl⟩

/-- Where one core waits and another does not, the held instructions leave their queues and their cores fault. -/
theorem opGangTimeout_faults (hone : ∃ i ∈ penCores pen, gangHead (coreAt d i) = true ∧ (startable (coreAt d i)).isSome = true)
    (hnot : ∃ i ∈ penCores pen, ¬ (gangHead (coreAt d i) = true ∧ (startable (coreAt d i)).isSome = true)) :
    opGangTimeout d pen =
      (gangPcs d pen).foldl gangFault ((gangHeld d pen).foldl (fun d i => modCore d i dropMat) d) := by
  have hsome : ((gangHeld d pen).filter fun i => (startable (coreAt d i)).isSome).isEmpty = false := by
    obtain ⟨i, hi, hg, hst⟩ := hone
    exact List.isEmpty_eq_false_iff_exists_mem.2 ⟨i, List.mem_filter.2 ⟨mem_gangHeld.2 ⟨hi, hg⟩, hst⟩⟩
  have hfew : ((gangHeld d pen).filter fun i => (startable (coreAt d i)).isSome).length ≠ 16 := by
    obtain ⟨i, hi, hw⟩ := hnot
    rw [gangHeld, List.filter_filter, ← penCores_length pen]
    refine (List.length_filter_lt_length_iff_exists.2 ⟨i, hi, fun hb => hw ?_⟩).ne
    exact (Bool.and_eq_true_iff.1 hb).symm
  refine if_neg fun h => ?_
  rcases Bool.or_eq_true_iff.1 h with h | h
  · exact Bool.false_ne_true (hsome.symm.trans h)
  · exact hfew (of_decide_eq_true h)

end

/-- What the faults and the dropped heads of a time-out leave in core `j`. -/
theorem gangTimeout_core (d : Deck) (pen j : Nat) (pc : BitVec 13)
    (hpc : ∀ e, gangHead (coreAt d j) = true → (coreAt d j).mq.head? = some e → e.pc = pc) :
    let k := coreAt d j
    let k' := coreAt ((gangPcs d pen).foldl gangFault ((gangHeld d pen).foldl (fun d i => modCore d i dropMat) d)) j
    k'.fault = (if j ∈ gangHeld d pen then gangFaulted k.fault pc else k.fault) ∧
      k'.mq.Sublist (if j ∈ gangHeld d pen then k.mq.drop 1 else k.mq) := by
  have hps : ∀ p ∈ gangPcs d pen, j = p.1 → p.2 = pc := by
    rintro p hp rfl
    obtain ⟨hheld, e, he, hep⟩ := mem_gangPcs.1 hp
    exact hep.symm.trans (hpc e (mem_gangHeld.1 hheld).2 he)
  have hdrop := coreAt_foldl_modCore dropMat (gangHeld d pen) ((penCores_nodup pen).filter _) d j
  obtain ⟨hfault, hmq⟩ :=
    foldl_gangFault_core (gangPcs d pen) ((gangHeld d pen).foldl (fun d i => modCore d i dropMat) d) j pc hps
  simp only [hdrop, gangPcs_cores] at hfault hmq
  by_cases hj : j ∈ gangHeld d pen
  · simp only [if_pos hj] at hfault hmq ⊢
    exact ⟨hfault, hmq⟩
  · simp only [if_neg hj] at hfault hmq ⊢
    exact ⟨hfault, hmq⟩

/-- Settles O24: a rendezvous marks each head started; a time-out drops the held heads and faults their cores in turn. -/
theorem gangsStartTogetherOrFault : Obligations.GangsStartTogetherOrFault := by
  unfold Obligations.GangsStartTogetherOrFault
  intro s d pen at_ waits
  refine ⟨fun ⟨w, h⟩ => ⟨_, rfl, modDeck_onlyDeck s d _, fun i hi => ?start⟩,
    fun hone hnot => ⟨_, rfl, modDeck_onlyDeck s d _, fun i hi => ?fault⟩⟩
  case start =>
    obtain ⟨rows, hgang⟩ := opGang_starts (deckAt s d) pen w h
    obtain ⟨e, hst, -, -, -⟩ := h i hi
    obtain ⟨rest, hq⟩ := startable_head hst
    obtain ⟨⟨e', hmq, hstarted⟩, hregs, hfault⟩ := gangStart_core hq rows
    rw [deckAt_modDeck, hgang, coreAt_foldl_modCore _ _ (penCores_nodup pen), if_pos hi]
    exact ⟨⟨e', rest, hmq, hstarted, by rw [hq]; rfl⟩, hregs, hfault⟩
  case fault =>
    rw [deckAt_modDeck, opGangTimeout_faults hone hnot]
    refine ⟨fun e rest hg hq => ?held, fun hg => ?other⟩
    case held =>
      have hhead : ∀ e', gangHead (at_ i) = true → (at_ i).mq.head? = some e' → e'.pc = e.pc := by
        intro e' _ he'
        rw [hq] at he'
        cases he'
        rfl
      obtain ⟨hfault, hmq⟩ := gangTimeout_core (deckAt s d) pen i e.pc hhead
      have hheld := mem_gangHeld.2 ⟨hi, hg⟩
      rw [if_pos hheld] at hfault hmq
      exact ⟨by rw [hq] at hmq; exact hmq, hfault⟩
    case other =>
      obtain ⟨hfault, -⟩ := gangTimeout_core (deckAt s d) pen i 0 fun e hg' => absurd (hg.symm.trans hg') Bool.false_ne_true
      exact hfault.trans (if_neg fun hheld => Bool.false_ne_true (hg.symm.trans (mem_gangHeld.1 hheld).2))

end Sys2Proof.Machine
end


section
/-! SETTLED. RDMA requests reach their region or draw a NAK; errors of queue pairs, congestion and pause frames (O47). -/
namespace Sys2Proof.Machine
open Sys2Proof

/-! ### Queue pairs (R450, R453) -/

theorem liveQp_some {s : State} {n : Nat} {q : Qp} (h : liveQp s n = some q) :
    mapGet none s.host.qps n = some q ∧ q.err = false := by
  unfold liveQp at h
  split at h
  · obtain ⟨q', hq', h⟩ := Option.bind_eq_some_iff.1 h
    split at h
    · simp at h
    · next he =>
      cases h
      exact ⟨hq', Bool.eq_false_iff.2 he⟩
  · simp at h

/-- A queue pair in error takes no traffic. -/
theorem liveQp_of_err {s : State} {n : Nat} {q : Qp} (h : mapGet none s.host.qps n = some q) (he : q.err = true) :
    liveQp s n = none := by
  simp [liveQp, h, he]

/-- The module once queue pair `n` is in error, before the snapshots that ship on it fail. -/
def qpFailed (s : State) (n : Nat) (q : Qp) : State :=
  modLd { s with host := { s.host with qps := mapSet none s.host.qps n (some { q with err := true }) } } (qpLd q)
    (fun l => { l with qpErr := satInc l.qpErr })

theorem opSnapShipped_decks (s : State) (d : Nat) (x : BitVec 4) (ok : Bool) :
    opSnapShipped s d x ok = { s with decks := (opSnapShipped s d x ok).decks } := by
  simp only [opSnapShipped]
  split <;> rfl

/-- Beside the queue pair and the count of its LD, an error changes decks alone: the snapshots that ship on it fail. -/
theorem qpError_eq {s : State} {n : Nat} {q : Qp} (h : mapGet none s.host.qps n = some q) (he : q.err = false) :
    qpError s n = { qpFailed s n q with decks := (qpError s n).decks } := by
  simp only [qpError, h, he, Bool.false_eq_true, if_false]
  refine List.foldlRecOn (motive := fun t : State => t = { qpFailed s n q with decks := t.decks }) _ _ rfl (fun t ht d _ => ?_)
  refine List.foldlRecOn (motive := fun t : State => t = { qpFailed s n q with decks := t.decks }) _ _ ht (fun t ht e _ => ?_)
  split
  · split
    · rw [opSnapShipped_decks, ht]
    · exact ht
  · exact ht

/-- Queue pair `n`, which was `q`, is in error. -/
theorem qpError_err {s : State} {n : Nat} {q : Qp} (h : mapGet none s.host.qps n = some q) (he : q.err = false) :
    mapGet none (qpError s n).host.qps n = some { q with err := true } := by
  rw [qpError_eq h he]
  exact mapGet_set_same none s.host.qps n (some { q with err := true })

theorem qpError_out {s : State} {n : Nat} {q : Qp} (h : mapGet none s.host.qps n = some q) (he : q.err = false) :
    (qpError s n).out = s.out := by
  rw [qpError_eq h he]
  rfl

/-- A NAK leaves the module and is counted, and nothing is written. -/
def nakSent (s t : State) (n : Nat) (q : Qp) (code : Nat) : Prop :=
  t.out = .rdmaNak n code :: s.out ∧ t.decks = s.decks ∧ (ldAt t (qpLd q)).nakSent = satInc (ldAt s (qpLd q)).nakSent

theorem nakSent_sendNak (s : State) (n : Nat) (q : Qp) (code : Nat) : nakSent s (sendNak s n q code) n q code := by
  refine ⟨rfl, rfl, ?_⟩
  rw [sendNak, ldAt_emit, ldAt_modLd]

/-- A NAK before the queue pair's error. -/
theorem sendNak_then_error {s s' : State} {n : Nat} {q : Qp} (hq : liveQp s n = some q) (hs : s' = { s with decks := s'.decks }) :
    (qpError (sendNak s' n q 2) n).out = .rdmaNak n 2 :: s.out ∧
      mapGet none (qpError (sendNak s' n q 2) n).host.qps n = some { q with err := true } := by
  obtain ⟨hget, he⟩ := liveQp_some hq
  have hget' : mapGet none (sendNak s' n q 2).host.qps n = some q := by
    rw [hs]
    exact hget
  refine ⟨?_, qpError_err hget' he⟩
  rw [qpError_out hget' he, hs]
  rfl

/-! ### Requests that the region refuses (R451) -/

section
variable {s : State} {n : Nat} {q : Qp} {rkey : BitVec 32} {addr : Nat} (hq : liveQp s n = some q)
include hq

theorem rdmaHeld_refused {len : Nat} (hr : regionFor s q rkey addr len 0 = none) : rdmaHeld s n rkey addr len 0 = false := by
  simp [rdmaHeld, hq, hr]

theorem rdmaStore_refused {bs : List Byte} (hr : regionFor s q rkey addr bs.length 0 = none) (imm : Bool) (errs : List SectorErr) :
    rdmaStore s n rkey addr bs imm errs = (none, sendNak s n q 1) := by
  simp only [rdmaStore, hq, hr]

theorem opRdmaWrite_refused {bs : List Byte} (hr : regionFor s q rkey addr bs.length 0 = none) :
    opRdmaWrite s n rkey addr bs [] = sendNak s n q 1 := by
  rw [opRdmaWrite, rdmaHeld_refused hq hr, rdmaStore_refused hq hr]
  rfl

theorem opRdmaImm_refused {bs : List Byte} (hr : regionFor s q rkey addr bs.length 0 = none) (imm : BitVec 32) :
    opRdmaImm s n rkey addr bs imm [] = sendNak s n q 1 := by
  rw [opRdmaImm, rdmaHeld_refused hq hr, rdmaStore_refused hq hr]
  rfl

theorem opRdmaRead_refused {len : Nat} (hr : regionFor s q rkey addr len 1 = none) :
    opRdmaRead s n rkey addr len [] = sendNak s n q 1 := by
  simp only [opRdmaRead, hq, hr]

end

/-! ### Requests that read (R301, R451) -/

section
variable {s : State} {n : Nat} {q : Qp} {rkey : BitVec 32} {addr len : Nat} {r : Region} (hq : liveQp s n = some q)
  (hr : regionFor s q rkey addr len 1 = some r) (hu : memUp (deckAt s r.deck) = true)
  (hh : rangeHeld (deckAt s r.deck) addr len = false) (hl : (deckAt s r.deck).latent = [])
include hq hr hu hh hl

/-- A read that ECC finds nothing in answers the bytes; self-refresh may have ended. -/
theorem opRdmaRead_some {m : Cells} (hm : memRead (deckAt s r.deck) addr len = some m) :
    opRdmaRead s n rkey addr len [] = emit (setDeck s r.deck (touch (deckAt s r.deck) addr len)) (.rdmaData n m) := by
  have hm' := (memRead_frame (touch_frame (deckAt s r.deck) addr len) addr len).trans hm
  simp only [opRdmaRead, hq, hr, hu, hh, Bool.not_true, Bool.false_eq_true, if_false, onDeck_eccRange_nil _ _ _ _ _ hl,
    deckAt_setDeck, hm']

theorem opRdmaRead_poison (hm : memRead (deckAt s r.deck) addr len = none) :
    opRdmaRead s n rkey addr len [] = qpError (sendNak (setDeck s r.deck (touch (deckAt s r.deck) addr len)) n q 2) n := by
  have hm' := (memRead_frame (touch_frame (deckAt s r.deck) addr len) addr len).trans hm
  simp only [opRdmaRead, hq, hr, hu, hh, Bool.not_true, Bool.false_eq_true, if_false, onDeck_eccRange_nil _ _ _ _ _ hl,
    deckAt_setDeck, hm']

end

/-! ### Requests that write (R282, R302, R316, R330, R451) -/

/-- The module once ECC has read the sectors that a write covers in part. -/
def edgesRead (s : State) (d addr n : Nat) : State := onDeck s d (eccEdges (hallNs s) addr n [])

/-- The module with the bytes of a write stored, as far as deck `d` takes them. -/
def bytesStored (s : State) (d addr : Nat) (bs : List Byte) : State :=
  setDeck (edgesRead s d addr bs.length) d (memWritePartial (deckAt (edgesRead s d addr bs.length) d) addr bs).1

/-- A write that touches a closed master region is counted in HOLD.DROP. -/
def gateDropped (s : State) (d : Nat) : State := modDeck s d (fun k => { k with gateDrop := satInc k.gateDrop })

section
variable {s : State} {d addr : Nat} {bs : List Byte} (hl : (deckAt s d).latent = [])
include hl

theorem bytesStored_decks : bytesStored s d addr bs = { s with decks := (bytesStored s d addr bs).decks } := by
  have ht := touched_eccEdges s d (hallNs s) addr bs.length hl
  rw [bytesStored, setDeck, edgesRead, ht.1]

/-- Without poison the deck takes the whole write; self-refresh may have ended. -/
theorem deckAt_bytesStored (hb : (deckAt s d).memBad = []) : ∃ k, stackFrame (deckAt s d) k ∧
    deckAt (bytesStored s d addr bs) d = memWrite k addr bs.length (bytesCells bs) := by
  have ht := (touched_eccEdges s d (hallNs s) addr bs.length hl).2 d
  refine ⟨_, ht, ?_⟩
  rw [bytesStored, deckAt_setDeck, edgesRead, memWritePartial_clean _ _ _ ((memBad_of_stackFrame ht).trans hb)]

/-- A write stores in its own deck alone. -/
theorem bytesStored_onlyDeck (o : Output) :
    let t := emit (bytesStored s d addr bs) o
    onlyDeck { s with out := t.out } t d := by
  obtain ⟨k, hk, -⟩ := eccEdges_nil (hallNs s) addr bs.length (deckAt s d) hl
  refine ⟨?_, fun e he => ?_⟩
  · rw [bytesStored_decks hl]
    rfl
  · rw [deckAt_emit, bytesStored, deckAt_setDeck_other _ _ _ _ he, edgesRead, onDeck_pure s d _ k hk, deckAt_setDeck_other _ _ _ _ he]
    rfl

/-- Without poison or dead pages the bytes of the write stand in its deck, and every other byte as before. -/
theorem deckByte_bytesStored (hb : (deckAt s d).memBad = []) (hw : memWriteSt (deckAt s d) addr bs.length = stGood) (x : Nat) :
    deckByte (bytesStored s d addr bs) d x = if addr ≤ x ∧ x < addr + bs.length then bs.getD (x - addr) 0 else deckByte s d x := by
  obtain ⟨k, hk, hd⟩ := deckAt_bytesStored (addr := addr) (bs := bs) hl hb
  rw [deckByte, hd, cellGet_memWrite _ _ _ _ ((memWriteSt_frame hk _ _).trans hw), cellGet_bytesCells, mem_of_stackFrame hk]
  rfl

end

section
variable {s : State} {n : Nat} {q : Qp} {rkey : BitVec 32} {addr : Nat} {bs : List Byte} {r : Region}
  (hq : liveQp s n = some q) (hr : regionFor s q rkey addr bs.length 0 = some r)
include hq hr

theorem rdmaStore_gated (hg : gateRefuses (deckAt s r.deck) addr bs.length = true) :
    rdmaStore s n rkey addr bs false [] =
      (none, sendNak (gateDropped s r.deck) n q 1) := by
  simp only [rdmaStore, hq, hr, hg, Bool.false_eq_true, false_and, if_false, if_true]
  rfl

variable (hl : (deckAt s r.deck).latent = []) (hg : gateRefuses (deckAt s r.deck) addr bs.length = false)
  (hu : memUp (deckAt s r.deck) = true)
include hl hg hu

/-- A write that the gate lets through is acknowledged where the deck takes every byte; else the queue pair is in error. -/
theorem rdmaStore_open (imm : Bool) (hi : imm = true → r.access.getLsbD 2 = true) :
    rdmaStore s n rkey addr bs imm [] =
      if (memWritePartial (deckAt (edgesRead s r.deck addr bs.length) r.deck) addr bs).2 ||
        memWriteSt (deckAt s r.deck) addr bs.length != stGood
      then (none, qpError (sendNak (bytesStored s r.deck addr bs) n q 2) n)
      else (some r, emit (bytesStored s r.deck addr bs) (.rdmaAck n)) := by
  have hw := memWriteSt_frame ((touched_eccEdges s r.deck (hallNs s) addr bs.length hl).2 r.deck) addr bs.length
  have himm : ¬ (imm = true ∧ r.access.getLsbD 2 = false) := fun h => by
    rw [hi h.1] at h
    exact absurd h.2 (by decide)
  simp only [rdmaStore, hq, hr, hg, hu, Bool.false_eq_true, if_false, Bool.not_true, if_neg himm, ← hw]
  rfl

theorem rdmaStore_stored (hb : (deckAt s r.deck).memBad = []) (hw : memWriteSt (deckAt s r.deck) addr bs.length = stGood)
    (imm : Bool) (hi : imm = true → r.access.getLsbD 2 = true) :
    rdmaStore s n rkey addr bs imm [] = (some r, emit (bytesStored s r.deck addr bs) (.rdmaAck n)) := by
  have ht := (touched_eccEdges s r.deck (hallNs s) addr bs.length hl).2 r.deck
  have hwhole : (memWritePartial (deckAt (edgesRead s r.deck addr bs.length) r.deck) addr bs).2 = false :=
    memWritePartial_whole _ _ _ ((memBad_of_stackFrame ht).trans hb)
  rw [rdmaStore_open hq hr hl hg hu imm hi, hwhole, hw]
  rfl

theorem rdmaStore_discarded (hw : memWriteSt (deckAt s r.deck) addr bs.length ≠ stGood) :
    rdmaStore s n rkey addr bs false [] = (none, qpError (sendNak (bytesStored s r.deck addr bs) n q 2) n) := by
  rw [rdmaStore_open hq hr hl hg hu false (by simp), if_pos]
  rw [bne_iff_ne.2 hw, Bool.or_true]

end

/-- Storing bytes leaves all of the deck but its memory, the poison and errors that stand there, and self-refresh. -/
theorem memFrame_bytesStored {s : State} {d addr : Nat} {bs : List Byte} (hl : (deckAt s d).latent = [])
    (hb : (deckAt s d).memBad = []) : memFrame (deckAt s d) (deckAt (bytesStored s d addr bs) d) := by
  obtain ⟨k, hk, hd⟩ := deckAt_bytesStored (addr := addr) (bs := bs) hl hb
  rw [memFrame, hd, memWrite_frame, hk.1]

section
variable {d d' : Deck} (h : memFrame d d') (o : Nat)
include h

theorem syncUp_memFrame : syncUp d' = syncUp d := by
  rw [h]
  rfl

theorem objAlloc_memFrame : objAlloc d' o = objAlloc d o := by
  rw [h]
  rfl

theorem objCtx_memFrame : objCtx d' o = objCtx d o := by
  rw [h]
  rfl

theorem objWaited_memFrame : objWaited d' o = objWaited d o := by
  rw [h]
  rfl

theorem objAt_memFrame : objAt d' o = objAt d o := by
  rw [h]
  rfl

end

/-! ### The signal of a write with Immediate (R452) -/

section
variable {s s1 : State} {n : Nat} {rkey : BitVec 32} {addr : Nat} {bs : List Byte} {r : Region} {imm : BitVec 32}
  (hh : rdmaHeld s n rkey addr bs.length 0 = false) (hs : rdmaStore s n rkey addr bs true [] = (some r, s1))
include hh hs

theorem opRdmaImm_signals (hu : syncUp (deckAt s1 r.deck) = true) (ha : objAlloc (deckAt s1 r.deck) (imm.toNat % 4096) = true)
    (hc : objCtx (deckAt s1 r.deck) (imm.toNat % 4096) = r.ctx) (hw : objWaited (deckAt s1 r.deck) (imm.toNat % 4096) = false) :
    opRdmaImm s n rkey addr bs imm [] = setDeck s1 r.deck (objUpdate (deckAt s1 r.deck)
      (.signal (imm.toNat % 4096) (BitVec.ofNat 32 (bits imm.toNat 16 16)))) := by
  have hq := settle_quiet (deckAt s1 r.deck) (.signal (imm.toNat % 4096) (BitVec.ofNat 32 (bits imm.toNat 16 16))) hw
  simp only [opRdmaImm, hh, hs, hu, ha, hc, Bool.false_eq_true, if_false, Bool.true_and, beq_self_eq_true, if_true]
  exact onDeck_pure s1 r.deck _ _ hq

theorem opRdmaImm_unallocated (ha : objAlloc (deckAt s1 r.deck) (imm.toNat % 4096) = false) :
    opRdmaImm s n rkey addr bs imm [] = modLd s1 (16 * r.port.val + r.ld.val) (fun l => { l with immBad := satInc l.immBad }) := by
  simp only [opRdmaImm, hh, hs, ha, Bool.and_false, Bool.false_and, Bool.false_eq_true, if_false]

end

/-- The upper half of an immediate is the number that it signals by. -/
theorem immediate_amount (imm : BitVec 32) : (BitVec.ofNat 32 (bits imm.toNat 16 16)).toNat = imm.toNat / 2 ^ 16 := by
  have := imm.isLt
  simp only [bits, BitVec.toNat_ofNat]
  omega

/-- The bytes of a write stand in deck `d`, where nothing else has changed, and the write is acknowledged. -/
def wroteBytes (s t : State) (n addr : Nat) (data : List Byte) (d : Nat) : Prop :=
  t.out = .rdmaAck n :: s.out ∧
    ∀ x, deckByte t d x = if addr ≤ x ∧ x < addr + data.length then data.getD (x - addr) 0 else deckByte s d x

theorem wroteBytes_bytesStored {s : State} {n addr d : Nat} {data : List Byte} (hl : (deckAt s d).latent = [])
    (hb : (deckAt s d).memBad = []) (hw : memWriteSt (deckAt s d) addr data.length = stGood) :
    wroteBytes s (emit (bytesStored s d addr data) (.rdmaAck n)) n addr data d := by
  refine ⟨?_, deckByte_bytesStored hl hb hw⟩
  rw [emit_out, bytesStored_decks hl]

theorem opRdmaWrite_free {s : State} {n : Nat} {rkey : BitVec 32} {addr : Nat} {bs : List Byte} {errs : List SectorErr}
    {o : Option Region} {t : State} (hh : rdmaHeld s n rkey addr bs.length 0 = false)
    (hs : rdmaStore s n rkey addr bs false errs = (o, t)) : opRdmaWrite s n rkey addr bs errs = t := by
  rw [opRdmaWrite, hh, hs]
  rfl

section
variable {s : State} {n : Nat} {q : Qp} {rkey : BitVec 32} {addr : Nat} {data : List Byte} {r : Region}
  (hq : liveQp s n = some q) (hr : regionFor s q rkey addr data.length 0 = some r)
  (hh : rdmaHeld s n rkey addr data.length 0 = false)
include hq hr hh

theorem exec_rdmaWrite_gated (hg : gateRefuses (deckAt s r.deck) addr data.length = true) :
    ∃ t, exec (.rdmaWrite n rkey addr data []) s = .next t ∧ t.out = .rdmaNak n 1 :: s.out ∧
      (deckAt t r.deck).mem = (deckAt s r.deck).mem ∧ (deckAt t r.deck).gateDrop = satInc (deckAt s r.deck).gateDrop := by
  have hdeck : deckAt (sendNak (gateDropped s r.deck) n q 1) r.deck =
      { deckAt s r.deck with gateDrop := satInc (deckAt s r.deck).gateDrop } :=
    deckAt_modDeck s r.deck (fun k => { k with gateDrop := satInc k.gateDrop })
  refine ⟨_, congrArg done (opRdmaWrite_free hh (rdmaStore_gated hq hr hg)), rfl, ?_, ?_⟩
  · rw [hdeck]
  · rw [hdeck]

variable (hl : (deckAt s r.deck).latent = []) (hg : gateRefuses (deckAt s r.deck) addr data.length = false)
  (hu : memUp (deckAt s r.deck) = true)
include hl hg hu

theorem exec_rdmaWrite_discarded (hw : memWriteSt (deckAt s r.deck) addr data.length ≠ stGood) :
    ∃ t, exec (.rdmaWrite n rkey addr data []) s = .next t ∧ t.out = .rdmaNak n 2 :: s.out ∧
      mapGet none t.host.qps n = some { q with err := true } := by
  have hop := opRdmaWrite_free hh (rdmaStore_discarded hq hr hl hg hu hw)
  exact ⟨_, congrArg done hop, sendNak_then_error hq (bytesStored_decks hl)⟩

variable (hb : (deckAt s r.deck).memBad = []) (hw : memWriteSt (deckAt s r.deck) addr data.length = stGood)
include hb hw

theorem exec_rdmaWrite_stored : ∃ t, exec (.rdmaWrite n rkey addr data []) s = .next t ∧
    onlyDeck { s with out := t.out } t r.deck ∧ wroteBytes s t n addr data r.deck := by
  have hop := opRdmaWrite_free hh (rdmaStore_stored hq hr hl hg hu hb hw false (by simp))
  exact ⟨_, congrArg done hop, bytesStored_onlyDeck hl _, wroteBytes_bytesStored hl hb hw⟩

variable (hbit : r.access.getLsbD 2 = true) (imm : BitVec 32)
include hbit

theorem exec_rdmaWriteImmediate_signals (hsync : syncUp (deckAt s r.deck) = true)
    (ha : objAlloc (deckAt s r.deck) (imm.toNat % 4096) = true) (hc : objCtx (deckAt s r.deck) (imm.toNat % 4096) = r.ctx)
    (hwait : objWaited (deckAt s r.deck) (imm.toNat % 4096) = false)
    (hcount : (objAt (deckAt s r.deck) (imm.toNat % 4096)).count.toNat + imm.toNat / 2 ^ 16 < 2 ^ 32) :
    ∃ t, exec (.rdmaWriteImmediate n rkey addr data imm []) s = .next t ∧ wroteBytes s t n addr data r.deck ∧
      (objAt (deckAt t r.deck) (imm.toNat % 4096)).count.toNat =
        (objAt (deckAt s r.deck) (imm.toNat % 4096)).count.toNat + imm.toNat / 2 ^ 16 := by
  have hf := memFrame_bytesStored (addr := addr) (bs := data) hl hb
  have hstore := rdmaStore_stored hq hr hl hg hu hb hw true (fun _ => hbit)
  have hop := opRdmaImm_signals hh hstore ((syncUp_memFrame hf).trans hsync) ((objAlloc_memFrame hf _).trans ha)
    ((objCtx_memFrame hf _).trans hc) ((objWaited_memFrame hf _).trans hwait)
  obtain ⟨hout, hbytes⟩ := wroteBytes_bytesStored hl hb hw
  refine ⟨_, congrArg done hop, ⟨hout, fun x => ?_⟩, ?_⟩
  · rw [← hbytes x, deckByte, deckAt_setDeck, objUpdate_mem]
    rfl
  · have hsum := objCount_signal (deckAt (bytesStored s r.deck addr data) r.deck) (imm.toNat % 4096)
      (BitVec.ofNat 32 (bits imm.toNat 16 16)) ((objAlloc_memFrame hf _).trans ha)
      (by rwa [objAt_memFrame hf, immediate_amount])
    rw [deckAt_setDeck, deckAt_emit, hsum, objAt_memFrame hf, BitVec.toNat_add, immediate_amount, Nat.mod_eq_of_lt hcount]

theorem exec_rdmaWriteImmediate_unallocated (ha : objAlloc (deckAt s r.deck) (imm.toNat % 4096) = false) :
    ∃ t, exec (.rdmaWriteImmediate n rkey addr data imm []) s = .next t ∧ wroteBytes s t n addr data r.deck ∧
      (deckAt t r.deck).objs = (deckAt s r.deck).objs ∧
      (ldAt t (16 * r.port.val + r.ld.val)).immBad = satInc (ldAt s (16 * r.port.val + r.ld.val)).immBad := by
  have hf := memFrame_bytesStored (addr := addr) (bs := data) hl hb
  have hstore := rdmaStore_stored hq hr hl hg hu hb hw true (fun _ => hbit)
  have hop := opRdmaImm_unallocated hh hstore ((objAlloc_memFrame hf _).trans ha)
  refine ⟨_, congrArg done hop, wroteBytes_bytesStored hl hb hw, ?_, ?_⟩
  · exact (congrArg Deck.objs hf).trans rfl
  · rw [ldAt_modLd, ldAt_emit, bytesStored_decks hl]
    rfl

end

section
variable {s : State} {n : Nat} {q : Qp} {rkey : BitVec 32} {addr len : Nat} {r : Region} (hq : liveQp s n = some q)
  (hr : regionFor s q rkey addr len 1 = some r) (hu : memUp (deckAt s r.deck) = true)
  (hh : rangeHeld (deckAt s r.deck) addr len = false) (hl : (deckAt s r.deck).latent = [])
include hq hr hu hh hl

theorem exec_rdmaRead_some (m : Cells) (hm : memRead (deckAt s r.deck) addr len = some m) :
    ∃ t, exec (.rdmaRead n rkey addr len []) s = .next t ∧ t.out = .rdmaData n m :: s.out ∧
      (deckAt t r.deck).mem = (deckAt s r.deck).mem := by
  refine ⟨_, congrArg done (opRdmaRead_some hq hr hu hh hl hm), rfl, ?_⟩
  rw [deckAt_emit, deckAt_setDeck, mem_of_stackFrame (touch_frame _ _ _)]

theorem exec_rdmaRead_poison (hm : memRead (deckAt s r.deck) addr len = none) :
    ∃ t, exec (.rdmaRead n rkey addr len []) s = .next t ∧ t.out = .rdmaNak n 2 :: s.out ∧
      mapGet none t.host.qps n = some { q with err := true } :=
  ⟨_, congrArg done (opRdmaRead_poison hq hr hu hh hl hm), sendNak_then_error hq rfl⟩

end

section
variable {s : State} {n : Nat} {q : Qp} (hq : liveQp s n = some q)
include hq

theorem opRdmaUnsupported_live : opRdmaUnsupported s n = sendNak s n q 0 := by
  simp only [opRdmaUnsupported, hq]

theorem exec_qpRetryExhausted_live : ∃ t, exec (.qpRetryExhausted n) s = .next t ∧
    mapGet none t.host.qps n = some { q with err := true } ∧ liveQp t n = none := by
  obtain ⟨hget, he⟩ := liveQp_some hq
  have herr := qpError_err hget he
  exact ⟨qpError s n, rfl, herr, liveQp_of_err herr rfl⟩

theorem exec_congestionNotificationPacket_live : ∃ t, exec (.congestionNotificationPacket n) s = .next t ∧
    t = { s with host := { s.host with qps := t.host.qps } } ∧ mapGet none t.host.qps n = some { q with cnps := q.cnps + 1 } := by
  have hop : opCnp s n = { s with host := { s.host with
      qps := mapSet none s.host.qps n (some { q with cnps := q.cnps + 1 }) } } := by
    simp only [opCnp, hq]
  exact ⟨_, congrArg done hop, rfl, mapGet_set_same none s.host.qps n (some { q with cnps := q.cnps + 1 })⟩

end

/-- Settles O47, request by request. -/
theorem ethernetRequestsReachTheirRegion : Obligations.EthernetRequestsReachTheirRegion := by
  intro s n q rkey addr len data imm hq ok nak wrote
  refine ⟨fun hr => ⟨?_, ?_⟩, fun hr => ?_, fun r hr hh hl => ⟨?_, fun hg hu hb hw => ⟨?_, fun hbit hsync => ⟨?_, ?_⟩⟩⟩, ?_,
    fun r hr hu hh hl => ⟨?_, ?_⟩, fun u => ?_, ?_, ?_, fun e b => rfl⟩
  · exact ⟨_, congrArg done (opRdmaWrite_refused hq hr), nakSent_sendNak s n q 1⟩
  · exact ⟨_, congrArg done (opRdmaImm_refused hq hr imm), nakSent_sendNak s n q 1⟩
  · exact ⟨_, congrArg done (opRdmaRead_refused hq hr), nakSent_sendNak s n q 1⟩
  · exact exec_rdmaWrite_gated hq hr hh
  · exact exec_rdmaWrite_stored hq hr hh hl hg hu hb hw
  · exact exec_rdmaWriteImmediate_signals hq hr hh hl hg hu hb hw hbit imm hsync
  · exact exec_rdmaWriteImmediate_unallocated hq hr hh hl hg hu hb hw hbit imm
  · exact fun r hr hh hl hg hu hw => exec_rdmaWrite_discarded hq hr hh hl hg hu hw
  · exact exec_rdmaRead_some hq hr hu hh hl
  · exact exec_rdmaRead_poison hq hr hu hh hl
  · exact ⟨_, congrArg done (opRdmaUnsupported_live hq), nakSent_sendNak s n q 0⟩
  · exact exec_qpRetryExhausted_live hq
  · exact exec_congestionNotificationPacket_live hq

end Sys2Proof.Machine
end


section
/-! SUPPORT. Churn's entries (O38): what its shared operations leave of a collective, and how one goes on with new values. -/
namespace Sys2Proof.Machine
open Sys2Proof

/-! ### Entries of collectives -/

/-- `c` is an entry of the collective that `k` names. -/
def namedBy (k : CollRef) (c : Coll) : Prop := c.deck = k.deck.val ∧ c.desc.slot = k.slot ∧ c.tstep = k.tstep.toNat

theorem collAt_of_churn {s t : State} (h : t.churn = s.churn) (k : CollRef) : collAt t k = collAt s k := by
  rw [collAt, h, collAt]

/-- Where a collective has an entry, it has the one that is put. -/
theorem collAt_put {s : State} {k : CollRef} {c0 c : Coll} (h : collAt s k = some c0) (hn : namedBy k c) :
    collAt (putColl s c) k = some c := by
  obtain ⟨hd, hs, ht⟩ := hn
  obtain ⟨kd, ks, kt⟩ := collAt_key h
  exact collAt_putColl s k c0 c h (hd.trans kd.symm) (hs.trans ks.symm) (ht.trans kt.symm)

/-- Putting an entry takes none away. -/
theorem collAt_putColl_some {s : State} {k : CollRef} {c0 : Coll} (h : collAt s k = some c0) (e : Coll) :
    ∃ c1, collAt (putColl s e) k = some c1 := by
  obtain ⟨hmem, hkey⟩ := And.intro (List.mem_of_find?_eq_some h) (List.find?_some h)
  refine Option.isSome_iff_exists.1 (List.find?_isSome.2 ⟨_, List.mem_map_of_mem hmem, ?_⟩)
  split
  · next he =>
    obtain ⟨hd, hs, ht⟩ := isColl_key c0 _ _ _ he
    simpa [isColl, hd, hs, ht] using hkey
  · exact hkey

theorem collAt_foldl_putColl {α : Type} (f : α → Coll) (xs : List α) {s : State} {k : CollRef} {c0 : Coll}
    (h : collAt s k = some c0) : ∃ c1, collAt (xs.foldl (fun s x => putColl s (f x)) s) k = some c1 :=
  List.foldlRecOn (motive := fun t => ∃ c1, collAt t k = some c1) xs _ ⟨c0, h⟩
    (fun _ ⟨_, ht⟩ x _ => collAt_putColl_some ht (f x))

/-- A member that learns, or has nothing more to learn, differs in what it has learned. -/
theorem collAt_learn_some {s : State} {k : CollRef} {c : Coll} (h : collAt s k = some c) (st : Status) :
    ∃ l, collAt (learn s c st) k = some { c with learned := l } := by
  by_cases hd : c.done = true
  · exact ⟨c.learned, by rw [learn, if_pos hd]; exact h⟩
  · exact ⟨_, collAt_learn s k c st h (Bool.eq_false_iff.2 hd)⟩

theorem collAt_dropColl {s : State} {k : CollRef} {c : Coll} (hn : namedBy k c) : collAt (dropColl s c) k = none := by
  obtain ⟨hd, hs, ht⟩ := hn
  refine List.find?_eq_none.2 fun x hx => ?_
  have hx := (List.mem_filter.1 hx).2
  rw [hd, hs, ht] at hx
  exact fun hk => by simp [hk] at hx

/-! ### What a deck asks for leaves Churn -/

theorem applyEff_churn (d : Nat) (s : State) (e : DeckEff) : (applyEff d s e).churn = s.churn := by
  cases e with
  | report | coll | memEvent | plog => rfl
  | reply h st res => exact hostFrame_churn (hostFrame_replyFinal _ _ _ _)
  | async st a0 a1 => exact hostFrame_churn (hostFrame_postDeck _ _ _ _ _)
  | hot stack =>
    have hpost := hostFrame_churn (hostFrame_postDeck s d stThermalLimit (4 * d + stack) 0)
    exact hpost
  | poisonEvent page sector =>
    simp only [applyEff]
    split
    · rfl
    · split
      · exact hostFrame_churn (hostFrame_postDeck _ _ _ _ _)
      · rfl
  | hubWrite off n src =>
    simp only [applyEff]
    split <;> rfl

theorem putDeck_churn (s : State) (d : Nat) (r : DeckRes) : (putDeck s d r).churn = s.churn :=
  List.foldlRecOn (motive := fun t : State => t.churn = s.churn) r.2 _ rfl (fun t ht e _ => (applyEff_churn d t e).trans ht)

theorem churnRead_churn (s : State) (d a n : Nat) : (churnRead s d a n).2.2.churn = s.churn := by
  unfold churnRead
  split
  · split
    · rfl
    · dsimp only
      split <;> exact putDeck_churn _ _ _
  · split <;> rfl

/-- The local level reads the decks' bytes; the entries stand. -/
theorem localLevel_churn (s : State) (c : Coll) (ms : List Coll) : (localLevel s c ms).2.2.churn = s.churn := by
  unfold localLevel
  refine List.foldlRecOn (motive := fun r : Status × Cells × State => r.2.2.churn = s.churn) ms _ rfl (fun r hr e _ => ?_)
  have hread := (churnRead_churn r.2.2 e.deck e.desc.src (srcBytes (geoOf s c.deck) c.desc)).trans hr
  dsimp only
  split
  · exact hr
  split
  · exact hr
  split
  · exact hr
  split
  · exact hread
  split
  · exact hread
  split
  · exact hread
  split <;> exact hread

theorem churnWrite_churn (s : State) (d : Nat) (runs : List (Nat × Nat × Cells)) : (churnWrite s d runs).2.churn = s.churn := by
  unfold churnWrite
  dsimp only
  split
  · rfl
  · refine List.foldlRecOn (motive := fun r : Status × State => r.2.churn = s.churn) runs _ rfl (fun r hr x _ => ?_)
    split
    · split <;> exact hr
    · split <;> exact hr

theorem storeElems_churn (s : State) (c : Coll) (n : Nat) (es : List Nat) : (storeElems s c n es).2.churn = s.churn := by
  unfold storeElems
  exact List.foldlRecOn (motive := fun r : Status × State => r.2.churn = s.churn) _ _ rfl
    (fun r hr b _ => (churnWrite_churn r.2 _ _).trans hr)

/-! ### A collective goes on with new values (R386, R388) -/

/-- `c'` is `c` with other sums and learned statuses. -/
def sumsOf (c c' : Coll) : Prop := c' = { c with isFinal := c'.isFinal, acc := c'.acc, learned := c'.learned }

theorem finalize_sums (s : State) (c : Coll) : sumsOf c (finalize s c).1 ∧ (finalize s c).1.learned = c.learned := by
  unfold finalize
  dsimp only
  split
  · exact ⟨rfl, rfl⟩
  · split <;> exact ⟨rfl, rfl⟩

/-- The entry with its sums, and the saturations and flushes of their rounding counted. -/
def countedSums (s : State) (c : Coll) : State :=
  if (finalize s c).2.1 + (finalize s c).2.2 = 0 then putColl s (finalize s c).1
  else countSkim (putColl s (finalize s c).1) c (finalize s c).2.1 (finalize s c).2.2

/-- What is summed in DST is stored there, and an error of the store is learned. -/
theorem advance_inPlace (s : State) {c : Coll} (n : Nat) (es : List Nat) (hin : inPlace c.desc = true) :
    ∃ xs, advance s c n es = if (storeElems (countedSums s c) (finalize s c).1 n xs).1 = stGood
      then (storeElems (countedSums s c) (finalize s c).1 n xs).2
      else learn (storeElems (countedSums s c) (finalize s c).1 n xs).2 (finalize s c).1
        (storeElems (countedSums s c) (finalize s c).1 n xs).1 :=
  ⟨_, if_pos hin⟩

/-- What goes on keeps all but its sums; only what stands in DST as it is summed can meet an error there. -/
theorem collAt_advance {s : State} {k : CollRef} {c0 c : Coll} (h : collAt s k = some c0) (hn : namedBy k c) (n : Nat)
    (es : List Nat) :
    ∃ c', collAt (advance s c n es) k = some c' ∧ sumsOf c c' ∧ (inPlace c.desc = false → c'.learned = c.learned) := by
  obtain ⟨hsum, hlearned⟩ := finalize_sums s c
  have hf : namedBy k (finalize s c).1 := by
    rw [hsum]
    exact hn
  have hput : ∀ t : State, t.churn = (putColl s (finalize s c).1).churn → collAt t k = some (finalize s c).1 :=
    fun t ht => (collAt_of_churn ht k).trans (collAt_put h hf)
  have hs2 : (countedSums s c).churn = (putColl s (finalize s c).1).churn := by
    unfold countedSums
    split <;> rfl
  have hstored : ∀ xs, collAt (storeElems (countedSums s c) (finalize s c).1 n xs).2 k = some (finalize s c).1 :=
    fun xs => hput _ ((storeElems_churn _ _ n xs).trans hs2)
  by_cases hin : inPlace c.desc = true
  · obtain ⟨xs, hxs⟩ := advance_inPlace s n es hin
    rw [hxs]
    split
    · exact ⟨_, hstored xs, hsum, fun h => absurd hin (by rw [h]; decide)⟩
    · obtain ⟨l, hl⟩ := collAt_learn_some (hstored xs) (storeElems (countedSums s c) (finalize s c).1 n xs).1
      refine ⟨_, hl, ?_, fun h => absurd hin (by rw [h]; decide)⟩
      rw [hsum]
      rfl
  · rw [show advance s c n es = countedSums s c from if_neg hin]
    exact ⟨_, hput _ hs2, hsum, fun _ => hlearned⟩

end Sys2Proof.Machine
end

section
/-! SUPPORT. Buffers granted, chunks and notices of a collective (O38). -/
namespace Sys2Proof.Machine
open Sys2Proof

/-- A command of a collective that no channel and no row holds up acts. -/
theorem exec_unheld {s f : State} {k : CollRef} {i : Instr} (hw : collWaits s k = false)
    (hi : exec i s = done (if collWaits s k then s else f)) : exec i s = .next f := by
  rw [hi, hw]
  rfl

/-! ### Buffers granted (R389, R396) -/

/-- A collective may be granted its buffers: it has none, has met no error, all its local members are there, and its send buffers
find room. -/
def mayGrant (s : State) (c : Coll) : Prop :=
  c.granted = false ∧ c.learned = [] ∧ c.silent = false ∧ (localMembers s c).length = (groupDecks c.desc).length ∧
    heldBuffers s c + sendBytes (geoOf s c.deck) c.desc ≤
      ((ctxAt (deckAt s c.deck) c.ctx.toNat).pailSize.toNat - (ctxAt (deckAt s c.deck) c.ctx.toNat).recv.toNat) * 0x10000

theorem not_grantBarred {s : State} {c : Coll} (h : mayGrant s c) :
    ¬ (c.granted = true ∨ (!c.learned.isEmpty) = true ∨ c.silent = true ∨ (localMembers s c).length ≠ (groupDecks c.desc).length ∨
      ((ctxAt (deckAt s c.deck) c.ctx.toNat).pailSize.toNat - (ctxAt (deckAt s c.deck) c.ctx.toNat).recv.toNat) * 0x10000 <
        heldBuffers s c + sendBytes (geoOf s c.deck) c.desc) := by
  obtain ⟨hg, hl, hs, hlen, hroom⟩ := h
  simp [hg, hl, hs, hlen, hroom]

/-- A member with the sums that the local level gave. -/
def givenSum (acc : Cells) (c : Coll) : Coll := { c with acc := acc, summed := true }

section
variable {s : State} {k : CollRef} {c : Coll} (hc : collAt s k = some c) (hm : mayGrant s c)
include hc hm

theorem opBuffersGranted_mismatch (hd : (localMembers s c).any (fun e => e.digest != c.digest) = true) :
    opBuffersGranted s k = learn s c stMismatch := by
  rw [opBuffersGranted, hc]
  exact (if_neg (not_grantBarred hm)).trans (if_pos hd)

theorem opBuffersGranted_agree (hd : (localMembers s c).any (fun e => e.digest != c.digest) = false) :
    opBuffersGranted s k =
      if c.summed then advance s { c with granted := true } 512 (localElems (geoOf s c.deck) c.desc (localMembers s c))
      else if (localLevel s c (localMembers s c)).1 ≠ stGood then
        learn (localLevel s c (localMembers s c)).2.2 { c with granted := true } (localLevel s c (localMembers s c)).1
      else advance ((localMembers s c).foldl (fun t e => putColl t (givenSum (localLevel s c (localMembers s c)).2.1 e))
          (localLevel s c (localMembers s c)).2.2)
        { givenSum (localLevel s c (localMembers s c)).2.1 c with granted := true } 512
        (localElems (geoOf s c.deck) c.desc (localMembers s c)) := by
  rw [opBuffersGranted, hc]
  refine (if_neg (not_grantBarred hm)).trans ?_
  simp only [hd, Bool.false_eq_true, if_false]
  rfl

/-- Granted buffers mark the collective, whose sums stand already or are given now. -/
theorem collAt_opBuffersGranted (hd : (localMembers s c).any (fun e => e.digest != c.digest) = false)
    (hgood : c.summed = true ∨ (localLevel s c (localMembers s c)).1 = stGood) :
    ∃ c', collAt (opBuffersGranted s k) k = some c' ∧ c'.granted = true ∧ (inPlace c.desc = false → c'.learned = []) := by
  obtain ⟨-, hlearned, -⟩ := id hm
  have hn : namedBy k c := collAt_key hc
  have goes : ∀ (t : State) (c0 c1 : Coll) (es : List Nat), collAt t k = some c0 → namedBy k c1 → c1.granted = true →
      c1.learned = c.learned → c1.desc = c.desc →
      ∃ c', collAt (advance t c1 512 es) k = some c' ∧ c'.granted = true ∧ (inPlace c.desc = false → c'.learned = []) := by
    intro t c0 c1 es h0 hn hg hl hdesc
    obtain ⟨c', hc', hsum, hkeep⟩ := collAt_advance h0 hn 512 es
    refine ⟨c', hc', ?_, fun hp => (hkeep (by rw [hdesc]; exact hp)).trans (hl.trans hlearned)⟩
    rw [hsum]
    exact hg
  rw [opBuffersGranted_agree hc hm hd]
  by_cases hsummed : c.summed = true
  · rw [if_pos hsummed]
    exact goes s c _ _ hc hn rfl rfl rfl
  · have hlevel := hgood.resolve_left hsummed
    rw [if_neg hsummed, if_neg (fun h => h hlevel)]
    have hread : collAt (localLevel s c (localMembers s c)).2.2 k = some c :=
      (collAt_of_churn (localLevel_churn s c _) k).trans hc
    obtain ⟨c0, h0⟩ := collAt_foldl_putColl (givenSum (localLevel s c (localMembers s c)).2.1) (localMembers s c) hread
    exact goes _ c0 _ _ h0 hn rfl rfl rfl

end

/-! ### Chunks that become ready (R396, R399) -/

/-- A collective that has its buffers and has met no error. -/
def runningWell (c : Coll) : Prop := c.granted = true ∧ c.learned = [] ∧ c.silent = false

/-- A free buffer of its direction takes a chunk. -/
theorem bufferChunk_free {c : Coll} {key : Nat} (m : Cells) (h : (c.buffered.filter (fun x => x / 2 ^ 32 == key / 2 ^ 32)).length < 8) :
    bufferChunk c key m = some { c with ready := mapSet [] c.ready key m, buffered := c.buffered ++ [key] } := if_pos h

/-- The bytes of chunk `n` of item `i`, header packet and data, as collective `c` has summed them. -/
def chunkToSend (s : State) (c : Coll) (i : PlanItem) (n : Nat) : Cells :=
  chunkBytes c.digest (wireType c.desc i) i (positionOf (geoOf s c.deck) c.desc c.deck) c.tstep
    (toWire (wireType c.desc i) ((chunkIndexes c.desc i n).map (spaceGet c.desc c.acc))).1

theorem exec_chunkReady_stands {s : State} {k : CollRef} {c : Coll} (hc : collAt s k = some c) (hw : collWaits s k = false)
    {p : Fin 9} {chunk : BitVec 32} {i : PlanItem} {n : Nat}
    (hi : locate c.desc (portItems (collPlan s c).sends p) chunk.toNat = some (i, n)) (hlive : runningWell c)
    (hfirst : (groupDecks c.desc).head? = some c.deck) (hbefore : earlierUsed c.desc (collPlan s c) c i = true)
    (hgone : chunkGone c (chunkKey p chunk.toNat) = false) (hnot : c.buffered.contains (chunkKey p chunk.toNat) = false)
    (hroom : (c.buffered.filter (fun x => x / 2 ^ 32 == chunkKey p chunk.toNat / 2 ^ 32)).length < 8) :
    ∃ t c', exec (.chunkReady k p chunk []) s = .next t ∧ collAt t k = some c' ∧
      c'.buffered = c.buffered ++ [chunkKey p chunk.toNat] ∧ mapGet [] c'.ready (chunkKey p chunk.toNat) = chunkToSend s c i n := by
  have hn : namedBy k c := collAt_key hc
  have hopen : (!c.granted || !c.learned.isEmpty || c.silent || (groupDecks c.desc).head? != some c.deck ||
      !earlierUsed c.desc (collPlan s c) c i || chunkGone c (chunkKey p chunk.toNat) ||
      c.buffered.contains (chunkKey p chunk.toNat)) = false := by
    obtain ⟨hg, hl, hs⟩ := hlive
    rw [hg, hl, hs, hfirst, hbefore, hgone, hnot]
    simp
  have hready : opChunkReadErr s k p chunk.toNat [] = opChunkReady s k p chunk.toNat := by
    simp only [opChunkReadErr, hc]
  refine ⟨opChunkReadErr s k p chunk.toNat [],
    { c with ready := mapSet [] c.ready (chunkKey p chunk.toNat) (chunkToSend s c i n),
             buffered := c.buffered ++ [chunkKey p chunk.toNat] }, exec_unheld hw rfl, ?_, rfl, mapGet_set_same _ _ _ _⟩
  rw [hready]
  simp only [opChunkReady, hc, hi, hopen, Bool.false_eq_true, if_false, bufferChunk_free _ hroom]
  split
  · exact collAt_put hc hn
  · exact collAt_put hc hn

/-! ### Chunks that have landed (R390, R391, R399, R400, R402) -/

theorem digestDrop_tellLocal (s : State) (c : Coll) (st : Status) : (tellLocal s c st).churn.digestDrop = s.churn.digestDrop := by
  refine List.foldlRecOn (motive := fun t : State => t.churn.digestDrop = s.churn.digestDrop) _ _ rfl (fun t ht e _ => ?_)
  unfold noteMember
  split <;> exact ht

theorem digestDrop_flood (s : State) (axes : BitVec 4) (n : Notice) (tag : BitVec 3) (but : Option (BitVec 17)) :
    (flood s axes n tag but).churn.digestDrop = s.churn.digestDrop := by
  unfold flood
  split
  · rfl
  · exact List.foldlRecOn (motive := fun t : State => t.churn.digestDrop = s.churn.digestDrop) _ _ rfl (fun _ ht _ _ => ht)

/-- What a member learns is no chunk dropped for its digest. -/
theorem digestDrop_learn (s : State) (c : Coll) (st : Status) : (learn s c st).churn.digestDrop = s.churn.digestDrop := by
  unfold learn
  split
  · rfl
  dsimp only
  split
  · rw [digestDrop_flood, digestDrop_tellLocal]
    rfl
  · rfl

/-- The values of a chunk are used, whatever becomes of the sums. -/
theorem collAt_useChunk {s : State} {k : CollRef} {c : Coll} (hc : collAt s k = some c) (p chunk : Nat) (i : PlanItem) (n : Nat)
    (data : Cells) :
    ∃ c', collAt (useChunk s c p chunk i n data) k = some c' ∧ mapGet false c'.used (chunkKey p chunk) = true := by
  have goes : ∀ (c1 : Coll) (m : Nat) (es : List Nat), namedBy k c1 → c1.used = mapSet false c.used (chunkKey p chunk) true →
      ∃ c', collAt (advance s c1 m es) k = some c' ∧ mapGet false c'.used (chunkKey p chunk) = true := by
    intro c1 m es hn hu
    obtain ⟨c', hc', hsum, -⟩ := collAt_advance hc hn m es
    refine ⟨c', hc', ?_⟩
    rw [hsum, hu, mapGet_set_same]
  have hn : namedBy k c := collAt_key hc
  unfold useChunk
  dsimp only
  split
  · exact goes _ _ _ hn rfl
  split
  · exact goes _ _ _ hn rfl
  split
  · split
    · exact goes _ _ _ hn rfl
    · exact ⟨_, collAt_put hc hn, mapGet_set_same false c.used (chunkKey p chunk) true⟩
  · exact goes _ _ _ hn rfl

/-- A landed chunk may be used: its collective runs well, has not used it, the chunk is whole, and what is added before it has
been. -/
def mayUse (s : State) (c : Coll) (p chunk : Nat) (i : PlanItem) : Prop :=
  runningWell c ∧ c.done = false ∧ mapGet false c.used (chunkKey p chunk) = false ∧ (landedAt s p c.desc.slot chunk).whole = true ∧
    (reduces c.desc i = true → earlierUsed c.desc (collPlan s c) c i = true)

theorem not_useBarred {s : State} {c : Coll} {p chunk : Nat} {i : PlanItem} (h : mayUse s c p chunk i) :
    (!c.granted || !c.learned.isEmpty || c.silent || c.done || mapGet false c.used (chunkKey p chunk) ||
      !(landedAt s p c.desc.slot chunk).whole || (reduces c.desc i && !earlierUsed c.desc (collPlan s c) c i)) = false := by
  obtain ⟨⟨hg, hl, hs⟩, hd, hu, hwhole, hbefore⟩ := h
  rw [hg, hl, hs, hd, hu, hwhole]
  cases hr : reduces c.desc i
  · rfl
  · rw [hbefore hr]
    rfl

/-- The header of a landed chunk, and its data. -/
def landedHead (s : State) (ld off : Nat) : Cells := mapSlice (winMem s ld) off 32
def landedData (s : State) (ld off : Nat) : Cells := mapSlice (winMem s ld) (off + 512) (readNat (landedHead s ld off) 8 3)

/-- The CRC of the data of a landed chunk. -/
def landedCrc (s : State) (ld off : Nat) : Nat :=
  (crc32c (readBytes (landedData s ld off) 0 (readNat (landedHead s ld off) 8 3))).toNat

/-- What has landed of a chunk is dropped. -/
def landedDropped (s : State) (p : Nat) (slot : BitVec 16) (chunk : Nat) : State := modLanded s p slot chunk (fun _ => {})

theorem landedAt_landedDropped (s : State) (p : Nat) (slot : BitVec 16) (chunk : Nat) :
    landedAt (landedDropped s p slot chunk) p slot chunk = {} :=
  mapGet_set_same ({} : Landed) s.churn.landed (landKey p slot chunk) {}

section
variable {s : State} {k : CollRef} {c : Coll} {p chunk ld off left n : Nat} {i : PlanItem} (hc : collAt s k = some c)
  (hland : landingOf s p c.desc.slot chunk (2 ^ (12 + c.desc.chunkLog)) = some (ld, off, left))
  (hi : locate c.desc (portItems (collPlan s c).recvs p) chunk = some (i, n)) (hm : mayUse s c p chunk i)
include hc hland hi hm

/-- What CHUNK_LANDED makes of a chunk that may be used, by its header. -/
theorem opChunkLanded_mayUse : opChunkLanded s k p chunk =
    if readNat (landedHead s ld off) 24 8 ≠ c.tstep then
      modChurn (landedDropped s p c.desc.slot chunk) (fun q => { q with stepDrop := satInc q.stepDrop })
    else if readNat (landedHead s ld off) 0 4 ≠ c.digest.toNat then
      learn (modChurn s (fun q => { q with digestDrop := satInc q.digestDrop })) c stMismatch
    else if landedCrc s ld off ≠ readNat (landedHead s ld off) 4 4 then
      if s.churn.resendEn ∧ mapGet false c.asked (chunkKey p chunk) = false then
        sendNotice (modChurn (putColl (landedDropped s p c.desc.slot chunk)
            { c with asked := mapSet false c.asked (chunkKey p chunk) true }) (fun q => { q with requested := satInc q.requested }))
          0x0102 { abortNotice s c 0 with chunk := BitVec.ofNat 32 chunk } (((deckBind s c.deck).map (·.tag)).getD 0) (neighbour s p)
      else learn s c stCheckFailed
    else useChunk (if mapGet false c.asked (chunkKey p chunk) then modChurn s (fun q => { q with recovered := satInc q.recovered })
      else s) c p chunk i n (landedData s ld off) := by
  simp only [opChunkLanded, hc, hland, hi, not_useBarred hm, Bool.false_eq_true, if_false]
  rfl

theorem opChunkLanded_otherStep (hstep : readNat (landedHead s ld off) 24 8 ≠ c.tstep) : opChunkLanded s k p chunk =
    modChurn (landedDropped s p c.desc.slot chunk) (fun q => { q with stepDrop := satInc q.stepDrop }) :=
  (opChunkLanded_mayUse hc hland hi hm).trans (if_pos hstep)

variable (hstep : readNat (landedHead s ld off) 24 8 = c.tstep)
include hstep

theorem opChunkLanded_otherDigest (hdig : readNat (landedHead s ld off) 0 4 ≠ c.digest.toNat) : opChunkLanded s k p chunk =
    learn (modChurn s (fun q => { q with digestDrop := satInc q.digestDrop })) c stMismatch :=
  ((opChunkLanded_mayUse hc hland hi hm).trans (if_neg (fun h => h hstep))).trans (if_pos hdig)

variable (hdig : readNat (landedHead s ld off) 0 4 = c.digest.toNat)
include hdig

/-- A chunk that fails its CRC is asked for again, the first time. -/
theorem collAt_opChunkLanded_unsound (hcrc : landedCrc s ld off ≠ readNat (landedHead s ld off) 4 4) (hen : s.churn.resendEn = true)
    (hnew : mapGet false c.asked (chunkKey p chunk) = false) :
    (opChunkLanded s k p chunk).churn.requested = satInc s.churn.requested ∧
      collAt (opChunkLanded s k p chunk) k = some { c with asked := mapSet false c.asked (chunkKey p chunk) true } := by
  rw [opChunkLanded_mayUse hc hland hi hm, if_neg (fun h => h hstep), if_neg (fun h => h hdig), if_pos hcrc, if_pos ⟨hen, hnew⟩]
  refine ⟨rfl, ?_⟩
  have hn : namedBy k c := collAt_key hc
  have hput : collAt (landedDropped s p c.desc.slot chunk) k = some c := hc
  exact collAt_put (c := { c with asked := mapSet false c.asked (chunkKey p chunk) true }) hput hn

/-- A sound chunk is used. -/
theorem collAt_opChunkLanded_sound (hcrc : landedCrc s ld off = readNat (landedHead s ld off) 4 4) :
    ∃ c', collAt (opChunkLanded s k p chunk) k = some c' ∧ mapGet false c'.used (chunkKey p chunk) = true := by
  rw [opChunkLanded_mayUse hc hland hi hm, if_neg (fun h => h hstep), if_neg (fun h => h hdig), if_neg (fun h => h hcrc)]
  split
  · have hcount : collAt (modChurn s (fun q => { q with recovered := satInc q.recovered })) k = some c := hc
    exact collAt_useChunk hcount p chunk i n _
  · exact collAt_useChunk hc p chunk i n _

end

/-! ### Requests for chunks (R399) -/

/-- Is `c` an entry of the slot occurrence that a notice names? -/
def sameOccurrence (n : Notice) (c : Coll) : Bool := c.desc.slot == n.slot && c.tstep == n.tstep.toNat

/-- The `j`-th packet of chunk `m` of collective `c`, as it goes out again to the neighbour of port `p`. -/
def resendPacket (s : State) (c : Coll) (p : Nat) (n : Notice) (m : Cells) (j : Nat) : Packet :=
  { cls := .q, data := true, type := 4, tag := ((deckBind s c.deck).map (·.tag)).getD 0, dst := neighbour s p, space := 1,
    src := ownModule s, srcDeck := BitVec.ofNat 3 c.deck, srcCore := 0xFFF, txn := n.slot, imm := n.chunk,
    offset := BitVec.ofNat 40 (512 * j), payload := mapSlice m (512 * j) 512 }

theorem foldl_resendPacket (c : Coll) (p : Nat) (n : Notice) (m : Cells) (js : List Nat) (s : State) :
    js.foldl (fun s j => hubSend s (resendPacket s c p n m j)) s = (js.map (resendPacket s c p n m)).foldl hubSend s := by
  induction js generalizing s with
  | nil => rfl
  | cons j rest ih =>
    rw [List.foldl_cons, ih]
    rfl

theorem opResendReq_gone {s : State} {p : Nat} {n : Notice}
    (h : ∀ x ∈ s.churn.colls.filter (sameOccurrence n), mapGet [] x.ready (chunkKey p n.chunk.toNat) = []) : opResendReq s p n = s := by
  have hnone : s.churn.colls.find? (fun c => c.desc.slot == n.slot && c.tstep == n.tstep.toNat &&
      !(mapGet [] c.ready (chunkKey p n.chunk.toNat)).isEmpty) = none := by
    refine List.find?_eq_none.2 fun x hx hcond => ?_
    obtain ⟨hocc, hready⟩ := Bool.and_eq_true_iff.1 hcond
    rw [h x (List.mem_filter.2 ⟨hx, hocc⟩)] at hready
    exact absurd hready (by decide)
  simp only [opResendReq, hnone]

theorem find?_of_filter_one {α : Type} {p q : α → Bool} {xs : List α} {x : α} (h : xs.filter p = [x]) (hq : q x = true) :
    xs.find? (fun y => p y && q y) = some x := by
  have hfind : (xs.filter p).find? q = some x := by rw [h, List.find?_cons_of_pos hq]
  rw [List.find?_filter] at hfind
  simpa using hfind

theorem opResendReq_sends {s : State} {p : Nat} {n : Notice} {c : Coll} (h : s.churn.colls.filter (sameOccurrence n) = [c])
    (hready : mapGet [] c.ready (chunkKey p n.chunk.toNat) ≠ []) (hl : c.learned = []) (hs : c.silent = false)
    (hd : c.done = false) : opResendReq s p n = ((List.range (chunkPackets (mapGet [] c.ready (chunkKey p n.chunk.toNat)))).map
      (resendPacket s c p n (mapGet [] c.ready (chunkKey p n.chunk.toNat)))).foldl hubSend s := by
  have hfind : s.churn.colls.find? (fun c => c.desc.slot == n.slot && c.tstep == n.tstep.toNat &&
      !(mapGet [] c.ready (chunkKey p n.chunk.toNat)).isEmpty) = some c :=
    find?_of_filter_one (p := sameOccurrence n) (q := fun c => !(mapGet [] c.ready (chunkKey p n.chunk.toNat)).isEmpty) h
      (by simpa using hready)
  rw [← foldl_resendPacket]
  simp only [opResendReq, hfind, hl, hs, hd, List.isEmpty_nil, Bool.not_true, Bool.or_self, Bool.false_eq_true, if_false]
  rfl

theorem exec_churnResendReq_gone {s : State} {p : Fin 9} {n : Notice}
    (h : ∀ x ∈ s.churn.colls.filter (sameOccurrence n), mapGet [] x.ready (chunkKey p n.chunk.toNat) = []) :
    ∃ t, exec (.churnResendReq p n) s = .next t ∧ t = { s with net := { s.net with inbox := t.net.inbox } } :=
  ⟨_, congrArg done (opResendReq_gone (s := takeNotice s 0x0102 n.slot) h), rfl⟩

theorem exec_churnResendReq_sends {s : State} {p : Fin 9} {n : Notice} {c : Coll}
    (h : s.churn.colls.filter (sameOccurrence n) = [c]) (hready : mapGet [] c.ready (chunkKey p n.chunk.toNat) ≠ [])
    (hl : c.learned = []) (hs : c.silent = false) (hd : c.done = false) :
    ∃ t, ∃ ps : List Packet, exec (.churnResendReq p n) s = .next t ∧
      mapGet [] t.net.queues 9 = mapGet [] s.net.queues 9 ++ ps.map (fun x => { pk := x, since := clockNs s }) ∧
      ps.length = chunkPackets (mapGet [] c.ready (chunkKey p n.chunk.toNat)) ∧ ∀ x ∈ ps, x.cls = .q ∧ x.type = 4 ∧
        x.dst = (portAt s p).peerModule ∧ x.txn = n.slot ∧ x.imm = n.chunk := by
  refine ⟨_, _, congrArg done (opResendReq_sends (s := takeNotice s 0x0102 n.slot) h hready hl hs hd),
    (foldl_hubSend _ (takeNotice s 0x0102 n.slot)).1, ?_, fun x hx => ?_⟩
  · rw [List.length_map, List.length_range]
  · obtain ⟨j, -, rfl⟩ := List.mem_map.1 hx
    exact ⟨rfl, rfl, rfl, rfl, rfl⟩

/-! ### Abort notices (R406, R408, R413) -/

/-- What an abort notice that arrives on port `p` says of its occurrence. -/
def abortNote (s : State) (p : Nat) (n : Notice) : EarlyNote :=
  { slot := n.slot, tstep := n.tstep.toNat, status := n.status, notice := some (n, neighbour s p) }

/-- The one member of an occurrence learns what an abort notice says, which goes on to the other neighbours. -/
theorem opAbort_one {s : State} {p : Nat} {n : Notice} {c : Coll} (h : s.churn.colls.filter (sameOccurrence n) = [c])
    (hd : c.done = false) (hs : c.silent = false) (hl : c.learned.contains n.status = false) (hf : holdsFinal s c = false) :
    opAbort s p n = flood (putColl (noteEarly s (abortNote s p n)) { c with learned := c.learned ++ [n.status] }) c.desc.axes n
      (((deckBind s c.deck).map (·.tag)).getD 0) (some (neighbour s p)) := by
  have hfilter : s.churn.colls.filter (fun c => c.desc.slot == n.slot && c.tstep == n.tstep.toNat) = [c] := h
  have hf' : holdsFinal (noteEarly s (abortNote s p n)) c = false := hf
  have hnote : noteMember (noteEarly s (abortNote s p n)) c n.status =
      putColl (noteEarly s (abortNote s p n)) { c with learned := c.learned ++ [n.status] } :=
    if_neg (by rw [hd, hs, hl, hf']; decide)
  rw [← hnote]
  simp only [opAbort, hfilter, List.all_cons, List.all_nil, hd, Bool.and_true, Bool.false_eq_true, if_false, List.foldl_cons,
    List.foldl_nil, List.head?_cons]
  rfl

theorem collAt_opAbort {s : State} {p : Nat} {n : Notice} {k : CollRef} {c : Coll} (hc : collAt s k = some c)
    (h : s.churn.colls.filter (sameOccurrence n) = [c]) (hd : c.done = false) (hs : c.silent = false)
    (hl : c.learned.contains n.status = false) (hf : holdsFinal s c = false) :
    collAt (opAbort s p n) k = some { c with learned := c.learned ++ [n.status] } := by
  have hn : namedBy k c := collAt_key hc
  have hearly : collAt (noteEarly s (abortNote s p n)) k = some c := hc
  rw [opAbort_one h hd hs hl hf, collAt_flood]
  exact collAt_put (c := { c with learned := c.learned ++ [n.status] }) hearly hn

theorem opAbort_nobody {s : State} {p : Nat} {n : Notice} (h : s.churn.colls.filter (sameOccurrence n) = []) :
    (opAbort s p n).churn.colls = s.churn.colls ∧ (opAbort s p n).churn.abortLate =
      if hallNs s < deadlineNs s n.slot n.tstep.toNat then s.churn.abortLate else satInc s.churn.abortLate := by
  have hfilter : s.churn.colls.filter (fun c => c.desc.slot == n.slot && c.tstep == n.tstep.toNat) = [] := h
  simp only [opAbort, hfilter]
  split <;> exact ⟨rfl, rfl⟩

end Sys2Proof.Machine
end

section
/-! SUPPORT. How a collective ends (O38): its result at DST, what its end leaves of its context, its object, a vote. -/
namespace Sys2Proof.Machine
open Sys2Proof

/-! ### What updates of objects leave of a context -/

/-- No context's record of its last collective changes, nor its step and attempt. -/
def marksKept (d d' : Deck) : Prop :=
  ∀ x, (ctxAt d' x).lastStatus = (ctxAt d x).lastStatus ∧ (ctxAt d' x).lastSlot = (ctxAt d x).lastSlot ∧
    (ctxAt d' x).hold.step = (ctxAt d x).hold.step ∧ (ctxAt d' x).hold.attempt = (ctxAt d x).hold.attempt

theorem marksKept_of_ctxs {d d' : Deck} (h : d'.ctxs = d.ctxs) : marksKept d d' := fun x => by
  rw [ctxAt, h]
  exact ⟨rfl, rfl, rfl, rfl⟩

theorem marksKept_trans {a b c : Deck} (h1 : marksKept a b) (h2 : marksKept b c) : marksKept a c := fun x => by
  obtain ⟨hs, hl, hstep, hatt⟩ := h2 x
  rw [hs, hl, hstep, hatt]
  exact h1 x

theorem updHold_marks (h : Hold) (u : ObjUpd) : (updHold h u).step = h.step ∧ (updHold h u).attempt = h.attempt := by
  cases u with
  | set => exact ⟨rfl, rfl⟩
  | signal =>
    simp only [updHold]
    split <;> exact ⟨rfl, rfl⟩
  | poison =>
    simp only [updHold]
    split
    · split <;> exact ⟨rfl, rfl⟩
    · split <;> exact ⟨rfl, rfl⟩

theorem marksKept_objUpdate (d : Deck) (u : ObjUpd) : marksKept d (objUpdate d u) := by
  unfold objUpdate
  split
  · intro x
    by_cases hx : x = (objCtx d u.obj).toNat
    · subst hx
      obtain ⟨hstep, hatt⟩ := updHold_marks (ctxAt d (objCtx d u.obj).toNat).hold u
      rw [ctxAt_setHold]
      exact ⟨rfl, rfl, hstep, hatt⟩
    · rw [setHold, ctxAt_setCtx_other _ _ _ _ hx]
      exact ⟨rfl, rfl, rfl, rfl⟩
  · exact marksKept_of_ctxs rfl

theorem coreFault_ctxs (d : Deck) (i : Nat) (st : Status) (e : BitVec 2) (pc : BitVec 13) : (coreFault d i st e pc).ctxs = d.ctxs := by
  unfold coreFault
  dsimp only
  split
  · exact stopCores_ctxs _ _
  · split <;> exact stopCores_ctxs _ _

theorem retireOn_ctxs (d : Deck) (i : Nat) (c : Core) (w : Nat) : (retireOn d i c w).ctxs = d.ctxs := by
  unfold retireOn
  dsimp only
  split
  · exact coreFault_ctxs _ _ _ _ _
  · rfl

theorem releaseCore_ctxs (d : Deck) (i : Nat) (sd : BitVec 5) (st : Status) : (releaseCore d i sd st).ctxs = d.ctxs := by
  unfold releaseCore
  dsimp only
  split
  · exact coreFault_ctxs _ _ _ _ _
  · exact retireOn_ctxs _ _ _ _

theorem evalWaiters_ctxs (ws : List Waiter) (d : Deck) : (evalWaiters ws d).1.ctxs = d.ctxs := by
  induction ws generalizing d with
  | nil => rfl
  | cons w rest ih =>
    unfold evalWaiters
    split
    · exact ih d
    split
    · exact ih d
    dsimp only
    split
    · exact (ih _).trans (releaseCore_ctxs _ _ _ _)
    · rw [ih, endEntry_parts]

theorem marksKept_settleFuel (fuel : Nat) (d : Deck) (ups : List ObjUpd) : marksKept d (settleFuel fuel d ups).1 := by
  induction fuel generalizing d ups with
  | zero => exact marksKept_of_ctxs rfl
  | succ n ih =>
    cases ups with
    | nil => exact marksKept_of_ctxs rfl
    | cons u rest =>
      have hcycle : marksKept d ((cycleOrder (u :: rest)).foldl objUpdate d) :=
        List.foldlRecOn (motive := marksKept d) _ _ (marksKept_of_ctxs rfl)
          (fun t ht v _ => marksKept_trans ht (marksKept_objUpdate t v))
      exact marksKept_trans (marksKept_trans hcycle (marksKept_of_ctxs (evalWaiters_ctxs _ _))) (ih _ _)

/-- Updates of objects, with all they release, keep every context's marks. -/
theorem marksKept_settle (d : Deck) (ups : List ObjUpd) : marksKept d (settle d ups).1 := marksKept_settleFuel _ d ups

theorem settle_mem (d : Deck) (ups : List ObjUpd) : (settle d ups).1.mem = d.mem := by rw [(tame_settle d ups).1]

theorem deckAt_settleAt (s : State) (d : Nat) (ups : List ObjUpd) : deckAt (settleAt s d ups) d = (settle (deckAt s d) ups).1 :=
  (hostFrame_deckAt (putDeck_replies s d _ (tame_settle (deckAt s d) ups).2) d).trans (deckAt_setDeck _ _ _)

theorem settleAt_churn (s : State) (d : Nat) (ups : List ObjUpd) : (settleAt s d ups).churn = s.churn := putDeck_churn _ _ _

/-- An object that a collective's end may reach and that nobody waits on. -/
def freeObj (d : Deck) (o : Nat) : Prop := objAlloc d o = true ∧ objWaited d o = false

theorem objAt_settle_signal {d : Deck} {o : Nat} {amt : BitVec 16} (h : freeObj d o)
    (hsum : (objAt d o).count.toNat + amt.toNat < 2 ^ 32) :
    (objAt (settle d [.signal o (amt.setWidth 32)]).1 o).count.toNat = (objAt d o).count.toNat + amt.toNat := by
  obtain ⟨ha, hw⟩ := h
  have hamt : (amt.setWidth 32).toNat = amt.toNat := BitVec.toNat_setWidth_of_le (by decide)
  rw [settle_quiet d (.signal o (amt.setWidth 32)) hw, objCount_signal d o _ ha (by rwa [hamt]), BitVec.toNat_add, hamt,
    Nat.mod_eq_of_lt hsum]

theorem objAt_settle_poison {d : Deck} {o : Nat} (st : Status) (vote : Bool) (h : freeObj d o) :
    (objAt (settle d [.poison o st vote]).1 o).poison = true ∧ (objAt (settle d [.poison o st vote]).1 o).status = st := by
  obtain ⟨ha, hw⟩ := h
  have hobj := objAt_objUpdate d (.poison o st vote) ha
  rw [settle_quiet d (.poison o st vote) hw]
  exact ⟨congrArg SyncObj.poison hobj, congrArg SyncObj.status hobj⟩

/-! ### The result at DST (R282, R388, R404) -/

/-- No dead page in a range, none in a part of it. -/
theorem deadPages_nil_mono {d : Deck} {a n a' n' : Nat} (h : deadPages d a n = []) (h1 : a ≤ a') (h2 : a' + n' ≤ a + n) :
    deadPages d a' n' = [] := by
  have hin : ∀ p, inPages a' n' p = true → inPages a n p = true := by
    intro p hp
    simp only [inPages, Bool.and_eq_true, decide_eq_true_eq] at hp ⊢
    omega
  refine List.eq_nil_of_subset_nil (fun p hp => ?_)
  rw [← h]
  rw [deadPages_eq] at hp ⊢
  split at hp
  · rw [if_pos ‹_›]
    rcases List.mem_append.1 hp with hp | hp
    · exact List.mem_append_left _ (retiredPages_mono d hin hp)
    · obtain ⟨h1, h2⟩ := Bool.and_eq_true_iff.1 (List.mem_filter.1 hp).2
      have hp := hin p h1
      refine List.mem_append_right _ (List.mem_filter.2 ⟨List.mem_map.2 ⟨p - a / 4096, List.mem_range.2 ?_, ?_⟩,
        Bool.and_eq_true_iff.2 ⟨hp, h2⟩⟩)
      · simp only [inPages, Bool.and_eq_true, decide_eq_true_eq] at hp
        omega
      · simp only [inPages, Bool.and_eq_true, decide_eq_true_eq] at hp
        omega
  · rw [if_neg ‹_›]
    exact retiredPages_mono d hin hp

/-- A range that the gate lets through, and so each part of it. -/
theorem gateRefuses_mono {d : Deck} {a n a' n' : Nat} (h : gateRefuses d a n = false) (h1 : a ≤ a') (h2 : a' + n' ≤ a + n) :
    gateRefuses d a' n' = false := by
  refine Bool.eq_false_iff.2 fun hpart => ?_
  obtain ⟨e, he, hhit⟩ := List.any_eq_true.1 hpart
  refine Bool.false_ne_true (h.symm.trans (List.any_eq_true.2 ⟨e, he, ?_⟩))
  simp only [Bool.and_eq_true, decide_eq_true_eq] at hhit ⊢
  obtain ⟨⟨hclosed, hlow⟩, hhigh⟩ := hhit
  exact ⟨⟨hclosed, by omega⟩, by omega⟩

/-- The write of one packet into stack memory that the deck and the gate let through. -/
theorem churnWrite_stack {s : State} {d a n : Nat} (m : Cells) (hend : a + n ≤ memEnd) (hu : memUp (deckAt s d) = true)
    (hg : gateRefuses (deckAt s d) a n = false) (hw : memWriteSt (deckAt s d) a n = stGood) :
    churnWrite s d [(a, n, m)] = (stGood, setDeck s d (memWrite (deckAt s d) a n m)) := by
  simp only [churnWrite, List.any_cons, List.any_nil, hg, Bool.or_false, Bool.and_false, Bool.false_eq_true, if_false,
    List.foldl_cons, List.foldl_nil, if_pos hend, hu, Bool.not_true, hw]
  rfl

theorem memFrame_refl (d : Deck) : memFrame d d := rfl

theorem memFrame_trans {a b c : Deck} (h1 : memFrame a b) (h2 : memFrame b c) : memFrame a c := by
  unfold memFrame at *
  rw [h2, h1]

theorem freeObj_memFrame {d d' : Deck} (h : memFrame d d') {o : Nat} (hfree : freeObj d o) : freeObj d' o := by
  unfold freeObj
  rw [objAlloc_memFrame h, objWaited_memFrame h]
  exact hfree

theorem memUp_memFrame {d d' : Deck} (h : memFrame d d') : memUp d' = memUp d := by
  rw [h]
  rfl

theorem gateRefuses_memFrame {d d' : Deck} (h : memFrame d d') (a n : Nat) : gateRefuses d' a n = gateRefuses d a n := by
  rw [h]
  rfl

/-- `t` is `s` but for the memory of decks; in deck `d` no other page is dead, and the first `b` bytes of `m` stand at `a`. -/
def holdsBytes (s t : State) (d a b : Nat) (m : Cells) : Prop :=
  t = { s with decks := t.decks } ∧ memFrame (deckAt s d) (deckAt t d) ∧
    (∀ x n, deadPages (deckAt t d) x n = deadPages (deckAt s d) x n) ∧ ∀ x, x < b → deckByte t d (a + x) = cellGet m x

/-- The next packet of a result. -/
def storePiece (c : Coll) (n : Nat) (m : Cells) (r : Status × State) (i : Nat) : Status × State :=
  let q := churnWrite r.2 c.deck [(c.desc.dst + 512 * i, min 512 (n - 512 * i), mapSlice m (512 * i) (min 512 (n - 512 * i)))]
  (firstError r.1 q.1, q.2)

theorem storeBytes_eq (s : State) (c : Coll) (n : Nat) (m : Cells) :
    storeBytes s c n m = (List.range ((n + 511) / 512)).foldl (storePiece c n m) (stGood, s) := rfl

section
variable {s : State} {c : Coll} {n : Nat} {m : Cells} (hend : c.desc.dst + n ≤ memEnd) (hu : memUp (deckAt s c.deck) = true)
  (hg : gateRefuses (deckAt s c.deck) c.desc.dst n = false) (hw : memWriteSt (deckAt s c.deck) c.desc.dst n = stGood)
include hend hu hg hw

theorem storePiece_holds {t : State} {i : Nat} (hi : 512 * i < n) (h : holdsBytes s t c.deck c.desc.dst (512 * i) m) :
    ∃ t', storePiece c n m (stGood, t) i = (stGood, t') ∧ holdsBytes s t' c.deck c.desc.dst (min (512 * (i + 1)) n) m := by
  obtain ⟨hst, hf, hdead, hbytes⟩ := h
  have hlow : c.desc.dst ≤ c.desc.dst + 512 * i := by omega
  have hhigh : c.desc.dst + 512 * i + min 512 (n - 512 * i) ≤ c.desc.dst + n := by omega
  have hgood : memWriteSt (deckAt t c.deck) (c.desc.dst + 512 * i) (min 512 (n - 512 * i)) = stGood :=
    (memWriteSt_good _ _ _).2 ((hdead _ _).trans (deadPages_nil_mono ((memWriteSt_good _ _ _).1 hw) hlow hhigh))
  have hwrite := churnWrite_stack (mapSlice m (512 * i) (min 512 (n - 512 * i))) (by omega) ((memUp_memFrame hf).trans hu)
    ((gateRefuses_memFrame hf _ _).trans (gateRefuses_mono hg hlow hhigh)) hgood
  refine ⟨setDeck t c.deck (memWrite (deckAt t c.deck) (c.desc.dst + 512 * i) (min 512 (n - 512 * i))
    (mapSlice m (512 * i) (min 512 (n - 512 * i)))), by rw [storePiece, hwrite]; rfl, ?_, ?_, fun x l => ?_, fun x hx => ?_⟩
  · rw [setDeck, hst]
  · rw [deckAt_setDeck]
    exact memFrame_trans hf (memWrite_frame _ _ _ _)
  · rw [deckAt_setDeck, deadPages_memWrite, hdead]
  · rw [deckByte, deckAt_setDeck, cellGet_memWrite _ _ _ _ hgood]
    by_cases hnew : 512 * i ≤ x
    · rw [if_pos (by omega), cellGet, mapGet_slice, if_pos (by omega), show 512 * i + (c.desc.dst + x - (c.desc.dst + 512 * i)) = x by omega]
      rfl
    · rw [if_neg (by omega)]
      exact hbytes x (by omega)

/-- Packet by packet, a result that deck and gate let through stands at DST. -/
theorem storeBytes_holds : ∃ t, storeBytes s c n m = (stGood, t) ∧ holdsBytes s t c.deck c.desc.dst n m := by
  have upto : ∀ j, j ≤ (n + 511) / 512 → ∃ t, (List.range j).foldl (storePiece c n m) (stGood, s) = (stGood, t) ∧
      holdsBytes s t c.deck c.desc.dst (min (512 * j) n) m := by
    intro j
    induction j with
    | zero => exact fun _ => ⟨s, rfl, rfl, memFrame_refl _, fun _ _ => rfl, fun x hx => absurd hx (by omega)⟩
    | succ j ih =>
      intro hj
      obtain ⟨t, ht, hold⟩ := ih (by omega)
      rw [Nat.min_eq_left (by omega)] at hold
      rw [List.range_succ, List.foldl_append, ht]
      exact storePiece_holds hend hu hg hw (by omega) hold
  obtain ⟨t, ht, hold⟩ := upto ((n + 511) / 512) (Nat.le_refl _)
  rw [Nat.min_eq_right (by omega)] at hold
  exact ⟨t, (storeBytes_eq s c n m).trans ht, hold⟩

end

/-- What COLL_COMPLETE does about the result: where it is summed in place it stands at DST already. -/
def resultStored (s : State) (c : Coll) : Status × State :=
  if inPlace c.desc then (stGood, s)
  else storeBytes s c (dstBytes (geoOf s c.deck) c.desc) (resultBytes (geoOf s c.deck) c)

/-- DST, where a result has still to go there, lies in reachable stack memory that the gate leaves open and that has no dead
page. -/
def dstTakes (s : State) (c : Coll) : Prop :=
  inPlace c.desc = false → c.desc.dst + dstBytes (geoOf s c.deck) c.desc ≤ memEnd ∧ memUp (deckAt s c.deck) = true ∧
    gateRefuses (deckAt s c.deck) c.desc.dst (dstBytes (geoOf s c.deck) c.desc) = false ∧
    memWriteSt (deckAt s c.deck) c.desc.dst (dstBytes (geoOf s c.deck) c.desc) = stGood

theorem resultStored_good {s : State} {c : Coll} (h : dstTakes s c) :
    ∃ t, resultStored s c = (stGood, t) ∧ t = { s with decks := t.decks } ∧ memFrame (deckAt s c.deck) (deckAt t c.deck) ∧
      (inPlace c.desc = false → ∀ x, x < dstBytes (geoOf s c.deck) c.desc →
        deckByte t c.deck (c.desc.dst + x) = cellGet (resultBytes (geoOf s c.deck) c) x) := by
  by_cases hin : inPlace c.desc = true
  · exact ⟨s, if_pos hin, rfl, memFrame_refl _, fun hout => absurd hin (by rw [hout]; decide)⟩
  · obtain ⟨hend, hu, hg, hw⟩ := h (Bool.eq_false_iff.2 hin)
    obtain ⟨t, ht, hst, hf, -, hbytes⟩ := storeBytes_holds (m := resultBytes (geoOf s c.deck) c) hend hu hg hw
    exact ⟨t, (if_neg hin).trans ht, hst, hf, fun _ => hbytes⟩

/-! ### Completion (R404, R411 to R413) -/

/-- A deck whose context has recorded that its collective `c` ended with `st`. -/
def endRecorded (k : Deck) (c : Coll) (st : Status) : Deck :=
  setCtx k c.ctx.toNat { ctxAt k c.ctx.toNat with
    running := (ctxAt k c.ctx.toNat).running.erase c.desc.slot, lastStatus := st, lastSlot := c.desc.slot, lastSeq := c.desc.seq }

theorem deckAt_recordEnd (s : State) (c : Coll) (st : Status) :
    deckAt (recordEnd s c st) c.deck = endRecorded (deckAt s c.deck) c st := deckAt_modDeck s c.deck _

/-- The member completes GOOD. -/
def doneRecorded (s : State) (c : Coll) : State := recordEnd (putColl s { c with done := true }) c stGood

theorem deckAt_doneRecorded (s : State) (c : Coll) : deckAt (doneRecorded s c) c.deck = endRecorded (deckAt s c.deck) c stGood :=
  deckAt_recordEnd (putColl s { c with done := true }) c stGood

theorem completeGood_eq (s : State) (c : Coll) :
    completeGood s c = settleAt (doneRecorded s c) c.deck [.signal c.desc.cobj.toNat (c.desc.amt.setWidth 32)] := rfl

/-- A member that completes is done; no byte changes, and its object is signalled by AMT. -/
theorem completeGood_spec {s : State} {k : CollRef} {c : Coll} (hc : collAt s k = some c) :
    collAt (completeGood s c) k = some { c with done := true } ∧
      (deckAt (completeGood s c) c.deck).mem = (deckAt s c.deck).mem ∧
      (freeObj (deckAt s c.deck) c.desc.cobj.toNat →
        (objAt (deckAt s c.deck) c.desc.cobj.toNat).count.toNat + c.desc.amt.toNat < 2 ^ 32 →
        (objAt (deckAt (completeGood s c) c.deck) c.desc.cobj.toNat).count.toNat =
          (objAt (deckAt s c.deck) c.desc.cobj.toNat).count.toNat + c.desc.amt.toNat) := by
  have hn : namedBy k c := collAt_key hc
  rw [completeGood_eq, deckAt_settleAt, deckAt_doneRecorded]
  refine ⟨?_, settle_mem _ _, fun hfree hsum => objAt_settle_signal hfree hsum⟩
  rw [collAt_of_churn (settleAt_churn _ _ _)]
  exact collAt_put (c := { c with done := true }) hc hn

/-- A member may complete: it runs well, has used every chunk and has every report, and the deadline has not passed. -/
def mayComplete (s : State) (c : Coll) : Prop :=
  runningWell c ∧ c.done = false ∧ c.used.length = recvChunks c.desc (collPlan s c) ∧
    (reportsDue s c).all (fun r => mapGet false c.reports r) = true ∧ hallNs s ≤ deadlineNs s c.desc.slot c.tstep

theorem not_completeBarred {s : State} {c : Coll} (h : mayComplete s c) :
    (c.done || c.silent || !c.granted || !c.learned.isEmpty || c.used.length != recvChunks c.desc (collPlan s c) ||
      !(reportsDue s c).all (fun r => mapGet false c.reports r) || decide (deadlineNs s c.desc.slot c.tstep < hallNs s)) = false := by
  obtain ⟨⟨hg, hl, hs⟩, hd, hused, hrep, htime⟩ := h
  rw [hg, hl, hs, hd, hused, hrep, decide_eq_false (Nat.not_lt.2 htime)]
  simp

section
variable {s : State} {k : CollRef} {c : Coll} (hc : collAt s k = some c) (hm : mayComplete s c)
include hc hm

theorem opCollComplete_vote (hop : c.desc.op = 6) : opCollComplete s k = completeVote s c := by
  simp only [opCollComplete, hc, not_completeBarred hm, Bool.false_eq_true, if_false, if_pos hop]

theorem opCollComplete_good {t : State} (h6 : c.desc.op ≠ 6) (h7 : c.desc.op ≠ 7) (hu : c.undel = 0)
    (hr : resultStored s c = (stGood, t)) : opCollComplete s k = completeGood t c := by
  have hshard : ¬ ((!c.checked) = true ∧ shardCheck s c ≠ stGood) := fun h => h.2 (if_pos h7)
  have hundel : ¬ c.undel ≠ 0 := fun h => h hu
  unfold resultStored at hr
  simp only [opCollComplete, hc, not_completeBarred hm, Bool.false_eq_true, if_false, if_neg h6, if_neg hshard, hr, if_neg hundel,
    if_neg h7, ne_eq, not_true_eq_false]

end

/-! ### A vote (R281, R284, R411, R412) -/

/-- The context of a vote that has its final record `v`. -/
def voteNoted (k : Deck) (c : Coll) (v : Nat) : Deck :=
  setCtx k c.ctx.toNat { ctxAt k c.ctx.toNat with
    voteNbad := BitVec.ofNat 32 (bits v 0 32), voteStatus := BitVec.ofNat 16 (bits v 32 16),
    voteMember := BitVec.ofNat 32 (bits v 64 32), voteColl := 0 }

/-- A vote whose final record stands in its context. -/
def voteRecorded (s : State) (c : Coll) : State :=
  modDeck (doneRecorded s c) c.deck (fun d => voteNoted d c (readNat c.acc 0 16))

/-- The hold after a vote without a bad member: the next step, and the gate opens, at once or after the snapshot's copy. -/
def stepMoved (h : Hold) : Hold :=
  if h.snapState = 1 then { h with step := h.step + 1, attempt := 0, opening := true }
  else { h with step := h.step + 1, attempt := 0, gate := 1 }

theorem completeVote_passes {s : State} {c : Coll} (h : bits (readNat c.acc 0 16) 0 32 = 0) :
    completeVote s c = settleAt (modHold (voteRecorded s c) c.deck c.ctx.toNat stepMoved) c.deck
      [.signal c.desc.cobj.toNat (c.desc.amt.setWidth 32)] := if_pos h

theorem completeVote_fails {s : State} {c : Coll} (h : bits (readNat c.acc 0 16) 0 32 ≠ 0) :
    completeVote s c = voteFails (voteRecorded s c) c 0 := if_neg h

theorem deckAt_modHold (s : State) (d x : Nat) (f : Hold → Hold) :
    deckAt (modHold s d x f) d = setHold (deckAt s d) x (f (ctxAt (deckAt s d) x).hold) := deckAt_modDeck s d _

theorem stepMoved_marks (h : Hold) : (stepMoved h).step = h.step + 1 ∧ (stepMoved h).attempt = 0 := by
  unfold stepMoved
  split <;> exact ⟨rfl, rfl⟩

/-- Recording a vote keeps the hold of its context. -/
theorem hold_voteRecorded (s : State) (c : Coll) :
    (ctxAt (deckAt (voteRecorded s c) c.deck) c.ctx.toNat).hold = (ctxAt (deckAt s c.deck) c.ctx.toNat).hold := by
  rw [voteRecorded, deckAt_modDeck, voteNoted, ctxAt_setCtx, deckAt_doneRecorded, endRecorded, ctxAt_setCtx]

theorem freeObj_voteRecorded {s : State} {c : Coll} {o : Nat} (h : freeObj (deckAt s c.deck) o) :
    freeObj (deckAt (voteRecorded s c) c.deck) o := by
  rw [voteRecorded, deckAt_modDeck, deckAt_doneRecorded]
  exact h

/-- A vote without a bad member moves STEP on and sets ATTEMPT 0. -/
theorem completeVote_passes_marks {s : State} {c : Coll} (h : bits (readNat c.acc 0 16) 0 32 = 0) :
    (ctxAt (deckAt (completeVote s c) c.deck) c.ctx.toNat).hold.step = (ctxAt (deckAt s c.deck) c.ctx.toNat).hold.step + 1 ∧
      (ctxAt (deckAt (completeVote s c) c.deck) c.ctx.toNat).hold.attempt = 0 := by
  obtain ⟨-, -, hstep, hatt⟩ := marksKept_settle (deckAt (modHold (voteRecorded s c) c.deck c.ctx.toNat stepMoved) c.deck)
    [.signal c.desc.cobj.toNat (c.desc.amt.setWidth 32)] c.ctx.toNat
  obtain ⟨mstep, matt⟩ := stepMoved_marks (ctxAt (deckAt s c.deck) c.ctx.toNat).hold
  rw [completeVote_passes h, deckAt_settleAt, hstep, hatt, deckAt_modHold, ctxAt_setHold, hold_voteRecorded]
  exact ⟨mstep, matt⟩

theorem voteFailed_spec (s : State) (c : Coll) (coll : Status) :
    (ctxAt (deckAt (voteFailed s c coll) c.deck) c.ctx.toNat).hold.attempt =
      (ctxAt (deckAt s c.deck) c.ctx.toNat).hold.attempt + 1 ∧
    ∀ o, freeObj (deckAt s c.deck) o → freeObj (deckAt (voteFailed s c coll) c.deck) o := by
  rw [voteFailed]
  dsimp only
  rw [deckAt_modDeck, deckAt_modHold, ctxAt_setCtx, ctxAt_setHold]
  exact ⟨rfl, fun _ h => h⟩

/-- A failed vote raises ATTEMPT and poisons its object. -/
theorem voteFails_spec (s : State) (c : Coll) (coll : Status) :
    (ctxAt (deckAt (voteFails s c coll) c.deck) c.ctx.toNat).hold.attempt =
      (ctxAt (deckAt s c.deck) c.ctx.toNat).hold.attempt + 1 ∧
    (freeObj (deckAt s c.deck) c.desc.cobj.toNat →
      (objAt (deckAt (voteFails s c coll) c.deck) c.desc.cobj.toNat).poison = true ∧
      (objAt (deckAt (voteFails s c coll) c.deck) c.desc.cobj.toNat).status = stVoteFailed) := by
  obtain ⟨hatt, hfree⟩ := voteFailed_spec s c coll
  obtain ⟨-, -, -, hkept⟩ := marksKept_settle (deckAt (voteFailed s c coll) c.deck)
    [.poison c.desc.cobj.toNat stVoteFailed true] c.ctx.toNat
  rw [voteFails, deckAt_settleAt, hkept]
  exact ⟨hatt, fun h => objAt_settle_poison _ _ (hfree _ h)⟩

/-- A vote with a bad member raises ATTEMPT and poisons its object. -/
theorem completeVote_fails_marks {s : State} {c : Coll} (h : bits (readNat c.acc 0 16) 0 32 ≠ 0) :
    (ctxAt (deckAt (completeVote s c) c.deck) c.ctx.toNat).hold.attempt =
      (ctxAt (deckAt s c.deck) c.ctx.toNat).hold.attempt + 1 ∧
    (freeObj (deckAt s c.deck) c.desc.cobj.toNat →
      (objAt (deckAt (completeVote s c) c.deck) c.desc.cobj.toNat).poison = true ∧
      (objAt (deckAt (completeVote s c) c.deck) c.desc.cobj.toNat).status = stVoteFailed) := by
  obtain ⟨hatt, hpoison⟩ := voteFails_spec (voteRecorded s c) c 0
  rw [completeVote_fails h]
  exact ⟨hatt.trans (congrArg (fun x : Hold => x.attempt + 1) (hold_voteRecorded s c)),
    fun hfree => hpoison (freeObj_voteRecorded hfree)⟩

end Sys2Proof.Machine
end

section
/-! SUPPORT. The deadline of a collective and the slack after it (O38). -/
namespace Sys2Proof.Machine
open Sys2Proof

/-! ### The deadline (R83, R402, R405 to R407, R412) -/

/-- A member at its deadline: a chunk asked for again that has not come gives CHECK_FAILED. -/
def lateNoted (c : Coll) : Coll :=
  { c with learned := if awaitsResend c && !c.silent then c.learned ++ [stCheckFailed] else c.learned }

theorem learnLate_spec {s : State} {k : CollRef} {c : Coll} (hc : collAt s k = some c) (hd : c.done = false) :
    collAt (learnLate s c) k = some (lateNoted c) ∧ (learnLate s c).decks = s.decks := by
  unfold learnLate lateNoted
  split
  · have hframe := churnFrame_learn s c stCheckFailed
    exact ⟨collAt_learn s k c stCheckFailed hc hd, by rw [hframe]⟩
  · exact ⟨hc, rfl⟩

/-- The axis fence of a member that ends FENCED_MEMBER stands in its context. -/
def fenceNoted (s : State) (c : Coll) (st : Status) : State :=
  if st = stFencedMember then modDeck s c.deck (fun d =>
    setCtx d c.ctx.toNat { ctxAt d c.ctx.toNat with undel := c.undel, undelAxis := c.undelAxis })
  else s

theorem freeObj_fenceNoted {s : State} {c : Coll} {st : Status} {o : Nat} (h : freeObj (deckAt s c.deck) o) :
    freeObj (deckAt (fenceNoted s c st) c.deck) o := by
  unfold fenceNoted
  split
  · rw [deckAt_modDeck]
    exact h
  · exact h

theorem opCollDeadline_due {s : State} {k : CollRef} {c : Coll} (hc : collAt s k = some c)
    (hdue : deadlineNs s c.desc.slot c.tstep ≤ hallNs s) (hd : c.done = false) :
    opCollDeadline s k = endColl (fenceNoted (dropLanded (learnLate s c) c.desc.slot) (lateNoted c) (finalStatus (lateNoted c).learned))
      (lateNoted c) (finalStatus (lateNoted c).learned) := by
  have hlate : collAt (dropLanded (learnLate s c) c.desc.slot) k = some (lateNoted c) := (learnLate_spec hc hd).1
  simp only [opCollDeadline, hc, if_neg (Nat.not_lt.2 hdue), hd, Bool.false_eq_true, if_false, hlate, Option.getD_some]
  rfl

theorem opCollDeadline_done {s : State} {k : CollRef} {c : Coll} (hc : collAt s k = some c)
    (hdue : deadlineNs s c.desc.slot c.tstep ≤ hallNs s) (hd : c.done = true) :
    opCollDeadline s k = dropColl (dropLanded s c.desc.slot) c := by
  simp only [opCollDeadline, hc, if_neg (Nat.not_lt.2 hdue), hd, if_true]

theorem opCollDeadline_early {s : State} {k : CollRef} {c : Coll} (hc : collAt s k = some c)
    (hearly : hallNs s < deadlineNs s c.desc.slot c.tstep) : opCollDeadline s k = s := by
  simp only [opCollDeadline, hc, if_pos hearly]

/-- The end of a member that answers for it: recorded, and counted at the ports of its sailings. -/
def endNoted (s : State) (c : Coll) (st : Status) : State :=
  ((collPlan s c).sends.map (·.port)).eraseDups.foldl (fun s p =>
    modPort s p (fun q => { q with tt := { q.tt with slotEnded := satInc q.tt.slotEnded } })) (recordEnd (dropColl s c) c st)

theorem endNoted_frame (s : State) (c : Coll) (st : Status) :
    (endNoted s c st).churn = (dropColl s c).churn ∧ (endNoted s c st).decks = (recordEnd s c st).decks :=
  List.foldlRecOn (motive := fun t : State => t.churn = (dropColl s c).churn ∧ t.decks = (recordEnd s c st).decks) _ _
    ⟨rfl, rfl⟩ (fun _ ht _ _ => ht)

theorem deckAt_endNoted (s : State) (c : Coll) (st : Status) :
    deckAt (endNoted s c st) c.deck = endRecorded (deckAt s c.deck) c st := by
  rw [deckAt, (endNoted_frame s c st).2]
  exact deckAt_recordEnd s c st

theorem endColl_silent {s : State} {c : Coll} (st : Status) (hs : c.silent = true) : endColl s c st = dropColl s c := by
  simp only [endColl, hs, if_true]

theorem endColl_answers {s : State} {c : Coll} (st : Status) (hs : c.silent = false) : endColl s c st =
    if c.desc.op = 6 then voteFails (endNoted s c st) c st
    else settleAt (endNoted s c st) c.deck [.poison c.desc.cobj.toNat st false] := by
  simp only [endColl, hs, Bool.false_eq_true, if_false]
  rfl

/-- A member that ends leaves. -/
theorem collAt_endColl {s : State} {k : CollRef} {c : Coll} (hn : namedBy k c) (st : Status) : collAt (endColl s c st) k = none := by
  cases hs : c.silent with
  | true =>
    rw [endColl_silent st hs]
    exact collAt_dropColl hn
  | false =>
    have hgone : collAt (endNoted s c st) k = none := (collAt_of_churn (endNoted_frame s c st).1 k).trans (collAt_dropColl hn)
    rw [endColl_answers st hs]
    split
    · exact (collAt_of_churn (settleAt_churn (voteFailed (endNoted s c st) c st) _ _) k).trans hgone
    · exact (collAt_of_churn (settleAt_churn _ _ _) k).trans hgone

/-- What the end of a member leaves in its context and its object. -/
theorem endColl_spec {s : State} {c : Coll} (st : Status) (hs : c.silent = false) (hop : c.desc.op ≠ 6) :
    (ctxAt (deckAt (endColl s c st) c.deck) c.ctx.toNat).lastStatus = st ∧
      (ctxAt (deckAt (endColl s c st) c.deck) c.ctx.toNat).lastSlot = c.desc.slot ∧
      (freeObj (deckAt s c.deck) c.desc.cobj.toNat →
        (objAt (deckAt (endColl s c st) c.deck) c.desc.cobj.toNat).poison = true) := by
  obtain ⟨hlast, hslot, -, -⟩ := marksKept_settle (endRecorded (deckAt s c.deck) c st) [.poison c.desc.cobj.toNat st false] c.ctx.toNat
  have hctx : ctxAt (endRecorded (deckAt s c.deck) c st) c.ctx.toNat = _ := ctxAt_setCtx _ _ _
  have hobj : ∀ o, freeObj (deckAt s c.deck) o → freeObj (endRecorded (deckAt s c.deck) c st) o := fun _ h => h
  rw [endColl_answers st hs, if_neg hop, deckAt_settleAt, deckAt_endNoted, hlast, hslot, hctx]
  exact ⟨rfl, rfl, fun hfree => (objAt_settle_poison st false (hobj _ hfree)).1⟩

/-- COLL_DEADLINE from the deadline on. -/
theorem opCollDeadline_spec {s : State} {k : CollRef} {c : Coll} (hc : collAt s k = some c)
    (hdue : deadlineNs s c.desc.slot c.tstep ≤ hallNs s) :
    collAt (opCollDeadline s k) k = none ∧ (c.done = true → (opCollDeadline s k).decks = s.decks) ∧
      (c.done = false → c.silent = false → c.desc.op ≠ 6 →
        (ctxAt (deckAt (opCollDeadline s k) c.deck) c.ctx.toNat).lastStatus =
          finalStatus (if awaitsResend c then c.learned ++ [stCheckFailed] else c.learned) ∧
        (ctxAt (deckAt (opCollDeadline s k) c.deck) c.ctx.toNat).lastSlot = c.desc.slot ∧
        (freeObj (deckAt s c.deck) c.desc.cobj.toNat →
          (objAt (deckAt (opCollDeadline s k) c.deck) c.desc.cobj.toNat).poison = true)) := by
  have hn : namedBy k c := collAt_key hc
  cases hd : c.done with
  | true =>
    rw [opCollDeadline_done hc hdue hd]
    exact ⟨collAt_dropColl hn, fun _ => rfl, fun h => absurd h (by decide)⟩
  | false =>
    rw [opCollDeadline_due hc hdue hd]
    refine ⟨collAt_endColl hn _, fun h => absurd h (by decide), fun _ hs hop => ?_⟩
    obtain ⟨hlast, hslot, hpoison⟩ := endColl_spec (s := fenceNoted (dropLanded (learnLate s c) c.desc.slot) (lateNoted c)
      (finalStatus (lateNoted c).learned)) (c := lateNoted c) (finalStatus (lateNoted c).learned) hs hop
    have hdeck : deckAt (dropLanded (learnLate s c) c.desc.slot) c.deck = deckAt s c.deck :=
      congrArg (mapGet ({} : Deck) · c.deck) (learnLate_spec hc hd).2
    refine ⟨hlast.trans ?_, hslot, fun hfree => hpoison (freeObj_fenceNoted ?_)⟩
    · rw [lateNoted, hs, Bool.not_false, Bool.and_true]
    · rw [show (lateNoted c).deck = c.deck from rfl, hdeck]
      exact hfree

/-! ### The slack after the deadline (R531) -/

theorem opCollSlack_within {s : State} {k : CollRef} {c : Coll} (hc : collAt s k = some c)
    (h : c.done = true ∨ c.silent = true ∨ hallNs s ≤ deadlineNs s c.desc.slot c.tstep + 1000 * s.rst.collSlackUs.toNat) :
    opCollSlack s k = s := by
  simp only [opCollSlack, hc]
  refine if_pos ?_
  simpa [or_assoc] using h

theorem opCollSlack_over {s : State} {k : CollRef} {c : Coll} (hc : collAt s k = some c) (hd : c.done = false) (hs : c.silent = false)
    (h : deadlineNs s c.desc.slot c.tstep + 1000 * s.rst.collSlackUs.toNat < hallNs s) (ha : actionOf s 4 = 0) :
    opCollSlack s k = counted s 4 := by
  simp only [opCollSlack, hc, hd, hs, decide_eq_false (Nat.not_le.2 h), Bool.or_self, Bool.false_eq_true, if_false]
  exact fireDetector_count s 4 _ _ _ ha

end Sys2Proof.Machine
end

section
/-! SETTLED. O38: buffers, chunks, re-sends, aborts, completion, deadline. -/
namespace Sys2Proof.Machine
open Sys2Proof

section
variable {s : State} {k : CollRef} {c : Coll} (hc : collAt s k = some c) (hw : collWaits s k = false)
include hc hw

/-- Members of one digest: the buffers are granted. -/
theorem exec_collBuffersGranted_agree (hm : mayGrant s c) (hd : (localMembers s c).any (fun e => e.digest != c.digest) = false)
    (hgood : c.summed = true ∨ (localLevel s c (localMembers s c)).1 = stGood) :
    ∃ t c', exec (.collBuffersGranted k) s = .next t ∧ collAt t k = some c' ∧ c'.granted = true ∧
      (inPlace c.desc = false → c'.learned = []) := by
  obtain ⟨c', hc', hspec⟩ := collAt_opBuffersGranted hc hm hd hgood
  exact ⟨_, c', exec_unheld hw rfl, hc', hspec⟩

/-- A member of another digest: MISMATCH. -/
theorem exec_collBuffersGranted_mismatch (hm : mayGrant s c) (hdone : c.done = false)
    (hd : (localMembers s c).any (fun e => e.digest != c.digest) = true) :
    ∃ t c', exec (.collBuffersGranted k) s = .next t ∧ collAt t k = some c' ∧ c'.learned = [stMismatch] := by
  obtain ⟨-, hlearned, -⟩ := id hm
  refine ⟨_, { c with learned := c.learned ++ [stMismatch] }, exec_unheld hw rfl, ?_, congrArg (· ++ [stMismatch]) hlearned⟩
  rw [opBuffersGranted_mismatch hc hm hd]
  exact collAt_learn s k c stMismatch hc hdone

section
variable {p : Fin 9} {chunk : BitVec 32} {ld off left n : Nat} {i : PlanItem}
  (hland : landingOf s p c.desc.slot chunk.toNat (2 ^ (12 + c.desc.chunkLog)) = some (ld, off, left))
  (hi : locate c.desc (portItems (collPlan s c).recvs p) chunk.toNat = some (i, n)) (hm : mayUse s c p chunk.toNat i)
include hland hi hm

/-- A chunk of another step is counted and dropped. -/
theorem exec_chunkLanded_otherStep (hstep : readNat (landedHead s ld off) 24 8 ≠ c.tstep) :
    ∃ t, exec (.chunkLanded k p chunk) s = .next t ∧ t.churn.stepDrop = satInc s.churn.stepDrop ∧
      t.churn.colls = s.churn.colls ∧ landedAt t p c.desc.slot chunk.toNat = {} ∧ t.decks = s.decks := by
  refine ⟨_, exec_unheld hw rfl, ?_⟩
  rw [opChunkLanded_otherStep hc hland hi hm hstep]
  exact ⟨rfl, rfl, landedAt_landedDropped s p c.desc.slot chunk.toNat, rfl⟩

/-- A chunk of another digest is counted and gives MISMATCH. -/
theorem exec_chunkLanded_otherDigest (hstep : readNat (landedHead s ld off) 24 8 = c.tstep)
    (hdig : readNat (landedHead s ld off) 0 4 ≠ c.digest.toNat) :
    ∃ t c', exec (.chunkLanded k p chunk) s = .next t ∧ t.churn.digestDrop = satInc s.churn.digestDrop ∧
      collAt t k = some c' ∧ c'.learned = [stMismatch] := by
  obtain ⟨⟨-, hlearned, -⟩, hdone, -⟩ := id hm
  have hcount : collAt (modChurn s (fun q => { q with digestDrop := satInc q.digestDrop })) k = some c := hc
  refine ⟨_, { c with learned := c.learned ++ [stMismatch] }, exec_unheld hw rfl, ?_, ?_, congrArg (· ++ [stMismatch]) hlearned⟩
  · rw [opChunkLanded_otherDigest hc hland hi hm hstep hdig, digestDrop_learn]
    rfl
  · rw [opChunkLanded_otherDigest hc hland hi hm hstep hdig]
    exact collAt_learn _ k c stMismatch hcount hdone

/-- A chunk that fails its CRC is asked for again, the first time. -/
theorem exec_chunkLanded_unsound (hstep : readNat (landedHead s ld off) 24 8 = c.tstep)
    (hdig : readNat (landedHead s ld off) 0 4 = c.digest.toNat) (hcrc : landedCrc s ld off ≠ readNat (landedHead s ld off) 4 4)
    (hen : s.churn.resendEn = true) (hnew : mapGet false c.asked (chunkKey p chunk.toNat) = false) :
    ∃ t c', exec (.chunkLanded k p chunk) s = .next t ∧ t.churn.requested = satInc s.churn.requested ∧ collAt t k = some c' ∧
      mapGet false c'.asked (chunkKey p chunk.toNat) = true := by
  obtain ⟨hreq, hasked⟩ := collAt_opChunkLanded_unsound hc hland hi hm hstep hdig hcrc hen hnew
  exact ⟨_, _, exec_unheld hw rfl, hreq, hasked, mapGet_set_same false c.asked (chunkKey p chunk.toNat) true⟩

/-- A sound chunk is used. -/
theorem exec_chunkLanded_sound (hstep : readNat (landedHead s ld off) 24 8 = c.tstep)
    (hdig : readNat (landedHead s ld off) 0 4 = c.digest.toNat) (hcrc : landedCrc s ld off = readNat (landedHead s ld off) 4 4) :
    ∃ t c', exec (.chunkLanded k p chunk) s = .next t ∧ collAt t k = some c' ∧
      mapGet false c'.used (chunkKey p chunk.toNat) = true := by
  obtain ⟨c', hused⟩ := collAt_opChunkLanded_sound hc hland hi hm hstep hdig hcrc
  exact ⟨_, c', exec_unheld hw rfl, hused⟩

end

/-- A collective complete in time: its result stands at DST, it is done, and its object is signalled. -/
theorem exec_collComplete_good (hm : mayComplete s c) (h6 : c.desc.op ≠ 6) (h7 : c.desc.op ≠ 7) (hu : c.undel = 0) (hdst : dstTakes s c) :
    ∃ t c', exec (.collComplete k) s = .next t ∧ collAt t k = some c' ∧ c'.done = true ∧
      (inPlace c.desc = false → ∀ x, x < dstBytes (geoOf s c.deck) c.desc →
        deckByte t c.deck (c.desc.dst + x) = cellGet (resultBytes (geoOf s c.deck) c) x) ∧
      (freeObj (deckAt s c.deck) c.desc.cobj.toNat →
        (objAt (deckAt s c.deck) c.desc.cobj.toNat).count.toNat + c.desc.amt.toNat < 2 ^ 32 →
        (objAt (deckAt t c.deck) c.desc.cobj.toNat).count.toNat =
          (objAt (deckAt s c.deck) c.desc.cobj.toNat).count.toNat + c.desc.amt.toNat) := by
  obtain ⟨r, hr, hst, hf, hbytes⟩ := resultStored_good hdst
  have hcr : collAt r k = some c := by
    rw [hst]
    exact hc
  obtain ⟨hdone, hmem, hobj⟩ := completeGood_spec hcr
  rw [objAt_memFrame hf] at hobj
  refine ⟨completeGood r c, _, ?_, hdone, rfl, fun hout x hx => ?_, fun hfree hsum => hobj (freeObj_memFrame hf hfree) hsum⟩
  · rw [exec_unheld hw rfl, opCollComplete_good hc hm h6 h7 hu hr]
  · rw [deckByte, hmem]
    exact hbytes hout x hx

/-- A vote moves STEP on, or raises ATTEMPT and poisons its object. -/
theorem exec_collComplete_vote (hm : mayComplete s c) (hop : c.desc.op = 6) :
    ∃ t, exec (.collComplete k) s = .next t ∧
      (bits (readNat c.acc 0 16) 0 32 = 0 →
        (ctxAt (deckAt t c.deck) c.ctx.toNat).hold.step = (ctxAt (deckAt s c.deck) c.ctx.toNat).hold.step + 1 ∧
        (ctxAt (deckAt t c.deck) c.ctx.toNat).hold.attempt = 0) ∧
      (bits (readNat c.acc 0 16) 0 32 ≠ 0 →
        (ctxAt (deckAt t c.deck) c.ctx.toNat).hold.attempt = (ctxAt (deckAt s c.deck) c.ctx.toNat).hold.attempt + 1 ∧
        (freeObj (deckAt s c.deck) c.desc.cobj.toNat → (objAt (deckAt t c.deck) c.desc.cobj.toNat).poison = true ∧
          (objAt (deckAt t c.deck) c.desc.cobj.toNat).status = stVoteFailed)) := by
  refine ⟨completeVote s c, ?_, completeVote_passes_marks, completeVote_fails_marks⟩
  rw [exec_unheld hw rfl, opCollComplete_vote hc hm hop]

end

/-- Settles O38: what holds a collective up is absent, so each command acts (`exec_unheld`); an entry goes on by
`collAt_advance` and `collAt_learn`, and what it leaves in memory, context and object comes from `storeBytes_holds`,
`completeGood_spec`, `voteFails_spec` and `endColl_spec`. -/
theorem collectivesGrantLandAndEnd : Obligations.CollectivesGrantLandAndEnd := by
  intro s k c hc hw d g ms pl live fits free o
  refine ⟨fun hg hl hs hd hlen hfits => ?_, ?_, ?_, ?_, ?_, fun hlive hd hused hrep htime => ?_, ?_, ?_, ?_, ?_⟩
  · have hm : mayGrant s c := ⟨hg, hl, hs, hlen, hfits⟩
    exact ⟨exec_collBuffersGranted_agree hc hw hm, exec_collBuffersGranted_mismatch hc hw hm hd⟩
  · intro p chunk i n hi hlive hfirst hbefore key hgone hnot hroom
    exact exec_chunkReady_stands hc hw hi hlive hfirst hbefore hgone hnot hroom
  · intro p chunk ld off left i n hland hi hlive hd hunused hwhole hbefore h data
    have hm : mayUse s c p chunk.toNat i := ⟨hlive, hd, hunused, hwhole, hbefore⟩
    exact ⟨exec_chunkLanded_otherStep hc hw hland hi hm, exec_chunkLanded_otherDigest hc hw hland hi hm,
      exec_chunkLanded_unsound hc hw hland hi hm, exec_chunkLanded_sound hc hw hland hi hm⟩
  · intro p n _ _ key here
    refine ⟨exec_churnResendReq_gone, fun hone => ⟨exec_churnResendReq_sends hone, fun hd hs hl hf => ?_⟩⟩
    exact ⟨_, _, rfl, collAt_opAbort (s := takeNotice s 0x0101 n.slot) hc hone hd hs hl hf, rfl⟩
  · intro p n hnobody
    exact ⟨_, rfl, opAbort_nobody (s := takeNotice s 0x0101 n.slot) hnobody⟩
  · have hm : mayComplete s c := ⟨hlive, hd, hused, hrep, htime⟩
    exact ⟨exec_collComplete_good hc hw hm, exec_collComplete_vote hc hw hm⟩
  · exact fun hearly => congrArg done (opCollDeadline_early hc hearly)
  · exact fun hdue => ⟨_, rfl, opCollDeadline_spec hc hdue⟩
  · exact fun hwithin => congrArg done (opCollSlack_within hc hwithin)
  · exact fun hd hs hover ha => congrArg done (opCollSlack_over hc hd hs hover ha)

end Sys2Proof.Machine
end

section
/-! SUPPORT. What a PKT frame, an acknowledgement, a NAK and a failed lane do to a port (O33). -/
namespace Sys2Proof.Machine
open Sys2Proof

/-! ### A PKT frame (R348, R352) -/

/-- A port that has accepted a frame. -/
def acceptedPort (q : Port) (f : PktFrame) : Port := { ackFrames q f.ack with rxSeq := q.rxSeq + 1 }

theorem acceptedPort_state (q : Port) (f : PktFrame) : (acceptedPort q f).state = q.state := by
  unfold acceptedPort ackFrames
  split <;> rfl

section
variable {s : State} {p : Nat} {f : PktFrame} (hq : (portAt s p).state = 2 ∨ (portAt s p).state = 3)
include hq

theorem takesFrames : ((portAt s p).state == 2 || (portAt s p).state == 3) = true := by
  simpa using hq

theorem opPktFrame_badCrc (hc : f.crcOk = false) : opPktFrame s p f =
    emit (setPort s p { portAt s p with crcErr := satInc (portAt s p).crcErr }) (.nak p (portAt s p).rxSeq) := by
  simp only [opPktFrame, takesFrames hq, hc, Bool.not_true, Bool.not_false, Bool.false_eq_true, if_true, if_false]

/-- A PKT frame with a good CRC is a violation, out of order, or accepted. -/
theorem opPktFrame_received (hc : f.crcOk = true) (ht : f.ftype = 0) : opPktFrame s p f =
    if !frameForm f then emit (portViolation s p) (.nak p (portAt s p).rxSeq)
    else if f.seq ≠ (portAt s p).rxSeq then emit s (.nak p (portAt s p).rxSeq)
    else emit (f.pkts.foldl (acceptPacket p) (setPort s p (acceptedPort (portAt s p) f))) (.idle p f.seq) := by
  simp only [opPktFrame, takesFrames hq, hc, ht, ne_eq, not_true, Bool.not_true, Bool.false_eq_true, if_false]
  rfl

end

/-- The first violation in a while is counted and does no more, unless none is allowed (R352). -/
theorem portViolation_first (s : State) (p : Nat) (hv : (portAt s p).violTimes = []) (hl : 0 < s.net.violLimit.toNat) :
    portViolation s p = setPort s p { portAt s p with violation := satInc (portAt s p).violation, violTimes := [clockNs s] } := by
  have hlow : ¬ (s.net.violLimit.toNat < [clockNs s].length ∧ (portAt s p).state = 3) := fun h => Nat.not_lt.2 hl h.1
  simp only [portViolation, hv, List.filter_nil, if_neg hlow]
  rfl

theorem frameForm_reserved {f : PktFrame} (h : f.formOk = false) : frameForm f = false := by
  simp [frameForm, h]

/-! ### The packets of an accepted frame (R361 to R363) -/

/-- A packet ends at module `own` when it is addressed to it, or of class S. -/
def endsHere (own : BitVec 17) (k : Packet) : Bool := decide (k.dst = own ∨ k.cls = .s)

/-- Only what has arrived and the router's queues differ. -/
def transitFrame (s t : State) : Prop :=
  t = { s with net := { s.net with arrived := t.net.arrived, queues := t.net.queues } }

theorem transitFrame_portAt {s t : State} (h : transitFrame s t) (j : Nat) : portAt t j = portAt s j := by
  rw [h]
  rfl

theorem acceptPacket_up {s : State} {p : Nat} (hup : (portAt s p).state = 3) (k : Packet) : acceptPacket p s k =
    if endsHere (ownModule s) k then modNet s (fun n => { n with arrived := n.arrived ++ [k] }) else enqueue s p k := by
  simp [acceptPacket, portTakes, hup, endsHere]

theorem transitFrame_acceptPacket (s : State) (p : Nat) (k : Packet) : transitFrame s (acceptPacket p s k) := by
  unfold acceptPacket
  split
  · rfl
  · split <;> rfl

/-- An UP port sorts the packets of a frame, in order: what ends here has arrived, the rest joins the transit queue. -/
theorem foldl_acceptPacket (ks : List Packet) {s : State} {p : Nat} (hup : (portAt s p).state = 3) :
    let t := ks.foldl (acceptPacket p) s
    transitFrame s t ∧ t.net.arrived = s.net.arrived ++ ks.filter (endsHere (ownModule s)) ∧
    mapGet [] t.net.queues p = mapGet [] s.net.queues p ++
      (ks.filter (fun k => !endsHere (ownModule s) k)).map (fun k => { pk := k, since := clockNs s }) := by
  induction ks generalizing s with
  | nil => simp [transitFrame]
  | cons k rest ih =>
    have hstep := transitFrame_acceptPacket s p k
    have hown : ownModule (acceptPacket p s k) = ownModule s := by rw [hstep]; rfl
    have hclock : clockNs (acceptPacket p s k) = clockNs s := by rw [hstep]; rfl
    obtain ⟨hf, ha, hqs⟩ := ih (s := acceptPacket p s k) (by rw [transitFrame_portAt hstep, hup])
    rw [hown] at ha hqs
    rw [hclock] at hqs
    refine ⟨?_, ?_, ?_⟩
    · rw [List.foldl_cons, transitFrame, hf, hstep]
    all_goals
      rw [List.foldl_cons]
      cases he : endsHere (ownModule s) k
    · rw [ha, acceptPacket_up hup, he, List.filter_cons_of_neg (by simp [he])]
      rfl
    · rw [ha, acceptPacket_up hup, he, List.filter_cons_of_pos he]
      simp
    · rw [hqs, acceptPacket_up hup, he, List.filter_cons_of_pos (by simp [he])]
      simp [enqueue, mapMod]
    · rw [hqs, acceptPacket_up hup, he, List.filter_cons_of_neg (by simp [he])]
      simp

/-! ### Acknowledgement and replay (R347, R348) -/

/-- The frames from the first one with number `seq` on. -/
theorem dropWhile_seq {a b : List ReplayFrame} {x : ReplayFrame} {seq : BitVec 16} (hx : x.seq = seq) (ha : ∀ y ∈ a, y.seq ≠ seq) :
    (a ++ x :: b).dropWhile (fun f => f.seq != seq) = x :: b := by
  rw [List.dropWhile_append_of_pos (fun y hy => bne_iff_ne.2 (ha y hy)), List.dropWhile_cons_of_neg (by simp [hx])]

/-- An acknowledgement frees the frame that it names and all before it. -/
theorem ackFrames_frees {q : Port} {a b : List ReplayFrame} {x : ReplayFrame} {ack : BitVec 16} (hq : q.replayBuf = a ++ x :: b)
    (hx : x.seq = ack) (ha : ∀ y ∈ a, y.seq ≠ ack) : ackFrames q ack = { q with replayBuf := b } := by
  have hany : (a ++ x :: b).any (fun f => f.seq == ack) = true := by simp [hx]
  rw [ackFrames, hq, if_pos hany, dropWhile_seq hx ha]
  rfl

/-- Things sent one after another stand in `out`, newest first. -/
theorem foldl_emit {α : Type} (g : α → Output) (xs : List α) (s : State) :
    xs.foldl (fun s x => emit s (g x)) s = { s with out := (xs.map g).reverse ++ s.out } := by
  induction xs generalizing s with
  | nil => rfl
  | cons x rest ih =>
    rw [List.foldl_cons, ih]
    simp [emit]

/-- The port whose sender replays the frames `fs`. -/
def replayingPort (q : Port) (fs : List ReplayFrame) : Port :=
  replayCost { q with replay := satInc q.replay, replayBuf := fs.map (fun f => { f with tries := f.tries + 1 }) } fs.length

theorem replayingPort_fields (q : Port) (fs : List ReplayFrame) : (replayingPort q fs).replay = satInc q.replay ∧
    (replayingPort q fs).replayBuf = fs.map (fun f => { f with tries := f.tries + 1 }) := by
  unfold replayingPort replayCost
  split <;> exact ⟨rfl, rfl⟩

section
variable {s : State} {p : Nat} {seq : BitVec 16} {a b : List ReplayFrame} {x : ReplayFrame}
  (hq : (portAt s p).replayBuf = a ++ x :: b) (hx : x.seq = seq) (ha : ∀ y ∈ a, y.seq ≠ seq)
include hq hx ha

theorem opNak_eq : opNak s p seq = if 8 ≤ x.tries then opPortLoss s p
    else (x :: b).foldl (fun t f => emit t (.frame p f.seq ((portAt s p).rxSeq - 1) f.pkts))
      (setPort s p (replayingPort (portAt s p) (x :: b))) := by
  simp only [opNak, hq, dropWhile_seq hx ha]
  rfl

theorem opNak_replays (ht : x.tries < 8) : opNak s p seq =
    { setPort s p (replayingPort (portAt s p) (x :: b)) with
      out := ((x :: b).map (fun f => Output.frame p f.seq ((portAt s p).rxSeq - 1) f.pkts)).reverse ++ s.out } := by
  rw [opNak_eq hq hx ha, if_neg (by omega), foldl_emit]
  rfl

theorem opNak_exhausted (ht : 8 ≤ x.tries) (hl : portLive (portAt s p) = true) : opNak s p seq = leavePort s p 0 (some 1) := by
  rw [opNak_eq hq hx ha, if_pos ht, opPortLoss_live s p hl]

end

/-! ### A failed lane (R337 to R341) -/

/-- The failed lanes and the width of the transmit (0) or receive (1) direction. -/
def failedLanes (dir : Nat) (q : Port) : BitVec 34 := if dir = 0 then q.failedTx else q.failedRx
def widthOf (dir : Nat) (q : Port) : BitVec 2 := if dir = 0 then q.widthTx else q.widthRx

/-- A port with failed lanes `m` and width `w` in one direction. -/
def withLanes (p dir : Nat) (m : BitVec 34) (w : BitVec 2) (q : Port) : Port :=
  if dir = 0 then { q with failedTx := m, widthTx := w, sparesTx := BitVec.ofNat 2 (sparesUsed p m) }
  else { q with failedRx := m, widthRx := w, sparesRx := BitVec.ofNat 2 (sparesUsed p m) }

/-- The receiver tells the sender of a failed lane (R337). -/
def laneReported (s : State) (p dir lane : Nat) : State := if dir = 0 then s else emit s (.laneFailed p lane)

section
variable {s : State} {p dir lane : Nat} (ht : portTrained (portAt s p) = true) (hl : lane < activeLanes p + 2)
  (hm : (failedLanes dir (portAt s p)).getLsbD lane = false)
include ht hl hm

/-- The lane counts as newly failed. -/
theorem laneFail_counts : ¬ (!portTrained (portAt s p) ∨ activeLanes p + 2 ≤ lane ∨
    (if dir = 0 then (portAt s p).failedTx else (portAt s p).failedRx).getLsbD lane) := by
  unfold failedLanes at hm
  simp [ht, hm, hl]

/-- With too few lanes left the port goes down. -/
theorem opLaneFail_lost (hw : widthFor p (setBit (failedLanes dir (portAt s p)) lane true) = none) :
    (portAt (opLaneFail s p dir lane) p).state = 0 := by
  have hop : opLaneFail s p dir lane = leavePort (setPort (laneReported s p dir lane) p
      (withLanes p dir (setBit (failedLanes dir (portAt s p)) lane true) (widthOf dir (portAt s p)) (portAt s p))) p 0 (some 1) := by
    unfold failedLanes at hw
    simp only [opLaneFail, if_neg (laneFail_counts ht hl hm), hw]
    rfl
  rw [hop]
  exact (portLoss_spec _ p).1

/-- Otherwise the direction marks the lane and keeps the widest width that its working lanes fill, but never a wider one than it
has. -/
theorem opLaneFail_fits {n : Nat} (hw : widthFor p (setBit (failedLanes dir (portAt s p)) lane true) = some n) :
    ∃ w ev, opLaneFail s p dir lane = setPort (laneReported s p dir lane) p
        { withLanes p dir (setBit (failedLanes dir (portAt s p)) lane true) w (portAt s p) with events := ev } ∧
      w.toNat = max (widthOf dir (portAt s p)).toNat n := by
  have hn : n < 4 := List.mem_range.1 (List.mem_of_find?_eq_some hw)
  let put := fun w => withLanes p dir (setBit (failedLanes dir (portAt s p)) lane true) w (portAt s p)
  let old := widthOf dir (portAt s p)
  let write := setPort (laneReported s p dir lane) p
  have hop : opLaneFail s p dir lane = if old.toNat < n then write (portEvent (put (BitVec.ofNat 2 n)) 3)
      else if n = 0 ∧ laneInUse p (failedLanes dir (portAt s p)) lane then write (portEvent (put old) 2) else write (put old) := by
    unfold failedLanes at hw
    simp only [opLaneFail, if_neg (laneFail_counts ht hl hm), hw]
    rfl
  rw [hop]
  by_cases hlow : old.toNat < n
  · rw [if_pos hlow]
    refine ⟨BitVec.ofNat 2 n, _, rfl, ?_⟩
    rw [BitVec.toNat_ofNat, Nat.mod_eq_of_lt hn, Nat.max_eq_right hlow.le]
  · rw [if_neg hlow]
    have hmax := (Nat.max_eq_left (Nat.le_of_not_lt hlow)).symm
    split
    · exact ⟨old, _, rfl, hmax⟩
    · exact ⟨old, _, rfl, hmax⟩

end

/-- Settles O33: a frame is rejected or accepted as `opPktFrame_received` says, its packets by `foldl_acceptPacket`; frames leave
the replay buffer or go out again from the one that is named on; a failed lane leaves `withLanes` or takes the port down. -/
theorem framesLanesAndReplay : Obligations.FramesLanesAndReplay := by
  unfold Obligations.FramesLanesAndReplay
  intro s p q
  refine ⟨fun f hq => ⟨fun hc => ?badCrc, fun hc ht hform hv hl => ?violation, fun hc ht hform hseq => ?outOfOrder,
      fun hc ht hform hseq hup => ?accepted⟩,
    fun ack a b x ht hbuf hx ha => ?idle, fun seq a b x hbuf hx ha => ⟨fun ht => ?replays, fun ht hlive => ?exhausted⟩,
    fun lane ht hl => ⟨fun hm => ⟨fun w hw => ?txFits, fun hw => ?txLost⟩, fun hm w hw => ?rxFits⟩⟩
  case badCrc => exact congrArg done (opPktFrame_badCrc hq hc)
  case violation =>
    have hop := opPktFrame_received hq hc ht
    rw [frameForm_reserved hform, if_pos (by decide), portViolation_first s p hv hl] at hop
    exact ⟨_, congrArg done hop, (congrArg Port.violation (portAt_setPort s p _)).trans rfl,
      (congrArg Port.rxSeq (portAt_setPort s p _)).trans rfl, rfl⟩
  case outOfOrder =>
    have hop := opPktFrame_received hq hc ht
    rw [hform, if_neg (by decide), if_pos hseq] at hop
    exact congrArg done hop
  case accepted =>
    have hop := opPktFrame_received hq hc ht
    rw [hform, if_neg (by decide), if_neg (not_not.2 hseq)] at hop
    obtain ⟨hf, harr, hqs⟩ := foldl_acceptPacket f.pkts (s := setPort s p (acceptedPort q f)) (p := p)
      (by rw [portAt_setPort, acceptedPort_state, hup])
    have hport := (transitFrame_portAt hf p).trans (portAt_setPort s p _)
    refine ⟨_, congrArg done hop, (congrArg Port.rxSeq hport).trans rfl, (congrArg Port.replayBuf hport).trans rfl, ?_, harr, hqs⟩
    rw [hf]
    rfl
  case idle =>
    refine congrArg done ?_
    rw [opIdleFrame, if_pos ht, modPort, ackFrames_frees hbuf hx ha]
  case replays =>
    have hport : portAt (opNak s p seq) p = replayingPort q (x :: b) := by
      rw [opNak_replays hbuf hx ha ht]
      exact portAt_setPort s p _
    obtain ⟨hr, hb⟩ := replayingPort_fields q (x :: b)
    exact ⟨_, rfl, by rw [hport, hr], by rw [hport, hb], congrArg State.out (opNak_replays hbuf hx ha ht)⟩
  case exhausted => exact ⟨_, congrArg done (opNak_exhausted hbuf hx ha ht hlive), (portLoss_spec s p).1⟩
  case txFits =>
    obtain ⟨v, ev, hop, hv⟩ := opLaneFail_fits (dir := 0) ht hl hm hw
    refine ⟨_, congrArg done hop, rfl, ?_⟩
    rw [portAt_setPort]
    exact ⟨rfl, hv, rfl, rfl⟩
  case txLost => exact ⟨_, rfl, opLaneFail_lost (dir := 0) ht hl hm hw⟩
  case rxFits =>
    obtain ⟨v, ev, hop, hv⟩ := opLaneFail_fits (dir := 1) ht hl hm hw
    refine ⟨_, congrArg done hop, rfl, ?_⟩
    rw [portAt_setPort]
    exact ⟨rfl, hv, rfl, rfl⟩

end Sys2Proof.Machine
end

section
/-! SUPPORT. The head of a router input whose packets share one buffer, its next hop, and the fence tracker's timers (O35). -/
namespace Sys2Proof.Machine
open Sys2Proof

/-! ### The input that a packet leaves (R365) -/

@[simp] theorem inputQueue_setInputQueue (s : State) (r : RouteIn) (l : List Queued) : inputQueue (setInputQueue s r l) r = l := by
  cases r with
  | port p => exact mapGet_set_same _ _ _ _
  | deck d => exact congrArg Deck.txq (deckAt_modDeck s d.val (fun k => { k with txq := l }))
  | hub => exact mapGet_set_same _ _ _ _

theorem inputQueue_of_parts {s t : State} (hd : t.decks = s.decks) (hq : t.net.queues = s.net.queues) (r : RouteIn) :
    inputQueue t r = inputQueue s r := by
  cases r <;> simp only [inputQueue, deckAt, hd, hq]

/-- Where all packets of an input share one buffer, the oldest alone may leave. -/
theorem laneHeads_alone {x : Queued} {rest : List Queued} (h : ∀ y ∈ rest, bufferOf y.pk = bufferOf x.pk) :
    laneHeads (x :: rest) = [0] := by
  unfold laneHeads
  rw [List.length_cons, List.range_succ_eq_map, List.filter_cons_of_pos rfl, List.filter_eq_nil_iff.2]
  intro i hi
  obtain ⟨j, -, rfl⟩ := List.mem_map.1 hi
  cases hj : rest[j]? with
  | none => simp [hj]
  | some y =>
    have hy := h y (List.mem_of_getElem? hj)
    simp [hj, hy]

/-! ### PACKET_FORWARD (R342, R363 to R365) -/

/-- The state in which the oldest packet of an input has been taken: `rest` stays, and three free values are drawn. -/
def headTaken (s : State) (r : RouteIn) (rest : List Queued) : State := setInputQueue { s with free := s.free + 3 } r rest

section
variable (s : State) (r : RouteIn) (rest : List Queued)

theorem inputQueue_headTaken : inputQueue (headTaken s r rest) r = rest := inputQueue_setInputQueue _ r rest

theorem headTaken_ports : (headTaken s r rest).ports = s.ports := by
  cases r <;> rfl

theorem headTaken_out : (headTaken s r rest).out = s.out := by
  cases r <;> rfl

theorem headTaken_arrived : (headTaken s r rest).net.arrived = s.net.arrived := by
  cases r <;> rfl

theorem portAt_headTaken (p : Nat) : portAt (headTaken s r rest) p = portAt s p := by
  cases r <;> rfl

theorem ownModule_headTaken : ownModule (headTaken s r rest) = ownModule s := by
  cases r <;> rfl

/-- Ports, map and module number decide the way of a packet. -/
theorem nextHop_headTaken (inp : Option Nat) (pk : Packet) (credits : Nat × Nat) :
    nextHop (headTaken s r rest) inp pk credits = nextHop s inp pk credits := by
  cases r <;> rfl

end

section
variable {s : State} {r : RouteIn} {x : Queued} {rest : List Queued} (hq : inputQueue s r = x :: rest)
  (hone : ∀ y ∈ rest, bufferOf y.pk = bufferOf x.pk) (hhub : ∀ d, r = .deck d → (deckAt s d).hubLinkFailed = false)

include hq hone in
theorem opForward_head (hgo : ∀ credits, canLeave s r credits x.pk = true) :
    ∃ credits, opForward s r = forwardOne (headTaken s r rest) r credits x.pk := by
  refine ⟨(drawCredits s).1, ?_⟩
  simp only [opForward, hq, laneHeads_alone hone, List.filter_cons_of_pos, List.getElem?_cons_zero, hgo, List.filter_nil,
    List.length_singleton, Nat.le_refl, if_true, List.eraseIdx_cons_zero]
  rfl

include hhub in
/-- A hub link that works lets the packet leave where its way does. -/
theorem canLeave_open {credits : Nat × Nat} {pk : Packet} (h : pk.dst = ownModule s ∨
      (nextHop s (inputPort r) pk credits).2 = none ∨
      (canSend s (nextHop s (inputPort r) pk credits).1 && openWater s (nextHop s (inputPort r) pk credits).1) = true) :
    canLeave s r credits pk = true := by
  unfold canLeave
  rw [Bool.and_eq_true]
  constructor
  · cases r with
    | deck d => simp [hhub d rfl]
    | port | hub => rfl
  · rcases h with h | h
    · simp [h]
    · rcases hn : nextHop s (inputPort r) pk credits with ⟨p, _ | vc⟩
      · simp
      · rw [hn] at h
        simpa using Or.inr (h.resolve_left (by simp))

theorem forwardOne_here {credits : Nat × Nat} {pk : Packet} (h : pk.dst = ownModule s) :
    forwardOne s r credits pk = modNet s (fun n => { n with arrived := n.arrived ++ [pk] }) := if_pos h

theorem forwardOne_leaves {credits : Nat × Nat} {pk : Packet} {p : Nat} {vc : Bool} (h : pk.dst ≠ ownModule s)
    (hn : nextHop s (inputPort r) pk credits = (p, some vc)) : forwardOne s r credits pk = sendOut s p { pk with vc := vc } := by
  simp only [forwardOne, if_neg h, hn]

theorem forwardOne_stranded {credits : Nat × Nat} {pk : Packet} {p : Nat} (h : pk.dst ≠ ownModule s)
    (hn : nextHop s (inputPort r) pk credits = (p, none)) :
    forwardOne s r credits pk = modPort s p (fun q => { q with downDrop := satInc q.downDrop }) := by
  simp only [forwardOne, if_neg h, hn]

end

/-! ### A hop between T coordinates (R363) -/

/-- The exclusive or of the T coordinates of two modules. -/
def crossT (a b : BitVec 17) : BitVec 2 := a.extractLsb' 0 2 ^^^ b.extractLsb' 0 2

theorem ne_of_crossT {a b : BitVec 17} (h : crossT a b ≠ 0) : b ≠ a := by
  rintro rfl
  exact h BitVec.xor_self

/-- A packet for another T coordinate takes the T port that the exclusive or names, where that port is UP. -/
theorem nextHop_crossT {s : State} {inp : Option Nat} {pk : Packet} (credits : Nat × Nat)
    (hx : crossT (ownModule s) pk.dst ≠ 0) (hup : portUp s ((crossT (ownModule s) pk.dst).toNat - 1) = true)
    (hc : controlPort s pk = none) :
    ∃ vc, nextHop s inp pk credits = ((crossT (ownModule s) pk.dst).toNat - 1, some vc) := by
  have hne : ((ownModule s).extractLsb' 0 2).toNat ≠ (pk.dst.extractLsb' 0 2).toNat := fun e =>
    hx (by rw [crossT, BitVec.eq_of_toNat_eq e]; exact BitVec.xor_self)
  rw [crossT, BitVec.toNat_xor] at hup ⊢
  simp only [nextHop, hc, routeHop, coordsOf, List.getElem?_cons_zero, Option.getD_some, if_pos hne, hup, if_true]
  exact ⟨_, rfl⟩

/-- A port with room in its replay buffer sends a packet in a frame of its own (R347, R348). -/
theorem sendOut_sends {s : State} {p : Nat} (hl : (portAt s p).lpl ≠ 3) (hr : (portAt s p).replayBuf.length < 8192) (pk : Packet) :
    sendOut s p pk = emit (setPort s p { portAt s p with
        txSeq := (portAt s p).txSeq + 1,
        replayBuf := (portAt s p).replayBuf ++ [{ seq := (portAt s p).txSeq, pkts := [pk] }] })
      (.frame p (portAt s p).txSeq ((portAt s p).rxSeq - 1) [pk]) := by
  rw [sendOut, if_neg (fun h => hl h.1), sendFrame, if_neg (Nat.not_le.2 hr)]

/-! ### The fence tracker's timers (R368, R370) -/

theorem countDone_frame (now : Nat) (n : Net) (pk : Packet) (st : Status) :
    countDone now n pk st = { n with tracker := (countDone now n pk st).tracker } := by
  unfold countDone
  split
  · rfl
  · split
    · split <;> rfl
    · rfl

/-- An allocated object is poisoned, with all that this releases. -/
def poisonAt (s : State) (d o : Nat) (st : Status) : State :=
  if objAlloc (deckAt s d) o then applyRes s d (settle (deckAt s d) [.poison o st false]) else s

theorem poisonAt_frame (s : State) (d o : Nat) (st : Status) :
    (poisonAt s d o st).net = s.net ∧ (poisonAt s d o st).clock = s.clock := by
  unfold poisonAt
  split
  · have h := onDeck_replies_frame s d (fun k => settle k [.poison o st false]) (tame_settle _ _).2
    exact ⟨(hostFrame_net h).trans rfl, (congrArg State.clock h).trans rfl⟩
  · exact ⟨rfl, rfl⟩

theorem poisonNamed_frame (s : State) (pk : Packet) (st : Status) :
    (poisonNamed s pk st).net = s.net ∧ (poisonNamed s pk st).clock = s.clock := by
  unfold poisonNamed
  split
  · exact ⟨rfl, rfl⟩
  · dsimp only
    split
    · exact poisonAt_frame s _ _ st
    · exact poisonAt_frame s _ _ st
    · exact poisonAt_frame s _ _ st
    · exact ⟨rfl, rfl⟩

/-- A discarded fenced packet is answered by the status; the held packets and the count of those discarded stand. -/
theorem discardFenced_answers (s : State) (pk : Packet) (st : Status) :
    answered s pk (discardFenced s pk st) st ∧
    (discardFenced s pk st).net.fenceHold = s.net.fenceHold ∧ (discardFenced s pk st).net.fenceDiscard = s.net.fenceDiscard := by
  let counted := modNet s (fun n => countDone (clockNs s) n pk st)
  obtain ⟨hn, hc⟩ := poisonNamed_frame counted pk st
  have hnet : (poisonNamed counted pk st).net = { s.net with tracker := (poisonNamed counted pk st).net.tracker } := by
    rw [hn]
    exact countDone_frame _ _ _ _
  have ht : clockNs (poisonNamed counted pk st) = clockNs s := congrArg (5 * ·) hc
  refine ⟨⟨statusPacket (ownModule (poisonNamed counted pk st)) pk st, ?_, rfl, rfl, rfl, rfl, rfl, rfl, rfl, rfl⟩,
    (congrArg Net.fenceHold hnet).trans rfl, (congrArg Net.fenceDiscard hnet).trans rfl⟩
  rw [← ht, show s.net.queues = (poisonNamed counted pk st).net.queues by rw [hnet]]
  exact hubSend_queue _ _

/-- The state in which the one held packet has been taken, and its discard counted (R370). -/
def holdEmptied (s : State) : State :=
  modNet s (fun n => { n with fenceHold := [], fenceDiscard := satInc n.fenceDiscard })

theorem opFenceWaitExpire_due {s : State} {y : Queued} (hy : s.net.fenceHold = [y])
    (hd : y.since + 1000 * s.net.fenceWaitUs.toNat ≤ clockNs s) :
    opFenceWaitExpire s 0 = discardFenced (holdEmptied s) y.pk stLinkLost := by
  obtain ⟨-, hempty, -⟩ := discardFenced_answers (holdEmptied s) y.pk stLinkLost
  have hstate : modNet s (fun n => { n with fenceHold := n.fenceHold.eraseIdx 0, fenceDiscard := satInc n.fenceDiscard }) =
      holdEmptied s := by
    simp [holdEmptied, modNet, hy]
  simp only [opFenceWaitExpire, hy, List.getElem?_cons_zero, if_neg (Nat.not_lt.2 hd), hstate]
  exact releaseHeld_none _ _ hempty

theorem opFenceEntryExpire_due {s : State} {n : Nat} {e : FenceEntry} (he : s.net.tracker[n]? = some e)
    (hd : e.last + 4000000 ≤ clockNs s) :
    opFenceEntryExpire s n = { s with net := { s.net with tracker := s.net.tracker.eraseIdx n } } := by
  simp only [opFenceEntryExpire, he, if_neg (Nat.not_lt.2 hd)]
  rfl

/-- The oldest packet of a transit buffer ages out (R373). -/
theorem opAgeOut_due {s : State} {p : Fin 9} {x : Queued} {rest : List Queued} (hq : inputQueue s (.port p) = x :: rest)
    (hd : x.since + 12000 < clockNs s) :
    opAgeOut s (.port p) = modPort (setInputQueue s (.port p) rest) p (fun q => { q with ageDrop := satInc q.ageDrop }) := by
  simp only [opAgeOut, hq, if_neg (Nat.not_le.2 hd)]
  rfl

/-- Settles O35: the oldest packet leaves (`opForward_head`) and arrives, is sent or is stranded (`forwardOne_*`); what the timers
take is discarded and counted. -/
theorem packetsMoveThroughTheRouter : Obligations.PacketsMoveThroughTheRouter := by
  unfold Obligations.PacketsMoveThroughTheRouter
  intro s r x rest hq pk alone
  refine ⟨fun ⟨hone, hhub⟩ hdst => ?here, ?crossT, fun o ⟨hone, hhub⟩ hdst hdown => ?stranded, fun p hr hd => ?aged,
    fun n e he hd => congrArg done (opFenceEntryExpire_due he hd), fun y hy hd => ?waited⟩
  case here =>
    obtain ⟨credits, hop⟩ := opForward_head hq hone (fun _ => canLeave_open hhub (.inl hdst))
    rw [forwardOne_here (hdst.trans (ownModule_headTaken s r rest).symm)] at hop
    refine ⟨_, congrArg done hop, (inputQueue_of_parts rfl rfl r).trans (inputQueue_headTaken s r rest), ?_,
      headTaken_ports s r rest, headTaken_out s r rest⟩
    rw [modNet_net, headTaken_arrived]
  case crossT =>
    intro c o ⟨hone, hhub⟩ hx hup hroom hlpl hopen hctl
    have hhop : ∀ credits, ∃ vc, nextHop s (inputPort r) pk credits = (o, some vc) := fun credits =>
      nextHop_crossT credits hx hup hctl
    obtain ⟨credits, hop⟩ := opForward_head hq hone (fun credits => canLeave_open hhub (by
      obtain ⟨vc, hn⟩ := hhop credits
      rw [hn]
      exact .inr (.inr (by simp [canSend, hroom, hopen]))))
    obtain ⟨vc, hn⟩ := hhop credits
    have hdst : pk.dst ≠ ownModule (headTaken s r rest) := by
      rw [ownModule_headTaken]
      exact ne_of_crossT hx
    have hport := portAt_headTaken s r rest o
    rw [forwardOne_leaves hdst ((nextHop_headTaken s r rest _ _ _).trans hn),
      sendOut_sends (by rw [hport]; exact hlpl) (by rw [hport]; exact hroom), hport] at hop
    refine ⟨_, vc, congrArg done hop, (inputQueue_of_parts rfl rfl r).trans (inputQueue_headTaken s r rest), ?_,
      (congrArg Port.txSeq (portAt_setPort _ o _)).trans rfl, (congrArg Port.replayBuf (portAt_setPort _ o _)).trans rfl⟩
    exact congrArg (_ :: ·) (headTaken_out s r rest)
  case stranded =>
    obtain ⟨credits, hop⟩ := opForward_head hq hone (fun credits => canLeave_open hhub (.inr (.inl (by rw [hdown credits]))))
    have hdst' : pk.dst ≠ ownModule (headTaken s r rest) := by
      rw [ownModule_headTaken]
      exact hdst
    rw [forwardOne_stranded hdst' ((nextHop_headTaken s r rest _ _ _).trans (hdown credits))] at hop
    refine ⟨_, congrArg done hop, (inputQueue_of_parts rfl rfl r).trans (inputQueue_headTaken s r rest), ?_, headTaken_out s r rest⟩
    rw [portAt_modPort, if_pos rfl, portAt_headTaken]
  case aged =>
    subst hr
    refine ⟨_, congrArg done (opAgeOut_due hq hd), inputQueue_setInputQueue s (.port p) rest, ?_, rfl⟩
    rw [portAt_modPort, if_pos rfl]
    rfl
  case waited =>
    obtain ⟨⟨a, hqueue, hcls, htype, hdst, -, hcore, htxn, hst, hretry⟩, hhold, hcount⟩ :=
      discardFenced_answers (holdEmptied s) y.pk stLinkLost
    exact ⟨_, a, congrArg done (opFenceWaitExpire_due hy hd), hhold, hcount, hqueue, hcls, htype, hdst, hcore, htxn, hst, hretry⟩

end Sys2Proof.Machine
end

section
/-! SUPPORT. The command rings (O41): what a doorbell, the taking of a packet, an overrun and the end of a pause do to a ring
and its LD. -/
namespace Sys2Proof.Machine
open Sys2Proof

theorem ringAt_setRing (s : State) (k r : Nat) (x : Ring) : ringAt (setRing s k r x) k r = x :=
  (ringAt_modLd s k r _).trans (mapGet_set_same _ _ _ _)

/-! ### Violations (R449) -/

/-- A violation touches the counters and the pause of its LD: ring memory, rings and doorbells stay. -/
theorem violation_keeps (s : State) (k : Nat) :
    (ldAt (violation s k) k).mem = (ldAt s k).mem ∧ (ldAt (violation s k) k).rings = (ldAt s k).rings ∧
      (violation s k).host.doorbells = s.host.doorbells := by
  simp only [violation]
  split
  · simp [pldmEvent, modLd, emit, setLd, ldAt]
  · simp

theorem ringAt_violation (s : State) (k r : Nat) : ringAt (violation s k) k r = ringAt s k r := by
  obtain ⟨-, hrings, -⟩ := violation_keeps s k
  rw [ringAt, hrings, ringAt]

/-- A reply stays posted when its LD's violation is counted. -/
theorem replied_violation {s t : State} {h : CmdHdr} {st : Status} {res : Nat} (hr : replied s t h st res) :
    replied s (violation t (ldKey h.ld)) h st res := by
  obtain ⟨hmem, -, -⟩ := violation_keeps t (ldKey h.ld)
  simpa only [replied, ringAt_violation, hmem] using hr

/-! ### Doorbells (R422) -/

/-- How far a count of a ring's packets is ahead of HEAD. -/
def ringOffset (q : Ring) (n : BitVec 32) : Nat := (n - q.crHead).toNat

section
variable {s : State} {l : LdRef} {r : Nat} {q : Ring} {tail : BitVec 32} (hq : ringAt s (ldKey l) r = q)
include hq

theorem opDoorbell_refused (hn : ringOffset q tail < ringOffset q q.crTail ∨ 256 < ringOffset q tail) :
    opDoorbell s l r tail = violation s (ldKey l) := by
  subst hq
  exact if_pos hn

theorem opDoorbell_posts (hb : ringOffset q q.crTail ≤ ringOffset q tail) (ha : ringOffset q tail ≤ 256) :
    let t := opDoorbell s l r tail
    t = { s with host := t.host } ∧ ringAt t (ldKey l) r = { q with crTail := tail } ∧
      t.host.doorbells = s.host.doorbells ++ List.replicate (ringOffset q tail - ringOffset q q.crTail) (ldKey l, r) := by
  subst hq
  unfold ringOffset at hb ha
  dsimp only [opDoorbell]
  rw [if_neg (by omega)]
  exact ⟨rfl, ringAt_setRing s (ldKey l) r _, rfl⟩

end

/-! ### A packet leaves its ring (R424, R427) -/

/-- A reply moves the status ring alone: the command ring's HEAD and expected SEQ and the LD's count of violations stay. -/
theorem replyNow_keeps (s : State) (h : CmdHdr) (st : Status) (res : Nat) :
    (ringAt (replyNow s h st res) (ldKey h.ld) h.ring.val).crHead = (ringAt s (ldKey h.ld) h.ring.val).crHead ∧
      (ringAt (replyNow s h st res) (ldKey h.ld) h.ring.val).expectSeq = (ringAt s (ldKey h.ld) h.ring.val).expectSeq ∧
      (ldAt (replyNow s h st res) (ldKey h.ld)).viol = (ldAt s (ldKey h.ld)).viol := by
  simp only [replyNow, writeReply]
  split
  · simp [ringAt, setRing]
  · split <;> simp [ringAt]

/-- The ring of a header without its next packet. -/
def ringPast (s : State) (h : CmdHdr) : Ring :=
  { ringAt s (ldKey h.ld) h.ring.val with crHead := (ringAt s (ldKey h.ld) h.ring.val).crHead + 1, expectSeq := h.seq + 1 }

/-- The state in which the packet of header `h` has left its ring and the doorbell order. -/
def packetTaken (s : State) (h : CmdHdr) : State :=
  setRing { s with host := { s.host with doorbells := s.host.doorbells.erase (ldKey h.ld, h.ring.val) } } (ldKey h.ld) h.ring.val
    (ringPast s h)

/-- The state in which a packet that fails its checks has been answered. -/
def packetRefused (s : State) (h : CmdHdr) (st : Status) (res : Nat) : State :=
  violation (replyNow (packetTaken s h) h st res) (ldKey h.ld)

/-- The command of a good packet, as it waits for its opcode's row. -/
def freshCmd (s : State) (h : CmdHdr) (c : Instr) : TakenCmd := { hdr := h, cmd := c, takenAt := clockNs s, order := s.host.takes }

/-- The state in which a good packet's command waits. -/
def packetWaits (s : State) (h : CmdHdr) (c : Instr) : State :=
  let q := ringAt (packetTaken s h) (ldKey h.ld) h.ring.val
  let t := setRing (packetTaken s h) (ldKey h.ld) h.ring.val { q with taken := q.taken ++ [freshCmd s h c] }
  { t with host := { t.host with takes := t.host.takes + 1 } }

section
variable (s : State) (h : CmdHdr) (st : Status) (res : Nat)

theorem ringAt_packetTaken : ringAt (packetTaken s h) (ldKey h.ld) h.ring.val = ringPast s h :=
  ringAt_setRing _ _ _ _

theorem viol_packetTaken : (ldAt (packetTaken s h) (ldKey h.ld)).viol = (ldAt s (ldKey h.ld)).viol := by
  rw [packetTaken, setRing, ldAt_modLd]
  rfl

/-- Taking a packet unmutes no command and mutes none. -/
theorem muted_packetTaken : muted (packetTaken s h) h = muted s h := by
  simp only [muted, ringAt_packetTaken, ringPast]

theorem packetRefused_moves : let t := packetRefused s h st res
    (ringAt t (ldKey h.ld) h.ring.val).crHead = (ringAt s (ldKey h.ld) h.ring.val).crHead + 1 ∧
      (ringAt t (ldKey h.ld) h.ring.val).expectSeq = h.seq + 1 ∧
      t.host.doorbells = s.host.doorbells.erase (ldKey h.ld, h.ring.val) := by
  obtain ⟨hhead, hseq, -⟩ := replyNow_keeps (packetTaken s h) h st res
  obtain ⟨-, -, hbells⟩ := violation_keeps (replyNow (packetTaken s h) h st res) (ldKey h.ld)
  rw [ringAt_packetTaken] at hhead hseq
  refine ⟨?_, ?_, ?_⟩
  · rw [packetRefused, ringAt_violation, hhead, ringPast]
  · rw [packetRefused, ringAt_violation, hseq, ringPast]
  · rw [packetRefused, hbells, replyNow_host]
    rfl

theorem packetRefused_answers (hm : muted s h = false) : replied s (packetRefused s h st res) h st res ∧
    (ldAt (packetRefused s h st res) (ldKey h.ld)).viol = satInc (ldAt s (ldKey h.ld)).viol := by
  obtain ⟨-, -, hcounted⟩ := violation_spec (replyNow (packetTaken s h) h st res) (ldKey h.ld)
  obtain ⟨-, -, hkept⟩ := replyNow_keeps (packetTaken s h) h st res
  refine ⟨replied_violation (replied_of_ring ?_ (replyNow_replied _ h st res ((muted_packetTaken s h).trans hm))), ?_⟩
  · rw [ringAt_packetTaken, ringPast]
  · rw [packetRefused, hcounted, hkept, viol_packetTaken]

theorem ringAt_packetWaits (c : Instr) : ringAt (packetWaits s h c) (ldKey h.ld) h.ring.val =
    { ringPast s h with taken := (ringAt s (ldKey h.ld) h.ring.val).taken ++ [freshCmd s h c] } := by
  rw [packetWaits, ringAt_packetTaken]
  exact ringAt_setRing (packetTaken s h) (ldKey h.ld) h.ring.val _

end

/-! ### CMD_TAKE (R423, R424, R427, R428, R430) -/

/-- Every opcode that has a layout is one that a packet's bytes spell (R430). -/
theorem decodeCmd_of_layout {h : CmdHdr} {x : Nat × Nat} (hl : opLayout h.opcode.toNat = some x) (w : Nat) :
    ∃ c, decodeCmd h w = some c := by
  unfold opLayout at hl
  split at hl
  case h_25 => cases hl
  all_goals
    next hop =>
      unfold decodeCmd
      rw [hop]
      exact ⟨_, rfl⟩

/-- The bytes of the packet at the HEAD of a ring. -/
def headPacket (s : State) (l : LdRef) (r : Fin 2) : Nat :=
  readNat (ldAt s (ldKey l)).mem (0x10000 * r.val + 256 * ((ringAt s (ldKey l) r).crHead.toNat % 256)) 64

section
variable {s : State} {l : LdRef} {r : Fin 2}

theorem opTake_notItsTurn (hn : (ringReady s (ldKey l) r && ringFirst s (ldKey l) r) = false) : opTake s l r = s := by
  simp [opTake, hn]

/-- What CMD_TAKE does with the packet of a ring whose turn it is: one of three, by the packet's checks. The functions that read the
packet are held opaque while the branches are taken apart: the kernel would otherwise run them on a packet that is not known. -/
theorem opTake_cases (hr : ringReady s (ldKey l) r = true) (hf : ringFirst s (ldKey l) r = true) {w : Nat}
    (hw : headPacket s l r = w) {h : CmdHdr} (hh : packetHdr l r w = h) :
    (opLayout h.opcode.toNat = none ∧ opTake s l r = packetRefused s h stBadOpcode 0) ∨
    ∃ len mask, opLayout h.opcode.toNat = some (len, mask) ∧
      ((∃ i, lowestByte (packetErrors w (ringAt s (ldKey l) r).expectSeq.toNat len mask) = some i ∧
        opTake s l r = packetRefused s h stBadPacket i) ∨
      (lowestByte (packetErrors w (ringAt s (ldKey l) r).expectSeq.toNat len mask) = none ∧
        ∃ c, decodeCmd h w = some c ∧ opTake s l r = packetWaits s h c)) := by
  subst hh
  have hdecodes : ∀ x, opLayout (packetHdr l r w).opcode.toNat = some x → ∃ c, decodeCmd (packetHdr l r w) w = some c :=
    fun _ ho => decodeCmd_of_layout ho w
  unfold headPacket at hw
  rw [opTake]
  obtain ⟨layoutOf, hlayout⟩ : ∃ f, f = opLayout := exists_eq
  obtain ⟨lowestOf, hlowest⟩ : ∃ f, f = lowestByte := exists_eq
  obtain ⟨decodeOf, hdecode⟩ : ∃ f, f = decodeCmd := exists_eq
  rw [← hlayout, ← hdecode] at hdecodes
  rw [← hlayout, ← hlowest, ← hdecode]
  simp only [hr, hf, hw, Bool.and_self, Bool.not_true, Bool.false_eq_true, if_false]
  split
  case h_1 ho => exact .inl ⟨ho, rfl⟩
  case h_2 len mask ho =>
    refine .inr ⟨len, mask, ho, ?_⟩
    split
    case h_1 i he => exact .inl ⟨i, he, rfl⟩
    case h_2 he =>
      split
      case h_1 hn =>
        obtain ⟨c, hc⟩ := hdecodes _ ho
        cases hc.symm.trans hn
      case h_2 c hc => exact .inr ⟨he, c, hc, rfl⟩

end

/-! ### Overruns and pauses (R429, R449, R531) -/

/-- Is a command due its final reply for longer than its opcode's group allows, and not yet reported? -/
def overran (s : State) (k : Nat) (x : TakenCmd) : Bool :=
  !x.timedOut && !x.mute && decide (x.takenAt + 1000000 * groupLimit (ldAt s k) x.hdr.opcode < clockNs s)

/-- The command `c` of a list, marked as reported. -/
def markOverrun (c : TakenCmd) (xs : List TakenCmd) : List TakenCmd :=
  xs.map (fun x => if x = c then { x with timedOut := true } else x)

section
variable {s : State} {l : LdRef} {r : Fin 2}

theorem opCmdTimeout_none (hn : (ringAt s (ldKey l) r).taken.find? (overran s (ldKey l)) = none) : opCmdTimeout s l r = s := by
  unfold overran at hn
  simp only [opCmdTimeout, hn]

/-- With action 0, detector 5 counts the overrun and leaves the rest. -/
theorem opCmdTimeout_fires {c : TakenCmd} (hc : (ringAt s (ldKey l) r).taken.find? (overran s (ldKey l)) = some c)
    (ha : actionOf s 5 = 0) : opCmdTimeout s l r = counted (setRing s (ldKey l) r { ringAt s (ldKey l) r with
      taken := markOverrun c (ringAt s (ldKey l) r).taken }) 5 := by
  unfold overran at hc
  simp only [opCmdTimeout, hc]
  exact fireDetector_count _ 5 none none [] ha

theorem opResume_due (hp : (ldAt s (ldKey l)).paused = true) (ht : (ldAt s (ldKey l)).pausedAt + 1000000000 ≤ clockNs s) :
    opResume s l = setLd s (ldKey l) { ldAt s (ldKey l) with paused := false } := if_pos ⟨hp, ht⟩

theorem opResume_early (ht : clockNs s < (ldAt s (ldKey l)).pausedAt + 1000000000) : opResume s l = s :=
  if_neg (fun h => absurd h.2 (Nat.not_le.2 ht))

end

/-- Settles O41: a doorbell by `opDoorbell_refused` and `opDoorbell_posts`, a packet by `opTake_cases`, the timers by
the lemma on each. -/
theorem ringsTakeCommandsInOrder : Obligations.RingsTakeCommandsInOrder := by
  unfold Obligations.RingsTakeCommandsInOrder
  intro s l r k q
  refine ⟨fun tail => ⟨fun hn => ?refused, fun hb ha => ⟨_, rfl, opDoorbell_posts rfl hb ha⟩⟩,
    fun hn => congrArg done (opTake_notItsTurn hn), fun hr hf => ?take,
    fun c => ⟨fun hn => congrArg done (opCmdTimeout_none hn), fun hc ha => ?overrun⟩,
    fun hp ht => congrArg done (opResume_due hp ht), fun ht => congrArg done (opResume_early ht)⟩
  case refused =>
    obtain ⟨-, -, hviol⟩ := violation_spec s k
    obtain ⟨-, -, hbells⟩ := violation_keeps s k
    exact ⟨_, congrArg done (opDoorbell_refused rfl hn), ringAt_violation s k r, hviol, hbells⟩
  case take =>
    intro w h
    have hw : headPacket s l r = w := rfl
    have hcases := opTake_cases hr hf hw (h := h) rfl
    have hld : h.ld = l := rfl
    have hring : h.ring = r := rfl
    clear_value h w
    subst hld hring
    rcases hcases with ⟨ho, hop⟩ | ⟨len, mask, ho, ⟨i, he, hop⟩ | ⟨he, c, hc, hop⟩⟩
    · obtain ⟨hhead, hseq, hbells⟩ := packetRefused_moves s h stBadOpcode 0
      refine ⟨_, congrArg done hop, hhead, hseq, hbells, fun _ => packetRefused_answers s h stBadOpcode 0, fun _ _ hl => ?_⟩
      cases ho.symm.trans hl
    · obtain ⟨hhead, hseq, hbells⟩ := packetRefused_moves s h stBadPacket i
      refine ⟨_, congrArg done hop, hhead, hseq, hbells, fun hl => ?_, fun _ _ hl => ?_⟩
      · cases ho.symm.trans hl
      cases ho.symm.trans hl
      refine ⟨fun j hj => ?_, fun hn => ?_⟩
      · cases he.symm.trans hj
        exact packetRefused_answers s h stBadPacket i
      · cases he.symm.trans hn
    · have hq := ringAt_packetWaits s h c
      refine ⟨_, congrArg done hop, (congrArg Ring.crHead hq).trans rfl, (congrArg Ring.expectSeq hq).trans rfl, rfl,
        fun hl => ?_, fun _ _ hl => ?_⟩
      · cases ho.symm.trans hl
      cases ho.symm.trans hl
      refine ⟨fun j hj => ?_, fun _ => ⟨(congrArg Ring.srTail hq).trans rfl, c, hc, (congrArg Ring.taken hq).trans rfl⟩⟩
      cases he.symm.trans hj
  case overrun =>
    refine ⟨_, congrArg done (opCmdTimeout_fires hc ha), ?_, mapGet_set_same _ _ _ _⟩
    exact congrArg Ring.taken (ringAt_setRing s k r _)

end Sys2Proof.Machine
end

section
/-! SUPPORT. What is left of the module when main conversion goes off, and what a cold module reset gives (O48, O51). -/
namespace Sys2Proof.Machine
open Sys2Proof

/-! ### Every deck rebuilt at once (R536, R537) -/

theorem mapGet_foldl_mapSet {α : Type} [DecidableEq α] (d : α) (f : Nat → α) (is : List Nat) (m : SMap α) (j : Nat) :
    mapGet d (is.foldl (fun m i => mapSet d m i (f i)) m) j = if j ∈ is then f j else mapGet d m j := by
  induction is generalizing m with
  | nil => rfl
  | cons i is ih =>
    rw [List.foldl_cons, ih, mapGet_set]
    by_cases hj : j ∈ is
    · simp [hj]
    · by_cases hi : j = i
      · simp [hi]
      · simp [hj, hi]

/-- Rebuilding the eight decks loses every deck's memory where each rebuilt deck has none. -/
theorem rebuiltDecks_mem (f : Nat → Deck) (hf : ∀ i, (f i).mem = []) (d : Nat) :
    (mapGet {} ((List.range 8).foldl (fun m i => mapSet {} m i (f i)) []) d).mem = [] := by
  rw [mapGet_foldl_mapSet]
  split
  · exact hf d
  · rfl

/-! ### Main conversion goes off (R489, R511) -/

/-- Only the write of an image tears. -/
theorem flashTorn_of_not_writing {m : Mgmt} (h : m.stageState ≠ 4) : flashTorn m = m := if_neg (fun hc => h hc.1)

theorem flashTorn_image {m : Mgmt} (h : m.stageState = 4) (hk : m.stageKind = false) :
    flashTorn m = { m with writeMarker := true, flashImage := [] } := if_pos ⟨h, hk⟩

/-- A torn write touches the flash image and its marker alone. -/
theorem flashTorn_frame (m : Mgmt) :
    flashTorn m = { m with writeMarker := (flashTorn m).writeMarker, flashImage := (flashTorn m).flashImage } := by
  unfold flashTorn
  split <;> rfl

theorem flashTorn_presentHigh (m : Mgmt) : (flashTorn m).presentHigh = m.presentHigh := by rw [flashTorn_frame]

theorem flashTorn_stageOwner (m : Mgmt) : (flashTorn m).stageOwner = m.stageOwner := by rw [flashTorn_frame]

@[simp] theorem lossOff_moduleState (s : State) : (lossOff s).power.moduleState = 2 := rfl
@[simp] theorem lossOff_safety (s : State) : (lossOff s).safety = s.safety := rfl
@[simp] theorem lossOff_bkp (s : State) : (lossOff s).rst.bkp = s.rst.bkp := rfl

theorem lossOff_presentHigh (s : State) : (lossOff s).mgmt.presentHigh = s.mgmt.presentHigh := flashTorn_presentHigh s.mgmt

theorem lossOff_event (s : State) : (lossOff s).power.events.getLsbD 7 = true := getLsbD_setBit_same _ 7 true (by decide)

theorem lossOff_mem (s : State) (d : Nat) : (deckAt (lossOff s) d).mem = [] :=
  rebuiltDecks_mem (fun i => deckKept (clockNs s) false (deckLeaves s i) (deckAt s i)) (fun _ => rfl) d

/-! ### A cold module reset (R520, R530, R533, R537) -/

/-- What the repair option can touch of the module: the decks and the count of free values. -/
def repairFrame (s t : State) : Prop := t = { s with decks := t.decks, free := t.free }

theorem repairFrame_trans {a b c : State} (h1 : repairFrame a b) (h2 : repairFrame b c) : repairFrame a c := by
  unfold repairFrame at *
  rw [h2, h1]

theorem repairFrame_foldl {α : Type} (f : State → α → State) (hf : ∀ s x, repairFrame s (f s x)) (xs : List α) (s : State) :
    repairFrame s (xs.foldl f s) :=
  List.foldlRecOn (motive := repairFrame s) xs f rfl (fun t ht x _ => repairFrame_trans ht (hf t x))

theorem repairFrame_repairRows (s : State) (ds : List Nat) : repairFrame s (repairRows s ds) := by
  have hdeck : ∀ t d, repairFrame t (repairDeck t d) := by
    intro t d
    unfold repairDeck
    refine repairFrame_foldl _ (fun _ _ => ?_) _ t
    rfl
  unfold repairRows
  dsimp only
  split
  · split
    · exact repairFrame_trans (b := (draw 1 s).2) rfl (repairFrame_foldl _ hdeck ds _)
    · rfl
  · rfl

theorem optionRestart_frame (s : State) : optionRestart s = { s with rst := { s.rst with
    restarts := (optionRestart s).rst.restarts, restartTimes := (optionRestart s).rst.restartTimes } } := by
  unfold optionRestart
  split <;> rfl

/-- The hold of R530 leaves power, the release step and the cause as they are. -/
theorem optionHold_keeps (s : State) : (optionHold s).power = s.power ∧ (optionHold s).rst.phase = s.rst.phase ∧
    (optionHold s).rst.last = s.rst.last := by
  unfold optionHold
  split <;> exact ⟨rfl, rfl, rfl⟩

/-- A cold module reset of a module that is not Off runs from release step 2, and records its cause. -/
theorem moduleReset_cold (s : State) (src : Nat) (hh : s.rst.hold = false) (hm : s.power.moduleState ≠ 2) (hs : src ≠ 3) :
    let t := moduleReset s true false src 0 false
    t.power = powerKept s.power ∧ t.rst.phase = 2 ∧
    t.rst.last = BitVec.ofNat 32 (causeWord 7 src 0 0 0 false (nextReset s)) := by
  intro t
  let w := causeWord 7 src 0 0 0 false (nextReset s)
  let s1 := takeSample (optionRestart s) .module [] w
  let s2 := modRst (clearModule true false 2 s1) (fun r => { r with running := [{ scope := .module, detector := 0, since := clockNs s }] })
  have ht : t = optionHold (recordCause (repairRows s2 (List.range 8)) w) := by
    have hrun : ¬ (s.rst.hold = true ∨ s.power.moduleState = 2) := by
      rw [hh]
      exact fun h => h.elim (fun hc => Bool.noConfusion hc) hm
    simp only [t, moduleReset, if_neg hrun, if_neg hs, Bool.not_true, Bool.false_eq_true, false_and, if_false, if_true]
    rfl
  obtain ⟨hpower, hphase, hlast⟩ := optionHold_keeps (recordCause (repairRows s2 (List.range 8)) w)
  have hrep : repairFrame s2 (repairRows s2 (List.range 8)) := repairFrame_repairRows s2 _
  have hs1 : s1.power = s.power := by
    have h1 : s1 = _ := takeSample_rst (optionRestart s) .module [] w
    rw [h1, optionRestart_frame]
  refine ⟨?_, ?_, ?_⟩
  · calc t.power = (repairRows s2 (List.range 8)).power := by rw [ht, hpower]; rfl
      _ = powerKept s1.power := by rw [hrep]; rfl
      _ = powerKept s.power := by rw [hs1]
  · calc t.rst.phase = (repairRows s2 (List.range 8)).rst.phase := by rw [ht, hphase]; rfl
      _ = 2 := by rw [hrep]; rfl
  · rw [ht, hlast, recordCause_last]

end Sys2Proof.Machine
end

section
/-! SETTLED. O48: MCTP control, PLDM monitoring, ENTDAA, PRESENT_n. -/
namespace Sys2Proof.Machine
open Sys2Proof

/-! ### Which requests are heard (R457, R458) -/

section
variable {s : State} {t : Transport}

theorem mctpRun_heard (h : mgcHears s t = true) (go : State) : mctpRun s t go = go := if_pos h

/-- Without standby power no request has an effect. -/
theorem mctpRun_unpowered (h : s.power.island = false) (go : State) : mctpRun s t go = s := by
  refine if_neg ?_
  unfold mgcHears
  rw [h]
  exact Bool.false_ne_true

theorem i3cRun_i3c (h : mgcHears s .i3c = true) (go : State) : i3cRun s .i3c go = go := mctpRun_heard h go

theorem i3cRun_cxl (h : mgcHears s .cxl = true) (go : State) : i3cRun s .cxl go = mctpReply s .cxl .unsupportedPldmCmd [] :=
  mctpRun_heard h _

theorem mgcHears_i3c (h : s.power.island = true) : mgcHears s .i3c = true := congrArg (· && true) h

/-! ### Endpoint IDs and types (R457, R458) -/

/-- MGT with the endpoint ID of a transport set. -/
def withEid (m : Mgmt) (t : Transport) (e : BitVec 8) : Mgmt :=
  match t with
  | .i3c => { m with eidI3c := e }
  | .cxl => { m with eidCxl := e }

theorem opSetEid_heard (h : mgcHears s t = true) (e : BitVec 8) :
    opSetEid s t e = mctpReply (setMgmt s (withEid s.mgmt t e)) t .success [e] := mctpRun_heard h _

/-- What was set is what is then answered: the transport still carries MCTP. -/
theorem opGetEid_opSetEid (h : mgcHears s t = true) (e : BitVec 8) :
    opGetEid (opSetEid s t e) t = mctpReply (opSetEid s t e) t .success [e] := by
  have hset : mgcHears (mctpReply (setMgmt s (withEid s.mgmt t e)) t .success [e]) t = true := by cases t <;> exact h
  rw [opSetEid_heard h]
  unfold opGetEid
  rw [mctpRun_heard hset]
  cases t <;> rfl

theorem opMctpOther_uncarried (h : mgcHears s t = true) {ty : BitVec 8} (hty : typeCarried ty = false) :
    opMctpOther s t ty = setMgmt s { s.mgmt with mctpDrop := s.mgmt.mctpDrop + 1 } := by
  rw [opMctpOther, mctpRun_heard h, hty]
  rfl

theorem opMctpVersion_carried (h : mgcHears s t = true) {ty : BitVec 8} (hty : typeCarried ty = true) :
    opMctpVersion s t ty = mctpReply (draw 32 s).2 t .success (natBytes 4 (draw 32 s).1.toNat) := by
  rw [opMctpVersion, mctpRun_heard h, hty]
  rfl

theorem opMctpVersion_uncarried (h : mgcHears s t = true) {ty : BitVec 8} (hty : typeCarried ty = false) :
    opMctpVersion s t ty = mctpReply s t .invalidRequest [] := by
  rw [opMctpVersion, mctpRun_heard h, hty]
  rfl

/-! ### Sensors and effecters (R459 to R461, R494) -/

theorem opGetPdr_heard (h : mgcHears s t = true) (n : BitVec 32) :
    opGetPdr s t n = if n.toNat < 73 then mctpReply s t .success (Config.pdrRecord s.mgmt.build.toNat n.toNat)
      else mctpReply s t .badParam [] := mctpRun_heard h _

/-- Reading a sensor draws at most a free value. -/
theorem sensorBytes_frame (s : State) (i : SensorId) : (sensorBytes s i).2 = { s with free := (sensorBytes s i).2.free } := by
  cases i <;> rfl

theorem opSensor_answers (h : mgcHears s t = true) (i : SensorId) :
    (opSensor s t i).out = .mctp t .success (sensorBytes s i).1 :: s.out ∧ (opSensor s t i).mgmt = s.mgmt := by
  rw [opSensor, mctpRun_heard h, sensorBytes_frame]
  exact ⟨rfl, rfl⟩

/-- The management limit is clipped to what R494 allows. -/
theorem setMgcW_clips (s : State) (v : Nat) : (setMgcW s v).power.mgcW.toNat = max 6000 (min 15000 v) := by
  have hv : (setMgcW s v).power.mgcW.toNat = clip 6000 15000 v % 2 ^ 16 := BitVec.toNat_ofNat _ _
  rw [hv, clip_eq _ _ _ (by decide)]
  omega

theorem opSetEffecter_powerLimit (h : mgcHears s .i3c = true) (v : BitVec 16) :
    opSetEffecter s .i3c .powerLimit v =
      mctpReply (setMgcW s v.toNat) .i3c .success (natBytes 2 (setMgcW s v.toNat).power.mgcW.toNat) := i3cRun_i3c h _

theorem opPoll_oldest (h : mgcHears s .i3c = true) {e : Nat} {rest : List Nat} (he : s.mgmt.pldm = e :: rest) :
    opPoll s .i3c = mctpReply (setMgmt s { s.mgmt with pldm := rest }) .i3c .success (natBytes 4 e) := by
  rw [opPoll, i3cRun_i3c h, he]

end

/-! ### PRESENT_n (R466, R546) -/

/-- MGT once the tray record has been read. -/
def trayMgmt (m : Mgmt) (high : Bool) (rec : List Byte) : Mgmt :=
  { m with presentHigh := high, trayValid := recordValid 3 rec,
           bay := if recordValid 3 rec then BitVec.ofNat 2 (readNat (bytesCells rec) 3 1) else 0,
           traySerial := if recordValid 3 rec then BitVec.ofNat 64 (readNat (bytesCells rec) 4 8) else 0 }

/-- The module once the tray record has been read: an invalid one is an event. -/
def trayRead (s : State) (high : Bool) (rec : List Byte) : State :=
  if recordValid 3 rec then setMgmt s (trayMgmt s.mgmt high rec) else mgtEvent (setMgmt s (trayMgmt s.mgmt high rec)) 5

theorem opPresent_powered {s : State} (h : s.power.island = true) (high : Bool) (rec : List Byte) :
    opPresent s high rec = if high ∧ s.power.moduleState ≠ 2 then lossOff (trayRead s high rec) else trayRead s high rec := by
  rw [opPresent, h]
  rfl

/-- Reading the tray record touches MGT, and reports an invalid record. -/
theorem trayRead_frame (s : State) (high : Bool) (rec : List Byte) : (trayRead s high rec).power = s.power ∧
    (trayRead s high rec).mgmt.presentHigh = high ∧ (trayRead s high rec).mgmt.trayValid = recordValid 3 rec ∧
    (trayRead s high rec).mgmt.bay = (trayMgmt s.mgmt high rec).bay := by
  unfold trayRead
  split <;> exact ⟨rfl, rfl, rfl, rfl⟩

theorem trayMgmt_bay {rec : List Byte} (h : recordValid 3 rec = true) (m : Mgmt) (high : Bool) :
    (trayMgmt m high rec).bay.toNat = readNat (bytesCells rec) 3 1 % 4 := by
  rw [trayMgmt, if_pos h]
  exact BitVec.toNat_ofNat _ _

/-- Settles O48: each request by the lemma on its operation where the MGC hears it, PRESENT_n by `opPresent_powered`. -/
theorem managementTransportsAndMonitoring : Obligations.ManagementTransportsAndMonitoring := by
  unfold Obligations.ManagementTransportsAndMonitoring
  intro s t say
  refine ⟨fun h => ⟨fun e => ?eid, congrArg done (mctpRun_heard h _), fun ty hty => ⟨congrArg done (opMctpVersion_uncarried h hty),
    congrArg done (opMctpOther_uncarried h hty)⟩, fun ty hty => ?version, congrArg done (mctpRun_heard h _), fun n => ?pdr,
    congrArg done (mctpRun_heard h _), fun n => congrArg done (mctpRun_heard h _), fun i => ?sensor, congrArg done (mctpRun_heard h _),
    fun i => congrArg done (mctpRun_heard h _), fun i => congrArg done (mctpRun_heard h _), fun v ht => ?limit,
    fun e rest ht he => ?poll, fun ht => ?cxl⟩, fun h => ⟨fun e => congrArg done (mctpRun_unpowered h _),
    congrArg done (mctpRun_unpowered h _), congrArg done (mctpRun_unpowered h _), fun i v => congrArg done (mctpRun_unpowered h _)⟩,
    fun a h => congrArg done (if_pos h), fun rec h => ⟨?low, fun hm => ?high⟩⟩
  case eid =>
    refine ⟨_, rfl, ?_, congrArg done (opGetEid_opSetEid h e), fun ht => ?_, fun ht => ?_⟩
    · rw [opSetEid_heard h]
      rfl
    · subst ht
      rw [opSetEid_heard h]
      rfl
    · subst ht
      rw [opSetEid_heard h]
      rfl
  case version => exact ⟨_, _, congrArg done (opMctpVersion_carried h hty), rfl, rfl, natBytes_length 4 _⟩
  case pdr =>
    refine (congrArg done (opGetPdr_heard h n)).trans ?_
    split <;> rfl
  case sensor =>
    obtain ⟨hout, hmgmt⟩ := opSensor_answers h i
    exact ⟨_, _, rfl, hout, hmgmt⟩
  case limit =>
    subst ht
    refine ⟨_, congrArg done (opSetEffecter_powerLimit h v), setMgcW_clips s v.toNat, ?_, rfl, rfl⟩
    rw [← setMgcW_clips s v.toNat]
    rfl
  case poll =>
    subst ht
    exact ⟨_, congrArg done (opPoll_oldest h he), rfl, rfl⟩
  case cxl =>
    subst ht
    exact ⟨congrArg done (i3cRun_cxl h _), fun i v => congrArg done (i3cRun_cxl h _)⟩
  case low =>
    obtain ⟨hpower, hhigh, hvalid, hbay⟩ := trayRead_frame s false rec
    have hop : opPresent s false rec = trayRead s false rec :=
      (opPresent_powered h false rec).trans (if_neg (fun hc => Bool.noConfusion hc.1))
    refine ⟨_, congrArg done hop, hhigh, hpower, hvalid, fun hv => ?_⟩
    rw [hbay, trayMgmt_bay hv]
  case high =>
    obtain ⟨-, hhigh, -, -⟩ := trayRead_frame s true rec
    have hop : opPresent s true rec = lossOff (trayRead s true rec) := (opPresent_powered h true rec).trans (if_pos ⟨rfl, hm⟩)
    exact ⟨_, congrArg done hop, (lossOff_presentHigh _).trans hhigh, lossOff_moduleState _, lossOff_event _⟩

end Sys2Proof.Machine
end

section
/-! SETTLED. O49: SPDM 1.2 requests over either transport. -/
namespace Sys2Proof.Machine
open Sys2Proof

section
variable {s : State} {t : Transport}

/-- A completed request whose answer carries `b`, then a signature: besides it only a free value is drawn. -/
def signedReply (s : State) (t : Transport) (b : List Byte) : State := mctpReply (spdmSign s).2 t .success (b ++ (spdmSign s).1)

theorem opSpdmAlgs_heard (h : mgcHears s t = true) (rsa sha : Bool) : opSpdmAlgs s t rsa sha =
    if rsa && sha then mctpReply s t .success [0x01, 0x01] else mctpReply s t .invalidRequest [] := mctpRun_heard h _

/-! ### GET_CERTIFICATE (R469, R470) -/

theorem opSpdmCert_slot0 (h : mgcHears s t = true) (off len : BitVec 16) :
    opSpdmCert s t 0 off len = mctpReply s t .success ((Config.certChain.drop off.toNat).take len.toNat) := mctpRun_heard h _

theorem opSpdmCert_otherSlot (h : mgcHears s t = true) {slot : BitVec 8} (hs : slot ≠ 0) (off len : BitVec 16) :
    opSpdmCert s t slot off len = mctpReply s t .invalidRequest [] := by
  rw [opSpdmCert, mctpRun_heard h, if_neg hs]

/-! ### CHALLENGE (R456, R468, R470) -/

theorem opChallenge_otherSlot (h : mgcHears s t = true) {slot : BitVec 8} (hs : slot ≠ 0) :
    opChallenge s t slot = mctpReply s t .invalidRequest [] := by
  rw [opChallenge, mctpRun_heard h, if_pos hs]

theorem opChallenge_unsigned (h : mgcHears s t = true) (hm : maySign s = false) :
    opChallenge s t 0 = mctpReply s t .authFailed [] := by
  rw [opChallenge, mctpRun_heard h, hm]
  rfl

theorem opChallenge_signed (h : mgcHears s t = true) (hm : maySign s = true) : opChallenge s t 0 = signedReply s t [] := by
  rw [opChallenge, mctpRun_heard h, hm]
  rfl

/-! ### GET_MEASUREMENTS (R471) -/

/-- What an index asks for: the number of measurements, all of them, one of them, or nothing. -/
def measuredBody (s : State) (i : BitVec 8) : Option (List Byte) :=
  if i = 0 then some [4]
  else if i = 0xFF then some ([1, 2, 3, 4].flatMap (measurement s))
  else if i.toNat ≤ 4 then some (measurement s i.toNat)
  else none

theorem measuredBody_refused {i : BitVec 8} (hlo : 4 < i.toNat) (hhi : i.toNat < 255) : measuredBody s i = none := by
  have h0 : i ≠ 0 := by bv_omega
  have hff : i ≠ 0xFF := by bv_omega
  rw [measuredBody, if_neg h0, if_neg hff, if_neg (Nat.not_le.2 hlo)]

theorem measuredBody_one {i : BitVec 8} (hlo : 1 ≤ i.toNat) (hhi : i.toNat ≤ 4) :
    measuredBody s i = some (measurement s i.toNat) := by
  have h0 : i ≠ 0 := by bv_omega
  have hff : i ≠ 0xFF := by bv_omega
  rw [measuredBody, if_neg h0, if_neg hff, if_pos hhi]

theorem measuredBody_all : measuredBody s 0xFF =
    some (measurement s 1 ++ measurement s 2 ++ measurement s 3 ++ measurement s 4) := by
  simp [measuredBody]

theorem opMeasurements_refused (h : mgcHears s t = true) {i : BitVec 8} (hb : measuredBody s i = none) (sg : Bool) :
    opMeasurements s t i sg = mctpReply s t .invalidRequest [] := by
  unfold measuredBody at hb
  simp only [opMeasurements, mctpRun_heard h, hb]

/-- An answered index is signed where that is asked for and the key may sign. -/
theorem opMeasurements_answered (h : mgcHears s t = true) {i : BitVec 8} {b : List Byte} (hb : measuredBody s i = some b) (sg : Bool) :
    opMeasurements s t i sg = if sg = false then mctpReply s t .success b
      else if maySign s = false then mctpReply s t .authFailed [] else signedReply s t b := by
  unfold measuredBody at hb
  simp only [opMeasurements, mctpRun_heard h, hb, Bool.not_eq_true']
  rfl

end

/-- Settles O49: each request by the lemma on its operation; GET_MEASUREMENTS by what its index asks for. -/
theorem spdmRequestsAreAnswered : Obligations.SpdmRequestsAreAnswered := by
  unfold Obligations.SpdmRequestsAreAnswered
  intro s t h say signed
  have hsigned : ∀ (i : Instr) (b : List Byte), exec i s = done (signedReply s t b) → signed i b :=
    fun i b hi => ⟨_, _, hi, rfl, rfl⟩
  refine ⟨congrArg done (mctpRun_heard h _), congrArg done (mctpRun_heard h _), fun rsa sha => ?algorithms,
    ⟨_, congrArg done (mctpRun_heard h _), natBytes_length 32 _⟩, fun slot off len hs ho hl => ?certificate,
    fun slot n => ⟨fun hs => congrArg done (opChallenge_otherSlot h hs), fun hs hm => ?unsigned, fun hs hm => ?challenge⟩,
    fun i sg n hlo hhi => congrArg done (opMeasurements_refused h (measuredBody_refused hlo hhi) sg), fun i n b hb => ?measured,
    fun c => congrArg done (mctpRun_heard h _)⟩
  case algorithms =>
    refine (congrArg done (opSpdmAlgs_heard h rsa sha)).trans ?_
    split <;> rfl
  case certificate =>
    split
    next h0 =>
      subst h0
      refine (congrArg done (opSpdmCert_slot0 h _ _)).trans ?_
      rw [BitVec.toNat_ofNat, BitVec.toNat_ofNat, Nat.mod_eq_of_lt ho, Nat.mod_eq_of_lt hl]
      rfl
    next h0 =>
      have hslot : BitVec.ofNat 8 slot ≠ 0 := by bv_omega
      exact congrArg done (opSpdmCert_otherSlot h hslot _ _)
  case unsigned =>
    subst hs
    exact congrArg done (opChallenge_unsigned h hm)
  case challenge =>
    subst hs
    exact hsigned _ _ (congrArg done (opChallenge_signed h hm))
  case measured =>
    have hbody : measuredBody s i = some b := by
      rcases hb with ⟨rfl, rfl⟩ | ⟨hlo, hhi, rfl⟩ | ⟨rfl, rfl⟩
      · rfl
      · exact measuredBody_one hlo hhi
      · exact measuredBody_all
    have hop := opMeasurements_answered h hbody
    refine ⟨congrArg done ((hop false).trans rfl), fun hm => congrArg done ((hop true).trans ?_),
      fun hm => hsigned _ _ (congrArg done ((hop true).trans ?_))⟩
    · rw [hm]
      rfl
    · rw [hm]
      rfl

end Sys2Proof.Machine
end

section
/-! SETTLED. O50: the PLDM firmware update over I3C: staging, verification, the flash write, its cancellation and timeout. -/
namespace Sys2Proof.Machine
open Sys2Proof

/-! ### Requests of the update (R458, R478, R482) -/

section
variable {s : State}

/-- A request of the update is run where PLDM owns staging. -/
theorem updRun_owned (h : mgcHears s .i3c = true) (ho : s.mgmt.stageOwner = 2) (go : State) : updRun s .i3c go = go :=
  (i3cRun_i3c h _).trans (if_pos ho)

theorem updRun_cxl (h : mgcHears s .cxl = true) (go : State) : updRun s .cxl go = mctpReply s .cxl .unsupportedPldmCmd [] :=
  i3cRun_cxl h _

theorem opRequestUpdate_busy (h : mgcHears s .i3c = true) (ho : s.mgmt.stageOwner ≠ 0) :
    opRequestUpdate s .i3c = mctpReply s .i3c .alreadyInUpdateMode [] := (i3cRun_i3c h _).trans (if_pos ho)

theorem opRequestUpdate_free (h : mgcHears s .i3c = true) (ho : s.mgmt.stageOwner = 0) : opRequestUpdate s .i3c =
    mctpReply (setMgmt s { beginStage (clockNs s) s.mgmt 2 none with updComp := 0, updSize := 0 }) .i3c .success [] :=
  (i3cRun_i3c h _).trans (if_neg (not_not.2 ho))

theorem compOffered_iff (c : BitVec 16) : compOffered c = true ↔ c = 1 ∨ c = 2 := by simp [compOffered]

theorem opPassTable_owned (h : mgcHears s .i3c = true) (ho : s.mgmt.stageOwner = 2) (c : BitVec 16) :
    opPassTable s .i3c c = mctpReply s .i3c (if c = 1 ∨ c = 2 then .success else .badParam) [] := by
  rw [opPassTable, updRun_owned h ho, if_congr (compOffered_iff c) rfl rfl]

theorem opUpdateComponent_offered (h : mgcHears s .i3c = true) (ho : s.mgmt.stageOwner = 2) {c : BitVec 16} {n : BitVec 32}
    (hst : s.mgmt.stageState = 1) (hc : c = 1 ∨ c = 2) (hn : n.toNat ≤ 0x1000000) : opUpdateComponent s .i3c c n =
      emit (mctpReply (setMgmt s { s.mgmt with updComp := c, updSize := n, stageBytes := 0, stageMem := [] }) .i3c .success [])
        .pldmRequestData := by
  have hgo : ¬((!compOffered c) = true ∨ 0x1000000 < n.toNat ∨ s.mgmt.stageState ≠ 1) := by
    simp [(compOffered_iff c).2 hc, hst, hn]
  rw [opUpdateComponent, updRun_owned h ho, if_neg hgo]

/-! ### The data of a component (R482) -/

/-- MGT once a response has been taken into staging memory. -/
def dataStaged (s : State) (bs : List Byte) (last : Bool) : Mgmt :=
  { stageChunk (clockNs s) s.mgmt (bytesCells bs) bs.length with stageState := if last then 2 else 1 }

theorem opFwData_takes (h : mgcHears s .i3c = true) (ho : s.mgmt.stageOwner = 2) {bs : List Byte} (hst : s.mgmt.stageState = 1)
    (hc : s.mgmt.updComp ≠ 0) (hz : s.mgmt.updSize.toNat ≤ 0x1000000)
    (hn : s.mgmt.stageBytes.toNat + bs.length ≤ s.mgmt.updSize.toNat) (last : Bool) :
    opFwData s bs last = emit (setMgmt s (dataStaged s bs last)) (if last then .pldmTransferComplete else .pldmRequestData) := by
  have hfits : ¬ min 0x1000000 s.mgmt.updSize.toNat < s.mgmt.stageBytes.toNat + bs.length := by omega
  have hgo : ¬((!(mgcHears s .i3c && s.mgmt.stageOwner == 2 && s.mgmt.stageState == 1 && s.mgmt.updComp != 0) ||
      decide (min 0x1000000 s.mgmt.updSize.toNat < s.mgmt.stageBytes.toNat + bs.length)) = true) := by
    rw [h, ho, hst, bne_iff_ne.2 hc, decide_eq_false hfits]
    decide
  rw [opFwData, if_neg hgo]
  cases last with
  | true => rfl
  | false =>
    exact congrArg (fun n => emit (setMgmt s { stageChunk (clockNs s) s.mgmt (bytesCells bs) bs.length with stageState := n })
      .pldmRequestData) hst

/-- A chunk lies behind what was staged before. -/
theorem cellGet_stageChunk (now : Nat) (m : Mgmt) (bs : List Byte) (a : Nat) :
    (a < bs.length → cellGet (stageChunk now m (bytesCells bs) bs.length).stageMem (m.stageBytes.toNat + a) = bs.getD a 0) ∧
    (a < m.stageBytes.toNat → cellGet (stageChunk now m (bytesCells bs) bs.length).stageMem a = cellGet m.stageMem a) := by
  refine ⟨fun h => ?_, fun h => ?_⟩
  · rw [stageChunk, cellGet_splice, if_pos ⟨by omega, by omega⟩, cellGet_bytesCells, Nat.add_sub_cancel_left]
  · rw [stageChunk, cellGet_splice, if_neg (by omega)]

theorem stageChunk_bytes (now : Nat) (m : Mgmt) (c : Cells) {n : Nat} (h : m.stageBytes.toNat + n < 2 ^ 25) :
    (stageChunk now m c n).stageBytes.toNat = m.stageBytes.toNat + n := by
  have hadd : (stageChunk now m c n).stageBytes.toNat = (m.stageBytes + BitVec.ofNat 25 n).toNat := rfl
  rw [hadd, BitVec.toNat_add, BitVec.toNat_ofNat]
  omega

/-! ### Verification (R474, R479) -/

/-- MGT with the status and the kind of the staged object recorded. -/
def verdict (m : Mgmt) (st : Status) : Mgmt :=
  { m with stageStatus := st, stageKind := if isRecord m.stageMem then true else if isImage m.stageMem then false else m.stageKind }

/-- An image is no record: their magic numbers differ. -/
theorem isRecord_of_isImage {m : Cells} (h : isImage m = true) : isRecord m = false := by
  unfold isImage at h
  unfold isRecord
  rw [beq_iff_eq.1 h]
  decide

/-- The write of an image sets the marker. -/
theorem beginWrite_image {m : Mgmt} (h : m.stageKind = false) (c : Option CmdHdr) : (beginWrite m c).writeMarker = true := by
  rw [beginWrite, h]
  exact Bool.or_true _

/-- MGT once PLDM has learnt that the object is good: it is verified, and its write begins. -/
def goodVerdict (m : Mgmt) : Mgmt := beginWrite { verdict m stGood with stageState := 3, stageCmd := none } none

theorem goodVerdict_image {m : Mgmt} (h : isImage m.stageMem = true) : (goodVerdict m).writeMarker = true := by
  refine beginWrite_image ?_ none
  simp only [verdict, isRecord_of_isImage h, h, if_true, Bool.false_eq_true, if_false]

section
variable {st : Status} (hst : s.mgmt.stageState = 2) (ho : s.mgmt.stageOwner = 2) (hc : s.mgmt.stageCmd = none)
  (hv : verifyObject s s.mgmt.stageMem s.mgmt.stageBytes.toNat = st)
include hst ho hc hv

theorem opVerifyComplete_good (hg : st = stGood) :
    opVerifyComplete s = setMgmt (emit s (.pldmVerifyComplete 0)) (goodVerdict s.mgmt) := by
  subst hg
  refine (if_neg (not_not.2 hst)).trans ((if_pos ho).trans ((if_pos hv).trans ?_))
  rw [hc, hv]
  rfl

theorem opVerifyComplete_bad (hb : st ≠ stGood) : opVerifyComplete s =
    emit (setMgmt s (failStage (verdict s.mgmt st))) (.pldmVerifyComplete (if st = stRollback then 3 else 1)) := by
  subst hv
  refine (if_neg (not_not.2 hst)).trans ((if_pos ho).trans ((if_neg hb).trans ?_))
  rw [hc, if_neg hb, if_neg hb]
  rfl

end

/-- A step of the update that writes MGT and sends one message. -/
theorem emit_setMgmt_eq (s : State) (m : Mgmt) (o : Output) :
    emit (setMgmt s m) o = { s with mgmt := m, out := [o] ++ s.out } := rfl

/-! ### The flash write and its end (R480, R482) -/

/-- MGT once the object stands in flash. -/
def flashWritten (m : Mgmt) : Mgmt :=
  let m1 := if m.stageKind then { m with flashRecord := m.stageMem, storedSeq := BitVec.ofNat 32 (objField m.stageMem 8 4) }
    else { m with flashImage := m.stageMem, writeMarker := false }
  { m1 with stageState := 5, stageOwner := 0, stageLd := none, stageCmd := none, fwPending := true }

theorem opFlashDone_pldm (hst : s.mgmt.stageState = 4) (ho : s.mgmt.stageOwner = 2) (hc : s.mgmt.stageCmd = none)
    (hr : s.mgmt.recovery = false) : opFlashDone s = emit (setMgmt s (flashWritten s.mgmt)) .pldmApplyComplete := by
  have hreply : ∀ u : State, (match s.mgmt.stageCmd with
      | some h => replyFinal u h stGood 0
      | none => u) = u := by
    intro u
    rw [hc]
  have hrun : ¬s.mgmt.recovery = true := by
    rw [hr]
    exact Bool.false_ne_true
  refine (if_neg (not_not.2 hst)).trans ((if_neg hrun).trans ((if_pos ho).trans ?_))
  exact congrArg (emit · .pldmApplyComplete) (hreply _)

theorem flashWritten_frame (m : Mgmt) : (flashWritten m).stageState = 5 ∧ (flashWritten m).stageOwner = 0 ∧
    (flashWritten m).fwPending = true ∧ (flashWritten m).build = m.build := by
  refine ⟨rfl, rfl, rfl, ?_⟩
  simp only [flashWritten]
  split <;> rfl

theorem flashWritten_image {m : Mgmt} (h : m.stageKind = false) : (flashWritten m).flashImage = m.stageMem ∧
    (flashWritten m).writeMarker = false ∧ (flashWritten m).flashRecord = m.flashRecord := by
  rw [flashWritten, h]
  exact ⟨rfl, rfl, rfl⟩

theorem flashWritten_record {m : Mgmt} (h : m.stageKind = true) : (flashWritten m).flashRecord = m.stageMem ∧
    (flashWritten m).flashImage = m.flashImage := by
  rw [flashWritten, h]
  exact ⟨rfl, rfl⟩

/-! ### Timeout and cancellation (R478, R481) -/

theorem opStageTimeout_early (h : clockNs s < s.mgmt.stageAt + 60000000000) : opStageTimeout s = s := by
  refine if_neg (fun hc => ?_)
  obtain ⟨-, -, hlate⟩ := hc
  exact absurd h (Nat.not_lt.2 hlate)

theorem opStageTimeout_due (h : s.mgmt.stageAt + 60000000000 ≤ clockNs s) (ho : s.mgmt.stageOwner ≠ 0)
    (hst : s.mgmt.stageState = 1 ∨ s.mgmt.stageState = 3) : opStageTimeout s = mgtEvent (setMgmt s (failStage s.mgmt)) 7 :=
  if_pos ⟨ho, hst, h⟩

theorem opCancelUpdate_owned (h : mgcHears s .i3c = true) (ho : s.mgmt.stageOwner = 2) :
    opCancelUpdate s .i3c = mctpReply (setMgmt s (failStage (flashTorn s.mgmt))) .i3c .success [] := updRun_owned h ho _

theorem opCancelComponent_owned (h : mgcHears s .i3c = true) (ho : s.mgmt.stageOwner = 2) : opCancelComponent s .i3c =
    mctpReply (setMgmt s { flashTorn s.mgmt with updComp := 0, updSize := 0, stageBytes := 0, stageMem := [], stageState := 1 })
      .i3c .success [] := updRun_owned h ho _

end

/-- Settles O50: each step of the update by the lemma on its operation; over CXL `i3cRun_cxl` refuses them all. -/
theorem firmwareUpdatesOverI3c : Obligations.FirmwareUpdatesOverI3c := by
  unfold Obligations.FirmwareUpdatesOverI3c
  intro s hisland m say mgmt st
  have h : mgcHears s .i3c = true := mgcHears_i3c hisland
  have hv : verifyObject s s.mgmt.stageMem s.mgmt.stageBytes.toNat = st := rfl
  clear_value st
  refine ⟨congrArg done (i3cRun_i3c h _), congrArg done (i3cRun_i3c h _), congrArg done (i3cRun_i3c h _),
    fun ho => congrArg done (opRequestUpdate_busy h ho), fun ho => ⟨_, congrArg done (opRequestUpdate_free h ho), rfl, rfl, rfl, rfl⟩,
    fun ho => ⟨fun c => congrArg done (opPassTable_owned h ho c),
      fun c n hst hc hn => ⟨_, congrArg done (opUpdateComponent_offered h ho hst hc hn), rfl, rfl, rfl⟩,
      fun bs last hst hc hz hn => ?data, ⟨_, congrArg done (opCancelComponent_owned h ho), rfl, rfl, rfl, ?owner⟩,
      ⟨_, congrArg done (opCancelUpdate_owned h ho), rfl, rfl, rfl, fun hst hk => ?torn⟩⟩,
    fun hst ho hc => ⟨fun hg => ⟨_, congrArg done (opVerifyComplete_good hst ho hc hv hg), rfl, rfl, rfl, goodVerdict_image⟩,
      fun hb => ⟨_, congrArg done (opVerifyComplete_bad hst ho hc hv hb), emit_setMgmt_eq s _ _, rfl, rfl, rfl⟩⟩,
    fun hst ho hc hr => ?written, fun he => congrArg done (opStageTimeout_early he), fun hl ho hst => ?expired,
    congrArg done (i3cRun_i3c h _), fun hx c n => ?cxl⟩
  case data =>
    have hbytes : s.mgmt.stageBytes.toNat + bs.length < 2 ^ 25 := Nat.lt_of_le_of_lt (Nat.le_trans hn hz) (by decide)
    exact ⟨_, congrArg done (opFwData_takes h ho hst hc hz hn last), rfl,
      stageChunk_bytes (clockNs s) s.mgmt (bytesCells bs) hbytes, rfl,
      fun a => (cellGet_stageChunk (clockNs s) s.mgmt bs a).1, fun a => (cellGet_stageChunk (clockNs s) s.mgmt bs a).2⟩
  case owner => exact (flashTorn_stageOwner s.mgmt).trans ho
  case torn => exact congrArg Mgmt.writeMarker (flashTorn_image hst hk)
  case written =>
    obtain ⟨hstate, howner, hpending, hbuild⟩ := flashWritten_frame s.mgmt
    exact ⟨_, congrArg done (opFlashDone_pldm hst ho hc hr), rfl, hstate, howner, hpending, hbuild, flashWritten_image,
      flashWritten_record⟩
  case expired =>
    exact ⟨_, congrArg done (opStageTimeout_due hl ho hst), rfl, rfl, getLsbD_setBit_same _ 7 true (by decide), rfl⟩
  case cxl =>
    simp only [List.forall_mem_cons, List.not_mem_nil, false_implies, implies_true, and_true]
    exact ⟨congrArg done (i3cRun_cxl hx _), congrArg done (i3cRun_cxl hx _), congrArg done (i3cRun_cxl hx _),
      congrArg done (updRun_cxl hx _), congrArg done (updRun_cxl hx _), congrArg done (i3cRun_cxl hx _),
      congrArg done (i3cRun_cxl hx _), congrArg done (updRun_cxl hx _), congrArg done (updRun_cxl hx _)⟩

end Sys2Proof.Machine
end

section
/-! SUPPORT. The two feeds, their eFuses and the duty governor (O51). -/
namespace Sys2Proof.Machine
open Sys2Proof

/-! ### Events of PWR -/

theorem pwrEvent_sets (p : Power) {n : Nat} (h : n < 12) : (pwrEvent p n).events.getLsbD n = true := getLsbD_setBit_same _ n true h

/-- An event that stands is not lost when another is recorded. -/
theorem pwrEvent_keeps {p : Power} {i : Nat} (h : p.events.getLsbD i = true) (n : Nat) : (pwrEvent p n).events.getLsbD i = true := by
  by_cases hn : i = n
  · subst hn
    exact getLsbD_setBit_same _ i true (BitVec.lt_of_getLsbD h)
  · exact (getLsbD_setBit_other _ n i true hn).trans h

section
variable {s : State}

/-! ### Standby power (R467, R468, R512) -/

/-- The island as standby power finds it: Off, at release step 1, SAFE_n following the latch. -/
def islandUp (s : State) (puf : Bool) : State :=
  { s with power := { s.power with island := true, moduleState := 2 }, safety := { s.safety with safeN := s.safety.latched },
           mgmt := { s.mgmt with pufOk := puf }, rst := { s.rst with phase := 1 } }

theorem opStandbyGood_starts (h : s.power.island = false) (puf : Bool) :
    opStandbyGood s puf = if puf then islandUp s puf else mgtEvent (islandUp s puf) 6 :=
  if_neg (by rw [h]; exact Bool.false_ne_true)

theorem opStandbyLoss_mem (s : State) (d : Nat) : (deckAt (opStandbyLoss s) d).mem = [] :=
  rebuiltDecks_mem (fun i =>
    let k := deckKept (clockNs s) false false (deckAt s i)
    { k with scrubRun := 0, scrubStart := [], scrubPos := [],
             stks := k.stks.map (fun e => (e.1, { e.2 with remap := e.2.remapFlash })) }) (fun _ => rfl) d

/-- A torn image aside, flash survives the loss of standby power. -/
theorem opStandbyLoss_flash (s : State) : (opStandbyLoss s).mgmt.counter = s.mgmt.counter ∧
    (opStandbyLoss s).mgmt.flashRecord = s.mgmt.flashRecord ∧ (opStandbyLoss s).mgmt.storedSeq = s.mgmt.storedSeq ∧
    (s.mgmt.stageState ≠ 4 → (opStandbyLoss s).mgmt.flashImage = s.mgmt.flashImage ∧
      (opStandbyLoss s).mgmt.writeMarker = s.mgmt.writeMarker) := by
  have hframe := flashTorn_frame s.mgmt
  refine ⟨(congrArg Mgmt.counter hframe :), (congrArg Mgmt.flashRecord hframe :), (congrArg Mgmt.storedSeq hframe :), fun h => ?_⟩
  have hwhole := flashTorn_of_not_writing h
  exact ⟨(congrArg Mgmt.flashImage hwhole :), (congrArg Mgmt.writeMarker hwhole :)⟩

/-! ### Feeds (R485 to R487) -/

theorem opFeedAFail_handsOver (ha : s.power.activeFeed = 1) (hb : s.power.efuseB = false) :
    opFeedAFail s = setPower s (pwrEvent { s.power with activeFeed := 2, goodA := none } 0) :=
  (if_neg (not_not.2 ha)).trans (if_neg (by rw [hb]; exact Bool.false_ne_true))

theorem feedGood_due {g : Option Nat} {x ns : Nat} (hg : g = some x) (h : x + ns ≤ clockNs s) : feedGood s g ns = true := by
  rw [hg]
  exact decide_eq_true h

/-- A feed out of range, or in it for a shorter time, is not good. -/
theorem feedGood_early {g : Option Nat} {ns : Nat} (h : g = none ∨ ∃ x, g = some x ∧ clockNs s < x + ns) :
    feedGood s g ns = false := by
  rcases h with rfl | ⟨x, rfl, hx⟩
  · rfl
  · exact decide_eq_false (Nat.not_le.2 hx)

theorem opFeedAReturn_takesOver (ha : s.power.activeFeed = 2) (hf : s.power.efuseA = false)
    (hg : feedGood s s.power.goodA 100000000 = true) : opFeedAReturn s = setPower s (pwrEvent { s.power with activeFeed := 1 } 1) :=
  if_pos ⟨ha, hf, hg⟩

theorem opFeedAReturn_early (hg : feedGood s s.power.goodA 100000000 = false) : opFeedAReturn s = s := by
  refine if_neg (fun hc => ?_)
  obtain ⟨-, -, hgood⟩ := hc
  exact Bool.false_ne_true (hg.symm.trans hgood)

/-- Is the eFuse of a feed latched? -/
def fuseLatched (p : Power) (f : Feed) : Bool :=
  match f with
  | .a => p.latchedA
  | .b => p.latchedB

/-- Since when a feed has stood in its range. -/
def feedStood (p : Power) (f : Feed) : Option Nat :=
  match f with
  | .a => p.goodA
  | .b => p.goodB

/-- PWR with the eFuse of a feed closed. -/
def fuseClosed (p : Power) (f : Feed) : Power :=
  match f with
  | .a => { p with efuseA := false }
  | .b => { p with efuseB := false }

theorem opEfuseReclose_eq (s : State) (f : Feed) : opEfuseReclose s f =
    if fuseLatched s.power f || !feedGood s (feedStood s.power f) 1000000000 then s else setPower s (fuseClosed s.power f) := by
  cases f <;> rfl

theorem opEfuseReclose_closes {f : Feed} (hl : fuseLatched s.power f = false)
    (hg : feedGood s (feedStood s.power f) 1000000000 = true) : opEfuseReclose s f = setPower s (fuseClosed s.power f) := by
  rw [opEfuseReclose_eq, hl, hg]
  rfl

theorem opEfuseReclose_stays {f : Feed} (h : fuseLatched s.power f = true ∨ feedGood s (feedStood s.power f) 1000000000 = false) :
    opEfuseReclose s f = s := by
  rw [opEfuseReclose_eq]
  rcases h with h | h
  · rw [h]
    rfl
  · rw [h, Bool.not_false, Bool.or_true]
    rfl

/-! ### An eFuse trips (R485, R487, R490, R510) -/

/-- The third trip is the one that finds two in the hour before it. -/
theorem addTrip_third (s : State) (ts : List Nat) : (3 ≤ (addTrip s ts).length) =
    (2 ≤ (ts.filter (fun x => decide (clockNs s < x + 3600000000000))).length) := by
  rw [addTrip, List.length_take, List.length_cons]
  exact propext (by omega)

/-- PWR with eFuse A opened, its trip recorded, and latched at the third. -/
def openedA (s : State) : Power :=
  let p := s.power
  let ts := addTrip s p.tripTimesA
  let p1 := pwrEvent { p with efuseA := true, tripTimesA := ts, latchedA := p.latchedA || decide (3 ≤ ts.length) } 4
  if p1.latchedA then pwrEvent p1 6 else p1

/-- PWR with eFuse B opened, its trip recorded, and latched at the third. -/
def openedB (s : State) : Power :=
  let p := s.power
  let ts := addTrip s p.tripTimesB
  let p1 := pwrEvent { p with efuseB := true, tripTimesB := ts, latchedB := p.latchedB || decide (3 ≤ ts.length) } 5
  if p1.latchedB then pwrEvent p1 6 else p1

theorem openedA_spec (s : State) : (openedA s).efuseA = true ∧ (openedA s).efuseB = s.power.efuseB ∧
    (openedA s).activeFeed = s.power.activeFeed ∧ (openedA s).moduleState = s.power.moduleState ∧
    (openedA s).events.getLsbD 4 = true ∧ (openedA s).latchedA =
      (s.power.latchedA || decide (2 ≤ (s.power.tripTimesA.filter (fun x => decide (clockNs s < x + 3600000000000))).length)) := by
  simp only [← addTrip_third, openedA]
  split
  · exact ⟨rfl, rfl, rfl, rfl, pwrEvent_keeps (pwrEvent_sets _ (by decide)) 6, rfl⟩
  · exact ⟨rfl, rfl, rfl, rfl, pwrEvent_sets _ (by decide), rfl⟩

theorem openedB_spec (s : State) : (openedB s).efuseA = s.power.efuseA ∧ (openedB s).efuseB = true := by
  simp only [openedB]
  split <;> exact ⟨rfl, rfl⟩

/-- PWR after a trip of eFuse A: feed B carries the module where A did, if its eFuse is closed. -/
def handedA (s : State) : Power :=
  let p := openedA s
  if p.activeFeed = 1 then (if p.efuseB then { p with activeFeed := 0 } else pwrEvent { p with activeFeed := 2 } 0) else p

/-- PWR after a trip of eFuse B: feed A carries the module where B did, if its eFuse is closed. -/
def handedB (s : State) : Power :=
  let p := openedB s
  if p.activeFeed = 2 then { p with activeFeed := if p.efuseA then 0 else 1 } else p

/-- Safety function 1 reports a trip that leaves PWR at `p`; with both eFuses open the module enters the safe state. -/
def tripped (s : State) (p : Power) : State :=
  if p.efuseA && p.efuseB then safeState (safetyAct (setPower s p) 1) 1 else safetyAct (setPower s p) 1

theorem opEfuseTrip_a (h : s.power.efuseA = false) : opEfuseTrip s .a = tripped s (handedA s) :=
  if_neg (by rw [h]; exact Bool.false_ne_true)

theorem opEfuseTrip_b (h : s.power.efuseB = false) : opEfuseTrip s .b = tripped s (handedB s) :=
  if_neg (by rw [h]; exact Bool.false_ne_true)

theorem handedA_spec (h : s.power.efuseB = false) : (handedA s).efuseA = true ∧ (handedA s).efuseB = false ∧
    (handedA s).activeFeed = (if s.power.activeFeed = 1 then 2 else s.power.activeFeed) ∧
    (handedA s).moduleState = s.power.moduleState ∧ (handedA s).events.getLsbD 4 = true ∧
    (handedA s).latchedA = (openedA s).latchedA := by
  obtain ⟨ha, hb, hfeed, hstate, hevent, -⟩ := openedA_spec s
  rw [h] at hb
  have hclosed : ¬(openedA s).efuseB = true := by rw [hb]; exact Bool.false_ne_true
  simp only [handedA, if_neg hclosed, hfeed]
  split
  · exact ⟨ha, hb, rfl, hstate, pwrEvent_keeps hevent 0, rfl⟩
  · exact ⟨ha, hb, hfeed, hstate, hevent, rfl⟩

theorem handedB_fuses (s : State) : (handedB s).efuseA = s.power.efuseA ∧ (handedB s).efuseB = true := by
  obtain ⟨ha, hb⟩ := openedB_spec s
  simp only [handedB]
  split <;> exact ⟨ha, hb⟩

theorem tripped_one {p : Power} (h : p.efuseB = false) : (tripped s p).power = p := by
  rw [tripped, h, Bool.and_false]
  rfl

/-- The safe state is Off with the latch set; the first cause stays. -/
theorem safeState_spec (s : State) (c : Nat) : (safeState s c).power.moduleState = 2 ∧ (safeState s c).safety.latched = true ∧
    (safeState s c).safety.safeN = true ∧ (s.safety.latched = false → (safeState s c).safety.cause = BitVec.ofNat 4 c) := by
  have hsafety : (safeState s c).safety = { (if s.safety.latched then s.safety else { s.safety with
      latched := true, cause := BitVec.ofNat 4 c, time := BitVec.ofNat 64 (hallNs s) }) with safeN := true } := rfl
  refine ⟨rfl, ?_⟩
  rw [hsafety]
  cases hl : s.safety.latched with
  | true => exact ⟨hl, rfl, fun h => Bool.noConfusion h⟩
  | false => exact ⟨rfl, rfl, fun _ => rfl⟩

theorem tripped_both {p : Power} (ha : p.efuseA = true) (hb : p.efuseB = true) :
    tripped s p = safeState (safetyAct (setPower s p) 1) 1 := if_pos (by rw [ha, hb]; rfl)

/-! ### Power loss and power-on (R485, R489, R490, R512) -/

theorem opPowerLoss_off (hm : s.power.moduleState ≠ 2) (hf : (s.power.efuseA && s.power.efuseB) = false) :
    opPowerLoss s = lossOff s := by
  refine if_neg (fun h => h.elim hm (fun hc => ?_))
  exact Bool.false_ne_true (hf.symm.trans hc)

theorem opPowerOn_latched (h : s.safety.latched = true) : opPowerOn s = s := if_pos (by simp [h])

/-- The feed that carries the module at power-on. -/
def firstFeed (p : Power) : BitVec 2 := if !p.efuseA && decide (4600 ≤ p.voltsA.toNat) then 1 else if p.efuseB then 1 else 2

theorem opPowerOn_starts (hi : s.power.island = true) (hm : s.power.moduleState = 2) (hp : s.mgmt.presentHigh = false)
    (hf : (s.power.efuseA && s.power.efuseB) = false) (hl : s.safety.latched = false) : opPowerOn s =
      moduleReset (setPower s { s.power with moduleState := 0, activeFeed := firstFeed s.power }) true false 0 0 false :=
  if_neg (by rw [hi, hm, hp, hf, hl]; decide)

theorem firstFeed_cases (p : Power) : firstFeed p = 1 ∨ firstFeed p = 2 := by
  unfold firstFeed
  split
  · exact .inl rfl
  · split
    · exact .inl rfl
    · exact .inr rfl

theorem firstFeed_a {p : Power} (h : p.efuseA = false) (hv : 4600 ≤ p.voltsA.toNat) : firstFeed p = 1 :=
  if_pos (by rw [h, decide_eq_true hv]; rfl)

theorem firstFeed_b {p : Power} (h : p.efuseA = true) (hf : (p.efuseA && p.efuseB) = false) : firstFeed p = 2 := by
  rw [h, Bool.true_and] at hf
  rw [firstFeed, h, hf]
  rfl

/-! ### Samples (R486 to R488, R491) -/

/-- A sample writes the meters and the times since which the feeds are good; it opens no feed and closes none. -/
theorem opPowerSample_spec (h : s.power.island = true) (w va ia vb ib : BitVec 16) :
    let t := opPowerSample s w va ia vb ib
    t = { s with power := t.power } ∧ t.power.sampleW = w ∧ t.power.voltsA = va ∧ t.power.ampsA = ia ∧ t.power.voltsB = vb ∧
    t.power.ampsB = ib ∧ t.power.peakW = (if s.power.peakW.toNat < w.toNat then w else s.power.peakW) ∧
    t.power.activeFeed = s.power.activeFeed ∧ t.power.goodA = feedSince (clockNs s) s.power.goodA va ∧
    t.power.goodB = feedSince (clockNs s) s.power.goodB vb := by
  have hon : ¬(!s.power.island) = true := by rw [h]; decide
  simp only [opPowerSample, if_neg hon]
  generalize (if s.power.activeFeed = 1 then va.toNat else if s.power.activeFeed = 2 then vb.toNat else 0) = v
  by_cases hlow : 4600 ≤ v ∧ v < 5000
  · rw [if_pos hlow]
    split <;> exact ⟨rfl, rfl, rfl, rfl, rfl, rfl, rfl, rfl, rfl, rfl⟩
  · rw [if_neg hlow]
    split <;> exact ⟨rfl, rfl, rfl, rfl, rfl, rfl, rfl, rfl, rfl, rfl⟩

theorem peak_toNat (a b : BitVec 16) : (if a.toNat < b.toNat then b else a).toNat = max a.toNat b.toNat := by
  split <;> omega

/-! ### The duty governor (R491, R493, R494) -/

theorem satInc_byte (v : BitVec 8) : (satInc v).toNat = min 255 (v.toNat + 1) := by
  unfold satInc
  split
  next h => rw [h]; decide
  next h =>
    have hlt : v.toNat ≠ 255 := fun hv => h (BitVec.eq_of_toNat_eq hv)
    bv_omega

theorem nextDuty_falls {p : Power} {avg cnt : Nat} (h : p.effW.toNat < avg) (hc : cnt < 10) :
    (nextDuty p avg cnt).toNat = if p.duty.toNat ≤ 4 then 4 else p.duty.toNat - 1 := by
  rw [nextDuty, if_pos h]
  by_cases hd : p.duty.toNat ≤ 4
  · rw [if_pos (.inr hd), if_pos hd]
    rfl
  · rw [if_neg (by omega), if_neg hd]
    bv_omega

theorem nextDuty_floor {p : Power} {avg cnt : Nat} (h : p.effW.toNat < avg) (hc : 10 ≤ cnt) : nextDuty p avg cnt = 4 := by
  rw [nextDuty, if_pos h, if_pos (.inl hc)]

theorem nextDuty_rises {p : Power} {avg cnt : Nat} (h : avg * 10 < p.effW.toNat * 9) (hc : 10 ≤ p.calm) (hd : p.duty.toNat < 16) :
    (nextDuty p avg cnt).toNat = p.duty.toNat + 1 := by
  rw [nextDuty, if_neg (by omega), if_pos ⟨h, hc, hd⟩]
  bv_omega

theorem nextDuty_stays {p : Power} {avg cnt : Nat} (hlo : p.effW.toNat * 9 ≤ avg * 10) (hhi : avg ≤ p.effW.toNat) :
    nextDuty p avg cnt = p.duty := by
  rw [nextDuty, if_neg (Nat.not_lt.2 hhi), if_neg (fun h => absurd h.1 (Nat.not_lt.2 hlo))]

/-- Running windows above the limit, after one of average `avg`. -/
def overAfter (p : Power) (avg : Nat) : BitVec 8 := if p.effW.toNat < avg then satInc p.overCnt else 0

theorem overAfter_above {p : Power} {avg : Nat} (h : p.effW.toNat < avg) :
    (overAfter p avg).toNat = min 255 (p.overCnt.toNat + 1) := by rw [overAfter, if_pos h, satInc_byte]

/-- A window's end sets the average, the limit of the next window and its duty; the tenth running one above is an event. -/
theorem opWindowEnd_spec (hm : s.power.moduleState ≠ 2) (hw : s.power.winCount ≠ 0) :
    let avg := s.power.winSum / s.power.winCount
    let cnt := (overAfter s.power avg).toNat
    let t := opWindowEnd s
    t = { s with power := t.power } ∧ t.power.avgW = BitVec.ofNat 16 avg ∧
    t.power.effW = BitVec.ofNat 16 (min s.power.mgcW.toNat s.power.fwW.toNat) ∧ t.power.winCount = 0 ∧
    t.power.duty = nextDuty s.power avg cnt ∧ (s.power.effW.toNat < avg → 10 ≤ cnt → t.power.events.getLsbD 10 = true) := by
  simp only [opWindowEnd, if_neg hm, if_neg hw, overAfter, decide_eq_true_eq]
  by_cases ha : s.power.effW.toNat < s.power.winSum / s.power.winCount
  · by_cases hc : 10 ≤ (satInc s.power.overCnt).toNat
    · simp only [ha, hc, if_true, decide_true, Bool.true_and]
      split
      · exact ⟨rfl, rfl, rfl, rfl, rfl, fun _ _ => pwrEvent_keeps (pwrEvent_sets _ (by decide)) 9⟩
      · exact ⟨rfl, rfl, rfl, rfl, rfl, fun _ _ => pwrEvent_sets _ (by decide)⟩
    · simp only [ha, hc, if_true, decide_true, decide_false, Bool.true_and, Bool.false_eq_true, if_false]
      split
      · exact ⟨rfl, rfl, rfl, rfl, rfl, fun _ h => h.elim⟩
      · exact ⟨rfl, rfl, rfl, rfl, rfl, fun _ h => h.elim⟩
  · simp only [ha, if_false, decide_false, Bool.false_and, Bool.false_eq_true]
    exact ⟨rfl, rfl, rfl, rfl, rfl, fun h => h.elim⟩

theorem toNat_min_words (a b : BitVec 16) : (BitVec.ofNat 16 (min a.toNat b.toNat)).toNat = min a.toNat b.toNat := by
  have ha := a.isLt
  rw [BitVec.toNat_ofNat]
  omega

/-! ### The limits (R35, R491, R494) -/

theorem setLimit_spec (p : Power) (mgc fw : Nat) : (setLimit p mgc fw).mgcW = BitVec.ofNat 16 mgc ∧
    (setLimit p mgc fw).fwW = BitVec.ofNat 16 fw ∧ (setLimit p mgc fw).effW = p.effW := by
  simp only [setLimit]
  split <;> exact ⟨rfl, rfl, rfl⟩

/-- A clipped limit fits its register. -/
theorem toNat_clippedWatts (v : Nat) : (BitVec.ofNat 16 (clip 6000 15000 v)).toNat = max 6000 (min 15000 v) := by
  rw [clip_eq _ _ _ (by decide), BitVec.toNat_ofNat]
  omega

end

end Sys2Proof.Machine
end

section
/-! SETTLED. O51: standby power, the two feeds, eFuses, power loss and power-on, the duty governor and its limits. -/
namespace Sys2Proof.Machine
open Sys2Proof

/-- Settles O51: each event by the lemma on its operation, POWER_ON by `moduleReset_cold`. -/
theorem feedsFusesAndTheDutyGovernor : Obligations.FeedsFusesAndTheDutyGovernor := by
  unfold Obligations.FeedsFusesAndTheDutyGovernor
  intro s p clipW
  refine ⟨fun puf hi => ?standbyGood, ?standbyLoss, fun ha hb => congrArg done (opFeedAFail_handsOver ha hb),
    fun x ha hf hg hx => congrArg done (opFeedAReturn_takesOver ha hf (feedGood_due hg hx)),
    fun hg => congrArg done (opFeedAReturn_early (feedGood_early hg)), fun ha hb => ?tripA, fun ha hb => ?tripB,
    fun x => ⟨fun hl hg hx => congrArg done (opEfuseReclose_closes (f := .a) hl (feedGood_due hg hx)),
      fun hstay => congrArg done (opEfuseReclose_stays (f := .a) (hstay.imp_right fun h => feedGood_early (h.imp_right fun hx => ⟨x, hx⟩))),
      fun hl hg hx => congrArg done (opEfuseReclose_closes (f := .b) hl (feedGood_due hg hx)),
      fun hstay => congrArg done (opEfuseReclose_stays (f := .b) (hstay.imp_right fun h => feedGood_early (h.imp_right fun hx => ⟨x, hx⟩)))⟩,
    fun hm hf => ⟨_, congrArg done (opPowerLoss_off hm hf), lossOff_moduleState s, lossOff_event s, lossOff_safety s, lossOff_mem s, lossOff_bkp s⟩,
    fun hi hm hp hf => ⟨fun hl => congrArg done (opPowerOn_latched hl), fun hl hh => ?powerOn⟩, fun w va ia vb ib hi => ?sample,
    fun hm hw => ?window, fun v => ⟨?mgcLimit, ?fwLimit, fun l => rfl⟩⟩
  case standbyGood =>
    refine ⟨_, congrArg done (opStandbyGood_starts hi puf), ?_⟩
    cases puf with
    | true => exact ⟨rfl, rfl, rfl, rfl, rfl, fun h => Bool.noConfusion h⟩
    | false => exact ⟨rfl, rfl, rfl, rfl, rfl, fun _ => getLsbD_setBit_same _ 6 true (by decide)⟩
  case standbyLoss =>
    obtain ⟨hcounter, hrecord, hseq, himage⟩ := opStandbyLoss_flash s
    exact ⟨_, rfl, rfl, rfl, rfl, rfl, hcounter, hrecord, hseq, rfl, rfl, rfl, opStandbyLoss_mem s, himage⟩
  case tripA =>
    obtain ⟨-, -, -, -, -, hthird⟩ := openedA_spec s
    obtain ⟨hopen, hclosed, hfeed, hstate, hevent, hlatch⟩ := handedA_spec hb
    refine ⟨_, congrArg done (opEfuseTrip_a ha), ?_⟩
    rw [tripped_one hclosed]
    exact ⟨hopen, hclosed, hfeed, hstate, hevent, hlatch.trans hthird⟩
  case tripB =>
    obtain ⟨hopenA, hopenB⟩ := handedB_fuses s
    refine ⟨_, congrArg done (opEfuseTrip_b hb), ?_⟩
    rw [tripped_both (hopenA.trans ha) hopenB]
    exact safeState_spec _ 1
  case powerOn =>
    obtain ⟨hpower, hphase, hlast⟩ := moduleReset_cold
      (setPower s { s.power with moduleState := 0, activeFeed := firstFeed s.power }) 0 hh (show (0 : BitVec 2) ≠ 2 by decide) (by decide)
    refine ⟨_, congrArg done (opPowerOn_starts hi hm hp hf hl), ?_, hphase, ?_, ?_, ?_, hlast⟩
    · rw [hpower]
      rfl
    · rw [hpower]
      exact firstFeed_cases _
    · rw [hpower]
      exact firstFeed_a
    · rw [hpower]
      exact fun he => firstFeed_b he hf
  case sample =>
    obtain ⟨hframe, hw, hva, hia, hvb, hib, hpeak, hfeed, hgoodA, hgoodB⟩ := opPowerSample_spec hi w va ia vb ib
    exact ⟨_, rfl, hframe, hw, hva, hia, hvb, hib, (congrArg BitVec.toNat hpeak).trans (peak_toNat _ _), hfeed, hgoodA, hgoodB⟩
  case window =>
    obtain ⟨hframe, havg, heff, hcount, hduty, hevent⟩ := opWindowEnd_spec hm hw
    refine ⟨_, rfl, hframe, fun hlt => ?_, ?_, hcount, fun ho hc => ?_, fun ho hc => ?_, fun hu hcalm hd => ?_, fun hlo hhi => ?_⟩
    · rw [havg, BitVec.toNat_ofNat, Nat.mod_eq_of_lt hlt]
    · rw [heff, toNat_min_words]
    · have hcnt : (overAfter s.power (s.power.winSum / s.power.winCount)).toNat < 10 := by
        rw [overAfter_above ho]
        exact Nat.lt_of_le_of_lt (Nat.min_le_right _ _) (Nat.succ_lt_succ hc)
      rw [hduty, nextDuty_falls ho hcnt]
    · have hcnt : 10 ≤ (overAfter s.power (s.power.winSum / s.power.winCount)).toNat := by
        rw [overAfter_above ho]
        exact Nat.le_min.2 ⟨by decide, Nat.succ_le_succ hc⟩
      exact ⟨hduty.trans (nextDuty_floor ho hcnt), hevent ho hcnt⟩
    · rw [hduty, nextDuty_rises hu hcalm hd]
    · rw [hduty, nextDuty_stays hlo hhi]
  case mgcLimit =>
    obtain ⟨hmgc, hfw, heff⟩ := setLimit_spec s.power (clip 6000 15000 (bits v.toNat 0 16)) (clip 6000 15000 (bits v.toNat 16 16))
    refine ⟨_, rfl, rfl, ?_, ?_, heff⟩
    · exact (congrArg BitVec.toNat hmgc).trans ((toNat_clippedWatts _).trans (by rw [bits_zero]))
    · exact (congrArg BitVec.toNat hfw).trans (toNat_clippedWatts _)
  case fwLimit =>
    obtain ⟨hmgc, hfw, heff⟩ := setLimit_spec s.power s.power.mgcW.toNat
      (min (clip 6000 15000 (bits v.toNat 16 16)) s.power.mgcW.toNat)
    refine ⟨_, rfl, rfl, hmgc.trans ((BitVec.ofNat_toNat _ _).trans (BitVec.setWidth_eq _)), ?_, heff⟩
    refine (congrArg BitVec.toNat hfw).trans ?_
    have hw := s.power.mgcW.isLt
    rw [clip_eq _ _ _ (by decide), BitVec.toNat_ofNat, Nat.mod_eq_of_lt (by omega)]
    rfl

end Sys2Proof.Machine
end

section
/-! SUPPORT. What a command leaves as it is whatever it does, but for the events that switch main conversion off or on: the queue, the
clock, the safety latch, main conversion (O59, O60). The shared operations first. -/
namespace Sys2Proof.Machine
open Sys2Proof

/-- What the power events alone change: the waiting commands, the clock, the safety latch, and whether main conversion is off. -/
def spine (s : State) : List Instr × Nat × Bool × Bool := (s.pending, s.clock, s.safety.latched, s.power.moduleState == 2)

theorem spine_mk (decks : SMap Deck) (htu : Htu) (tt : Timetable) (ports : SMap Port) (net : Net) (churn : Churn) (host : HostSide)
    (mem : MemCtl) (mgmt : Mgmt) (power : Power) (thermal : Thermal) (safety : Safety) (rst : Rst) (pending : List Instr)
    (clock free : Nat) (out : List Output) :
    spine ⟨decks, htu, tt, ports, net, churn, host, mem, mgmt, power, thermal, safety, rst, pending, clock, free, out⟩ =
      (pending, clock, safety.latched, power.moduleState == 2) := rfl

theorem spine_eta (s : State) : (s.pending, s.clock, s.safety.latched, s.power.moduleState == 2) = spine s := rfl

/-- What each round of a fold keeps, the fold keeps. -/
theorem foldl_keeps {α γ σ : Type} (g : σ → γ) (f : σ → α → σ) (hf : ∀ r x, g (f r x) = g r) (xs : List α) (r : σ) :
    g (xs.foldl f r) = g r :=
  List.foldlRecOn (motive := fun t => g t = g r) xs f rfl (fun t ht x _ => (hf t x).trans ht)

theorem foldl_spine {α : Type} (f : State → α → State) (hf : ∀ s x, spine (f s x) = spine s) (xs : List α) (s : State) :
    spine (xs.foldl f s) = spine s :=
  foldl_keeps spine f hf xs s

theorem foldl_spine_snd {α β : Type} (f : β × State → α → β × State) (hf : ∀ r x, spine (f r x).2 = spine r.2) (xs : List α)
    (r : β × State) : spine (xs.foldl f r).2 = spine r.2 :=
  foldl_keeps (fun r => spine r.2) f hf xs r

theorem ite_spine {s t u : State} {p : Prop} [Decidable p] (ht : spine t = spine s) (hu : spine u = spine s) :
    spine (if p then t else u) = spine s := by
  split
  · exact ht
  · exact hu

/-! ### Replies, event records, what a deck asks for (R425 to R434, R449, R459) -/

theorem setDeck_spine (s : State) (d : Nat) (k : Deck) : spine (setDeck s d k) = spine s := by rfl

theorem modDeck_spine (s : State) (d : Nat) (f : Deck → Deck) : spine (modDeck s d f) = spine s := by rfl

theorem setPort_spine (s : State) (p : Nat) (k : Port) : spine (setPort s p k) = spine s := by rfl

theorem modPort_spine (s : State) (p : Nat) (f : Port → Port) : spine (modPort s p f) = spine s := by rfl

theorem setLd_spine (s : State) (k : Nat) (x : Ld) : spine (setLd s k x) = spine s := by rfl

theorem modLd_spine (s : State) (k : Nat) (f : Ld → Ld) : spine (modLd s k f) = spine s := by rfl

theorem emit_spine (s : State) (o : Output) : spine (emit s o) = spine s := by rfl

theorem draw_spine (w : Nat) (s : State) : spine (draw w s).2 = spine s := by rfl

theorem setRing_spine (s : State) (k r : Nat) (x : Ring) : spine (setRing s k r x) = spine s := by rfl

theorem writeReply_spine (s : State) (h : CmdHdr) (st : Status) (res : Nat) (final : Bool) :
    spine (writeReply s h st res final) = spine s := by
  unfold writeReply
  dsimp only
  (repeat' split) <;> simp only [modLd_spine, emit_spine, setRing_spine]

theorem replyNow_spine (s : State) (h : CmdHdr) (st : Status) (res : Nat) : spine (replyNow s h st res) = spine s := by
  simp only [replyNow, writeReply_spine]

theorem replyPending_spine (s : State) (h : CmdHdr) : spine (replyPending s h) = spine s := by
  simp only [replyPending, writeReply_spine]

theorem replyLater_spine (s : State) (h : CmdHdr) : spine (replyLater s h) = spine s := by
  simp only [replyLater, setRing_spine]

theorem replyFinal_spine (s : State) (h : CmdHdr) (st : Status) (res : Nat) : spine (replyFinal s h st res) = spine s := by
  unfold replyFinal
  split <;> simp only [writeReply_spine]

theorem slotWrite_spine (s : State) (h : CmdHdr) (off : Nat) (bs : List Byte) : spine (slotWrite s h off bs) = spine s := by rfl

theorem postEvent_spine (s : State) (k : Nat) (st : Status) (deck a0 a1 : Nat) : spine (postEvent s k st deck a0 a1) = spine s := by
  unfold postEvent
  dsimp only
  (repeat' split) <;> simp only [setLd_spine, modLd_spine, emit_spine]

theorem postAll_spine (s : State) (st : Status) (a0 a1 : Nat) : spine (postAll s st a0 a1) = spine s := by
  simp only [postAll, postEvent_spine, foldl_spine, implies_true]

theorem postDeck_spine (s : State) (d : Nat) (st : Status) (a0 a1 : Nat) : spine (postDeck s d st a0 a1) = spine s := by
  unfold postDeck
  split <;> simp only [postEvent_spine]

theorem pldmEvent_spine (s : State) (e : Nat) : spine (pldmEvent s e) = spine s := by
  simp only [pldmEvent, emit_spine, spine_mk, spine_eta]

theorem violation_spine (s : State) (k : Nat) : spine (violation s k) = spine s := by
  unfold violation
  dsimp only
  (repeat' split) <;> simp only [setLd_spine, modLd_spine, pldmEvent_spine]

theorem unsupported_spine (s : State) (a : Agent) : spine (unsupported s a) = spine s := by
  unfold unsupported
  split <;> simp only [emit_spine, violation_spine]

theorem memEvent_spine (s : State) (n : Nat) : spine (memEvent s n) = spine s := by rfl

theorem plogWrite_spine (s : State) (d addr stack channel cause : Nat) : spine (plogWrite s d addr stack channel cause) = spine s := by
  simp only [plogWrite, spine_mk, spine_eta]

theorem applyEff_spine (d : Nat) (s : State) (e : DeckEff) : spine (applyEff d s e) = spine s := by
  simp only [applyEff]
  (repeat' split) <;> simp only [modLd_spine, replyFinal_spine, postDeck_spine, pldmEvent_spine, memEvent_spine, plogWrite_spine]

theorem putDeck_spine (s : State) (d : Nat) (r : DeckRes) : spine (putDeck s d r) = spine s := by
  simp only [putDeck, setDeck_spine, applyEff_spine, foldl_spine, implies_true]

/-! ### Hall time (R56 to R73, R349 to R351) -/

theorem setHtu_spine (s : State) (h : Htu) : spine (setHtu s h) = spine s := by rfl

theorem followLocked_spine (s : State) (k : Nat) : spine (followLocked s k) = spine s := by
  simp only [followLocked, setHtu_spine, spine_mk, spine_eta]

theorem renumber_spine (s : State) : spine (renumber s) = spine s := by
  unfold renumber
  split <;> simp only [setHtu_spine]

theorem enterAcquiring_spine (s : State) (k : Nat) : spine (enterAcquiring s k) = spine s := by rfl

theorem enterFree_spine (s : State) : spine (enterFree s) = spine s := by rfl

theorem enterLocked_spine (s : State) (k : Nat) : spine (enterLocked s k) = spine s := by
  simp only [enterLocked, setHtu_spine, followLocked_spine]

theorem enterHoldover_spine (s : State) : spine (enterHoldover s) = spine s := by rfl

theorem enterAdrift_spine (s : State) (err : Nat) : spine (enterAdrift s err) = spine s := by
  simp only [enterAdrift, postAll_spine, pldmEvent_spine, setHtu_spine, spine_mk, spine_eta]

theorem sourceLost_spine (s : State) : spine (sourceLost s) = spine s := by
  unfold sourceLost
  dsimp only
  (repeat' split) <;> simp only [setHtu_spine, followLocked_spine, enterHoldover_spine]

theorem reselect_spine (s : State) : spine (reselect s) = spine s := by
  unfold reselect
  dsimp only
  (repeat' split) <;> simp only [setHtu_spine, followLocked_spine, enterAcquiring_spine]

theorem steer_spine (s : State) (off : Int) : spine (steer s off) = spine s := by
  unfold steer
  dsimp only
  (repeat' split) <;> simp only [setHtu_spine, enterLocked_spine, spine_mk, spine_eta]

theorem useBeacon_spine (s : State) (p : Nat) (b : Beacon) (off : Int) (calibrated was : Bool) :
    spine (useBeacon s p b off calibrated was) = spine s := by
  unfold useBeacon
  dsimp only
  (repeat' split) <;> simp only [setHtu_spine, followLocked_spine, enterAdrift_spine, sourceLost_spine, reselect_spine, steer_spine]

theorem dropLink_spine (s : State) (p : Nat) : spine (dropLink s p) = spine s := by
  unfold dropLink
  dsimp only
  (repeat' split) <;> simp only [setHtu_spine, sourceLost_spine, reselect_spine]

theorem badBeacon_spine (s : State) (p : Nat) : spine (badBeacon s p) = spine s := by
  unfold badBeacon
  dsimp only
  (repeat' split) <;> simp only [modPort_spine, setHtu_spine, dropLink_spine]

theorem opBeaconReceive_spine (s : State) (p : Nat) (crcOk : Bool) (b : Beacon) : spine (opBeaconReceive s p crcOk b) = spine s := by
  unfold opBeaconReceive
  dsimp only
  (repeat' split) <;> simp only [setHtu_spine, useBeacon_spine, badBeacon_spine]

theorem dropExternal_spine (s : State) (n : Nat) (h : Htu) : spine (dropExternal s n h) = spine s := by
  unfold dropExternal
  split <;> simp only [setHtu_spine, sourceLost_spine]

theorem opAcquireNoSource_spine (s : State) : spine (opAcquireNoSource s) = spine s := by
  unfold opAcquireNoSource
  split <;> simp only [enterFree_spine]

theorem opHoldoverExpire_spine (s : State) : spine (opHoldoverExpire s) = spine s := by
  unfold opHoldoverExpire
  split <;> simp only [enterAdrift_spine]

theorem opPpsEdge_spine (s : State) (falling : Bool) (cycles : Nat) (refOk : Bool) :
    spine (opPpsEdge s falling cycles refOk) = spine s := by
  unfold opPpsEdge
  dsimp only
  (repeat' split) <;> simp only [setHtu_spine, enterAdrift_spine, reselect_spine, steer_spine, dropExternal_spine]

theorem opPpsOverdue_spine (s : State) : spine (opPpsOverdue s) = spine s := by
  simp only [opPpsOverdue, dropExternal_spine]

theorem opRefInvalid_spine (s : State) : spine (opRefInvalid s) = spine s := by
  simp only [opRefInvalid, dropExternal_spine]

theorem opGmSecond_spine (s : State) : spine (opGmSecond s) = spine s := by
  unfold opGmSecond
  dsimp only
  (repeat' split) <;> simp only [setHtu_spine]

theorem opDisagree_spine (s : State) : spine (opDisagree s).1 = spine s := by
  unfold opDisagree
  dsimp only
  (repeat' split) <;> simp only [setHtu_spine, enterHoldover_spine, sourceLost_spine]

theorem opTimeStart_spine (s : State) (p : Nat) : spine (opTimeStart s p) = spine s := by
  unfold opTimeStart
  split <;> simp only [emit_spine, setHtu_spine]

theorem timeCrcError_spine (s : State) (p : Nat) : spine (timeCrcError s p) = spine s := by rfl

theorem opTimeReq_spine (s : State) (p : Nat) (crcOk : Bool) (t1 : Stamp) : spine (opTimeReq s p crcOk t1) = spine s := by
  simp only [opTimeReq]
  (repeat' split) <;> simp only [modPort_spine, emit_spine]

theorem opTimeResp_spine (s : State) (p : Nat) (crcOk : Bool) (t1 t2 t3 : Stamp) : spine (opTimeResp s p crcOk t1 t2 t3) = spine s := by
  unfold opTimeResp
  dsimp only
  (repeat' split) <;> simp only [setHtu_spine, reselect_spine, timeCrcError_spine]

theorem opBeaconSend_spine (s : State) (p : Nat) : spine (opBeaconSend s p) = spine s := by
  unfold opBeaconSend
  split <;> simp only [emit_spine]

theorem opGmWrite_spine (s : State) (a : Agent) (v : W64) : spine (opGmWrite s a v) = spine s := by
  unfold opGmWrite
  split <;> simp only [unsupported_spine, setHtu_spine, reselect_spine]

theorem ownPrio_spine (s : State) : spine (ownPrio s) = spine s := by
  unfold ownPrio
  split <;> simp only [setHtu_spine]

theorem opHtCfg_spine (s : State) (a : Agent) (v : W64) : spine (opHtCfg s a v) = spine s := by
  unfold opHtCfg
  dsimp only
  (repeat' split) <;> simp only [unsupported_spine, setHtu_spine, sourceLost_spine, reselect_spine, ownPrio_spine]

theorem opHtNow_spine (s : State) (a : Agent) : spine (opHtNow s a) = spine s := by
  unfold opHtNow
  split <;> simp only [emit_spine, unsupported_spine, setHtu_spine]

/-! ### Frames and replies that leave (R347, R360, R365) -/

theorem modNet_spine (s : State) (f : Net → Net) : spine (modNet s f) = spine s := by rfl

theorem sendFrame_spine (s : State) (p : Nat) (pks : List Packet) : spine (sendFrame s p pks) = spine s := by
  unfold sendFrame
  dsimp only
  (repeat' split) <;> simp only [setPort_spine, emit_spine]

theorem enqueue_spine (s : State) (key : Nat) (pk : Packet) : spine (enqueue s key pk) = spine s := by rfl

theorem hubSend_spine (s : State) (pk : Packet) : spine (hubSend s pk) = spine s := by rfl

theorem replyTo_spine (s : State) (pk : Packet) (st : Status) (retry : Bool) : spine (replyTo s pk st retry) = spine s := by rfl

theorem setInputQueue_spine (s : State) (r : RouteIn) (l : List Queued) : spine (setInputQueue s r l) = spine s := by
  unfold setInputQueue
  split <;> simp only [modDeck_spine, modNet_spine]

theorem sendOut_spine (s : State) (p : Nat) (pk : Packet) : spine (sendOut s p pk) = spine s := by
  unfold sendOut
  dsimp only
  (repeat' split) <;> simp only [modPort_spine, sendFrame_spine, replyTo_spine]

theorem takeArrived_spine (s : State) (pk : Packet) : spine (takeArrived s pk) = spine s := by rfl

/-! ### Collectives (R384 to R413) -/

theorem setWinMem_spine (s : State) (k : Nat) (m : Cells) : spine (setWinMem s k m) = spine s := by rfl

theorem modChurn_spine (s : State) (f : Churn → Churn) : spine (modChurn s f) = spine s := by rfl

theorem putColl_spine (s : State) (c : Coll) : spine (putColl s c) = spine s := by
  simp only [putColl, modChurn_spine]

theorem dropColl_spine (s : State) (c : Coll) : spine (dropColl s c) = spine s := by rfl

theorem sendNotice_spine (s : State) (kind : Nat) (n : Notice) (tag : BitVec 3) (m : BitVec 17) :
    spine (sendNotice s kind n tag m) = spine s := by rfl

theorem flood_spine (s : State) (axes : BitVec 4) (n : Notice) (tag : BitVec 3) (but : Option (BitVec 17)) :
    spine (flood s axes n tag but) = spine s := by
  unfold flood
  split <;> simp only [modChurn_spine, sendNotice_spine, foldl_spine, implies_true]

theorem noteMember_spine (s : State) (c : Coll) (st : Status) : spine (noteMember s c st) = spine s := by
  unfold noteMember
  split <;> simp only [putColl_spine]

theorem tellLocal_spine (s : State) (c : Coll) (st : Status) : spine (tellLocal s c st) = spine s := by
  simp only [tellLocal, noteMember_spine, foldl_spine, implies_true]

theorem learn_spine (s : State) (c : Coll) (st : Status) : spine (learn s c st) = spine s := by
  unfold learn
  dsimp only
  (repeat' split) <;> simp only [putColl_spine, flood_spine, tellLocal_spine]

theorem recordEnd_spine (s : State) (c : Coll) (st : Status) : spine (recordEnd s c st) = spine s := by rfl

theorem settleAt_spine (s : State) (d : Nat) (ups : List ObjUpd) : spine (settleAt s d ups) = spine s := by
  simp only [settleAt, putDeck_spine]

theorem modHold_spine (s : State) (d x : Nat) (f : Hold → Hold) : spine (modHold s d x f) = spine s := by rfl

theorem voteFailed_spine (s : State) (c : Coll) (coll : Status) : spine (voteFailed s c coll) = spine s := by rfl

theorem voteFails_spine (s : State) (c : Coll) (coll : Status) : spine (voteFails s c coll) = spine s :=
  (settleAt_spine _ _ _).trans (voteFailed_spine s c coll)

theorem endColl_spine (s : State) (c : Coll) (st : Status) : spine (endColl s c st) = spine s := by
  unfold endColl
  dsimp only
  (repeat' split) <;> simp only [modPort_spine, dropColl_spine, recordEnd_spine, settleAt_spine, voteFails_spine, foldl_spine,
    implies_true]

theorem churnRead_spine (s : State) (d a n : Nat) : spine (churnRead s d a n).2.2 = spine s := by
  unfold churnRead
  dsimp only
  (repeat' split) <;> simp only [putDeck_spine]

theorem churnWrite_spine (s : State) (d : Nat) (runs : List (Nat × Nat × Cells)) : spine (churnWrite s d runs).2 = spine s := by
  unfold churnWrite
  dsimp only
  split
  · exact setDeck_spine _ _ _
  · refine foldl_spine_snd _ (fun r x => ?_) _ _
    (repeat' split) <;> simp only [setDeck_spine, setWinMem_spine]

theorem storePacket_spine (s : State) (c : Coll) (es : List Nat) : spine (storePacket s c es).2 = spine s := by
  simp only [storePacket, churnWrite_spine]

theorem storeElems_spine (s : State) (c : Coll) (n : Nat) (es : List Nat) : spine (storeElems s c n es).2 = spine s := by
  unfold storeElems
  refine foldl_spine_snd _ (fun r x => ?_) _ (stGood, s)
  exact storePacket_spine r.2 c x

theorem storeBytes_spine (s : State) (c : Coll) (n : Nat) (m : Cells) : spine (storeBytes s c n m).2 = spine s := by
  unfold storeBytes
  refine foldl_spine_snd _ (fun r x => ?_) _ (stGood, s)
  exact churnWrite_spine r.2 c.deck _

theorem noteEarly_spine (s : State) (e : EarlyNote) : spine (noteEarly s e) = spine s := by rfl

theorem learnEarly_spine (s : State) (c : Coll) : spine (learnEarly s c) = spine s := by
  refine foldl_spine _ (fun s e => ?_) _ _
  (repeat' split) <;> simp only [learn_spine, flood_spine, putColl_spine]

theorem modLanded_spine (s : State) (p : Nat) (slot : BitVec 16) (chunk : Nat) (f : Landed → Landed) :
    spine (modLanded s p slot chunk f) = spine s := by rfl

theorem dropLanded_spine (s : State) (slot : BitVec 16) : spine (dropLanded s slot) = spine s := by rfl

theorem markLanded_spine (s : State) (p : Nat) (slot : BitVec 16) (chunk pkt : Nat) (payload : Cells) :
    spine (markLanded s p slot chunk pkt payload) = spine s := by
  simp only [markLanded, modLanded_spine]

theorem beginChunk_spine (s : State) (p : Nat) (pk : Packet) : spine (beginChunk s p pk) = spine s := by
  unfold beginChunk
  split <;> simp only [modLanded_spine]

theorem landPacket_spine (s : State) (p : Nat) (pk : Packet) (size : Nat) : spine (landPacket s p pk size) = spine s := by
  unfold landPacket
  split <;> simp only [modPort_spine, setWinMem_spine, markLanded_spine]

theorem placeWaiting_spine (s : State) (slot : BitVec 16) (size : Nat) : spine (placeWaiting s slot size) = spine s := by
  simp only [placeWaiting, modChurn_spine, landPacket_spine, foldl_spine, implies_true]

theorem acceptColl_spine (s : State) (deck : Nat) (x : BitVec 4) (m : Cells) : spine (acceptColl s deck x m) = spine s := by
  unfold acceptColl
  dsimp only
  (repeat' split) <;> simp only [modDeck_spine, modChurn_spine, flood_spine, recordEnd_spine, settleAt_spine, modHold_spine,
    voteFailed_spine, voteFails_spine, learnEarly_spine, placeWaiting_spine]

theorem localLevel_spine (s : State) (c : Coll) (ms : List Coll) : spine (localLevel s c ms).2.2 = spine s := by
  refine foldl_keeps (fun r : Status × Cells × State => spine r.2.2) _ (fun r e => ?_) _ _
  dsimp only
  (repeat' split) <;> simp only [churnRead_spine]

theorem countSkim_spine (s : State) (c : Coll) (sat fl : Nat) : spine (countSkim s c sat fl) = spine s := by rfl

theorem advance_spine (s : State) (c : Coll) (n : Nat) (es : List Nat) : spine (advance s c n es) = spine s := by
  unfold advance
  dsimp only
  (repeat' split) <;> simp only [putColl_spine, learn_spine, storeElems_spine, countSkim_spine]

theorem opBuffersGranted_spine (s : State) (k : CollRef) : spine (opBuffersGranted s k) = spine s := by
  unfold opBuffersGranted
  dsimp only
  (repeat' split) <;> simp only [putColl_spine, learn_spine, localLevel_spine, advance_spine, foldl_spine, implies_true]

theorem opChunkReady_spine (s : State) (k : CollRef) (p chunk : Nat) : spine (opChunkReady s k p chunk) = spine s := by
  unfold opChunkReady
  dsimp only
  (repeat' split) <;> simp only [putColl_spine, countSkim_spine]

theorem useChunk_spine (s : State) (c : Coll) (p chunk : Nat) (i : PlanItem) (n : Nat) (data : Cells) :
    spine (useChunk s c p chunk i n data) = spine s := by
  unfold useChunk
  dsimp only
  (repeat' split) <;> simp only [putColl_spine, advance_spine]

theorem opChunkLanded_spine (s : State) (k : CollRef) (p chunk : Nat) : spine (opChunkLanded s k p chunk) = spine s := by
  unfold opChunkLanded
  dsimp only
  (repeat' split) <;> simp only [modChurn_spine, putColl_spine, sendNotice_spine, learn_spine, modLanded_spine, useChunk_spine]

theorem opResendReq_spine (s : State) (p : Nat) (n : Notice) : spine (opResendReq s p n) = spine s := by
  unfold opResendReq
  dsimp only
  (repeat' split) <;> simp only [hubSend_spine, foldl_spine, implies_true]

theorem opAbort_spine (s : State) (p : Nat) (n : Notice) : spine (opAbort s p n) = spine s := by
  unfold opAbort
  dsimp only
  (repeat' split) <;> simp only [modChurn_spine, flood_spine, noteMember_spine, noteEarly_spine, foldl_spine, implies_true]

theorem fingerprintStep_spine (s : State) (c : Coll) (n : Nat) : spine (fingerprintStep s c n).2 = spine s := by
  unfold fingerprintStep
  dsimp only
  (repeat' split) <;> simp only [modDeck_spine, putDeck_spine]

theorem completeGood_spine (s : State) (c : Coll) : spine (completeGood s c) = spine s := by
  simp only [completeGood, putColl_spine, recordEnd_spine, settleAt_spine]

theorem completeVote_spine (s : State) (c : Coll) : spine (completeVote s c) = spine s := by
  unfold completeVote
  dsimp only
  (repeat' split) <;> simp only [modDeck_spine, putColl_spine, recordEnd_spine, settleAt_spine, modHold_spine, voteFails_spine]

theorem opCollComplete_spine (s : State) (k : CollRef) : spine (opCollComplete s k) = spine s := by
  unfold opCollComplete
  dsimp only
  (repeat' split) <;> simp only [learn_spine, storeBytes_spine, fingerprintStep_spine, completeGood_spine, completeVote_spine]

theorem learnLate_spine (s : State) (c : Coll) : spine (learnLate s c) = spine s := by
  unfold learnLate
  split <;> simp only [learn_spine]

theorem opCollDeadline_spine (s0 : State) (k : CollRef) : spine (opCollDeadline s0 k) = spine s0 := by
  unfold opCollDeadline
  dsimp only
  (repeat' split) <;> simp only [modDeck_spine, dropColl_spine, endColl_spine, dropLanded_spine, learnLate_spine]

theorem resetColls_spine (s : State) (d : Nat) (p : BitVec 4 → Bool) : spine (resetColls s d p) = spine s := by
  simp only [resetColls, apply_ite spine, ite_self, modDeck_spine, putColl_spine, flood_spine, tellLocal_spine, foldl_spine,
    implies_true]

theorem portLostColls_spine (s : State) (p : Nat) : spine (portLostColls s p) = spine s := by
  refine foldl_spine _ (fun s c => ?_) _ _
  split <;> simp only [learn_spine]

/-! ### Resets, detectors, the safe state's report (R516 to R531) -/

theorem setRst_spine (s : State) (r : Rst) : spine (setRst s r) = spine s := by rfl

theorem modRst_spine (s : State) (f : Rst → Rst) : spine (modRst s f) = spine s := by rfl

theorem rstEvent_spine (s : State) (n : Nat) : spine (rstEvent s n) = spine s := by rfl

theorem recordCause_spine (s : State) (w : Nat) : spine (recordCause s w) = spine s := by
  simp only [recordCause, setRst_spine]

theorem takeSample_spine (s : State) (x : Scope) (cores : List Nat) (w : Nat) : spine (takeSample s x cores w) = spine s := by
  unfold takeSample
  split <;> simp only [setRst_spine]

theorem resetMembers_spine (s : State) (d : Nat) (x : Scope) : spine (resetMembers s d x) = spine s := by
  unfold resetMembers
  split <;> simp only [resetColls_spine]

theorem repairDeck_spine (s : State) (d : Nat) : spine (repairDeck s d) = spine s := by
  simp only [repairDeck, modDeck_spine, draw_spine, foldl_spine, implies_true]

theorem repairRows_spine (s : State) (ds : List Nat) : spine (repairRows s ds) = spine s := by
  unfold repairRows
  dsimp only
  (repeat' split) <;> simp only [draw_spine, repairDeck_spine, foldl_spine, implies_true]

theorem dropNotices_spine (s : State) (d : Nat) : spine (dropNotices s d) = spine s := by rfl

theorem deckReset_spine (s : State) (x : Scope) (cores : List Nat) (src det : Nat) (esc : Bool) (hdr : Option CmdHdr) :
    spine (deckReset s x cores src det esc hdr) = spine s := by
  unfold deckReset
  dsimp only
  (repeat' split) <;> simp only [modDeck_spine, postDeck_spine, putDeck_spine, modRst_spine, recordCause_spine, takeSample_spine,
    resetMembers_spine, repairRows_spine, dropNotices_spine]

theorem busyAll_spine (s : State) : spine (busyAll s) = spine s :=
  foldl_spine _ (fun s _ => foldl_spine _ (fun s _ => foldl_spine _ (fun s _ => replyFinal_spine s _ _ _) _ s) _ s) _ s

theorem powerKept_off (p : Power) : ((powerKept p).moduleState == 2) = (p.moduleState == 2) := by
  unfold powerKept
  dsimp only
  split
  · rename_i h
    rw [h]
    rfl
  · rfl

theorem clearModule_spine (cold slack : Bool) (phase : BitVec 4) (s : State) : spine (clearModule cold slack phase s) = spine s := by
  rw [clearModule, spine_mk, powerKept_off]
  rfl

theorem optionRestart_spine (s : State) : spine (optionRestart s) = spine s := by
  unfold optionRestart
  split <;> simp only [modRst_spine]

theorem optionHold_spine (s : State) : spine (optionHold s) = spine s := by
  unfold optionHold
  split <;> simp only [pldmEvent_spine, modRst_spine, rstEvent_spine]

theorem moduleReset_spine (s : State) (cold slack : Bool) (src det : Nat) (esc : Bool) :
    spine (moduleReset s cold slack src det esc) = spine s := by
  unfold moduleReset
  dsimp only
  (repeat' split) <;> simp only [modRst_spine, recordCause_spine, takeSample_spine, repairRows_spine, clearModule_spine,
    optionRestart_spine, optionHold_spine]

theorem powerCycle_spine (s : State) (src det : Nat) (esc : Bool) : spine (powerCycle s src det esc) = spine s := by
  unfold powerCycle
  split <;> simp only [modRst_spine, recordCause_spine, moduleReset_spine]

theorem cmdpRestart_spine (s : State) (src det : Nat) : spine (cmdpRestart s src det) = spine s := by
  unfold cmdpRestart
  dsimp only
  (repeat' split) <;> simp only [modRst_spine, rstEvent_spine, recordCause_spine, busyAll_spine, moduleReset_spine]

theorem applyReset_spine (s : State) (x : Scope) (cores : List Nat) (src det : Nat) (esc : Bool) (hdr : Option CmdHdr) :
    spine (applyReset s x cores src det esc hdr) = spine s := by
  unfold applyReset
  split <;> simp only [deckReset_spine, moduleReset_spine, cmdpRestart_spine]

theorem escalate_spine (s : State) (x : Scope) (det : Nat) : spine (escalate s x det) = spine s := by
  simp only [escalate]
  (repeat' split) <;> simp only [rstEvent_spine, powerCycle_spine, applyReset_spine]

theorem fireDetector_spine (s : State) (n : Nat) (d : Option Nat) (c : Option (BitVec 4)) (cores : List Nat) :
    spine (fireDetector s n d c cores) = spine s := by
  unfold fireDetector
  dsimp only
  (repeat' split) <;> simp only [modRst_spine, powerCycle_spine, cmdpRestart_spine, applyReset_spine, escalate_spine]

theorem fireReports_spine (s : State) (d : Nat) (rs : List Report) : spine (fireReports s d rs) = spine s := by
  simp only [fireReports, fireDetector_spine, foldl_spine, implies_true]

theorem applyRes_spine (s : State) (d : Nat) (r : DeckRes) : spine (applyRes s d r) = spine s := by
  simp only [applyRes, putDeck_spine, acceptColl_spine, fireReports_spine, foldl_spine, implies_true]

theorem onDeck_spine (s : State) (d : Nat) (f : Deck → DeckRes) : spine (onDeck s d f) = spine s := by
  simp only [onDeck, applyRes_spine]

theorem trainChannels_spine (s : State) (d : Nat) : spine (trainChannels s d) = spine s := by
  unfold trainChannels
  split <;> simp only [modDeck_spine, draw_spine]

theorem finishReset_spine (s : State) (x : Scope) : spine (finishReset s x) = spine s := by
  unfold finishReset
  dsimp only
  (repeat' split) <;> simp only [modDeck_spine, modRst_spine, trainChannels_spine]

theorem safetyAct_spine (s : State) (c : Nat) : spine (safetyAct s c) = spine s := by rfl

theorem deckShutdown_spine (s : State) (d : Nat) : spine (deckShutdown s d) = spine s := by
  unfold deckShutdown
  dsimp only
  (repeat' split) <;> simp only [modDeck_spine, draw_spine, postDeck_spine, putDeck_spine, resetColls_spine, modRst_spine,
    rstEvent_spine, recordCause_spine]

end Sys2Proof.Machine
end

section
/-! SUPPORT. The spine across packets, ports, the timetable and the memory controllers. -/
namespace Sys2Proof.Machine
open Sys2Proof

/-! ### Packets served, replies, the ends of transfers (R46, R131, R360 to R371) -/

theorem serveWrite_spine (s : State) (pk : Packet) : spine (serveWrite s pk).2 = spine s := by
  unfold serveWrite
  dsimp only
  (repeat' split) <;> simp only [setDeck_spine, setWinMem_spine]

theorem serveAtom_spine (s : State) (pk : Packet) : spine (serveAtom s pk).2 = spine s := by
  unfold serveAtom
  dsimp only
  (repeat' split) <;> simp only [setDeck_spine, onDeck_spine]

theorem serveSig_spine (s : State) (pk : Packet) : spine (serveSig s pk).2 = spine s := by
  unfold serveSig
  dsimp only
  (repeat' split) <;> simp only [applyRes_spine]

theorem serveRead_spine (s : State) (pk : Packet) (errs : List SectorErr) : spine (serveRead s pk errs).2.2 = spine s := by
  unfold serveRead
  dsimp only
  (repeat' split) <;> simp only [onDeck_spine]

theorem serveResend_spine (s : State) (pk : Packet) : spine (serveResend s pk).2 = spine s := by
  simp only [serveResend]
  (repeat' split) <;> simp only [setWinMem_spine, markLanded_spine]

theorem replyData_spine (s : State) (pk : Packet) (n : Nat) (m : Cells) : spine (replyData s pk n m) = spine s := by
  simp only [replyData, hubSend_spine, foldl_spine, implies_true]

theorem deliver_spine (s : State) (pk : Packet) (errs : List SectorErr) : spine (deliver s pk errs) = spine s := by
  unfold deliver
  dsimp only
  (repeat' split) <;> simp only [modNet_spine, replyTo_spine, serveWrite_spine, serveAtom_spine, serveSig_spine, serveRead_spine,
    serveResend_spine, replyData_spine]

theorem poisonNamed_spine (s : State) (pk : Packet) (st : Status) : spine (poisonNamed s pk st) = spine s := by
  unfold poisonNamed
  dsimp only
  (repeat' split) <;> simp only [applyRes_spine]

theorem discardFenced_spine (s : State) (pk : Packet) (st : Status) : spine (discardFenced s pk st) = spine s := by
  simp only [discardFenced, modNet_spine, replyTo_spine, poisonNamed_spine]

theorem deliverFenced_spine (s : State) (pk : Packet) (errs : List SectorErr) : spine (deliverFenced s pk errs) = spine s := by
  unfold deliverFenced
  dsimp only
  (repeat' split) <;> simp only [deliver_spine, discardFenced_spine]

theorem releaseHeld_spine (fuel : Nat) (s : State) : spine (releaseHeld fuel s) = spine s := by
  induction fuel generalizing s with
  | zero => rfl
  | succ k ih =>
    unfold releaseHeld
    split
    · rfl
    · simp only [ih, deliverFenced_spine, modNet_spine]

theorem isolateRequest_spine (s : State) (pk : Packet) : spine (isolateRequest s pk) = spine s := by
  unfold isolateRequest
  split <;> simp only [modNet_spine, replyTo_spine, takeArrived_spine]

theorem opRequest_spine (s : State) (pk : Packet) (errs : List SectorErr) : spine (opRequest s pk errs) = spine s := by
  unfold opRequest
  dsimp only
  (repeat' split) <;> simp only [modNet_spine, replyTo_spine, takeArrived_spine, deliver_spine, deliverFenced_spine,
    releaseHeld_spine]

theorem opFenceWaitExpire_spine (s : State) (i : Nat) : spine (opFenceWaitExpire s i) = spine s := by
  unfold opFenceWaitExpire
  dsimp only
  (repeat' split) <;> simp only [modNet_spine, discardFenced_spine, releaseHeld_spine]

theorem opFenceEntryExpire_spine (s : State) (i : Nat) : spine (opFenceEntryExpire s i) = spine s := by
  simp only [opFenceEntryExpire]
  (repeat' split) <;> simp only [modNet_spine]

theorem lateReply_spine (s : State) (pk : Packet) : spine (lateReply s pk) = spine s := by
  unfold lateReply
  dsimp only
  (repeat' split) <;> simp only [setDeck_spine, modNet_spine]

theorem lateDone_spine (s : State) : spine (lateDone s) = spine s := by rfl

theorem refuseReply_spine (s : State) : spine (refuseReply s) = spine s := by rfl

theorem opAck_spine (s0 : State) (pk : Packet) : spine (opAck s0 pk) = spine s0 := by
  unfold opAck
  dsimp only
  (repeat' split) <;> simp only [modDeck_spine, modNet_spine, takeArrived_spine, onDeck_spine, lateReply_spine, refuseReply_spine]

theorem opData_spine (s0 : State) (pk : Packet) : spine (opData s0 pk) = spine s0 := by
  unfold opData
  dsimp only
  (repeat' split) <;> simp only [modNet_spine, takeArrived_spine, onDeck_spine, lateReply_spine, refuseReply_spine]

theorem multicast_spine (s : State) (p : Nat) (pk : Packet) (landed : Bool) : spine (multicast s p pk landed) = spine s := by
  unfold multicast
  dsimp only
  (repeat' split) <;> simp only [modPort_spine, hubSend_spine, modChurn_spine, modLanded_spine]

theorem landMulticast_spine (s : State) (p : Nat) (pk : Packet) (size : Nat) : spine (landMulticast s p pk size) = spine s := by
  unfold landMulticast
  split <;> simp only [landPacket_spine, multicast_spine]

theorem opChunk_spine (s0 : State) (p : Nat) (pk : Packet) : spine (opChunk s0 p pk) = spine s0 := by
  unfold opChunk
  dsimp only
  (repeat' split) <;> simp only [modDeck_spine, modPort_spine, takeArrived_spine, modChurn_spine, beginChunk_spine,
    multicast_spine, landMulticast_spine]

theorem opVacancy_spine (s0 : State) (p : Nat) (pk : Packet) : spine (opVacancy s0 p pk) = spine s0 := by
  have hlearn : ∀ (s : State) (c : Coll) (st : Status), spine (match s.churn.colls.find? (isColl c.deck c.desc.slot c.tstep) with
      | none => s
      | some x => if x.learned.contains st then s else learn s x st) = spine s := fun s c st => by
    (repeat' split) <;> simp only [learn_spine]
  unfold opVacancy
  dsimp only
  split
  · simp only [modPort_spine, takeArrived_spine]
  · split
    · simp only [modPort_spine, takeArrived_spine]
    · refine (foldl_spine _ (fun s c => hlearn s c _) _ _).trans ?_
      split <;> simp only [noteEarly_spine, modPort_spine, takeArrived_spine]

theorem opControl_spine (s0 : State) (pk : Packet) : spine (opControl s0 pk) = spine s0 := by
  simp only [opControl, modNet_spine, takeArrived_spine]

theorem takeNotice_spine (s : State) (kind : Nat) (slot : BitVec 16) : spine (takeNotice s kind slot) = spine s := by rfl

theorem noteReport_spine (p : Nat) (pk : Packet) (s : State) (c : Coll) : spine (noteReport p pk s c) = spine s := by
  unfold noteReport
  dsimp only
  (repeat' split) <;> simp only [putColl_spine]

theorem opMcReport_spine (s0 : State) (pk : Packet) : spine (opMcReport s0 pk) = spine s0 := by
  unfold opMcReport
  dsimp only
  (repeat' split) <;> simp only [takeArrived_spine, noteReport_spine, foldl_spine, implies_true]

theorem fabricPieces_spine (s : State) (d i : Nat) (e : MovEntry) (m : Cells) : spine (fabricPieces s d i e m).2 = spine s := by
  refine foldl_spine_snd _ (fun r k => ?_) _ _
  dsimp only
  (repeat' split) <;> simp only [serveWrite_spine, serveAtom_spine]

theorem endLocal_spine (s : State) (d i : Nat) (e : MovEntry) (st : Status) : spine (endLocal s d i e st) = spine s := by
  simp only [endLocal, onDeck_spine]

theorem fabricSend_spine (s : State) (d i : Nat) (e : MovEntry) (errs : List SectorErr) : spine (fabricSend s d i e errs) = spine s := by
  unfold fabricSend
  dsimp only
  (repeat' split) <;> simp only [onDeck_spine, fabricPieces_spine, endLocal_spine]

theorem fabricGet_spine (s : State) (d i : Nat) (e : MovEntry) (errs : List SectorErr) : spine (fabricGet s d i e errs) = spine s := by
  unfold fabricGet
  dsimp only
  (repeat' split) <;> simp only [onDeck_spine, serveRead_spine, endLocal_spine]

theorem fabricSync_spine (s : State) (d i : Nat) (e : MovEntry) (t : BitVec 17 × Nat × Nat) : spine (fabricSync s d i e t) = spine s := by
  unfold fabricSync
  dsimp only
  (repeat' split) <;> simp only [onDeck_spine, serveSig_spine, serveRead_spine, endLocal_spine]

theorem movPrio3_spine (s : State) (d : Nat) (e : MovEntry) : spine (movPrio3 s d e) = spine s := by
  unfold movPrio3
  split <;> simp only [modDeck_spine]

theorem endMove_spine (s : State) (d i : Nat) (e : MovEntry) (errs : List SectorErr) : spine (endMove s d i e errs) = spine s := by
  unfold endMove
  dsimp only
  (repeat' split) <;> simp only [onDeck_spine, fabricSend_spine, fabricGet_spine, fabricSync_spine]

theorem opTransferComplete_spine (s : State) (d i seq : Nat) (errs : List SectorErr) :
    spine (opTransferComplete s d i seq errs) = spine s := by
  unfold opTransferComplete
  dsimp only
  (repeat' split) <;> simp only [modDeck_spine, lateDone_spine, movPrio3_spine, endMove_spine]

/-! ### Ports and lasers (R336 to R358, R465) -/

theorem mgtEvent_spine (s : State) (n : Nat) : spine (mgtEvent s n) = spine s := by rfl

theorem sendTrain_spine (s : State) (p : Nat) : spine (sendTrain s p) = spine s := by rfl

theorem startTraining_spine (s : State) (p : Nat) : spine (startTraining s p) = spine s := by
  unfold startTraining
  split <;> simp only [modPort_spine, setHtu_spine, sendTrain_spine]

theorem dropQueued_spine (s : State) (p : Nat) : spine (dropQueued s p) = spine s := by
  refine foldl_spine _ (fun t r => ?_) _ s
  dsimp only
  split <;> simp only [modPort_spine, setInputQueue_spine]

theorem leavePort_spine (s : State) (p : Nat) (dest : BitVec 3) (ev : Option Nat) : spine (leavePort s p dest ev) = spine s := by
  simp only [leavePort, modPort_spine, dropLink_spine, modChurn_spine, dropQueued_spine, portLostColls_spine]

theorem opPortLoss_spine (s : State) (p : Nat) : spine (opPortLoss s p) = spine s := by
  unfold opPortLoss
  split <;> simp only [leavePort_spine]

theorem portAlarm_spine (s : State) (p : Nat) (st : Status) : spine (portAlarm s p st) = spine s := by
  simp only [portAlarm, postAll_spine, pldmEvent_spine]

theorem incompatible_spine (s : State) (p : Nat) : spine (incompatible s p) = spine s := by
  unfold incompatible
  split <;> simp only [modPort_spine, leavePort_spine, portAlarm_spine]

theorem miswired_spine (s : State) (p : Nat) : spine (miswired s p) = spine s := by
  unfold miswired
  split <;> simp only [modPort_spine, leavePort_spine, portAlarm_spine]

theorem comparePort_spine (s : State) (p : Nat) : spine (comparePort s p) = spine s := by
  unfold comparePort
  dsimp only
  (repeat' split) <;> simp only [modPort_spine, incompatible_spine, miswired_spine]

theorem opTrainFrame_spine (s : State) (p : Nat) (f : TrainFrame) : spine (opTrainFrame s p f) = spine s := by
  unfold opTrainFrame
  dsimp only
  (repeat' split) <;> simp only [setPort_spine, modPort_spine, incompatible_spine, comparePort_spine]

theorem armPort_spine (s : State) (p : Nat) : spine (armPort s p) = spine s := by
  unfold armPort
  dsimp only
  (repeat' split) <;> simp only [modPort_spine, startTraining_spine, leavePort_spine, comparePort_spine]

theorem armMap_spine (s : State) : spine (armMap s) = spine s := by
  simp only [armMap, modNet_spine, sendTrain_spine, armPort_spine, foldl_spine, implies_true]

theorem opTrainingTimeout_spine (s : State) (p : Nat) : spine (opTrainingTimeout s p) = spine s := by
  unfold opTrainingTimeout
  split <;> simp only [modPort_spine]

theorem opPortRetry_spine (s : State) (p : Nat) : spine (opPortRetry s p) = spine s := by
  unfold opPortRetry
  split <;> simp only [startTraining_spine]

theorem opLaneSignal_spine (s : State) (p : Nat) : spine (opLaneSignal s p) = spine s := by
  unfold opLaneSignal
  split <;> simp only [startTraining_spine]

theorem opQuarantineExpire_spine (s : State) (p : Nat) : spine (opQuarantineExpire s p) = spine s := by
  unfold opQuarantineExpire
  split <;> simp only [startTraining_spine]

theorem opRetrain_spine (s : State) (a : Agent) (p : Nat) : spine (opRetrain s a p) = spine s := by
  simp only [opRetrain]
  (repeat' split) <;> simp only [unsupported_spine, startTraining_spine, leavePort_spine, opLaneSignal_spine]

theorem opDisable_spine (s : State) (a : Agent) (p : Nat) (v : Bool) : spine (opDisable s a p v) = spine s := by
  unfold opDisable
  dsimp only
  (repeat' split) <;> simp only [modPort_spine, unsupported_spine, startTraining_spine, leavePort_spine]

theorem opLaneFail_spine (s0 : State) (p dir lane : Nat) : spine (opLaneFail s0 p dir lane) = spine s0 := by
  unfold opLaneFail
  dsimp only
  (repeat' split) <;> simp only [setPort_spine, emit_spine, leavePort_spine]

theorem portViolation_spine (s : State) (p : Nat) : spine (portViolation s p) = spine s := by
  unfold portViolation
  dsimp only
  (repeat' split) <;> simp only [setPort_spine, leavePort_spine]

theorem acceptPacket_spine (p : Nat) (s : State) (pk : Packet) : spine (acceptPacket p s pk) = spine s := by
  simp only [acceptPacket]
  (repeat' split) <;> simp only [modNet_spine, enqueue_spine]

theorem opPktFrame_spine (s : State) (p : Nat) (f : PktFrame) : spine (opPktFrame s p f) = spine s := by
  unfold opPktFrame
  dsimp only
  (repeat' split) <;> simp only [setPort_spine, emit_spine, portViolation_spine, acceptPacket_spine, foldl_spine, implies_true]

theorem opIdleFrame_spine (s : State) (p : Nat) (ack : BitVec 16) : spine (opIdleFrame s p ack) = spine s := by
  unfold opIdleFrame
  split <;> simp only [modPort_spine]

theorem opNak_spine (s : State) (p : Nat) (seq : BitVec 16) : spine (opNak s p seq) = spine s := by
  unfold opNak
  dsimp only
  (repeat' split) <;> simp only [setPort_spine, emit_spine, opPortLoss_spine, foldl_spine, implies_true]

theorem opElsFail_spine (s0 : State) (n : Nat) : spine (opElsFail s0 n) = spine s0 := by
  unfold opElsFail
  dsimp only
  (repeat' split) <;> simp only [modPort_spine, draw_spine, foldl_spine, spine_mk, spine_eta, implies_true]

theorem opPairLost_spine (s : State) (pair : Nat) : spine (opPairLost s pair) = spine s := by
  unfold opPairLost
  split <;> simp only [opPortLoss_spine, foldl_spine, implies_true]

theorem readEls_spine (s : State) (n : Nat) (rec : List Byte) : spine (readEls s n rec) = spine s := by
  unfold readEls
  dsimp only
  (repeat' split) <;> simp only [mgtEvent_spine, spine_mk, spine_eta]

theorem opFibreInsert_spine (s : State) (p : Nat) (rec : List Byte) : spine (opFibreInsert s p rec) = spine s := by
  simp only [opFibreInsert, modPort_spine, spine_mk, spine_eta]

theorem opFibreRemove_spine (s : State) (p : Nat) : spine (opFibreRemove s p) = spine s := by
  unfold opFibreRemove
  dsimp only
  (repeat' split) <;> simp only [modPort_spine, startTraining_spine, spine_mk, spine_eta]

theorem opFlitUe_spine (s : State) (d : Nat) (v : FabricVictim) : spine (opFlitUe s d v) = spine s := by
  unfold opFlitUe
  dsimp only
  (repeat' split) <;> simp only [learn_spine, fireDetector_spine, applyRes_spine, onDeck_spine, isolateRequest_spine]

theorem opHubLinkFail_spine (s : State) (d : Nat) : spine (opHubLinkFail s d) = spine s := by rfl

/-! ### The timetable and sailings (R74 to R104) -/

theorem setTt_spine (s : State) (t : Timetable) : spine (setTt s t) = spine s := by rfl

theorem hdmEcc_spine (s : State) (b : Binding) (off n : Nat) (errs : List SectorErr) : spine (hdmEcc s b off n errs) = spine s := by
  simp only [hdmEcc, apply_ite spine, ite_self, onDeck_spine, foldl_spine, implies_true]

theorem cmdRead_spine (s : State) (k off n : Nat) : spine (cmdRead s k off n).2 = spine s := by
  unfold cmdRead
  dsimp only
  (repeat' split) <;> simp only [hdmEcc_spine]

theorem loaded_spine (s : State) (q : TtLoadP) (m : Cells) : spine (loaded s q m) = spine s := by
  unfold loaded
  dsimp only
  (repeat' split) <;> simp only [modDeck_spine, modPort_spine]

theorem ttLoad_spine (s : State) (k : Nat) (q : TtLoadP) : spine (ttLoad s k q).2 = spine s := by
  unfold ttLoad
  dsimp only
  (repeat' split) <;> simp only [modNet_spine, sendTrain_spine, cmdRead_spine, loaded_spine]

theorem recordArmErr_spine (s : State) (e : Option (Nat × ArmErr)) : spine (recordArmErr s e) = spine s := by
  unfold recordArmErr
  dsimp only
  (repeat' split) <;> simp only [draw_spine, setTt_spine]

theorem ttArm_spine (s : State) (q : TtArmP) : spine (ttArm s q).2 = spine s := by
  unfold ttArm
  dsimp only
  (repeat' split) <;> simp only [renumber_spine, modNet_spine, armMap_spine, setTt_spine, recordArmErr_spine]

theorem ttSelect_spine (s : State) (q : TtSelectP) : spine (ttSelect s q).2 = spine s := by
  unfold ttSelect
  split <;> simp only [setTt_spine]

theorem stepDeadlines_spine (s : State) (d : Nat) : spine (stepDeadlines s d) = spine s := by
  simp only [stepDeadlines, modDeck_spine, fireDetector_spine, foldl_spine, implies_true]

theorem opStepEpoch_spine (s : State) : spine (opStepEpoch s) = spine s := by
  unfold opStepEpoch
  dsimp only
  (repeat' split) <;> simp only [stepDeadlines_spine, foldl_spine, spine_mk, spine_eta, implies_true]

theorem sendItem_spine (p : Nat) (x : SailRun) (s : State) (i : SailItem) : spine (sendItem p x s i) = spine s := by
  simp only [sendItem, sendOut_spine, modChurn_spine]

theorem sendVacancy_spine (s : State) (p : Nat) (x : Sailing) (reason chunk : Nat) :
    spine (sendVacancy s p x reason chunk) = spine s := by
  unfold sendVacancy
  dsimp only
  (repeat' split) <;> simp only [modPort_spine, sendOut_spine]

theorem checkShard_spine (s : State) (c : Coll) : spine (checkShard s c) = spine s := by
  simp only [checkShard]
  (repeat' split) <;> simp only [putColl_spine, learn_spine]

theorem departColl_spine (s0 : State) (p : Nat) (x : Sailing) : spine (departColl s0 p x) = spine s0 := by
  unfold departColl
  dsimp only
  (repeat' split) <;> simp only [modPort_spine, sendVacancy_spine, checkShard_spine]

theorem drainSail_spine (fuel p : Nat) (s : State) : spine (drainSail fuel p s) = spine s := by
  induction fuel generalizing s with
  | zero => rfl
  | succ k ih =>
    unfold drainSail
    (repeat' split) <;> simp only [ih, modPort_spine, sendItem_spine]

theorem sailTick_spine (s : State) (p : Nat) : spine (sailTick s p) = spine s := by
  unfold sailTick
  dsimp only
  (repeat' split) <;> simp only [modPort_spine, drainSail_spine]

theorem sailAll_spine (s : State) : spine (sailAll s) = spine s := by
  simp only [sailAll, sailTick_spine, foldl_spine, implies_true]

theorem opSailing_spine (s : State) (p r : Nat) : spine (opSailing s p r) = spine s := by
  simp only [opSailing]
  (repeat' split) <;> simp only [opTimeStart_spine, departColl_spine]

theorem handRows_spine (s : State) (d : Nat) (rows : List Nat) : spine (handRows s d rows) = spine s := by rfl

theorem onDeckLaunch_spine (s : State) (d : Nat) (f : Deck → DeckRes) : spine (onDeckLaunch s d f) = spine s := by
  unfold onDeckLaunch
  dsimp only
  (repeat' split) <;> simp only [onDeck_spine, handRows_spine, spine_mk, spine_eta]

theorem opSchedLaunchRec_spine (s : State) (d r : Nat) : spine (opSchedLaunchRec s d r) = spine s := by
  unfold opSchedLaunchRec
  split <;> simp only [onDeckLaunch_spine]

theorem opSchedScrub_spine (s : State) (d r : Nat) : spine (opSchedScrub s d r) = spine s := by
  simp only [opSchedScrub]
  (repeat' split) <;> simp only [modDeck_spine]

theorem opSchedShadow_spine (s : State) (d r : Nat) : spine (opSchedShadow s d r) = spine s := by
  unfold opSchedShadow
  dsimp only
  (repeat' split) <;> simp only [modDeck_spine]

theorem opSchedRamp_spine (s : State) (d r : Nat) : spine (opSchedRamp s d r) = spine s := by
  unfold opSchedRamp
  dsimp only
  (repeat' split) <;> simp only [modDeck_spine, handRows_spine]

/-! ### CXL.mem accesses and the memory controllers (R282, R311 to R332) -/

theorem holdAccess_spine (s : State) (i : Instr) : spine (holdAccess s i) = spine s := by rfl

theorem opCxlRead_spine (s : State) (l : LdRef) (off n : Nat) (errs : List SectorErr) : spine (opCxlRead s l off n errs) = spine s := by
  unfold opCxlRead
  dsimp only
  (repeat' split) <;> simp only [emit_spine, violation_spine, hdmEcc_spine, holdAccess_spine]

theorem opCxlWrite_spine (s : State) (l : LdRef) (off : Nat) (bs : List Byte) (errs : List SectorErr) :
    spine (opCxlWrite s l off bs errs) = spine s := by
  unfold opCxlWrite
  split
  · exact violation_spine _ _
  · split
    · rfl
    · split
      · exact holdAccess_spine _ _
      · refine (emit_spine _ _).trans (foldl_spine _ (fun s x => ?_) _ _)
        split <;> simp only [modDeck_spine, onDeck_spine]

theorem modStk_spine (s : State) (st : Nat) (f : Stack → Stack) : spine (modStk s st f) = spine s := by rfl

theorem opRowCopyDone_spine (s : State) (st ch row : Nat) : spine (opRowCopyDone s st ch row) = spine s := by
  unfold opRowCopyDone
  split <;> simp only [onDeck_spine, modStk_spine]

theorem opRemapFlash_spine (s : State) (st : Nat) : spine (opRemapFlash s st) = spine s := by rfl

theorem opPatrol_spine (s : State) (st : Nat) (errs : List SectorErr) : spine (opPatrol s st errs) = spine s := by
  unfold opPatrol
  dsimp only
  (repeat' split) <;> simp only [onDeck_spine, modStk_spine]

theorem opScrubLate_spine (s : State) (st : Nat) : spine (opScrubLate s st) = spine s := by
  unfold opScrubLate
  dsimp only
  (repeat' split) <;> simp only [memEvent_spine, safetyAct_spine, modStk_spine]

theorem opReadAge_spine (s : State) (st : Nat) : spine (opReadAge s st) = spine s := by rfl

theorem opGraceExpire_spine (s : State) (st : Nat) : spine (opGraceExpire s st) = spine s := by rfl

theorem opSelfRefresh_spine (s : State) (st : Nat) : spine (opSelfRefresh s st) = spine s := by
  unfold opSelfRefresh
  split <;> simp only [modStk_spine]

theorem channelFail_spine (s0 : State) (st ch : Nat) : spine (channelFail s0 st ch) = spine s0 := by
  simp only [channelFail, draw_spine, memEvent_spine, plogWrite_spine, fireDetector_spine, modStk_spine]

theorem opParity_spine (s0 : State) (st ch : Nat) : spine (opParity s0 st ch) = spine s0 := by
  unfold opParity
  dsimp only
  (repeat' split) <;> simp only [draw_spine, memEvent_spine, modStk_spine, channelFail_spine]

theorem opRetrainDone_spine (s : State) (st ch : Nat) (ok : Bool) : spine (opRetrainDone s st ch ok) = spine s := by
  simp only [opRetrainDone]
  (repeat' split) <;> simp only [modStk_spine, channelFail_spine]

theorem moveLevel_spine (s : State) (st n : Nat) : spine (moveLevel s st n) = spine s := by
  unfold moveLevel
  dsimp only
  (repeat' split) <;> simp only [memEvent_spine, applyEff_spine, safetyAct_spine, deckShutdown_spine, modStk_spine]

theorem noteHeat_spine (s : State) (d : Nat) : spine (noteHeat s d) = spine s := by
  unfold noteHeat
  split <;> simp only [modDeck_spine]

theorem opTempReport_spine (s : State) (st : Nat) (t : BitVec 8) : spine (opTempReport s st t) = spine s := by
  simp only [opTempReport, modStk_spine, moveLevel_spine, noteHeat_spine]

theorem opSensorLost_spine (s : State) (st : Nat) : spine (opSensorLost s st) = spine s := by
  unfold opSensorLost
  dsimp only
  (repeat' split) <;> simp only [memEvent_spine, modStk_spine, moveLevel_spine]

theorem mgcTemps_spine (s : State) (v : BitVec 24) : spine (mgcTemps s v) = spine s := by rfl

theorem opMemCfg_spine (s : State) (a : Agent) (v : W64) : spine (opMemCfg s a v) = spine s := by
  unfold opMemCfg
  split <;> simp only [unsupported_spine, mgcTemps_spine, spine_mk, spine_eta]

end Sys2Proof.Machine
end

section
/-! SUPPORT. The spine across the host's commands, mailboxes, RDMA and the management plane. -/
namespace Sys2Proof.Machine
open Sys2Proof

/-! ### Commands of the rings (R420 to R443) -/

theorem runCmd_spine (s : State) (h : CmdHdr) (c : Instr) (go : State) (hg : spine go = spine s) : spine (runCmd s h c go) = spine s := by
  unfold runCmd
  split <;> simp only [hg]

theorem opDoorbell_spine (s : State) (l : LdRef) (r : Nat) (tail : BitVec 32) : spine (opDoorbell s l r tail) = spine s := by
  unfold opDoorbell
  dsimp only
  (repeat' split) <;> simp only [setRing_spine, violation_spine, spine_mk, spine_eta]

theorem packetRefused_spine (s : State) (h : CmdHdr) (st : Status) (res : Nat) : spine (packetRefused s h st res) = spine s := by
  simp only [packetRefused, violation_spine, replyNow_spine]
  rfl
theorem packetWaits_spine (s : State) (h : CmdHdr) (c : Instr) : spine (packetWaits s h c) = spine s := rfl

theorem opTake_spine (s : State) (l : LdRef) (r : Fin 2) : spine (opTake s l r) = spine s := by
  cases hturn : (ringReady s (ldKey l) r && ringFirst s (ldKey l) r) with
  | false => rw [opTake_notItsTurn hturn]
  | true =>
    obtain ⟨hr, hf⟩ := Bool.and_eq_true_iff.1 hturn
    obtain ⟨-, h⟩ | ⟨-, -, -, ⟨i, -, h⟩ | ⟨-, c, -, h⟩⟩ := opTake_cases hr hf rfl rfl
    · rw [h, packetRefused_spine]
    · rw [h, packetRefused_spine]
    · rw [h, packetWaits_spine]

theorem opCmdTimeout_spine (s : State) (l : LdRef) (r : Fin 2) : spine (opCmdTimeout s l r) = spine s := by
  unfold opCmdTimeout
  dsimp only
  (repeat' split) <;> simp only [setRing_spine, fireDetector_spine]

theorem opResume_spine (s : State) (l : LdRef) : spine (opResume s l) = spine s := by
  unfold opResume
  dsimp only
  (repeat' split) <;> simp only [setLd_spine]

theorem anyCmd_spine (s : State) (h : CmdHdr) (go : State) (hg : spine go = spine s) : spine (anyCmd s h go) = spine s := by
  unfold anyCmd
  split <;> simp only [replyNow_spine, hg]

theorem boundCmd_spine (s : State) (h : CmdHdr) (go : State) (hg : spine go = spine s) : spine (boundCmd s h go) = spine s := by
  unfold boundCmd
  split <;> simp only [replyNow_spine, anyCmd_spine, hg]

theorem ownerCmd_spine (s : State) (h : CmdHdr) (go : State) (hg : spine go = spine s) : spine (ownerCmd s h go) = spine s := by
  unfold ownerCmd
  split <;> simp only [replyNow_spine, anyCmd_spine, hg]

theorem deckCmd_spine (s : State) (h : CmdHdr) (d : BitVec 8) (x : Option (BitVec 8)) (go : State) (hg : spine go = spine s) :
    spine (deckCmd s h d x go) = spine s := by
  simp only [deckCmd]
  (repeat' split) <;> simp only [replyNow_spine, anyCmd_spine, hg]

theorem pickFree_spine (s : State) (n : Nat) (used : List Nat) : spine (pickFree s n used).2 = spine s := by rfl

theorem opIdentify_spine (s : State) (h : CmdHdr) : spine (opIdentify s h) = spine s := by
  simp only [opIdentify, replyNow_spine, slotWrite_spine, anyCmd_spine]

theorem opHealth_spine (s : State) (h : CmdHdr) : spine (opHealth s h) = spine s := by
  simp only [opHealth, replyNow_spine, slotWrite_spine, anyCmd_spine]

theorem opTimeStatus_spine (s : State) (h : CmdHdr) : spine (opTimeStatus s h) = spine s := by
  simp only [opTimeStatus, replyNow_spine, slotWrite_spine, boundCmd_spine]

theorem drainDeck_spine (us : Nat) (s : State) (d : Nat) : spine (drainDeck us s d) = spine s :=
  modDeck_spine s d _

theorem clearLeaving_spine (s : State) (d : Nat) : spine (clearLeaving s d) = spine s := by
  unfold clearLeaving
  dsimp only
  (repeat' split) <;> simp only [modDeck_spine]

theorem cleanLd_spine (s : State) (k : Nat) : spine (cleanLd s k) = spine s := by
  simp only [cleanLd, setLd_spine, spine_mk, spine_eta]

theorem beginUnbind_spine (s : State) (k : Nat) (decks : BitVec 8) : spine (beginUnbind s k decks) = spine s := by
  simp only [beginUnbind, modLd_spine, drainDeck_spine, clearLeaving_spine, foldl_spine, implies_true]

theorem endUnbind_spine (s : State) (k : Nat) : spine (endUnbind s k) = spine s := by
  simp only [endUnbind]
  (repeat' split) <;> simp only [modLd_spine, cleanLd_spine]

theorem applyBind_spine (s : State) (j : BindJob) : spine (applyBind s j) = spine s := by
  simp only [applyBind, modLd_spine, replyFinal_spine, beginUnbind_spine]

theorem serveBinds_spine (s : State) : spine (serveBinds s) = spine s := by
  simp only [serveBinds, applyBind_spine, foldl_spine, spine_mk, spine_eta, implies_true]

theorem wakeDecks_spine (s : State) (m : BitVec 8) : spine (wakeDecks s m) = spine s := by
  simp only [wakeDecks, modDeck_spine, foldl_spine, implies_true]

theorem opBindLd_spine (s : State) (h : CmdHdr) (q : BindLdP) : spine (opBindLd s h q) = spine s := by
  unfold opBindLd
  dsimp only
  (repeat' split) <;> simp only [replyNow_spine, replyLater_spine, anyCmd_spine, beginUnbind_spine, endUnbind_spine,
    serveBinds_spine, wakeDecks_spine, spine_mk, spine_eta]

theorem opClearDone_spine (s : State) (d : Nat) : spine (opClearDone s d) = spine s := by
  unfold opClearDone
  split <;> simp only [modDeck_spine, modLd_spine, endUnbind_spine, serveBinds_spine, foldl_spine, implies_true]

theorem opPerst_spine (s : State) (p : Fin 2) : spine (opPerst s p) = spine s := by
  unfold opPerst
  dsimp only
  (repeat' split) <;> simp only [modLd_spine, draw_spine, recordCause_spine, cleanLd_spine, beginUnbind_spine, endUnbind_spine,
    foldl_spine, spine_mk, spine_eta, implies_true]

theorem opCxlTrained_spine (s : State) (p : Fin 2) (width : BitVec 5) (rate : BitVec 6) :
    spine (opCxlTrained s p width rate) = spine s := by rfl

theorem opCtxCreate_spine (s : State) (h : CmdHdr) (q : CtxCreateP) : spine (opCtxCreate s h q) = spine s := by
  unfold opCtxCreate
  dsimp only
  (repeat' split) <;> simp only [modDeck_spine, replyNow_spine, deckCmd_spine]

theorem opCtxDestroy_spine (s : State) (h : CmdHdr) (q : CtxDestroyP) : spine (opCtxDestroy s h q) = spine s := by
  unfold opCtxDestroy
  dsimp only
  (repeat' split) <;> simp only [modDeck_spine, replyNow_spine, replyLater_spine, deckCmd_spine]

theorem opDrainEnd_spine (s : State) (d : Nat) (x : BitVec 4) : spine (opDrainEnd s d x) = spine s := by
  unfold opDrainEnd
  dsimp only
  (repeat' split) <;> simp only [modDeck_spine, replyFinal_spine, resetColls_spine, applyRes_spine, onDeck_spine, clearLeaving_spine]

theorem opQuarantineEnd_spine (s : State) (d : Nat) (x : BitVec 4) : spine (opQuarantineEnd s d x) = spine s := by
  unfold opQuarantineEnd
  dsimp only
  (repeat' split) <;> simp only [modDeck_spine]

theorem pickFree_some_spine {s t : State} {n : Nat} {used : List Nat} {o : Option Nat} (h : pickFree s n used = (o, t)) :
    spine t = spine s := by
  rw [← pickFree_spine s n used, h]

theorem opStreamOpen_spine (s : State) (h : CmdHdr) (q : StreamOpenP) : spine (opStreamOpen s h q) = spine s := by
  refine deckCmd_spine _ _ _ _ _ ?_
  dsimp only
  split
  · exact replyNow_spine _ _ _ _
  · split
    · exact replyNow_spine _ _ _ _
    · split <;> rename_i hpick <;> simp only [replyNow_spine, modDeck_spine, pickFree_some_spine hpick]

theorem opStreamClose_spine (s : State) (h : CmdHdr) (q : StreamCloseP) : spine (opStreamClose s h q) = spine s := by
  unfold opStreamClose
  dsimp only
  (repeat' split) <;> simp only [modDeck_spine, replyNow_spine, replyLater_spine, onDeck_spine, deckCmd_spine]

theorem opLaunch_spine (s : State) (h : CmdHdr) (q : LaunchP) : spine (opLaunch s h q) = spine s := by
  unfold opLaunch
  dsimp only
  (repeat' split) <;> simp only [modDeck_spine, replyNow_spine, replyPending_spine, deckCmd_spine]

theorem opSyncAlloc_spine (s : State) (h : CmdHdr) (q : SyncAllocP) : spine (opSyncAlloc s h q) = spine s := by
  unfold opSyncAlloc
  dsimp only
  (repeat' split) <;> simp only [modDeck_spine, replyNow_spine, slotWrite_spine, deckCmd_spine]

theorem opSyncPoison_spine (s : State) (h : CmdHdr) (q : SyncPoisonP) : spine (opSyncPoison s h q) = spine s := by
  unfold opSyncPoison
  dsimp only
  (repeat' split) <;> simp only [replyNow_spine, onDeck_spine, deckCmd_spine]

theorem opMemMap_spine (s : State) (h : CmdHdr) (q : MemMapP) : spine (opMemMap s h q) = spine s := by
  refine deckCmd_spine _ _ _ _ _ ?_
  dsimp only
  split
  · (repeat' split) <;> simp only [replyNow_spine] <;> rfl
  · split
    · exact replyNow_spine _ _ _ _
    · split <;> rename_i hpick <;> refine (replyNow_spine _ _ _ _).trans (Eq.trans ?_ (pickFree_some_spine hpick)) <;> rfl

theorem opQpOpen_spine (s : State) (h : CmdHdr) (q : QpOpenP) : spine (opQpOpen s h q) = spine s := by
  refine boundCmd_spine _ _ _ ?_
  split
  · exact replyNow_spine _ _ _ _
  · split <;> rename_i hpick <;> refine (replyNow_spine _ _ _ _).trans (Eq.trans ?_ (pickFree_some_spine hpick)) <;> rfl

theorem opQpClose_spine (s : State) (h : CmdHdr) (n : Nat) : spine (opQpClose s h n) = spine s := by
  unfold opQpClose
  dsimp only
  (repeat' split) <;> simp only [replyNow_spine, anyCmd_spine, spine_mk, spine_eta]

theorem opJobEpoch_spine (s : State) (h : CmdHdr) (q : JobEpochP) : spine (opJobEpoch s h q) = spine s := by
  unfold opJobEpoch
  dsimp only
  (repeat' split) <;> simp only [modDeck_spine, replyNow_spine, deckCmd_spine]

theorem opSnapshot_spine (s : State) (h : CmdHdr) (q : SnapshotP) : spine (opSnapshot s h q) = spine s := by
  unfold opSnapshot
  dsimp only
  (repeat' split) <;> simp only [modDeck_spine, replyNow_spine, replyPending_spine, deckCmd_spine]

theorem opSnapCopied_spine (s : State) (d : Nat) (x : BitVec 4) : spine (opSnapCopied s d x) = spine s := by
  unfold opSnapCopied
  dsimp only
  (repeat' split) <;> simp only [setDeck_spine, emit_spine, replyFinal_spine, onDeck_spine]

theorem opSnapShipped_spine (s : State) (d : Nat) (x : BitVec 4) (ok : Bool) : spine (opSnapShipped s d x ok) = spine s := by
  unfold opSnapShipped
  dsimp only
  (repeat' split) <;> simp only [modDeck_spine]

theorem opResetDeck_spine (s : State) (h : CmdHdr) (q : ResetP) (x : Scope) : spine (opResetDeck s h q x) = spine s := by
  unfold opResetDeck
  dsimp only
  (repeat' split) <;> simp only [replyNow_spine, applyReset_spine, deckCmd_spine]

theorem opReset_spine (s : State) (h : CmdHdr) (q : ResetP) : spine (opReset s h q) = spine s := by
  simp only [opReset]
  (repeat' split) <;> simp only [replyNow_spine, modRst_spine, anyCmd_spine, ownerCmd_spine, opResetDeck_spine]

theorem opQuiesce_spine (s : State) (h : CmdHdr) (q : QuiesceP) : spine (opQuiesce s h q) = spine s := by
  unfold opQuiesce
  dsimp only
  (repeat' split) <;> simp only [modDeck_spine, replyNow_spine, replyPending_spine, replyFinal_spine, anyCmd_spine, foldl_spine,
    spine_mk, spine_eta, implies_true]

theorem opQuiesceEnd_spine (s : State) (l : LdRef) (r : Fin 2) : spine (opQuiesceEnd s l r) = spine s := by
  unfold opQuiesceEnd
  dsimp only
  (repeat' split) <;> simp only [modLd_spine, replyFinal_spine, spine_mk, spine_eta]

/-! ### Mailboxes, locks, RDMA (R444 to R454) -/

theorem modMbx_spine (s : State) (m : Nat) (f : Mailbox → Mailbox) : spine (modMbx s m f) = spine s := by rfl

theorem opMbxRing_spine (s : State) (a : Agent) (m : Nat) : spine (opMbxRing s a m) = spine s := by
  unfold opMbxRing
  dsimp only
  (repeat' split) <;> simp only [emit_spine, modMbx_spine]

theorem opMbxDeliver_spine (s : State) (d : Nat) : spine (opMbxDeliver s d) = spine s := by
  unfold opMbxDeliver
  dsimp only
  (repeat' split) <;> simp only [modDeck_spine, onDeck_spine, modMbx_spine, spine_mk, spine_eta]

theorem opLckRead_spine (s : State) (a : Agent) (n : Nat) : spine (opLckRead s a n) = spine s := by
  unfold opLckRead
  dsimp only
  (repeat' split) <;> simp only [emit_spine, unsupported_spine, spine_mk, spine_eta]

theorem opLckWrite_spine (s : State) (a : Agent) (n : Nat) (v : W64) : spine (opLckWrite s a n v) = spine s := by
  unfold opLckWrite
  dsimp only
  (repeat' split) <;> simp only [unsupported_spine, spine_mk, spine_eta]

theorem sendNak_spine (s : State) (n : Nat) (q : Qp) (code : Nat) : spine (sendNak s n q code) = spine s := by rfl

theorem qpError_spine (s : State) (n : Nat) : spine (qpError s n) = spine s := by
  unfold qpError
  split
  · rfl
  · split
    · rfl
    · refine (foldl_spine _ (fun s d => foldl_spine _ (fun s e => ?_) _ s) _ _).trans rfl
      (repeat' split) <;> simp only [opSnapShipped_spine]

theorem rdmaStore_spine (s : State) (n : Nat) (rkey : BitVec 32) (addr : Nat) (bs : List Byte) (imm : Bool)
    (errs : List SectorErr) : spine (rdmaStore s n rkey addr bs imm errs).2 = spine s := by
  unfold rdmaStore
  dsimp only
  (repeat' split) <;> simp only [setDeck_spine, modDeck_spine, emit_spine, onDeck_spine, sendNak_spine, qpError_spine]

theorem opRdmaWrite_spine (s : State) (n : Nat) (rkey : BitVec 32) (addr : Nat) (bs : List Byte) (errs : List SectorErr) :
    spine (opRdmaWrite s n rkey addr bs errs) = spine s := by
  unfold opRdmaWrite
  split <;> simp only [holdAccess_spine, rdmaStore_spine]

theorem rdmaStore_some_spine {s t : State} {n addr : Nat} {rkey : BitVec 32} {bs : List Byte} {imm : Bool} {errs : List SectorErr}
    {r : Option Region} (h : rdmaStore s n rkey addr bs imm errs = (r, t)) : spine t = spine s := by
  rw [← rdmaStore_spine s n rkey addr bs imm errs, h]

theorem opRdmaImm_spine (s : State) (n : Nat) (rkey : BitVec 32) (addr : Nat) (bs : List Byte) (imm : BitVec 32)
    (errs : List SectorErr) : spine (opRdmaImm s n rkey addr bs imm errs) = spine s := by
  unfold opRdmaImm
  split
  · exact holdAccess_spine _ _
  · split <;> rename_i hstore
    · exact rdmaStore_some_spine hstore
    · dsimp only
      split <;> simp only [onDeck_spine, modLd_spine, rdmaStore_some_spine hstore]

theorem opRdmaRead_spine (s : State) (n : Nat) (rkey : BitVec 32) (addr len : Nat) (errs : List SectorErr) :
    spine (opRdmaRead s n rkey addr len errs) = spine s := by
  unfold opRdmaRead
  dsimp only
  (repeat' split) <;> simp only [emit_spine, onDeck_spine, holdAccess_spine, sendNak_spine, qpError_spine]

theorem runAccess_spine (s : State) (i : Instr) : spine (runAccess s i) = spine s := by
  unfold runAccess
  split <;> simp only [opCxlRead_spine, opCxlWrite_spine, opRdmaWrite_spine, opRdmaImm_spine, opRdmaRead_spine]

theorem runHeld_spine (s : State) : spine (runHeld s) = spine s := by
  simp only [runHeld, releaseHeld_spine, runAccess_spine, foldl_spine, spine_mk, spine_eta, implies_true]

theorem opRdmaUnsupported_spine (s : State) (n : Nat) : spine (opRdmaUnsupported s n) = spine s := by
  unfold opRdmaUnsupported
  split <;> simp only [emit_spine, sendNak_spine]

theorem opCnp_spine (s : State) (n : Nat) : spine (opCnp s n) = spine s := by
  unfold opCnp
  split <;> simp only [spine_mk, spine_eta]

theorem opPfc_spine (s : State) (e : Nat) (pause : Bool) : spine (opPfc s e pause) = spine s := by rfl

theorem resetEth_spine (s : State) (e : Nat) : spine (resetEth s e) = spine s := by
  simp only [resetEth, qpError_spine, opPfc_spine, foldl_spine, implies_true]

theorem opTlyClear_spine (s : State) (a : Agent) (d : Nat) (x : BitVec 4) (v : W64) : spine (opTlyClear s a d x v) = spine s := by
  unfold opTlyClear
  split <;> simp only [modDeck_spine, unsupported_spine]

theorem opTlyClearDone_spine (s : State) (d : Nat) (x : BitVec 4) : spine (opTlyClearDone s d x) = spine s := by rfl

/-! ### Management and firmware (R456 to R484) -/

theorem mctpReply_spine (s : State) (t : Transport) (c : MctpCode) (body : List Byte) : spine (mctpReply s t c body) = spine s := by rfl

theorem mctpRun_spine (s : State) (t : Transport) (go : State) (hg : spine go = spine s) : spine (mctpRun s t go) = spine s := by
  unfold mctpRun
  split <;> simp only [hg]

theorem i3cRun_spine (s : State) (t : Transport) (go : State) (hg : spine go = spine s) : spine (i3cRun s t go) = spine s := by
  unfold i3cRun
  split <;> simp only [mctpReply_spine, mctpRun_spine, hg]

theorem setMgmt_spine (s : State) (m : Mgmt) : spine (setMgmt s m) = spine s := by rfl

theorem opSetEid_spine (s : State) (t : Transport) (eid : BitVec 8) : spine (opSetEid s t eid) = spine s := by
  simp only [opSetEid, mctpReply_spine, mctpRun_spine, setMgmt_spine]

theorem opGetEid_spine (s : State) (t : Transport) : spine (opGetEid s t) = spine s := by
  simp only [opGetEid, mctpReply_spine, mctpRun_spine]

theorem opMctpVersion_spine (s : State) (t : Transport) (ty : BitVec 8) : spine (opMctpVersion s t ty) = spine s := by
  unfold opMctpVersion
  split <;> simp only [draw_spine, mctpReply_spine, mctpRun_spine]

theorem opTypeSupport_spine (s : State) (t : Transport) : spine (opTypeSupport s t) = spine s := by
  simp only [opTypeSupport, mctpReply_spine, mctpRun_spine]

theorem opMctpOther_spine (s : State) (t : Transport) (ty : BitVec 8) : spine (opMctpOther s t ty) = spine s := by
  unfold opMctpOther
  split <;> simp only [mctpRun_spine, setMgmt_spine]

theorem opPdrInfo_spine (s : State) (t : Transport) : spine (opPdrInfo s t) = spine s := by
  simp only [opPdrInfo, mctpReply_spine, mctpRun_spine]

theorem opGetPdr_spine (s : State) (t : Transport) (handle : BitVec 32) : spine (opGetPdr s t handle) = spine s := by
  unfold opGetPdr
  split <;> simp only [mctpReply_spine, mctpRun_spine]

theorem sensorBytes_spine (s : State) (i : SensorId) : spine (sensorBytes s i).2 = spine s := by
  unfold sensorBytes
  split <;> simp only [draw_spine]

theorem opSensor_spine (s : State) (t : Transport) (i : SensorId) : spine (opSensor s t i) = spine s := by
  simp only [opSensor, mctpReply_spine, mctpRun_spine, sensorBytes_spine]

theorem opStateSensor_spine (s : State) (t : Transport) (i : StateSensorId) : spine (opStateSensor s t i) = spine s := by
  simp only [opStateSensor, mctpReply_spine, mctpRun_spine]

theorem opGetEffecter_spine (s : State) (t : Transport) (i : EffecterId) : spine (opGetEffecter s t i) = spine s := by
  simp only [opGetEffecter, mctpReply_spine, mctpRun_spine]

theorem setMgcW_spine (s : State) (v : Nat) : spine (setMgcW s v) = spine s := by
  simp only [setMgcW, spine_mk, spine_eta]

theorem setEffecter_spine (s : State) (i : EffecterId) (v : Nat) : spine (setEffecter s i v) = spine s := by
  unfold setEffecter
  split <;> simp only [mgcTemps_spine, setMgcW_spine]

theorem opSetEffecter_spine (s : State) (t : Transport) (i : EffecterId) (v : BitVec 16) : spine (opSetEffecter s t i v) = spine s := by
  simp only [opSetEffecter, mctpReply_spine, i3cRun_spine, setEffecter_spine]

theorem opPoll_spine (s : State) (t : Transport) : spine (opPoll s t) = spine s := by
  unfold opPoll
  split <;> simp only [mctpReply_spine, i3cRun_spine, setMgmt_spine]

theorem opSpdmVersion_spine (s : State) (t : Transport) : spine (opSpdmVersion s t) = spine s := by
  simp only [opSpdmVersion, mctpReply_spine, mctpRun_spine]

theorem opSpdmCaps_spine (s : State) (t : Transport) : spine (opSpdmCaps s t) = spine s := by
  simp only [opSpdmCaps, mctpReply_spine, mctpRun_spine]

theorem opSpdmAlgs_spine (s : State) (t : Transport) (rsa sha : Bool) : spine (opSpdmAlgs s t rsa sha) = spine s := by
  unfold opSpdmAlgs
  split <;> simp only [mctpReply_spine, mctpRun_spine]

theorem opSpdmDigests_spine (s : State) (t : Transport) : spine (opSpdmDigests s t) = spine s := by
  simp only [opSpdmDigests, mctpReply_spine, mctpRun_spine]

theorem opSpdmCert_spine (s : State) (t : Transport) (slot : BitVec 8) (off len : BitVec 16) :
    spine (opSpdmCert s t slot off len) = spine s := by
  unfold opSpdmCert
  split <;> simp only [mctpReply_spine, mctpRun_spine]

theorem spdmSign_spine (s : State) : spine (spdmSign s).2 = spine s := by rfl

theorem opChallenge_spine (s : State) (t : Transport) (slot : BitVec 8) : spine (opChallenge s t slot) = spine s := by
  unfold opChallenge
  dsimp only
  (repeat' split) <;> simp only [mctpReply_spine, mctpRun_spine, spdmSign_spine]

theorem opMeasurements_spine (s : State) (t : Transport) (i : BitVec 8) (signed : Bool) :
    spine (opMeasurements s t i signed) = spine s := by
  unfold opMeasurements
  dsimp only
  (repeat' split) <;> simp only [mctpReply_spine, mctpRun_spine, spdmSign_spine]

theorem opSpdmOther_spine (s : State) (t : Transport) : spine (opSpdmOther s t) = spine s := by
  simp only [opSpdmOther, mctpReply_spine, mctpRun_spine]

theorem pieceWrite_spine (r : Status × State) (d a : Nat) (bs : List Byte) : spine (pieceWrite r d a bs).2 = spine r.2 := by
  unfold pieceWrite
  split <;> simp only [setDeck_spine, onDeck_spine]

theorem hdmWrite_spine (s : State) (k off : Nat) (bs : List Byte) : spine (hdmWrite s k off bs).2 = spine s := by
  unfold hdmWrite
  split
  · rfl
  · split
    · rfl
    · exact foldl_spine_snd _ (fun r x => pieceWrite_spine r _ _ _) _ _

theorem opAttest_spine (s : State) (h : CmdHdr) (q : AttestP) : spine (opAttest s h q) = spine s := by
  unfold opAttest
  dsimp only
  (repeat' split) <;> simp only [replyPending_spine, replyFinal_spine, boundCmd_spine, hdmWrite_spine]

theorem fwCmd_spine (s : State) (h : CmdHdr) (go : State) (hg : spine go = spine s) : spine (fwCmd s h go) = spine s := by
  unfold fwCmd
  split <;> simp only [anyCmd_spine, ownerCmd_spine, hg]

theorem stageSource_spine (s : State) (h : CmdHdr) (q : FwStageP) : spine (stageSource s h q).2 = spine s := by
  unfold stageSource
  split <;> simp only [draw_spine, cmdRead_spine]

theorem opFwStage_spine (s : State) (h : CmdHdr) (q : FwStageP) : spine (opFwStage s h q) = spine s := by
  unfold opFwStage
  dsimp only
  (repeat' split) <;> simp only [replyNow_spine, replyPending_spine, replyFinal_spine, setMgmt_spine, fwCmd_spine, stageSource_spine]

theorem opVerifyComplete_spine (s : State) : spine (opVerifyComplete s) = spine s := by
  unfold opVerifyComplete
  dsimp only
  (repeat' split) <;> simp only [emit_spine, replyFinal_spine, setMgmt_spine]

theorem opFwActivate_spine (s : State) (h : CmdHdr) : spine (opFwActivate s h) = spine s := by
  unfold opFwActivate
  split <;> simp only [replyNow_spine, replyPending_spine, setMgmt_spine, fwCmd_spine]

theorem opFlashDone_spine (s : State) : spine (opFlashDone s) = spine s := by
  unfold opFlashDone
  dsimp only
  (repeat' split) <;> simp only [emit_spine, replyFinal_spine, moduleReset_spine, setMgmt_spine]

theorem opStageTimeout_spine (s : State) : spine (opStageTimeout s) = spine s := by
  unfold opStageTimeout
  dsimp only
  (repeat' split) <;> simp only [mgtEvent_spine, setMgmt_spine]

theorem updRun_spine (s : State) (t : Transport) (go : State) (hg : spine go = spine s) : spine (updRun s t go) = spine s := by
  unfold updRun
  split <;> simp only [mctpReply_spine, i3cRun_spine, hg]

theorem opQueryIds_spine (s : State) (t : Transport) : spine (opQueryIds s t) = spine s := by
  simp only [opQueryIds, mctpReply_spine, i3cRun_spine]

theorem opFwParams_spine (s : State) (t : Transport) : spine (opFwParams s t) = spine s := by
  simp only [opFwParams, mctpReply_spine, i3cRun_spine]

theorem opRequestUpdate_spine (s : State) (t : Transport) : spine (opRequestUpdate s t) = spine s := by
  unfold opRequestUpdate
  split <;> simp only [mctpReply_spine, i3cRun_spine, setMgmt_spine]

theorem opPassTable_spine (s : State) (t : Transport) (c : BitVec 16) : spine (opPassTable s t c) = spine s := by
  simp only [opPassTable, mctpReply_spine, updRun_spine]

theorem opUpdateComponent_spine (s : State) (t : Transport) (c : BitVec 16) (n : BitVec 32) :
    spine (opUpdateComponent s t c n) = spine s := by
  unfold opUpdateComponent
  split <;> simp only [emit_spine, mctpReply_spine, setMgmt_spine, updRun_spine]

theorem opFwData_spine (s : State) (bs : List Byte) (last : Bool) : spine (opFwData s bs last) = spine s := by
  unfold opFwData
  dsimp only
  (repeat' split) <;> simp only [emit_spine, setMgmt_spine]

theorem opActivateFw_spine (s : State) (t : Transport) : spine (opActivateFw s t) = spine s := by
  simp only [opActivateFw, mctpReply_spine, i3cRun_spine]

theorem opGetStatus_spine (s : State) (t : Transport) : spine (opGetStatus s t) = spine s := by
  simp only [opGetStatus, mctpReply_spine, i3cRun_spine]

theorem opCancelComponent_spine (s : State) (t : Transport) : spine (opCancelComponent s t) = spine s := by
  simp only [opCancelComponent, mctpReply_spine, setMgmt_spine, updRun_spine]

theorem opCancelUpdate_spine (s : State) (t : Transport) : spine (opCancelUpdate s t) = spine s := by
  simp only [opCancelUpdate, mctpReply_spine, setMgmt_spine, updRun_spine]

theorem opEntdaa_spine (s : State) (a : BitVec 7) : spine (opEntdaa s a) = spine s := by
  unfold opEntdaa
  split <;> simp only [setMgmt_spine]

theorem bootImage_spine (s : State) (b : BootCheck) : spine (bootImage s b) = spine s := by
  unfold bootImage
  dsimp only
  (repeat' split) <;> simp only [draw_spine, mgtEvent_spine, setMgmt_spine]

theorem bootRecord_spine (s : State) (b : BootCheck) : spine (bootRecord s b) = spine s := by
  unfold bootRecord
  split <;> simp only [mgtEvent_spine, setMgmt_spine]

theorem answer_spine (h : CmdHdr) (r : Status × State) : spine (answer h r) = spine r.2 := by
  simp only [answer, replyNow_spine]

/-! ### The router (R363 to R365) -/

theorem forwardOne_spine (s : State) (r : RouteIn) (credits : Nat × Nat) (pk : Packet) : spine (forwardOne s r credits pk) = spine s := by
  simp only [forwardOne]
  (repeat' split) <;> simp only [modPort_spine, modNet_spine, sendOut_spine]

theorem drawCredits_spine (s : State) : spine (drawCredits s).2 = spine s := by rfl

theorem opForward_spine (s : State) (r : RouteIn) : spine (opForward s r) = spine s := by
  unfold opForward
  dsimp only
  (repeat' split) <;> simp only [draw_spine, setInputQueue_spine, forwardOne_spine, drawCredits_spine]

theorem opAgeOut_spine (s : State) (r : RouteIn) : spine (opAgeOut s r) = spine s := by
  unfold opAgeOut
  dsimp only
  (repeat' split) <;> simp only [modPort_spine, setInputQueue_spine]

theorem onPacket_spine (s : State) (pk : Packet) (cls : PClass) (ty : BitVec 4) (f : State) (hg : spine f = spine s) :
    spine (onPacket s pk cls ty f) = spine s := by
  unfold onPacket
  split <;> simp only [hg]

theorem opChunkReadErr_spine (s : State) (k : CollRef) (p chunk : Nat) (errs : List SectorErr) :
    spine (opChunkReadErr s k p chunk errs) = spine s := by
  unfold opChunkReadErr
  dsimp only
  (repeat' split) <;> simp only [learn_spine, opChunkReady_spine, onDeck_spine]

theorem opCollSlack_spine (s : State) (k : CollRef) : spine (opCollSlack s k) = spine s := by
  simp only [opCollSlack]
  (repeat' split) <;> simp only [fireDetector_spine]

end Sys2Proof.Machine
end

section
/-! SUPPORT. The spine across power, resets and register accesses. -/
namespace Sys2Proof.Machine
open Sys2Proof

/-! ### Power, temperature, safety functions (R485 to R515) -/

theorem setPower_spine (s : State) (p : Power) (hp : (p.moduleState == 2) = (s.power.moduleState == 2)) :
    spine (setPower s p) = spine s := by
  simp only [setPower, spine_mk, spine_eta, hp]

theorem thmEvent_spine (s : State) (n : Nat) : spine (thmEvent s n) = spine s := by rfl

theorem opFeedAFail_spine (s : State) : spine (opFeedAFail s) = spine s := by
  unfold opFeedAFail
  dsimp only
  (repeat' split) <;> rfl

theorem opFeedAReturn_spine (s : State) : spine (opFeedAReturn s) = spine s := by
  unfold opFeedAReturn
  dsimp only
  split <;> rfl

theorem opEfuseReclose_spine (s : State) (f : Feed) : spine (opEfuseReclose s f) = spine s := by
  unfold opEfuseReclose
  dsimp only
  (repeat' split) <;> simp only [setPower_spine]

theorem opPowerSample_spine (s : State) (w va ia vb ib : BitVec 16) : spine (opPowerSample s w va ia vb ib) = spine s := by
  unfold opPowerSample
  dsimp only
  (repeat' split) <;> rfl

theorem opWindowEnd_spine (s : State) : spine (opWindowEnd s) = spine s := by
  unfold opWindowEnd
  dsimp only
  split
  · rfl
  · refine setPower_spine _ _ ?_
    (repeat' split) <;> rfl

theorem setLimit_off (p : Power) (mgc fw : Nat) : ((setLimit p mgc fw).moduleState == 2) = (p.moduleState == 2) := by
  unfold setLimit
  dsimp only
  split <;> rfl

theorem opLimitWrite_spine (s : State) (a : Agent) (v : W64) : spine (opLimitWrite s a v) = spine s := by
  unfold opLimitWrite
  split
  · exact unsupported_spine _ _
  · exact setPower_spine _ _ (setLimit_off _ _ _)
  · exact setPower_spine _ _ (setLimit_off _ _ _)

theorem opThrottleWrite_spine (s : State) (a : Agent) (v : W64) : spine (opThrottleWrite s a v) = spine s := by
  unfold opThrottleWrite
  split <;> simp only [unsupported_spine, spine_mk, spine_eta]

theorem opDockReq_spine (s : State) (a : Agent) (d : Nat) (v : Bool) : spine (opDockReq s a d v) = spine s := by
  unfold opDockReq
  split <;> simp only [modDeck_spine, unsupported_spine]

theorem opDeckDock_spine (s : State) (d : Nat) : spine (opDeckDock s d) = spine s := by
  unfold opDeckDock
  split <;> simp only [modDeck_spine]

theorem opDeckWake_spine (s : State) (d : Nat) : spine (opDeckWake s d) = spine s := by
  unfold opDeckWake
  dsimp only
  (repeat' split) <;> simp only [setDeck_spine, serveBinds_spine]

theorem opDockIdle_spine (s : State) (d : Nat) : spine (opDockIdle s d) = spine s := by
  unfold opDockIdle
  dsimp only
  (repeat' split) <;> simp only [modDeck_spine]

theorem opStandbyReq_spine (s : State) (a : Agent) (v : Bool) : spine (opStandbyReq s a v) = spine s := by
  unfold opStandbyReq
  split
  · refine setPower_spine _ _ ?_
    dsimp only
    split
    · rename_i h
      rw [h.2]
      rfl
    · rfl
  · exact unsupported_spine _ _

theorem opStandbyEnter_spine (s : State) : spine (opStandbyEnter s) = spine s := by
  unfold opStandbyEnter
  split
  · rename_i h
    have hsteady : spine ((List.range 8).foldl (fun s d => modDeck s d enterDock) s) = spine s :=
      foldl_spine _ (fun s d => modDeck_spine s d _) _ s
    have hpower : ((List.range 8).foldl (fun s d => modDeck s d enterDock) s).power = s.power :=
      foldl_keeps (fun s => s.power) _ (fun s d => modDeck_power s d enterDock) _ s
    dsimp only
    generalize (List.range 8).foldl (fun s d => modDeck s d enterDock) s = docked at hsteady hpower ⊢
    refine (setPower_spine docked _ ?_).trans hsteady
    rw [hpower, h.2.1]
    rfl
  · rfl

theorem opRampWindow_spine (s : State) : spine (opRampWindow s) = spine s := by
  simp only [opRampWindow, modDeck_spine, setPower_spine, foldl_spine, implies_true]

theorem opRowPark_spine (s : State) (d row : Nat) : spine (opRowPark s d row) = spine s := by
  unfold opRowPark
  dsimp only
  (repeat' split) <;> simp only [modDeck_spine]

theorem opLockstep_spine (s : State) : spine (opLockstep s) = spine s := by
  simp only [opLockstep, modRst_spine, busyAll_spine, fireDetector_spine, safetyAct_spine, spine_mk, spine_eta]

theorem opSpadScrub_spine (s : State) (d i : Nat) (r : SpadFinding) : spine (opSpadScrub s d i r) = spine s := by
  unfold opSpadScrub
  split <;> simp only [setDeck_spine, fireDetector_spine]

theorem opSpadLate_spine (s : State) (d : Nat) : spine (opSpadLate s d) = spine s := by
  unfold opSpadLate
  split <;> simp only [safetyAct_spine]

theorem pushArith_spine (s : State) (r : ArithRec) : spine (pushArith s r) = spine s := by rfl

theorem opShadow_spine (s : State) (d p : Nat) (miss : List ShadowMiss) : spine (opShadow s d p miss) = spine s := by
  unfold opShadow
  dsimp only
  (repeat' split) <;> simp only [setDeck_spine, fireDetector_spine, applyRes_spine, safetyAct_spine, pushArith_spine,
    foldl_spine, implies_true]

/-! ### Reset commands (R523 to R541) -/

theorem fwOnly_spine (s : State) (a : Agent) (f : State) (hg : spine f = spine s) : spine (fwOnly s a f) = spine s := by
  unfold fwOnly
  split <;> simp only [unsupported_spine, hg]

theorem opSwrst_spine (s : State) (a : Agent) (x : Scope) (cores : List Nat) : spine (opSwrst s a x cores) = spine s := by
  simp only [opSwrst, applyReset_spine, fwOnly_spine]

theorem opSwrstEngine_spine (s : State) (a : Agent) (d : Fin 8) (x : BitVec 4) (core : BitVec 12) :
    spine (opSwrstEngine s a d x core) = spine s := by
  simp only [opSwrstEngine, opSwrst_spine]

theorem opSwrstEth_spine (s : State) (a : Agent) (e : Nat) : spine (opSwrstEth s a e) = spine s := by
  simp only [opSwrstEth, resetEth_spine, fwOnly_spine]

theorem opResetComplete_spine (s : State) (x : Scope) : spine (opResetComplete s x) = spine s := by
  unfold opResetComplete
  split <;> simp only [finishReset_spine, serveBinds_spine, runHeld_spine]

theorem opResetLimit_spine (s : State) (x : Scope) : spine (opResetLimit s x) = spine s := by
  simp only [opResetLimit]
  (repeat' split) <;> simp only [modRst_spine, rstEvent_spine, escalate_spine]

theorem opCmdpTimeout_spine (s : State) : spine (opCmdpTimeout s) = spine s := by
  simp only [opCmdpTimeout]
  (repeat' split) <;> simp only [rstEvent_spine, moduleReset_spine]

theorem mrstSeen_spine (s : State) (ns : Nat) : spine (mrstSeen s ns).2 = spine s := by
  unfold mrstSeen
  dsimp only
  (repeat' split) <;> simp only [draw_spine]

theorem opMrst_spine (s : State) (low : Bool) (ns : Nat) : spine (opMrst s low ns) = spine s := by
  unfold opMrst
  dsimp only
  (repeat' split) <;> simp only [modRst_spine, moduleReset_spine, mrstSeen_spine]

theorem optionTables_spine (s : State) : spine (optionTables s) = spine s :=
  foldl_spine _ (fun s d => (modDeck_spine _ d _).trans (draw_spine 10 s)) _ s

theorem releaseDeck_spine (s : State) (d : Nat) : spine (releaseDeck s d) = spine s := by
  simp only [releaseDeck, modDeck_spine]

theorem releaseLinks_spine (s : State) : spine (releaseLinks s) = spine s := by
  refine foldl_spine _ (fun s p => ?_) _ s
  split <;> simp only [startTraining_spine]

theorem setPhase_spine (s : State) (n : BitVec 4) : spine (setPhase s n) = spine s := by rfl

theorem opRelease_spine (s : State) (boot : BootCheck) : spine (opRelease s boot) = spine s := by
  unfold opRelease
  dsimp only
  (repeat' split) <;> simp only [trainChannels_spine, finishReset_spine, serveBinds_spine, bootImage_spine, bootRecord_spine,
    optionTables_spine, releaseDeck_spine, releaseLinks_spine, setPhase_spine, foldl_spine, spine_mk, spine_eta, implies_true]

theorem opWatchdog_spine (s : State) (d i : Nat) : spine (opWatchdog s d i) = spine s := by
  unfold opWatchdog
  dsimp only
  (repeat' split) <;> simp only [fireDetector_spine]

theorem opShutdownRecovery_spine (s : State) (d : Nat) : spine (opShutdownRecovery s d) = spine s := by
  unfold opShutdownRecovery
  dsimp only
  (repeat' split) <;> simp only [fireDetector_spine]

theorem opPwrcycTimeout_spine (s : State) : spine (opPwrcycTimeout s) = spine s := by
  unfold opPwrcycTimeout
  split <;> simp only [modRst_spine, rstEvent_spine, moduleReset_spine]

theorem legacyStatus_spine (s : State) (st : Status) : spine (legacyStatus s st) = spine s := by rfl

theorem opLegacyWarm_spine (s : State) (a : Agent) (key : BitVec 16) : spine (opLegacyWarm s a key) = spine s := by
  unfold opLegacyWarm
  dsimp only
  (repeat' split) <;> simp only [unsupported_spine, rstEvent_spine, moduleReset_spine, legacyStatus_spine]

theorem opLegacyExpire_spine (s : State) : spine (opLegacyExpire s) = spine s := by
  simp only [opLegacyExpire, modLd_spine, foldl_spine, implies_true]

/-! ### Register accesses -/

theorem clearRc_spine (s : State) (a : Agent) (r : Reg) : spine (clearRc s a r) = spine s := by
  unfold clearRc
  dsimp only
  (repeat' split) <;> simp only [modDeck_spine, modPort_spine, modLd_spine, modNet_spine, modRst_spine, modStk_spine,
    modMbx_spine, setPower_spine, spine_mk, spine_eta]

theorem countUnseen_spine (s : State) (r : Reg) : spine (countUnseen s r) = spine s := by
  unfold countUnseen
  split <;> simp only [modPort_spine, draw_spine, modStk_spine]

theorem opRegRead_spine (s : State) (a : Agent) (r : Reg) : spine (opRegRead s a r) = spine s := by
  unfold opRegRead
  dsimp only
  (repeat' split) <;> simp only [emit_spine, unsupported_spine, opHtNow_spine, opMbxRing_spine, opLckRead_spine, clearRc_spine,
    countUnseen_spine]

theorem ignoreWrite_spine (s : State) (a : Agent) (r : Reg) : spine (ignoreWrite s a r) = spine s := by
  unfold ignoreWrite
  split <;> simp only [unsupported_spine]

theorem gated_spine (ok : Bool) (s : State) (a : Agent) (f : State) (hg : spine f = spine s) : spine (gated ok s a f) = spine s := by
  unfold gated
  split <;> simp only [unsupported_spine, hg]

theorem writeHt_spine (s : State) (a : Agent) (r : Reg) (v : W64) : spine (writeHt s a r v) = spine s := by
  unfold writeHt
  split <;> simp only [modDeck_spine, unsupported_spine, setHtu_spine, opGmWrite_spine, opHtCfg_spine, gated_spine]

theorem writeHold_spine (s : State) (a : Agent) (r : Reg) (v : W64) : spine (writeHold s a r v) = spine s := by
  unfold writeHold
  split <;> simp only [modDeck_spine, ignoreWrite_spine, gated_spine]

theorem writeNet_spine (s : State) (a : Agent) (r : Reg) (v : W64) : spine (writeNet s a r v) = spine s := by
  unfold writeNet
  split
  · exact gated_spine _ _ _ _ (modNet_spine _ _)
  · exact gated_spine _ _ _ _ (modPort_spine _ _ _)
  · dsimp only
    split <;> simp only [opRetrain_spine, opDisable_spine]
  · exact gated_spine _ _ _ _ rfl
  · exact ignoreWrite_spine _ _ _

theorem writeHead_spine (s : State) (k : Nat) (head tail new : BitVec 32) (f : State) (hg : spine f = spine s) :
    spine (writeHead s k head tail new f) = spine s := by
  unfold writeHead
  split <;> simp only [violation_spine, hg]

theorem writeCmd_spine (s : State) (l : LdRef) (r : Reg) (v : W64) : spine (writeCmd s l r v) = spine s := by
  cases r with
  | cmdCfg => exact setLd_spine _ _ _
  | cmdCtl =>
    unfold writeCmd
    dsimp only
    split
    · exact opResume_spine s l
    · rfl
  | cmdCrTail n => exact opDoorbell_spine s l n _
  | cmdSrHead n => exact writeHead_spine s _ _ _ _ _ (setRing_spine s _ n _)
  | cmdEvHead => exact writeHead_spine s _ _ _ _ _ (setLd_spine s _ _)
  | cmdTmo g => exact setLd_spine _ _ _
  | ringMem off => exact setLd_spine _ _ _
  | hdmDecoder =>
    unfold writeCmd
    dsimp only
    split
    · exact setLd_spine _ _ _
    · exact unsupported_spine s _
  | _ => rfl

theorem writeMbx_spine (s : State) (a : Agent) (r : Reg) (v : W64) : spine (writeMbx s a r v) = spine s := by
  unfold writeMbx
  dsimp only
  (repeat' split) <;> simp only [modDeck_spine, modLd_spine, unsupported_spine, ignoreWrite_spine, gated_spine, spine_mk, spine_eta]

theorem writePwr_spine (s : State) (a : Agent) (r : Reg) (v : W64) : spine (writePwr s a r v) = spine s := by
  unfold writePwr
  split <;> simp only [unsupported_spine, setPower_spine, opLimitWrite_spine, opThrottleWrite_spine, opDockReq_spine,
    opStandbyReq_spine, spine_mk, spine_eta]

theorem writeSwrst_spine (s : State) (a : Agent) (d : Fin 8) (v : W64) : spine (writeSwrst s a d v) = spine s := by
  unfold writeSwrst
  dsimp only
  (repeat' split) <;> simp only [modRst_spine, fwOnly_spine, opSwrst_spine, opSwrstEngine_spine]

theorem writeSwrstHub_spine (s : State) (a : Agent) (v : W64) : spine (writeSwrstHub s a v) = spine s := by
  unfold writeSwrstHub
  dsimp only
  (repeat' split) <;> simp only [fwOnly_spine, opSwrst_spine, opSwrstEth_spine]

theorem writeRst_spine (s : State) (a : Agent) (r : Reg) (v : W64) : spine (writeRst s a r v) = spine s := by
  simp only [writeRst]
  (repeat' split) <;> simp only [unsupported_spine, modRst_spine, opLegacyWarm_spine, gated_spine, writeSwrst_spine,
    writeSwrstHub_spine]

theorem writeSync_spine (s : State) (a : Agent) (r : Reg) (v : W64) : spine (writeSync s a r v) = spine s := by
  simp only [writeSync]
  (repeat' split) <;> simp only [onDeck_spine, fwOnly_spine]

theorem opRegWrite_spine (s : State) (a : Agent) (r : Reg) (v : W64) : spine (opRegWrite s a r v) = spine s := by
  cases r <;> simp only [opRegWrite, writeHt_spine, ignoreWrite_spine, opTlyClear_spine, writeHold_spine, opMemCfg_spine,
    writeNet_spine, opLckWrite_spine, writePwr_spine, writeRst_spine, writeSync_spine]
  case memEvents => exact gated_spine _ _ _ _ rfl
  all_goals
    split <;> simp only [writeCmd_spine, unsupported_spine, modMbx_spine, writeMbx_spine, ignoreWrite_spine, setMgmt_spine]

theorem opDisagreeEnd_spine (s : State) : spine (opDisagreeEnd s) = spine s := by
  unfold opDisagreeEnd
  dsimp only
  (repeat' split) <;> simp only [opDisagree_spine, safetyAct_spine]

theorem afterStep_spine (before s : State) : spine (afterStep before s) = spine s := by
  unfold afterStep
  split <;> simp only [onDeck_spine, foldl_spine, implies_true]

end Sys2Proof.Machine
end

section
/-! SUPPORT. The events that switch main conversion off or on, and what every command leaves steady (O3, O59, O60). -/
namespace Sys2Proof.Machine
open Sys2Proof

/-- The queue and the clock stand, a set latch stays set, and main conversion off while latched stays off. Every command but the
loss of standby power leads to such a state. -/
structure Steady (s t : State) : Prop where
  queue : t.pending = s.pending
  clock : t.clock = s.clock
  latch : s.safety.latched = true → t.safety.latched = true
  off : latchedOff s = true → latchedOff t = true

theorem latchedOff_iff (s : State) : latchedOff s = true ↔ (s.safety.latched = true → s.power.moduleState = 2) := by
  simp [latchedOff, Bool.or_eq_true, imp_iff_not_or]

theorem Steady.trans {a b c : State} (h1 : Steady a b) (h2 : Steady b c) : Steady a c :=
  ⟨h2.queue.trans h1.queue, h2.clock.trans h1.clock, fun h => h2.latch (h1.latch h), fun h => h2.off (h1.off h)⟩

theorem steady_of_spine {s t : State} (h : spine t = spine s) : Steady s t := by
  obtain ⟨hq, hc, hl, ho⟩ : t.pending = s.pending ∧ t.clock = s.clock ∧ t.safety.latched = s.safety.latched ∧
      (t.power.moduleState == 2) = (s.power.moduleState == 2) := by simpa only [spine, Prod.mk.injEq] using h
  refine ⟨hq, hc, fun h => hl.trans h, fun h => ?_⟩
  rwa [latchedOff, hl, ho]

theorem Steady.refl (s : State) : Steady s s := steady_of_spine rfl

theorem Steady.spine_eq {a b c : State} (h1 : Steady a b) (h2 : spine c = spine b) : Steady a c := h1.trans (steady_of_spine h2)

theorem steady_of_off {s t : State} (hq : t.pending = s.pending) (hc : t.clock = s.clock)
    (hl : s.safety.latched = true → t.safety.latched = true) (ho : t.power.moduleState = 2) : Steady s t :=
  ⟨hq, hc, hl, fun _ => (latchedOff_iff t).2 fun _ => ho⟩

/-! ### Main conversion goes off (R489, R490, R511) -/

theorem steady_lossOff (s : State) : Steady s (lossOff s) := steady_of_off rfl rfl id rfl

theorem steady_safeState (s : State) (c : Nat) : Steady s (safeState s c) := by
  obtain ⟨hoff, hlatch, -⟩ := safeState_spec s c
  exact steady_of_off rfl rfl (fun _ => hlatch) hoff

/-! ### Standby power and power-on (R467, R485, R512) -/

theorem steady_opStandbyGood (s : State) (puf : Bool) : Steady s (opStandbyGood s puf) := by
  cases hi : s.power.island with
  | true => rw [show opStandbyGood s puf = s from if_pos hi]; exact .refl s
  | false =>
    have hup : Steady s (islandUp s puf) := steady_of_off rfl rfl id rfl
    rw [opStandbyGood_starts hi]
    split
    · exact hup
    · exact hup.spine_eq (mgtEvent_spine _ _)

theorem steady_setPower_unlatched {s : State} (hl : s.safety.latched = false) (p : Power) : Steady s (setPower s p) :=
  ⟨rfl, rfl, id, fun _ => (latchedOff_iff _).2 fun hlatched => absurd (hl.symm.trans hlatched) Bool.false_ne_true⟩

theorem steady_opPowerOn (s : State) : Steady s (opPowerOn s) := by
  cases hl : s.safety.latched with
  | true => rw [opPowerOn_latched hl]; exact .refl s
  | false =>
    unfold opPowerOn
    dsimp only
    split
    · exact .refl s
    · exact (steady_setPower_unlatched hl _).spine_eq (moduleReset_spine _ _ _ _ _ _)

/-! ### eFuses, the tray pin (R487, R490, R546) -/

theorem handedA_state (s : State) : (handedA s).moduleState = s.power.moduleState := by
  obtain ⟨-, -, -, hstate, -⟩ := openedA_spec s
  simp only [handedA]
  (repeat' split) <;> exact hstate

theorem openedB_state (s : State) : (openedB s).moduleState = s.power.moduleState := by
  simp only [openedB]
  split <;> rfl

theorem handedB_state (s : State) : (handedB s).moduleState = s.power.moduleState := by
  simp only [handedB]
  split <;> exact openedB_state s

theorem steady_tripped (s : State) (p : Power) (hp : p.moduleState = s.power.moduleState) : Steady s (tripped s p) := by
  have hreport : Steady s (safetyAct (setPower s p) 1) :=
    steady_of_spine ((safetyAct_spine _ 1).trans (setPower_spine s p (by rw [hp])))
  unfold tripped
  split
  · exact hreport.trans (steady_safeState _ 1)
  · exact hreport

theorem steady_opEfuseTrip (s : State) (f : Feed) : Steady s (opEfuseTrip s f) := by
  cases f with
  | a =>
    cases ha : s.power.efuseA with
    | true => rw [show opEfuseTrip s .a = s from if_pos ha]; exact .refl s
    | false => rw [opEfuseTrip_a ha]; exact steady_tripped s _ (handedA_state s)
  | b =>
    cases hb : s.power.efuseB with
    | true => rw [show opEfuseTrip s .b = s from if_pos hb]; exact .refl s
    | false => rw [opEfuseTrip_b hb]; exact steady_tripped s _ (handedB_state s)

theorem steady_opPowerLoss (s : State) : Steady s (opPowerLoss s) := by
  unfold opPowerLoss
  split
  · exact .refl s
  · exact steady_lossOff s

theorem trayRead_spine (s : State) (high : Bool) (rec : List Byte) : spine (trayRead s high rec) = spine s := by
  unfold trayRead
  split <;> simp only [mgtEvent_spine, setMgmt_spine]

theorem steady_opPresent (s : State) (high : Bool) (rec : List Byte) : Steady s (opPresent s high rec) := by
  cases hi : s.power.island with
  | false =>
    rw [opPresent, hi]
    exact steady_of_spine (setMgmt_spine s _)
  | true =>
    have hread : Steady s (trayRead s high rec) := steady_of_spine (trayRead_spine s high rec)
    rw [opPresent_powered hi]
    split
    · exact hread.trans (steady_lossOff _)
    · exact hread

/-! ### Die temperature (R506 to R509) -/

/-- The readings that a die has sensors for. -/
def dieReadings (n : Nat) (temps : List (Option (BitVec 8))) : List (Option (BitVec 8)) := temps.take (if n = 8 then 8 else 16)

/-- The module after a sample of die `n` has been recorded, before anything acts on it. -/
def dieRead (s : State) (n : Nat) (temps : List (Option (BitVec 8))) : State :=
  let x := dieAfter (mapGet {} s.thermal.dies n) s.thermal.throttleC.toNat (dieReadings n temps)
  let s0 := { s with thermal := { s.thermal with dies := mapSet {} s.thermal.dies n x } }
  let s1 := if n < 8 then noteHeat s0 n else s0
  if ((dieReadings n temps).filter (fun t => t.isNone)).length = 0 then s1 else thmEvent s1 5

/-- Does a sample call for the die's safety function: the second running reading above 115 °C, or three failed sensors (R508, R509)? -/
def dieTrips (x : Die) (ts : List (Option (BitVec 8))) : Bool :=
  ((hotNow ts).zip x.hot).any (fun e => e.1 && e.2) || decide (3 ≤ (ts.filter (fun t => t.isNone)).length)

theorem opDieSample_powered {s : State} (hm : s.power.moduleState ≠ 2) (n : Nat) (temps : List (Option (BitVec 8))) :
    opDieSample s n temps = if !dieTrips (mapGet {} s.thermal.dies n) (dieReadings n temps) then dieRead s n temps
      else if n = 8 then safeState (safetyAct (thmEvent (dieRead s n temps) 2) 3) 3
      else if (deckAt (dieRead s n temps) n).power = .shutdown then dieRead s n temps
      else deckShutdown (safetyAct (thmEvent (dieRead s n temps) 1) 2) n :=
  if_neg hm

theorem dieRead_spine (s : State) (n : Nat) (temps : List (Option (BitVec 8))) : spine (dieRead s n temps) = spine s := by
  unfold dieRead
  dsimp only
  (repeat' split) <;> simp only [thmEvent_spine, noteHeat_spine, spine_mk, spine_eta]

theorem steady_opDieSample (s : State) (n : Nat) (temps : List (Option (BitVec 8))) : Steady s (opDieSample s n temps) := by
  by_cases hm : s.power.moduleState = 2
  · rw [show opDieSample s n temps = s from if_pos hm]
    exact .refl s
  · have hread : Steady s (dieRead s n temps) := steady_of_spine (dieRead_spine s n temps)
    rw [opDieSample_powered hm]
    split
    · exact hread
    · split
      · exact (hread.spine_eq ((safetyAct_spine _ 3).trans (thmEvent_spine _ 2))).trans (steady_safeState _ 3)
      · split
        · exact hread
        · exact hread.spine_eq ((deckShutdown_spine _ n).trans ((safetyAct_spine _ 2).trans (thmEvent_spine _ 1)))

/-- Sensors that have climbed by more than 5 °C over the window, of all dies. -/
def fastSensors (s : State) : Nat :=
  (((List.range 9).map (fun n => (n, mapGet ({} : Die) s.thermal.dies n))).map
    (fun e => ((dieRates e.2).filter (fun r => decide (5 < r))).length)).sum

/-- Boundaries in a row at which three sensors had climbed. -/
def fastInARow (s : State) : BitVec 2 := if 3 ≤ fastSensors s then satInc s.thermal.consec else 0

/-- The module at a window's end, before the safe state that three such windows in a row lead to. -/
def windowClosed (s : State) : State :=
  let dies := (List.range 9).map (fun n => (n, mapGet ({} : Die) s.thermal.dies n))
  let s1 := { s with thermal := { s.thermal with dies := dies.foldl (fun m e => mapSet {} m e.1 (dieBoundary e.1 e.2)) [],
                                                 count := BitVec.ofNat 8 (min 255 (fastSensors s)), consec := fastInARow s } }
  let s2 := if dies.any (fun e => decide ((dieBoundary e.1 e.2).duty.toNat < e.2.duty.toNat)) then thmEvent s1 0 else s1
  if fastSensors s = 0 then s2 else thmEvent s2 3

theorem opThermalEnd_powered {s : State} (hm : s.power.moduleState ≠ 2) : opThermalEnd s =
    if fastInARow s = 3 then safeState (safetyAct (thmEvent (windowClosed s) 4) 5) 5 else windowClosed s :=
  if_neg hm

theorem windowClosed_spine (s : State) : spine (windowClosed s) = spine s := by
  unfold windowClosed
  dsimp only
  (repeat' split) <;> simp only [thmEvent_spine, spine_mk, spine_eta]

theorem steady_opThermalEnd (s : State) : Steady s (opThermalEnd s) := by
  by_cases hm : s.power.moduleState = 2
  · rw [show opThermalEnd s = s from if_pos hm]
    exact .refl s
  · have hclosed : Steady s (windowClosed s) := steady_of_spine (windowClosed_spine s)
    rw [opThermalEnd_powered hm]
    split
    · exact (hclosed.spine_eq ((safetyAct_spine _ 5).trans (thmEvent_spine _ 4))).trans (steady_safeState _ 5)
    · exact hclosed

/-! ### Every command -/

/-- Each arm of `exec` ends in a next state, whose spine stands but for the power events above. -/
theorem exec_steady (c : Instr) (hc : c ≠ .standbyPowerLoss) (s : State) : ∃ t, exec c s = .next t ∧ Steady s t := by
  cases c with
  | standbyPowerLoss => exact absurd rfl hc
  | nop | endKernel | csrr | csrw | loop | fence | fenceRelease | waitObj | waitt | waittExpire | add | sub | andOp | orOp
  | xor | sll | srl | sra | slt | sltu | mul | mulhu | div | divu | rem | remu | addi | andi | ori | xori | slli | srli | srai
  | slti | sltiu | lih | ldb | ldh | ldw | ldd | ldbs | ldhs | ldws | stb | sth | stw | std | lds | sts | fadd | fsub | fmul
  | ffma | fmin | fmax | flt | fle | feq | fcvtSL | fcvtLS | beq | bne | blt | bge | bltu | bgeu | jal | jalr | vadd | vsub
  | vmul | vfma | vmin | vmax | vcmp | vsel | vcvt | vqnt | vrsqs | vbcst | vext | tlyacc | tlyctr | mlds | mmul | mdrn
  | mzero | matrixStart | mov | movt | put | get | atom | sig | syncrd | hpush | hpop | launchStopComplete | syncWaitTimeout
  | alarmFire | fenceWindowAbandon | requestTimeout | streamNop | streamWait | streamSignal | streamColl | kernelComplete
  | engineInstructionComplete | badOpcodeIssue | fencedSendRelease => exact ⟨_, rfl, steady_of_spine (onDeck_spine _ _ _)⟩
  | tallyUpdateApply | gangRendezvous | gangTimeout | retryResend => exact ⟨_, rfl, steady_of_spine (modDeck_spine _ _ _)⟩
  | moverTransferComplete => exact ⟨_, rfl, steady_of_spine (opTransferComplete_spine _ _ _ _ _)⟩
  | beaconSend => exact ⟨_, rfl, steady_of_spine (opBeaconSend_spine _ _)⟩
  | beaconReceive => exact ⟨_, rfl, steady_of_spine ((afterStep_spine _ _).trans (opBeaconReceive_spine _ _ _ _))⟩
  | beaconMissing => exact ⟨_, rfl, steady_of_spine (dropLink_spine _ _)⟩
  | timeReqReceive => exact ⟨_, rfl, steady_of_spine (opTimeReq_spine _ _ _ _)⟩
  | timeRespReceive => exact ⟨_, rfl, steady_of_spine (opTimeResp_spine _ _ _ _ _ _)⟩
  | timeExchangeStart => exact ⟨_, rfl, steady_of_spine (opTimeStart_spine _ _)⟩
  | disagreeWindowEnd => exact ⟨_, rfl, steady_of_spine (opDisagreeEnd_spine _)⟩
  | acquireNoSource => exact ⟨_, rfl, steady_of_spine (opAcquireNoSource_spine _)⟩
  | holdoverExpire => exact ⟨_, rfl, steady_of_spine (opHoldoverExpire_spine _)⟩
  | ppsEdge => exact ⟨_, rfl, steady_of_spine ((afterStep_spine _ _).trans (opPpsEdge_spine _ _ _ _))⟩
  | ppsOverdue => exact ⟨_, rfl, steady_of_spine (opPpsOverdue_spine _)⟩
  | ref25Invalid => exact ⟨_, rfl, steady_of_spine (opRefInvalid_spine _)⟩
  | gmSecondElapse => exact ⟨_, rfl, steady_of_spine (opGmSecond_spine _)⟩
  | htGmNextSecWrite => exact ⟨_, rfl, steady_of_spine (opGmWrite_spine _ _ _)⟩
  | htCfgWrite => exact ⟨_, rfl, steady_of_spine (opHtCfg_spine _ _ _)⟩
  | htNowRead => exact ⟨_, rfl, steady_of_spine (opHtNow_spine _ _)⟩
  | stepEpoch => exact ⟨_, rfl, steady_of_spine (opStepEpoch_spine _)⟩
  | sailingDepart => exact ⟨_, rfl, steady_of_spine (opSailing_spine _ _ _)⟩
  | schedLaunch => exact ⟨_, rfl, steady_of_spine (opSchedLaunchRec_spine _ _ _)⟩
  | schedScrub => exact ⟨_, rfl, steady_of_spine (opSchedScrub_spine _ _ _)⟩
  | schedShadow => exact ⟨_, rfl, steady_of_spine (opSchedShadow_spine _ _ _)⟩
  | schedRamp => exact ⟨_, rfl, steady_of_spine (opSchedRamp_spine _ _ _)⟩
  | launchStartTime | streamKernel => exact ⟨_, rfl, steady_of_spine (onDeckLaunch_spine _ _ _)⟩
  | shadowCheck => exact ⟨_, rfl, steady_of_spine (opShadow_spine _ _ _ _)⟩
  | elsFail => exact ⟨_, rfl, steady_of_spine (opElsFail_spine _ _)⟩
  | elsPairLost => exact ⟨_, rfl, steady_of_spine (opPairLost_spine _ _)⟩
  | elsInsert => exact ⟨_, rfl, steady_of_spine (readEls_spine _ _ _)⟩
  | fabricFlitUe => exact ⟨_, rfl, steady_of_spine (opFlitUe_spine _ _ _)⟩
  | deckHubLinkFail => exact ⟨_, rfl, steady_of_spine (opHubLinkFail_spine _ _)⟩
  | deckClearDone => exact ⟨_, rfl, steady_of_spine (opClearDone_spine _ _)⟩
  | laneFail => exact ⟨_, rfl, steady_of_spine (opLaneFail_spine _ _ _ _)⟩
  | portLoss => exact ⟨_, rfl, steady_of_spine (opPortLoss_spine _ _)⟩
  | portRetry => exact ⟨_, rfl, steady_of_spine (opPortRetry_spine _ _)⟩
  | trainingTimeout => exact ⟨_, rfl, steady_of_spine (opTrainingTimeout_spine _ _)⟩
  | quarantineExpire => exact ⟨_, rfl, steady_of_spine (opQuarantineExpire_spine _ _)⟩
  | trainFrameReceive => exact ⟨_, rfl, steady_of_spine (opTrainFrame_spine _ _ _)⟩
  | fibreConnectorInsert => exact ⟨_, rfl, steady_of_spine (opFibreInsert_spine _ _ _)⟩
  | pktFrameReceive => exact ⟨_, rfl, steady_of_spine (opPktFrame_spine _ _ _)⟩
  | nakReceive => exact ⟨_, rfl, steady_of_spine (opNak_spine _ _ _)⟩
  | packetForward => exact ⟨_, rfl, steady_of_spine (opForward_spine _ _)⟩
  | packetAgeOut => exact ⟨_, rfl, steady_of_spine (opAgeOut_spine _ _)⟩
  | pktWrite | pktRead | pktAtom | pktSig | pktResend =>
    exact ⟨_, rfl, steady_of_spine (onPacket_spine _ _ _ _ _ (opRequest_spine _ _ _))⟩
  | pktAck => exact ⟨_, rfl, steady_of_spine (onPacket_spine _ _ _ _ _ (opAck_spine _ _))⟩
  | pktData => exact ⟨_, rfl, steady_of_spine (onPacket_spine _ _ _ _ _ (opData_spine _ _))⟩
  | pktVacancy => exact ⟨_, rfl, steady_of_spine (onPacket_spine _ _ _ _ _ (opVacancy_spine _ _ _))⟩
  | pktControl => exact ⟨_, rfl, steady_of_spine (onPacket_spine _ _ _ _ _ (opControl_spine _ _))⟩
  | pktMcReport => exact ⟨_, rfl, steady_of_spine (onPacket_spine _ _ _ _ _ (opMcReport_spine _ _))⟩
  | pktChunk => exact ⟨_, rfl, steady_of_spine (ite_spine (opChunk_spine _ _ _) rfl)⟩
  | fenceWaitExpire => exact ⟨_, rfl, steady_of_spine (opFenceWaitExpire_spine _ _)⟩
  | fenceEntryExpire => exact ⟨_, rfl, steady_of_spine (opFenceEntryExpire_spine _ _)⟩
  | lnkRetrain => exact ⟨_, rfl, steady_of_spine (opRetrain_spine _ _ _)⟩
  | lnkDisable => exact ⟨_, rfl, steady_of_spine (opDisable_spine _ _ _ _)⟩
  | collBuffersGranted => exact ⟨_, rfl, steady_of_spine (ite_spine rfl (opBuffersGranted_spine _ _))⟩
  | chunkLanded => exact ⟨_, rfl, steady_of_spine (ite_spine rfl (opChunkLanded_spine _ _ _ _))⟩
  | churnResendReq => exact ⟨_, rfl, steady_of_spine ((opResendReq_spine _ _ _).trans (takeNotice_spine _ _ _))⟩
  | churnAbort => exact ⟨_, rfl, steady_of_spine ((opAbort_spine _ _ _).trans (takeNotice_spine _ _ _))⟩
  | collComplete => exact ⟨_, rfl, steady_of_spine (ite_spine rfl (opCollComplete_spine _ _))⟩
  | collDeadline => exact ⟨_, rfl, steady_of_spine (opCollDeadline_spine _ _)⟩
  | collSlackExpire => exact ⟨_, rfl, steady_of_spine (opCollSlack_spine _ _)⟩
  | snapshotCopyDone => exact ⟨_, rfl, steady_of_spine (opSnapCopied_spine _ _ _)⟩
  | snapshotShipDone => exact ⟨_, rfl, steady_of_spine (opSnapShipped_spine _ _ _ _)⟩
  | cxlMemRead => exact ⟨_, rfl, steady_of_spine (opCxlRead_spine _ _ _ _ _)⟩
  | cxlMemWrite => exact ⟨_, rfl, steady_of_spine (opCxlWrite_spine _ _ _ _ _)⟩
  | rowCopyDone => exact ⟨_, rfl, steady_of_spine ((runHeld_spine _).trans (opRowCopyDone_spine _ _ _ _))⟩
  | remapFlashWrite => exact ⟨_, rfl, steady_of_spine (opRemapFlash_spine _ _)⟩
  | patrolRead => exact ⟨_, rfl, steady_of_spine (opPatrol_spine _ _ _)⟩
  | scrubAgeLate => exact ⟨_, rfl, steady_of_spine (opScrubLate_spine _ _)⟩
  | readAgePromote => exact ⟨_, rfl, steady_of_spine (opReadAge_spine _ _)⟩
  | parityError => exact ⟨_, rfl, steady_of_spine (opParity_spine _ _ _)⟩
  | channelRetrainDone => exact ⟨_, rfl, steady_of_spine ((runHeld_spine _).trans (opRetrainDone_spine _ _ _ _))⟩
  | stackTempReport => exact ⟨_, rfl, steady_of_spine (opTempReport_spine _ _ _)⟩
  | warmGraceExpire => exact ⟨_, rfl, steady_of_spine (opGraceExpire_spine _ _)⟩
  | stackSensorLost => exact ⟨_, rfl, steady_of_spine (opSensorLost_spine _ _)⟩
  | selfRefreshEnter => exact ⟨_, rfl, steady_of_spine (opSelfRefresh_spine _ _)⟩
  | memCfgWrite => exact ⟨_, rfl, steady_of_spine (opMemCfg_spine _ _ _)⟩
  | cmdDoorbell => exact ⟨_, rfl, steady_of_spine (opDoorbell_spine _ _ _ _)⟩
  | cmdTake => exact ⟨_, rfl, steady_of_spine (opTake_spine _ _ _)⟩
  | cmdTimeout => exact ⟨_, rfl, steady_of_spine (opCmdTimeout_spine _ _ _)⟩
  | cmdResume => exact ⟨_, rfl, steady_of_spine (opResume_spine _ _)⟩
  | identify => exact ⟨_, rfl, steady_of_spine (runCmd_spine _ _ _ _ (opIdentify_spine _ _))⟩
  | bindLd => exact ⟨_, rfl, steady_of_spine (runCmd_spine _ _ _ _ (opBindLd_spine _ _ _))⟩
  | ctxCreate => exact ⟨_, rfl, steady_of_spine (runCmd_spine _ _ _ _ (opCtxCreate_spine _ _ _))⟩
  | ctxDestroy => exact ⟨_, rfl, steady_of_spine (runCmd_spine _ _ _ _ (opCtxDestroy_spine _ _ _))⟩
  | ctxDrainEnd => exact ⟨_, rfl, steady_of_spine (opDrainEnd_spine _ _ _)⟩
  | ctxQuarantineEnd => exact ⟨_, rfl, steady_of_spine (opQuarantineEnd_spine _ _ _)⟩
  | streamOpen => exact ⟨_, rfl, steady_of_spine (runCmd_spine _ _ _ _ (opStreamOpen_spine _ _ _))⟩
  | streamClose => exact ⟨_, rfl, steady_of_spine (runCmd_spine _ _ _ _ (opStreamClose_spine _ _ _))⟩
  | launch => exact ⟨_, rfl, steady_of_spine (runCmd_spine _ _ _ _ (opLaunch_spine _ _ _))⟩
  | syncAlloc => exact ⟨_, rfl, steady_of_spine (runCmd_spine _ _ _ _ (opSyncAlloc_spine _ _ _))⟩
  | syncPoison => exact ⟨_, rfl, steady_of_spine (runCmd_spine _ _ _ _ (opSyncPoison_spine _ _ _))⟩
  | memMap => exact ⟨_, rfl, steady_of_spine (runCmd_spine _ _ _ _ (opMemMap_spine _ _ _))⟩
  | qpOpen => exact ⟨_, rfl, steady_of_spine (runCmd_spine _ _ _ _ (opQpOpen_spine _ _ _))⟩
  | qpClose => exact ⟨_, rfl, steady_of_spine (runCmd_spine _ _ _ _ (opQpClose_spine _ _ _))⟩
  | ttLoad =>
    exact ⟨_, rfl, steady_of_spine (runCmd_spine _ _ _ _ (ownerCmd_spine _ _ _ (ite_spine (replyNow_spine _ _ _ _)
      (ite_spine rfl ((answer_spine _ _).trans (ttLoad_spine _ _ _))))))⟩
  | ttArm =>
    exact ⟨_, rfl, steady_of_spine (runCmd_spine _ _ _ _ (ownerCmd_spine _ _ _ ((answer_spine _ _).trans (ttArm_spine _ _))))⟩
  | ttSelectVariant =>
    exact ⟨_, rfl, steady_of_spine (runCmd_spine _ _ _ _ (ownerCmd_spine _ _ _ ((answer_spine _ _).trans (ttSelect_spine _ _))))⟩
  | timeStatus => exact ⟨_, rfl, steady_of_spine (runCmd_spine _ _ _ _ (opTimeStatus_spine _ _))⟩
  | jobEpoch => exact ⟨_, rfl, steady_of_spine (ite_spine rfl (runCmd_spine _ _ _ _ (opJobEpoch_spine _ _ _)))⟩
  | snapshot => exact ⟨_, rfl, steady_of_spine (runCmd_spine _ _ _ _ (opSnapshot_spine _ _ _))⟩
  | reset => exact ⟨_, rfl, steady_of_spine (runCmd_spine _ _ _ _ (opReset_spine _ _ _))⟩
  | quiesce => exact ⟨_, rfl, steady_of_spine (runCmd_spine _ _ _ _ (opQuiesce_spine _ _ _))⟩
  | quiesceEnd => exact ⟨_, rfl, steady_of_spine (opQuiesceEnd_spine _ _ _)⟩
  | health => exact ⟨_, rfl, steady_of_spine (runCmd_spine _ _ _ _ (opHealth_spine _ _))⟩
  | fwStage => exact ⟨_, rfl, steady_of_spine (ite_spine rfl (runCmd_spine _ _ _ _ (opFwStage_spine _ _ _)))⟩
  | fwActivate => exact ⟨_, rfl, steady_of_spine (runCmd_spine _ _ _ _ (opFwActivate_spine _ _))⟩
  | attest => exact ⟨_, rfl, steady_of_spine (ite_spine rfl (runCmd_spine _ _ _ _ (opAttest_spine _ _ _)))⟩
  | mbxRing => exact ⟨_, rfl, steady_of_spine (opMbxRing_spine _ _ _)⟩
  | mbxDeliver => exact ⟨_, rfl, steady_of_spine (opMbxDeliver_spine _ _)⟩
  | lckRead => exact ⟨_, rfl, steady_of_spine (opLckRead_spine _ _ _)⟩
  | lckWrite => exact ⟨_, rfl, steady_of_spine (opLckWrite_spine _ _ _ _)⟩
  | cxlPerst => exact ⟨_, rfl, steady_of_spine (opPerst_spine _ _)⟩
  | rdmaWrite => exact ⟨_, rfl, steady_of_spine (opRdmaWrite_spine _ _ _ _ _ _)⟩
  | rdmaWriteImmediate => exact ⟨_, rfl, steady_of_spine (opRdmaImm_spine _ _ _ _ _ _ _)⟩
  | rdmaRead => exact ⟨_, rfl, steady_of_spine (opRdmaRead_spine _ _ _ _ _ _)⟩
  | rdmaUnsupportedOp => exact ⟨_, rfl, steady_of_spine (opRdmaUnsupported_spine _ _)⟩
  | qpRetryExhausted => exact ⟨_, rfl, steady_of_spine (qpError_spine _ _)⟩
  | tlyClear => exact ⟨_, rfl, steady_of_spine (opTlyClear_spine _ _ _ _ _)⟩
  | tlyClearDone => exact ⟨_, rfl, steady_of_spine (opTlyClearDone_spine _ _ _)⟩
  | setEndpointId => exact ⟨_, rfl, steady_of_spine (opSetEid_spine _ _ _)⟩
  | getEndpointId => exact ⟨_, rfl, steady_of_spine (opGetEid_spine _ _)⟩
  | getMctpVersionSupport => exact ⟨_, rfl, steady_of_spine (opMctpVersion_spine _ _ _)⟩
  | getMessageTypeSupport => exact ⟨_, rfl, steady_of_spine (opTypeSupport_spine _ _)⟩
  | mctpUnsupportedType => exact ⟨_, rfl, steady_of_spine (opMctpOther_spine _ _ _)⟩
  | getPdrRepositoryInfo => exact ⟨_, rfl, steady_of_spine (opPdrInfo_spine _ _)⟩
  | getPdr => exact ⟨_, rfl, steady_of_spine (opGetPdr_spine _ _ _)⟩
  | getSensorReading => exact ⟨_, rfl, steady_of_spine (opSensor_spine _ _ _)⟩
  | getStateSensorReadings => exact ⟨_, rfl, steady_of_spine (opStateSensor_spine _ _ _)⟩
  | getNumericEffecterValue => exact ⟨_, rfl, steady_of_spine (opGetEffecter_spine _ _ _)⟩
  | setNumericEffecterValue => exact ⟨_, rfl, steady_of_spine (opSetEffecter_spine _ _ _ _)⟩
  | pollForPlatformEventMessage => exact ⟨_, rfl, steady_of_spine (opPoll_spine _ _)⟩
  | getVersion => exact ⟨_, rfl, steady_of_spine (opSpdmVersion_spine _ _)⟩
  | getCapabilities => exact ⟨_, rfl, steady_of_spine (opSpdmCaps_spine _ _)⟩
  | negotiateAlgorithms => exact ⟨_, rfl, steady_of_spine (opSpdmAlgs_spine _ _ _ _)⟩
  | getDigests => exact ⟨_, rfl, steady_of_spine (opSpdmDigests_spine _ _)⟩
  | getCertificate => exact ⟨_, rfl, steady_of_spine (opSpdmCert_spine _ _ _ _ _)⟩
  | challenge => exact ⟨_, rfl, steady_of_spine (opChallenge_spine _ _ _)⟩
  | getMeasurements => exact ⟨_, rfl, steady_of_spine (opMeasurements_spine _ _ _ _)⟩
  | spdmUnsupported => exact ⟨_, rfl, steady_of_spine (opSpdmOther_spine _ _)⟩
  | queryDeviceIdentifiers => exact ⟨_, rfl, steady_of_spine (opQueryIds_spine _ _)⟩
  | getFirmwareParameters => exact ⟨_, rfl, steady_of_spine (opFwParams_spine _ _)⟩
  | requestUpdate => exact ⟨_, rfl, steady_of_spine (opRequestUpdate_spine _ _)⟩
  | passComponentTable => exact ⟨_, rfl, steady_of_spine (opPassTable_spine _ _ _)⟩
  | updateComponent => exact ⟨_, rfl, steady_of_spine (opUpdateComponent_spine _ _ _ _)⟩
  | requestFirmwareData => exact ⟨_, rfl, steady_of_spine (opFwData_spine _ _ _)⟩
  | verifyComplete => exact ⟨_, rfl, steady_of_spine (opVerifyComplete_spine _)⟩
  | activateFirmware => exact ⟨_, rfl, steady_of_spine (opActivateFw_spine _ _)⟩
  | getStatus => exact ⟨_, rfl, steady_of_spine (opGetStatus_spine _ _)⟩
  | cancelUpdateComponent => exact ⟨_, rfl, steady_of_spine (opCancelComponent_spine _ _)⟩
  | cancelUpdate => exact ⟨_, rfl, steady_of_spine (opCancelUpdate_spine _ _)⟩
  | stageTimeout => exact ⟨_, rfl, steady_of_spine (opStageTimeout_spine _)⟩
  | flashWriteDone => exact ⟨_, rfl, steady_of_spine (opFlashDone_spine _)⟩
  | presentChange => exact ⟨_, rfl, steady_opPresent _ _ _⟩
  | standbyPowerGood => exact ⟨_, rfl, steady_opStandbyGood _ _⟩
  | feedAFail => exact ⟨_, rfl, steady_of_spine (opFeedAFail_spine _)⟩
  | feedAReturn => exact ⟨_, rfl, steady_of_spine (opFeedAReturn_spine _)⟩
  | efuseTrip => exact ⟨_, rfl, steady_opEfuseTrip _ _⟩
  | efuseReclose => exact ⟨_, rfl, steady_of_spine (opEfuseReclose_spine _ _)⟩
  | powerLoss => exact ⟨_, rfl, steady_opPowerLoss _⟩
  | powerWindowEnd => exact ⟨_, rfl, steady_of_spine (opWindowEnd_spine _)⟩
  | powerLimitWrite => exact ⟨_, rfl, steady_of_spine (opLimitWrite_spine _ _ _)⟩
  | throttleCWrite => exact ⟨_, rfl, steady_of_spine (opThrottleWrite_spine _ _ _)⟩
  | dockReqWrite => exact ⟨_, rfl, steady_of_spine (opDockReq_spine _ _ _ _)⟩
  | deckDock => exact ⟨_, rfl, steady_of_spine (opDeckDock_spine _ _)⟩
  | deckWake => exact ⟨_, rfl, steady_of_spine (opDeckWake_spine _ _)⟩
  | dockIdleExpire => exact ⟨_, rfl, steady_of_spine (opDockIdle_spine _ _)⟩
  | standbyReqWrite => exact ⟨_, rfl, steady_of_spine (opStandbyReq_spine _ _ _)⟩
  | moduleStandbyEnter => exact ⟨_, rfl, steady_of_spine (opStandbyEnter_spine _)⟩
  | rampWindow => exact ⟨_, rfl, steady_of_spine (opRampWindow_spine _)⟩
  | rowPark => exact ⟨_, rfl, steady_of_spine (opRowPark_spine _ _ _)⟩
  | dieTempSample => exact ⟨_, rfl, steady_opDieSample _ _ _⟩
  | thermalWindowEnd => exact ⟨_, rfl, steady_opThermalEnd _⟩
  | cmdpLockstepDiverge => exact ⟨_, rfl, steady_of_spine (opLockstep_spine _)⟩
  | spadScrubUnit => exact ⟨_, rfl, steady_of_spine (opSpadScrub_spine _ _ _ _)⟩
  | spadScrubLate => exact ⟨_, rfl, steady_of_spine (opSpadLate_spine _ _)⟩
  | swrstCtx | swrstCompute | swrstFull | swrstCmdpRestart | swrstModuleWarm =>
    exact ⟨_, rfl, steady_of_spine (opSwrst_spine _ _ _ _)⟩
  | swrstEngine => exact ⟨_, rfl, steady_of_spine (opSwrstEngine_spine _ _ _ _ _)⟩
  | swrstEth => exact ⟨_, rfl, steady_of_spine (opSwrstEth_spine _ _ _)⟩
  | cmdpRestartTimeout => exact ⟨_, rfl, steady_of_spine (opCmdpTimeout_spine _)⟩
  | resetComplete => exact ⟨_, rfl, steady_of_spine (opResetComplete_spine _ _)⟩
  | resetTimeLimit => exact ⟨_, rfl, steady_of_spine (opResetLimit_spine _ _)⟩
  | mrst => exact ⟨_, rfl, steady_of_spine (opMrst_spine _ _ _)⟩
  | releaseStep => exact ⟨_, rfl, steady_of_spine (opRelease_spine _ _)⟩
  | watchdogExpire => exact ⟨_, rfl, steady_of_spine (opWatchdog_spine _ _ _)⟩
  | shutdownRecovery => exact ⟨_, rfl, steady_of_spine (opShutdownRecovery_spine _ _)⟩
  | pwrcycTimeout => exact ⟨_, rfl, steady_of_spine (opPwrcycTimeout_spine _)⟩
  | rstLegacyWarm => exact ⟨_, rfl, steady_of_spine (opLegacyWarm_spine _ _ _)⟩
  | legacyWindowExpire => exact ⟨_, rfl, steady_of_spine (opLegacyExpire_spine _)⟩
  | registerWrite => exact ⟨_, rfl, steady_of_spine (opRegWrite_spine _ _ _ _)⟩
  | chunkReady => exact ⟨_, rfl, steady_of_spine (ite_spine rfl (opChunkReadErr_spine _ _ _ _ _))⟩
  | powerSample => exact ⟨_, rfl, steady_of_spine (opPowerSample_spine _ _ _ _ _ _)⟩
  | powerOn => exact ⟨_, rfl, steady_opPowerOn _⟩
  | fibreConnectorRemove => exact ⟨_, rfl, steady_of_spine (opFibreRemove_spine _ _)⟩
  | laneSignal => exact ⟨_, rfl, steady_of_spine (opLaneSignal_spine _ _)⟩
  | idleFrameReceive => exact ⟨_, rfl, steady_of_spine (opIdleFrame_spine _ _ _)⟩
  | rcRegisterRead => exact ⟨_, rfl, steady_of_spine (opRegRead_spine _ _ _)⟩
  | entdaa => exact ⟨_, rfl, steady_of_spine (opEntdaa_spine _ _)⟩
  | congestionNotificationPacket => exact ⟨_, rfl, steady_of_spine (opCnp_spine _ _)⟩
  | priorityFlowControlFrame => exact ⟨_, rfl, steady_of_spine (opPfc_spine _ _ _)⟩
  | cxlLinkTrained => exact ⟨_, rfl, steady_of_spine (opCxlTrained_spine _ _ _ _)⟩

/-! ### A tick (log entry 4) -/

theorem resetIfDue_spine (s : State) : spine (resetIfDue s) = spine s := by
  unfold resetIfDue
  (repeat' split) <;> simp only [moduleReset_spine, modRst_spine]

theorem idleTick_spine (s : State) : spine (idleTick s) = spine (tick s) := by
  unfold idleTick
  dsimp only
  split
  · exact (foldl_spine _ opScrubLate_spine _ _).trans ((foldl_spine _ (fun s d => modDeck_spine s d deckSecond) _ _).trans
      ((resetIfDue_spine _).trans (sailAll_spine _)))
  · exact (resetIfDue_spine _).trans (sailAll_spine _)

/-- Only ports, the router, Churn and what leaves the module differ. -/
def sailFrame (s t : State) : Prop := t = { s with ports := t.ports, net := t.net, churn := t.churn, out := t.out }

theorem sailFrame_refl (s : State) : sailFrame s s := rfl

theorem sailFrame_trans {a b c : State} (h1 : sailFrame a b) (h2 : sailFrame b c) : sailFrame a c := by
  unfold sailFrame at *
  rw [h2, h1]

theorem sailFrame_modPort (s : State) (p : Nat) (f : Port → Port) : sailFrame s (modPort s p f) := rfl

theorem sailFrame_sendOut (s : State) (p : Nat) (pk : Packet) : sailFrame s (sendOut s p pk) := by
  unfold sendOut sendFrame
  dsimp only
  (repeat' split) <;> rfl

theorem sailFrame_sendItem (s : State) (p : Nat) (x : SailRun) (i : SailItem) : sailFrame s (sendItem p x s i) :=
  sailFrame_trans (sailFrame_sendOut s p _) rfl

theorem sailFrame_drainSail (fuel : Nat) (p : Nat) (s : State) : sailFrame s (drainSail fuel p s) := by
  induction fuel generalizing s with
  | zero => exact sailFrame_refl s
  | succ k ih =>
    unfold drainSail
    split
    · exact sailFrame_refl s
    · split
      · exact sailFrame_refl s
      · split
        · exact sailFrame_refl s
        · exact sailFrame_trans (sailFrame_trans (sailFrame_sendItem s p _ _) (sailFrame_modPort _ p _)) (ih _)

theorem sailFrame_sailTick (s : State) (p : Nat) : sailFrame s (sailTick s p) := by
  unfold sailTick
  split
  · exact sailFrame_refl s
  · have hdrain := fun (t : State) (n : Nat) (f : Port → Port) => sailFrame_trans (sailFrame_modPort t p f) (sailFrame_drainSail n p _)
    dsimp only
    split
    · exact sailFrame_trans (hdrain s _ _) (sailFrame_modPort _ p _)
    · exact hdrain s _ _

/-- Sailings leave decks and resets as they are. -/
theorem sailFrame_sailAll (s : State) : sailFrame s (sailAll s) :=
  List.foldlRecOn (motive := sailFrame s) _ sailTick (sailFrame_refl s) (fun t ht p _ => sailFrame_trans ht (sailFrame_sailTick t p))

/-- The stack memory of every deck. -/
def deckMems (s : State) (d : Nat) : Cells := (deckAt s d).mem

theorem deckMems_modDeck (s : State) (d : Nat) {f : Deck → Deck} (hf : ∀ k, (f k).mem = k.mem) :
    deckMems (modDeck s d f) = deckMems s := by
  funext e
  unfold deckMems
  by_cases he : e = d
  · rw [he, deckAt_modDeck, hf]
  · rw [modDeck, deckAt_setDeck_other _ _ _ _ he]

theorem deckSecond_mem (k : Deck) : (deckSecond k).mem = k.mem := by
  unfold deckSecond
  split
  · rfl
  · refine (foldl_keeps Deck.mem _ (fun k i => ?_) _ _).trans rfl
    rfl

theorem deckMems_modStk (s : State) (st : Nat) (f : Stack → Stack) : deckMems (modStk s st f) = deckMems s :=
  deckMems_modDeck s (st / 4) (f := fun k => modStack k (st % 4) f) (fun _ => rfl)

theorem deckMems_opScrubLate (s : State) (st : Nat) : deckMems (opScrubLate s st) = deckMems s := by
  unfold opScrubLate
  dsimp only
  split
  · exact deckMems_modStk s st _
  · rfl

/-- A tick while no module reset is due leaves the decks' stack memory as it is. -/
theorem deckMems_idleTick (s : State) (h : s.rst.resetDue = none) : deckMems (idleTick s) = deckMems s := by
  have hsail : sailFrame (tick s) (sailAll (tick s)) := sailFrame_sailAll (tick s)
  have hdue : (sailAll (tick s)).rst.resetDue = none := by
    rw [hsail]
    exact h
  have hreset : resetIfDue (sailAll (tick s)) = sailAll (tick s) := by
    unfold resetIfDue
    rw [hdue]
  have hmems : deckMems (sailAll (tick s)) = deckMems s := by
    rw [hsail]
    rfl
  unfold idleTick
  dsimp only
  rw [hreset]
  split
  · exact (foldl_keeps deckMems _ deckMems_opScrubLate _ _).trans
      ((foldl_keeps deckMems _ (fun t d => deckMems_modDeck t d deckSecond_mem) _ _).trans hmems)
  · exact hmems

end Sys2Proof.Machine
end

section
/-! SETTLED. The queue, the clock, the safety latch: what every step does (O1, O2, O3, O59, O60). -/
namespace Sys2Proof.Machine
open Sys2Proof

/-- Settles O59: a tick and every command but STANDBY_POWER_LOSS leave the module steady; that one comes up Off. -/
theorem theSafetyLatchHolds : Obligations.TheSafetyLatchHolds := by
  unfold Obligations.TheSafetyLatchHolds
  intro s t ht
  unfold step at ht
  split at ht
  case h_1 =>
    cases ht
    have hsteady : Steady (tick s) (idleTick s) := steady_of_spine (idleTick_spine s)
    exact ⟨fun h _ => hsteady.latch h, hsteady.off⟩
  case h_2 c rest hpending =>
    by_cases hc : c = .standbyPowerLoss
    · subst hc
      cases ht
      exact ⟨fun _ hne => absurd (congrArg List.head? hpending) hne, fun _ => rfl⟩
    · obtain ⟨u, hu, hsteady⟩ := exec_steady c hc { s with pending := rest }
      cases hu.symm.trans ht
      exact ⟨fun h _ => hsteady.latch h, hsteady.off⟩

/-- Settles O60: `exec_steady`, and the loss of standby power carries queue and clock over. -/
theorem noCommandTouchesTheQueue : Obligations.NoCommandTouchesTheQueue := by
  unfold Obligations.NoCommandTouchesTheQueue
  intro c s t ht
  by_cases hc : c = .standbyPowerLoss
  · subst hc
    cases ht
    exact ⟨rfl, rfl⟩
  · obtain ⟨u, hu, hsteady⟩ := exec_steady c hc s
    cases hu.symm.trans ht
    exact ⟨hsteady.queue, hsteady.clock⟩

/-- Settles O1: a step takes the front command off the queue again. -/
theorem stepRunsTheFrontCommand : Obligations.StepRunsTheFrontCommand := by
  unfold Obligations.StepRunsTheFrontCommand
  intro s c
  rfl

/-- Settles O2: what a tick does after `tick` itself leaves queue and clock, and no memory but a due reset's is touched. -/
theorem emptyQueueTicks : Obligations.EmptyQueueTicks := by
  unfold Obligations.EmptyQueueTicks
  intro s hs
  have hsteady : Steady (tick s) (idleTick s) := steady_of_spine (idleTick_spine s)
  refine ⟨idleTick s, ?_, hsteady.queue.trans hs, hsteady.clock, fun hdue d a => ?_⟩
  · unfold step
    rw [hs]
  · have hmem : (deckAt (idleTick s) d).mem = (deckAt s d).mem := congrFun (deckMems_idleTick s hdue) d
    rw [deckByte, hmem, deckByte]

/-- Settles O3: each command's arm ends in a next state. -/
theorem everyCommandAnswers : Obligations.EveryCommandAnswers := by
  unfold Obligations.EveryCommandAnswers
  intro c s
  by_cases hc : c = .standbyPowerLoss
  · exact ⟨opStandbyLoss s, hc ▸ rfl⟩
  · obtain ⟨t, ht, -⟩ := exec_steady c hc s
    exact ⟨t, ht⟩

end Sys2Proof.Machine
end

section
/-! SUPPORT. The dock and Standby, ramp windows, die temperature, the safety functions and the scratchpad scrubber. -/

namespace Sys2Proof.Machine
open Sys2Proof

/-! ### Folds over the entries of a map -/

/-- Rebuilding every entry of a map by a function that keeps the default rebuilds each reading. -/
theorem mapGet_mapValues {α : Type} (z : α) (f : α → α) (hf : f z = z) (m : SMap α) (i : Nat) :
    mapGet z (m.map (fun e => (e.1, f e.2))) i = f (mapGet z m i) := by
  induction m with
  | nil => exact hf.symm
  | cons e rest ih =>
    obtain ⟨j, v⟩ := e
    simp only [List.map_cons, mapGet]
    split
    · rfl
    · exact ih

/-- `m` with the entries of a list of keys changed in turn. -/
def modKeys {α : Type} [DecidableEq α] (z : α) (f : α → α) (is : List Nat) (m : SMap α) : SMap α :=
  is.foldl (fun m i => mapSet z m i (f (mapGet z m i))) m

theorem mapGet_modKeys {α : Type} [DecidableEq α] (z : α) (f : α → α) (is : List Nat) (hn : is.Nodup) (m : SMap α) (j : Nat) :
    mapGet z (modKeys z f is m) j = if j ∈ is then f (mapGet z m j) else mapGet z m j := by
  induction is generalizing m with
  | nil => rfl
  | cons i rest ih =>
    obtain ⟨hi, hrest⟩ := List.nodup_cons.1 hn
    rw [modKeys, List.foldl_cons]
    refine (ih hrest _).trans ?_
    rw [mapGet_set]
    by_cases hj : j = i
    · rw [if_neg (hj ▸ hi), if_pos hj, if_pos (hj ▸ List.mem_cons_self), hj]
    · simp only [List.mem_cons, hj, false_or, if_false]

theorem foldl_modStack (f : Stack → Stack) (is : List Nat) (k : Deck) :
    is.foldl (fun k i => modStack k i f) k = { k with stks := modKeys {} f is k.stks } := by
  induction is generalizing k with
  | nil => rfl
  | cons i rest ih => exact ih (modStack k i f)

theorem foldl_modDeck (f : Deck → Deck) (ds : List Nat) (s : State) :
    ds.foldl (fun s d => modDeck s d f) s = { s with decks := modKeys {} f ds s.decks } := by
  induction ds generalizing s with
  | nil => rfl
  | cons d rest ih => exact ih (modDeck s d f)

/-! ### Dock and Standby (R496 to R500) -/

/-- A docked deck: its memory stands, its cores and its sync unit are cleared. -/
theorem enterDock_spec (k : Deck) : (enterDock k).power = .dock ∧ (enterDock k).mem = k.mem ∧ (enterDock k).objs = [] ∧
    (enterDock k).alarms = [] ∧ (enterDock k).tallies = [] ∧ (∀ g, (groupAt (enterDock k) g).alloc = false) ∧
    ∀ i, (coreAt (enterDock k) i).s = [] := by
  unfold enterDock
  rw [foldl_modStack]
  refine ⟨rfl, rfl, rfl, rfl, rfl, fun _ => rfl, fun i => ?_⟩
  exact congrArg Core.s (mapGet_mapValues ({} : Core) clearCoreK1 rfl k.cores i)

/-- A docked deck that wakes: Run, its stacks out of self-refresh. -/
def deckUp (k : Deck) : Deck :=
  (List.range 4).foldl (fun k i => modStack k i (fun x => { x with selfRefresh := false }))
    { k with power := .run, scrubRun := 0, scrubStart := [] }

theorem deckUp_spec (k : Deck) : (deckUp k).power = .run ∧ (deckUp k).mem = k.mem ∧
    ∀ i, i < 4 → (stackAt (deckUp k) i).selfRefresh = false := by
  unfold deckUp
  rw [foldl_modStack]
  refine ⟨rfl, rfl, fun i hi => ?_⟩
  rw [stackAt, mapGet_modKeys _ _ _ List.nodup_range, if_pos (List.mem_range.2 hi)]

section
variable {s : State} {d : Nat}

theorem opDeckWake_wakes (hp : (deckAt s d).power = .waking) (hr : (deckAt s d).reset = .none) (hb : s.host.binds = []) :
    opDeckWake s d = setDeck s d (deckUp (deckAt s d)) :=
  (if_pos ⟨hp, hr⟩).trans (serveBinds_none _ hb)

theorem opDockIdle_docks (hu : (deckAt s d).unboundAt + 1000000 * s.power.dockIdleMs.toNat ≤ clockNs s) (hl : deckLd s d = none)
    (hc : (deckAt s d).clearing = false) (hb : s.host.binds = []) (hd : dockable s d = true) :
    opDockIdle s d = modDeck s d enterDock := by
  simp [opDockIdle, hu, hl, hc, hb, hd]

theorem opDockIdle_waits (hu : clockNs s < (deckAt s d).unboundAt + 1000000 * s.power.dockIdleMs.toNat) : opDockIdle s d = s := by
  simp [opDockIdle, Nat.not_le.2 hu]

end

theorem opStandbyEnter_docked {s : State} (hreq : s.power.standbyReq = true) (hm : s.power.moduleState = 0)
    (hd : ∀ e, e < 8 → (deckAt s e).power = .dock) : opStandbyEnter s =
      { s with decks := modKeys {} enterDock (List.range 8) s.decks, power := { s.power with moduleState := 1 } } := by
  have hall : (List.range 8).all (fun d => decide ((deckAt s d).power = .dock)) = true :=
    List.all_eq_true.2 fun e he => decide_eq_true (hd e (List.mem_range.1 he))
  unfold opStandbyEnter
  rw [if_pos ⟨hreq, hm, hall⟩]
  dsimp only
  rw [foldl_modDeck, setPower]

/-! ### Ramps (R502, R503) -/

/-- A row of a deck that a ramp window admits. -/
def admitRow (s : State) (x : Nat) : State :=
  modDeck s (x / 16) (fun k =>
    { k with admitted := setBit k.admitted (x % 16) true, rampRows := setBit k.rampRows (x % 16) false })

theorem admitRow_admits (s : State) (d r : Nat) (hr : r < 13) : (deckAt (admitRow s (16 * d + r)) d).admitted.getLsbD r = true := by
  have hdiv : (16 * d + r) / 16 = d := by omega
  have hmod : (16 * d + r) % 16 = r := by omega
  rw [admitRow, hdiv, hmod, deckAt_modDeck]
  exact getLsbD_setBit_same _ r true hr

theorem admitRow_keeps (s : State) (x d r : Nat) (h : (deckAt s d).admitted.getLsbD r = true) :
    (deckAt (admitRow s x) d).admitted.getLsbD r = true := by
  by_cases hd : d = x / 16
  · rw [admitRow, hd, deckAt_modDeck]
    by_cases hr : r = x % 16
    · have hlt : r < 13 := BitVec.lt_of_getLsbD h
      rw [hr] at hlt ⊢
      exact getLsbD_setBit_same _ _ true hlt
    · exact (getLsbD_setBit_other _ _ _ _ hr).trans (hd ▸ h)
  · rw [admitRow, modDeck, deckAt_setDeck_other _ _ _ _ hd, h]

theorem foldl_admitRow_admits (xs : List Nat) (s : State) (d r : Nat) (hr : r < 13) (h : 16 * d + r ∈ xs) :
    (deckAt (xs.foldl admitRow s) d).admitted.getLsbD r = true := by
  induction xs generalizing s with
  | nil => exact absurd h List.not_mem_nil
  | cons x rest ih =>
    rw [List.foldl_cons]
    by_cases hx : 16 * d + r = x
    · exact List.foldlRecOn (motive := fun t => (deckAt t d).admitted.getLsbD r = true) rest admitRow
        (hx ▸ admitRow_admits s d r hr) (fun t ht y _ => admitRow_keeps t y d r ht)
    · exact ih _ ((List.mem_cons.1 h).resolve_left hx)

theorem foldl_admitRow_decks (xs : List Nat) (s : State) : xs.foldl admitRow s = { s with decks := (xs.foldl admitRow s).decks } :=
  List.foldlRecOn (motive := fun t : State => t = { s with decks := t.decks }) xs admitRow rfl (fun t ht x _ => by
    rw [admitRow, modDeck, setDeck, ht])

/-- The rows that this window admits, in the governor's order. -/
def rowsNow (s : State) : List Nat := (rampOrder s.power.waitRows).take 12

theorem opRampWindow_eq (s : State) : opRampWindow s = { s with
    decks := ((rowsNow s).foldl admitRow s).decks,
    power := { s.power with waitRows := s.power.waitRows.filter (fun x => !(rowsNow s).contains x) } } := by
  have h : opRampWindow s = setPower ((rowsNow s).foldl admitRow s) { ((rowsNow s).foldl admitRow s).power with
    waitRows := ((rowsNow s).foldl admitRow s).power.waitRows.filter (fun x => !(rowsNow s).contains x) } := rfl
  rw [h, foldl_admitRow_decks, setPower]

theorem opRowPark_idle {s : State} {d row : Nat} (h : ∀ e ∈ (deckAt s d).cores, coreRow (deckAt s d) e.1 = row → e.2.vq = [] ∧ e.2.mq = []) :
    opRowPark s d row = modDeck s d (fun k => { k with admitted := setBit k.admitted row false }) := by
  refine if_neg fun hbusy => ?_
  obtain ⟨e, he, hc⟩ := List.any_eq_true.1 hbusy
  obtain ⟨hrow, hwork⟩ := Bool.and_eq_true_iff.1 hc
  obtain ⟨hv, hq⟩ := h e he (eq_of_beq hrow)
  rw [hv, hq] at hwork
  exact absurd hwork (by decide)

/-! ### Die temperature (R506 to R509) -/

theorem dieReadings_one (n : Nat) (a : BitVec 8) : dieReadings n [some a] = [some a] := by
  unfold dieReadings
  split <;> rfl

theorem dieAfter_one (x : Die) (throttle : Nat) (a : BitVec 8) : (dieAfter x throttle [some a]).temp = a := rfl

/-- A deck that is not cool notes the time. -/
theorem noteHeat_frame (s : State) (d : Nat) : noteHeat s d = { s with decks := (noteHeat s d).decks } ∧
    ∀ e, deckAt (noteHeat s d) e = { deckAt s e with hotAt := (deckAt (noteHeat s d) e).hotAt } := by
  unfold noteHeat
  split
  · exact ⟨rfl, fun _ => rfl⟩
  · refine ⟨rfl, fun e => ?_⟩
    by_cases he : e = d
    · rw [he, deckAt_modDeck]
    · rw [modDeck, deckAt_setDeck_other _ _ _ _ he]

/-- One reading that did not fail: recorded, and the time of a deck that is not cool. -/
theorem dieRead_one (s : State) (n : Nat) (a : BitVec 8) :
    let x := dieAfter (mapGet {} s.thermal.dies n) s.thermal.throttleC.toNat [some a]
    let t := dieRead s n [some a]
    t = { s with thermal := { s.thermal with dies := mapSet {} s.thermal.dies n x }, decks := t.decks } ∧
    ∀ e, deckAt t e = { deckAt s e with hotAt := (deckAt t e).hotAt } := by
  intro x t
  let s0 := { s with thermal := { s.thermal with dies := mapSet {} s.thermal.dies n x } }
  have ht : t = if n < 8 then noteHeat s0 n else s0 := by
    simp only [t, dieRead, dieReadings_one]
    rfl
  obtain ⟨hframe, hdeck⟩ := noteHeat_frame s0 n
  rw [ht]
  split
  · exact ⟨hframe, hdeck⟩
  · exact ⟨rfl, fun _ => rfl⟩

theorem dieTrips_calm {a : BitVec 8} (ha : a.toInt ≤ 115) (x : Die) : dieTrips x [some a] = false := by
  have hcool : ¬ 115 < a.toInt := Int.not_lt.2 ha
  cases hx : x.hot <;> simp [dieTrips, hotNow, hcool, hx]

theorem dieTrips_twice {a : BitVec 8} (ha : 115 < a.toInt) {x : Die} (hx : x.hot = [true]) : dieTrips x [some a] = true := by
  simp [dieTrips, hotNow, ha, hx]

/-! ### A deck's Shutdown (R326, R508) -/

theorem churnFrame_safety {s t : State} (h : churnFrame s t) : t.safety = s.safety := by rw [h]

theorem resetColls_safety (s : State) (d : Nat) (p : BitVec 4 → Bool) : (resetColls s d p).safety = s.safety := by
  refine foldl_keeps (fun s : State => s.safety) _ (fun t c => ?_) _ s
  have hput : (putColl t { c with silent := true }).safety = t.safety := churnFrame_safety (churnFrame_putColl t _)
  dsimp only
  split
  · exact hput
  · exact (churnFrame_safety (churnFrame_trans (churnFrame_tellLocal _ _ _) (churnFrame_flood _ _ _ _ _))).trans hput

theorem deckAt_rstEvent (s : State) (n d : Nat) : deckAt (rstEvent s n) d = deckAt s d := rfl

/-- The deck as its Shutdown leaves it: its memory lost. -/
theorem deckShutdown_spec (s : State) (d : Nat) : (deckAt (deckShutdown s d) d).power = .shutdown ∧
    (deckAt (deckShutdown s d) d).mem = [] ∧ (deckShutdown s d).safety = s.safety := by
  unfold deckShutdown
  extract_lets now ts l s1 s2 out s3 s4 s5
  have hpost : hostFrame s4 s5 := hostFrame_postDeck s4 d stIsolated _ 0
  have hput : hostFrame (setDeck s1 d (stopDeck (deckAt s1 d)).1) (putDeck s1 d (stopDeck (deckAt s1 d))) :=
    putDeck_replies s1 d _ (tame_stopDeck _).2
  have hcause : s1.safety = s.safety := rfl
  have hdeck : deckAt s5 d = { deckAt s2 d with power := .shutdown, mem := [], memBad := [], latent := [], hotAt := now,
                                                outOfService := out (deckAt s2 d) } := by
    rw [hostFrame_deckAt hpost, deckAt_modRst, deckAt_modDeck]
  have hsafety : s5.safety = s.safety := by
    calc s5.safety = s4.safety := hostFrame_safety hpost
      _ = s3.safety := modRst_safety s3 _
      _ = s2.safety := modDeck_safety s2 d _
      _ = (putDeck s1 d (stopDeck (deckAt s1 d))).safety := resetColls_safety (putDeck s1 d (stopDeck (deckAt s1 d))) d (fun _ => true)
      _ = (setDeck s1 d (stopDeck (deckAt s1 d)).1).safety := hostFrame_safety hput
      _ = s1.safety := setDeck_safety s1 d _
      _ = s.safety := hcause
  clear_value s5
  split
  · rw [deckAt_rstEvent, hdeck]
    exact ⟨rfl, rfl, hsafety⟩
  · rw [hdeck]
    exact ⟨rfl, rfl, hsafety⟩

section
variable {s : State} {n : Nat} {a : BitVec 8}

theorem opDieSample_calm (hm : s.power.moduleState ≠ 2) (ha : a.toInt ≤ 115) : opDieSample s n [some a] = dieRead s n [some a] := by
  rw [opDieSample_powered hm, dieReadings_one, dieTrips_calm ha]
  rfl

theorem opDieSample_hotHub (hm : s.power.moduleState ≠ 2) (ha : 115 < a.toInt) (hx : (mapGet {} s.thermal.dies 8).hot = [true]) :
    opDieSample s 8 [some a] = safeState (safetyAct (thmEvent (dieRead s 8 [some a]) 2) 3) 3 := by
  rw [opDieSample_powered hm, dieReadings_one, dieTrips_twice ha hx]
  rfl

theorem opDieSample_hotDeck (hm : s.power.moduleState ≠ 2) (ha : 115 < a.toInt) (hx : (mapGet {} s.thermal.dies n).hot = [true])
    (hn : n < 8) (hp : (deckAt s n).power ≠ .shutdown) :
    opDieSample s n [some a] = deckShutdown (safetyAct (thmEvent (dieRead s n [some a]) 1) 2) n := by
  have hpower : (deckAt (dieRead s n [some a]) n).power ≠ .shutdown := by
    rw [(dieRead_one s n a).2 n]
    exact hp
  rw [opDieSample_powered hm, dieReadings_one, dieTrips_twice ha hx, if_neg (by decide), if_neg (Nat.ne_of_lt hn), if_neg hpower]

end

theorem safetyAct_event (s : State) (c : Nat) (hc : c < 16) : (safetyAct s c).safety.events.getLsbD c = true :=
  getLsbD_setBit_same _ c true hc

/-! ### The end of a thermal window (R507) -/

theorem thermalDuty_toNat (x : Die) : (thermalDuty x).toNat = if x.above then (if x.duty.toNat ≤ 4 then 4 else x.duty.toNat - 1)
    else if x.notBelow = false ∧ x.duty.toNat < 16 then x.duty.toNat + 1 else x.duty.toNat := by
  have h := x.duty.isLt
  unfold thermalDuty
  split
  · split
    · rfl
    · bv_omega
  · split
    · bv_omega
    · rfl

theorem thmEvent_dies (s : State) (n : Nat) : (thmEvent s n).thermal.dies = s.thermal.dies := rfl

theorem safetyAct_thermal (s : State) (c : Nat) : (safetyAct s c).thermal = s.thermal := rfl

theorem safeState_thermal (s : State) (c : Nat) : (safeState s c).thermal = s.thermal := rfl

theorem windowClosed_die (s : State) {d : Nat} (hd : d < 9) :
    mapGet {} (windowClosed s).thermal.dies d = dieBoundary d (mapGet {} s.thermal.dies d) := by
  have hdies : (windowClosed s).thermal.dies =
      (List.range 9).foldl (fun m n => mapSet {} m n (dieBoundary n (mapGet {} s.thermal.dies n))) [] := by
    unfold windowClosed
    dsimp only
    rw [List.foldl_map]
    (repeat' split) <;> rfl
  rw [hdies, mapGet_foldl_mapSet, if_pos (List.mem_range.2 hd)]

theorem opThermalEnd_dies {s : State} (hm : s.power.moduleState ≠ 2) : (opThermalEnd s).thermal.dies = (windowClosed s).thermal.dies := by
  rw [opThermalEnd_powered hm]
  split
  · rw [safeState_thermal, safetyAct_thermal, thmEvent_dies]
  · rfl

/-! ### Safety functions and the scratchpad scrubber (R511, R514, R515) -/

theorem opThrottleWrite_mgc (s : State) (v : BitVec 64) :
    (opThrottleWrite s .mgc v).thermal.throttleC.toNat = max 85 (min 110 (v.toNat % 256)) := by
  have hv : (opThrottleWrite s .mgc v).thermal.throttleC = BitVec.ofNat 8 (clip 85 110 (bits v.toNat 0 8)) := rfl
  rw [hv, bits_zero, clip_eq _ _ _ (by decide), BitVec.toNat_ofNat]
  omega

theorem opThrottleWrite_other {a : Agent} (ha : a ≠ .mgc) (s : State) (v : BitVec 64) : opThrottleWrite s a v = unsupported s a := by
  cases a with
  | mgc => exact absurd rfl ha
  | fw => rfl
  | host l => rfl

/-- With no LD there is no command to answer as busy. -/
theorem busyAll_noLds {s : State} (h : s.host.lds = []) : busyAll s = s := by rw [busyAll, h]; rfl

/-- What a lockstep divergence does before detector 10 acts. -/
def diverged (s : State) : State :=
  modRst (busyAll (safetyAct { s with safety := { s.safety with diverge := satInc s.safety.diverge } } 7))
    (fun r => { r with cmdpStopped := true })

theorem opLockstep_counts {s : State} (hl : s.host.lds = []) (ha : actionOf s 10 = 0) :
    opLockstep s = counted (modRst (safetyAct { s with safety := { s.safety with diverge := satInc s.safety.diverge } } 7)
      (fun r => { r with cmdpStopped := true })) 10 := by
  have hbusy := busyAll_noLds (s := safetyAct { s with safety := { s.safety with diverge := satInc s.safety.diverge } } 7) hl
  have ha' : actionOf (diverged s) 10 = 0 := by
    rw [diverged, hbusy]
    exact ha
  refine (fireDetector_count (diverged s) 10 none none [] ha').trans ?_
  rw [diverged, hbusy]

/-- The core after the scrubber's finding at unit `u`. -/
def scrubbed (x : Core) (u : Nat) : SpadFinding → Core
  | .uncorrectable => { x with spadBad := mapSet false x.spadBad u true }
  | .corrected => { x with spadCe := x.spadCe + 1 }
  | .clean => x

/-- The deck after core `i`'s scrubber has read its unit. -/
def scrubDeck (k : Deck) (i : Nat) (r : SpadFinding) : Deck :=
  let u := mapGet 0 k.scrubPos i
  let k1 := setCore k i (scrubbed (coreAt k i) u r)
  { k1 with scrubPos := mapSet 0 k1.scrubPos i (if decide (u + 1 = 8192) then 0 else u + 1),
            scrubStart := if decide (u + 1 = 8192) then mapSet 0 k1.scrubStart i k1.scrubRun else k1.scrubStart }

theorem opSpadScrub_eq (s : State) (d i : Nat) (r : SpadFinding) : opSpadScrub s d i r =
    if r = .uncorrectable then fireDetector (setDeck s d (scrubDeck (deckAt s d) i r)) 7 (some d) (coreAt (scrubDeck (deckAt s d) i r) i).lastCtx [i]
    else setDeck s d (scrubDeck (deckAt s d) i r) := by
  cases r with
  | uncorrectable =>
    rw [if_pos rfl]
    have hcore : coreAt (scrubDeck (deckAt s d) i .uncorrectable) i =
      scrubbed (coreAt (deckAt s d) i) (mapGet 0 (deckAt s d).scrubPos i) .uncorrectable := coreAt_setCore _ i _
    rw [hcore]
    rfl
  | corrected => rfl
  | clean => rfl

theorem coreAt_scrubDeck (k : Deck) (i : Nat) (r : SpadFinding) :
    coreAt (scrubDeck k i r) i = scrubbed (coreAt k i) (mapGet 0 k.scrubPos i) r := coreAt_setCore k i _

theorem scrubPos_scrubDeck (k : Deck) (i : Nat) (r : SpadFinding) :
    mapGet 0 (scrubDeck k i r).scrubPos i = if mapGet 0 k.scrubPos i = 8191 then 0 else mapGet 0 k.scrubPos i + 1 := by
  refine (mapGet_set_same _ _ _ _).trans ?_
  have hlast : mapGet 0 k.scrubPos i + 1 = 8192 ↔ mapGet 0 k.scrubPos i = 8191 := by omega
  simp only [decide_eq_true_eq, hlast]

theorem opSpadLate_late {s : State} {d : Nat} (h : 600 < spadAge (deckAt s d)) : opSpadLate s d = safetyAct s 10 := if_pos h

theorem opSpadLate_young {s : State} {d : Nat} (h : spadAge (deckAt s d) ≤ 600) : opSpadLate s d = s := if_neg (Nat.not_lt.2 h)


/-! ### DOCK_REQ (R497, R498) -/

section
variable {s : State} {a : Agent} {d : Nat}

theorem opDockReq_refused (v : Bool) (h : deckWriter s a d = false) : opDockReq s a d v = unsupported s a :=
  if_neg (by rw [h]; exact Bool.false_ne_true)

theorem opDockReq_granted (v : Bool) (h : deckWriter s a d = true) : opDockReq s a d v = modDeck s d (fun k =>
    { k with dockReq := v, power := if v = false ∧ k.power = .dock then .waking else k.power }) := if_pos h

theorem opDeckDock_docks (hr : (deckAt s d).dockReq = true) (hd : dockable s d = true) : opDeckDock s d = modDeck s d enterDock :=
  if_pos (by rw [hr, hd]; rfl)

end

theorem opStandbyReq_on (s : State) : opStandbyReq s .mgc true = { s with power := { s.power with standbyReq := true } } := by
  have hkeep : (if true = false ∧ s.power.moduleState = 1 then 0 else s.power.moduleState) = s.power.moduleState :=
    if_neg fun h => Bool.false_ne_true h.1.symm
  rw [opStandbyReq, hkeep, setPower]

/-- A deck that docks takes the module's other decks nowhere. -/
theorem modDeck_enterDock (s : State) (d : Nat) : onlyDeck s (modDeck s d enterDock) d ∧
    (deckAt (modDeck s d enterDock) d).power = .dock ∧ (deckAt (modDeck s d enterDock) d).mem = (deckAt s d).mem ∧
    (∀ i, (coreAt (deckAt (modDeck s d enterDock) d) i).s = []) ∧
    ∀ g, (groupAt (deckAt (modDeck s d enterDock) d) g).alloc = false := by
  obtain ⟨hpower, hmem, -, -, -, hgroups, hcores⟩ := enterDock_spec (deckAt s d)
  rw [deckAt_modDeck]
  exact ⟨modDeck_onlyDeck s d enterDock, hpower, hmem, hcores, hgroups⟩

/-- MODULE_STANDBY_ENTER with every deck docked: Standby, and each deck cleared as its dock clears it. -/
theorem opStandbyEnter_spec {s : State} {d : Nat} (hd : d < 8) (hreq : s.power.standbyReq = true) (hm : s.power.moduleState = 0)
    (hall : ∀ e, e < 8 → (deckAt s e).power = .dock) : ∃ m, opStandbyEnter s =
      { s with decks := m, power := { s.power with moduleState := 1 } } ∧ mapGet {} m d = enterDock (deckAt s d) := by
  refine ⟨_, opStandbyEnter_docked hreq hm hall, ?_⟩
  rw [mapGet_modKeys _ _ _ List.nodup_range, if_pos (List.mem_range.2 hd)]
  rfl

/-! ### What a temperature sample leaves (R506, R508, R509) -/

theorem dieRead_dies (s : State) (n : Nat) (a : BitVec 8) : (dieRead s n [some a]).thermal.dies =
    mapSet {} s.thermal.dies n (dieAfter (mapGet {} s.thermal.dies n) s.thermal.throttleC.toNat [some a]) := by
  rw [(dieRead_one s n a).1]

theorem dieRead_safety (s : State) (n : Nat) (a : BitVec 8) : (dieRead s n [some a]).safety = s.safety := by
  rw [(dieRead_one s n a).1]

/-- A reading at or below 115 °C is the die's reading, and the module goes on. -/
theorem dieRead_calm (s : State) (n : Nat) (a : BitVec 8) :
    let t := dieRead s n [some a]
    t = { s with thermal := t.thermal, decks := t.decks } ∧ (∀ e, deckAt t e = { deckAt s e with hotAt := (deckAt t e).hotAt }) ∧
    (mapGet {} t.thermal.dies n).temp = a ∧ ∀ j, j ≠ n → mapGet {} t.thermal.dies j = mapGet {} s.thermal.dies j := by
  intro t
  obtain ⟨hframe, hdecks⟩ := dieRead_one s n a
  have hdies := dieRead_dies s n a
  have hthermal : t.thermal = { s.thermal with
      dies := mapSet {} s.thermal.dies n (dieAfter (mapGet {} s.thermal.dies n) s.thermal.throttleC.toNat [some a]) } :=
    congrArg State.thermal hframe
  refine ⟨?_, hdecks, ?_, fun j hj => ?_⟩
  · rw [hthermal]
    exact hframe
  · rw [hdies, mapGet_set_same, dieAfter_one]
  · rw [hdies, mapGet_set_other _ _ _ _ _ hj]

section
variable {s : State} {n : Nat} {a : BitVec 8}

/-- The second hot sample of a deck's die: Shutdown, reported by safety function 2, the module's latch as it was. -/
theorem opDieSample_shutsDown (hm : s.power.moduleState ≠ 2) (ha : 115 < a.toInt) (hx : (mapGet {} s.thermal.dies n).hot = [true])
    (hn : n < 8) (hp : (deckAt s n).power ≠ .shutdown) : ∃ t, opDieSample s n [some a] = t ∧ (deckAt t n).power = .shutdown ∧
      (deckAt t n).mem = [] ∧ t.safety.events.getLsbD 2 = true ∧ t.safety.latched = s.safety.latched := by
  obtain ⟨hpower, hmem, hsafety⟩ := deckShutdown_spec (safetyAct (thmEvent (dieRead s n [some a]) 1) 2) n
  refine ⟨_, opDieSample_hotDeck hm ha hx hn hp, hpower, hmem, ?_, ?_⟩
  · rw [hsafety]
    exact safetyAct_event _ 2 (by decide)
  · rw [hsafety]
    calc (safetyAct (thmEvent (dieRead s n [some a]) 1) 2).safety.latched
      _ = (dieRead s n [some a]).safety.latched := rfl
      _ = s.safety.latched := congrArg Safety.latched (dieRead_safety s n a)

/-- The second hot sample of the hub's die: the safe state. -/
theorem opDieSample_safe (hm : s.power.moduleState ≠ 2) (ha : 115 < a.toInt) (hx : (mapGet {} s.thermal.dies n).hot = [true])
    (hn : n = 8) : ∃ t, opDieSample s n [some a] = t ∧ t.power.moduleState = 2 ∧ t.safety.latched = true ∧ t.safety.safeN = true := by
  subst hn
  obtain ⟨hstate, hlatched, hsafe, -⟩ := safeState_spec (safetyAct (thmEvent (dieRead s 8 [some a]) 2) 3) 3
  exact ⟨_, opDieSample_hotHub hm ha hx, hstate, hlatched, hsafe⟩

end

/-- The duty of a deck's die at the end of a window. -/
theorem opThermalEnd_die {s : State} {d : Nat} (hm : s.power.moduleState ≠ 2) (hd : d < 8) :
    (mapGet {} (opThermalEnd s).thermal.dies d).duty = thermalDuty (mapGet {} s.thermal.dies d) ∧
    (mapGet {} (opThermalEnd s).thermal.dies d).above = false := by
  rw [opThermalEnd_dies hm, windowClosed_die s (Nat.lt_succ_of_lt hd)]
  exact ⟨if_neg (Nat.ne_of_lt hd), rfl⟩

/-! ### What the scrubber leaves (R515) -/

/-- A clean or corrected unit: the scrubber moves on, a correction is counted. -/
theorem opSpadScrub_passes (s : State) (c : CoreRef) {f : SpadFinding} (hf : f = .clean ∨ f = .corrected) :
    let u := mapGet 0 (deckAt s c.deck).scrubPos c.core
    let t := opSpadScrub s c.deck c.core f
    onlyDeck s t c.deck ∧
    coreOf t c = (if f = .corrected then { coreOf s c with spadCe := (coreOf s c).spadCe + 1 } else coreOf s c) ∧
    mapGet 0 (deckAt t c.deck).scrubPos c.core = if u = 8191 then 0 else u + 1 := by
  intro u t
  have ht : t = setDeck s c.deck (scrubDeck (deckAt s c.deck) c.core f) := by
    refine (opSpadScrub_eq s c.deck c.core f).trans (if_neg ?_)
    rcases hf with rfl | rfl <;> decide
  rw [ht, coreOf, deckAt_setDeck, coreAt_scrubDeck]
  refine ⟨setDeck_onlyDeck s _ _, ?_, scrubPos_scrubDeck _ _ _⟩
  rcases hf with rfl | rfl <;> rfl

/-- An uncorrectable unit stays poisoned, its data as it is, and detector 7 counts. -/
theorem opSpadScrub_poisons (s : State) (c : CoreRef) (ha : actionOf s 7 = 0) :
    let u := mapGet 0 (deckAt s c.deck).scrubPos c.core
    let t := opSpadScrub s c.deck c.core .uncorrectable
    mapGet false (coreOf t c).spadBad u = true ∧ (coreOf t c).spad = (coreOf s c).spad ∧
    mapGet 0 t.rst.detCount 7 = satInc (mapGet 0 s.rst.detCount 7) := by
  intro u t
  have ht : t = counted (setDeck s c.deck (scrubDeck (deckAt s c.deck) c.core .uncorrectable)) 7 :=
    (opSpadScrub_eq s c.deck c.core .uncorrectable).trans (fireDetector_count _ 7 _ _ _ ha)
  have hcore : coreOf t c = scrubbed (coreOf s c) u .uncorrectable := by
    rw [ht]
    exact (congrArg (coreAt · c.core) (deckAt_setDeck s c.deck _)).trans (coreAt_scrubDeck _ _ _)
  rw [hcore, ht]
  exact ⟨mapGet_set_same false (coreOf s c).spadBad u true, rfl, mapGet_set_same 0 s.rst.detCount 7 _⟩

end Sys2Proof.Machine
end

section
/-! SETTLED. Dock, ramps, heat and safety functions (chapter 11). -/

namespace Sys2Proof.Machine
open Sys2Proof

/-- Settles O52: each command of the dock, the ramp, the temperature and the safety functions by the equation of its operation. -/
theorem dockRampsHeatAndSafetyFunctions : Obligations.DockRampsHeatAndSafetyFunctions := by
  unfold Obligations.DockRampsHeatAndSafetyFunctions
  intro s d k
  refine ⟨?refused, ?dockReq, ?deckDock, ?idleDocks, ?idleWaits, ?wake, ?standbyOn, ?standbyOff, ?standbyEnter, ?ramp, ?park, ?die,
    ?window, ?throttle, ?lockstep, ?scrub, ?late, ?young⟩
  case refused => exact fun a v h => congrArg done (opDockReq_refused v h)
  case dockReq =>
    intro a h
    refine ⟨⟨_, congrArg done (opDockReq_granted true h), rfl⟩, _, congrArg done (opDockReq_granted false h), modDeck_onlyDeck s d _, ?_⟩
    rw [deckAt_modDeck]
    refine ⟨rfl, ?_⟩
    simp only [true_and, k]
  case deckDock => exact fun hr hd => ⟨_, congrArg done (opDeckDock_docks hr hd), modDeck_enterDock s d⟩
  case idleDocks =>
    intro hu hl hc hb hd
    obtain ⟨honly, hpower, -⟩ := modDeck_enterDock s d
    exact ⟨_, congrArg done (opDockIdle_docks hu hl hc hb hd), honly, hpower⟩
  case idleWaits => exact fun h => congrArg done (opDockIdle_waits h)
  case wake =>
    intro hp hr hb
    obtain ⟨hrun, hmem, hrefresh⟩ := deckUp_spec (deckAt s d)
    refine ⟨_, congrArg done (opDeckWake_wakes hp hr hb), setDeck_onlyDeck s d _, ?_⟩
    rw [deckAt_setDeck]
    exact ⟨hrun, hmem, hrefresh⟩
  case standbyOn =>
    exact ⟨_, congrArg done (opStandbyReq_on s), rfl⟩
  case standbyOff =>
    refine ⟨opStandbyReq s .mgc false, rfl, rfl, fun h => ?_, fun h => ?_⟩
    · exact if_pos ⟨rfl, h⟩
    · exact if_neg fun hc => h hc.2
  case standbyEnter =>
    intro hreq hm hd
    obtain ⟨m, hstep, hdeck⟩ := opStandbyEnter_spec d.isLt hreq hm hd
    obtain ⟨hpower, hmem, hobjs, halarms, htallies, hgroups, -⟩ := enterDock_spec (deckAt s d)
    refine ⟨_, congrArg done hstep, rfl, ?_⟩
    rw [deckAt, hdeck]
    exact ⟨hpower, hmem, hobjs, halarms, htallies, hgroups⟩
  case ramp =>
    refine ⟨_, congrArg done (opRampWindow_eq s), rfl, fun r hr => foldl_admitRow_admits _ s d r r.isLt hr, fun x => ?_⟩
    simp only [List.mem_filter, Bool.not_eq_true', List.contains_eq_mem, decide_eq_false_iff_not, rowsNow]
  case park =>
    intro r h
    refine ⟨_, congrArg done (opRowPark_idle h), modDeck_onlyDeck s d _, ?_⟩
    rw [deckAt_modDeck]
    exact ⟨getLsbD_setBit_same _ r false r.isLt, fun j hj => getLsbD_setBit_other _ _ _ _ hj⟩
  case die =>
    intro n a hm x
    refine ⟨fun ha => ⟨_, congrArg done (opDieSample_calm hm ha), dieRead_calm s n a⟩, fun ha hx => ⟨fun hn hp => ?_, fun hn => ?_⟩⟩
    · obtain ⟨t, ht, hspec⟩ := opDieSample_shutsDown hm ha hx hn hp
      exact ⟨t, congrArg done ht, hspec⟩
    · obtain ⟨t, ht, hspec⟩ := opDieSample_safe hm ha hx hn
      exact ⟨t, congrArg done ht, hspec⟩
  case window =>
    intro hm
    obtain ⟨hduty, habove⟩ := opThermalEnd_die hm d.isLt
    exact ⟨_, rfl, (congrArg BitVec.toNat hduty).trans (thermalDuty_toNat _), habove⟩
  case throttle =>
    refine fun v => ⟨⟨_, rfl, rfl, opThrottleWrite_mgc s v⟩, fun a ha => congrArg done (opThrottleWrite_other ha s v)⟩
  case lockstep =>
    exact fun hl ha => ⟨_, congrArg done (opLockstep_counts hl ha), rfl, rfl, rfl, rfl, rfl⟩
  case scrub =>
    exact fun c => ⟨fun f hf => ⟨_, rfl, opSpadScrub_passes s c hf⟩, fun ha => ⟨_, rfl, opSpadScrub_poisons s c ha⟩⟩
  case late => exact fun h => ⟨_, congrArg done (opSpadLate_late h), safetyAct_event s 10 (by decide), rfl⟩
  case young => exact fun h => congrArg done (opSpadLate_young h)

end Sys2Proof.Machine
end

section
/-! SUPPORT. Resets of a deck, their limits and ends, the CMDP restart, the watchdog and the recovery of a Shutdown deck. -/

namespace Sys2Proof.Machine
open Sys2Proof

/-! ### The reset bits, and who writes them (R523, R542) -/

theorem fwOnly_other {a : Agent} (ha : a ≠ .fw) (s f : State) : fwOnly s a f = unsupported s a := by
  cases a with
  | fw => exact absurd rfl ha
  | mgc => rfl
  | host l => rfl

/-! ### The record of a reset (R533, R535) -/

/-- Between `s` and `t` one reset is recorded, with cause word `w`: the old word moves up, the reset is counted. -/
def causeRecorded (s t : State) (w : Nat) : Prop :=
  t.rst.last = BitVec.ofNat 32 w ∧ (mapGet 0 t.rst.bkp 0).toNat = w + 2 ^ 32 * ((mapGet 0 s.rst.bkp 0).toNat % 2 ^ 32) ∧
  (mapGet 0 t.rst.bkp 1).toNat % 2 ^ 32 = nextReset s % 2 ^ 32

theorem recordCause_bkp_congr {s u : State} (h : u.rst.bkp = s.rst.bkp) (w : Nat) :
    (recordCause u w).rst.bkp = (recordCause s w).rst.bkp := by
  simp only [recordCause, setRst, h]

theorem causeRecorded_of {s t : State} {w : Nat} (hw : w < 2 ^ 32) (hlast : t.rst.last = BitVec.ofNat 32 w)
    (hbkp : t.rst.bkp = (recordCause s w).rst.bkp) : causeRecorded s t w := by
  refine ⟨hlast, ?_, ?_⟩
  · rw [hbkp, recordCause_bkp0 s w hw]
  · rw [hbkp, recordCause_bkp1 s w]

/-! ### Resets of a deck or a part of it (R519, R521, R523, R527) -/

/-- What a reset that no running one absorbs does around its scope: recorded, running, the other decks as they were. -/
def resetStarts (s t : State) (x : Scope) (d w : Nat) : Prop :=
  causeRecorded s t w ∧ (∃ e ∈ t.rst.running, e.scope = x) ∧ ∀ e, e ≠ d → deckAt t e = deckAt s e

section
variable {s : State} {d : Fin 8}

theorem deckReset_starts (x : Scope) (cores : List Nat) (src det : Nat) (esc : Bool) (hd : scopeDeck x = some d.val)
    (hr : resetRuns s x = false) (hc : s.churn.colls = []) :
    let t := deckReset s x cores src det esc none
    resetStarts s t x d (causeWord (scopeLevel x) src (if src = 3 then det else 0) d
      (if scopeLevel x = 1 then (scopeCtx x).toNat else 0) esc (nextReset s)) ∧
    deckAt t d = { stampCleared (clockNs s) x (scopeCores (deckAt s d) x cores) (resetOnDeck x cores (deckAt s d)).1 with
      stks := (deckAt t d).stks } := by
  obtain ⟨hlast, hbkp, hrun, hothers, hdeck⟩ := deckReset_runs s x cores src det d esc none hd hr hc
  refine ⟨⟨causeRecorded_of (causeWord_lt _ _ _ _ _ _ _) hlast hbkp, ?_, hothers⟩, hdeck⟩
  rw [hrun]
  exact ⟨_, List.mem_append_right _ (List.mem_singleton.2 rfl), rfl⟩

theorem stampCleared_mem (now : Nat) (x : Scope) (cores : List Nat) (k : Deck) : (stampCleared now x cores k).mem = k.mem := by
  cases x with
  | engine _ _ _ => exact foldl_keeps Deck.mem (fun k i => modCore k i (fun c => { c with clearedAt := some now })) (fun _ _ => rfl) cores k
  | compute _ => rfl
  | full _ => rfl
  | ctx _ _ => rfl
  | module => rfl
  | cmdp => rfl

/-- What a context, engine or compute reset leaves of the deck: its memory. -/
theorem resetOnDeck_mem (x : Scope) (cores : List Nat) (k : Deck) (hx : ∀ d, x ≠ .full d) : (resetOnDeck x cores k).1.mem = k.mem := by
  cases x with
  | ctx _ c => exact (congrArg Deck.mem (ctxReset_frame c k).1).trans rfl
  | engine _ c _ => exact (congrArg Deck.mem (engineReset_frame c _ k).1).trans rfl
  | compute _ => exact computeReset_mem k
  | full e => exact absurd rfl (hx e)
  | module => rfl
  | cmdp => rfl

/-- A reset short of the whole deck keeps the deck's memory. -/
theorem deckReset_part (x : Scope) (cores : List Nat) (hd : scopeDeck x = some d.val) (hx : ∀ e, x ≠ .full e)
    (hr : resetRuns s x = false) (hc : s.churn.colls = []) :
    let t := deckReset s x cores 6 0 false none
    resetStarts s t x d (causeWord (scopeLevel x) 6 0 d (if scopeLevel x = 1 then (scopeCtx x).toNat else 0) false (nextReset s)) ∧
    (deckAt t d).mem = (deckAt s d).mem := by
  obtain ⟨hstarts, hdeck⟩ := deckReset_starts x cores 6 0 false hd hr hc
  refine ⟨hstarts, (congrArg Deck.mem hdeck).trans ?_⟩
  exact (stampCleared_mem _ x _ _).trans (resetOnDeck_mem x cores (deckAt s d) hx)

theorem stampCleared_compute (now : Nat) (cores : List Nat) (k : Deck) :
    stampCleared now (.compute d) cores k = { k with clearedAt := some now } := rfl

theorem stampCleared_full (now : Nat) (cores : List Nat) (k : Deck) :
    stampCleared now (.full d) cores k = { k with clearedAt := some now } := rfl

theorem resetOnDeck_compute (cores : List Nat) (k : Deck) : resetOnDeck (.compute d) cores k = computeReset k := rfl

theorem resetOnDeck_full (cores : List Nat) (k : Deck) : resetOnDeck (.full d) cores k = fullReset k := rfl

theorem groupAt_noGroups {k : Deck} (h : k.groups = []) (g : Nat) : (groupAt k g).alloc = false := by
  rw [groupAt, h]
  rfl

/-- A compute reset: the deck's compute domain in reset, its groups gone, the pen map of flash in force. -/
theorem deckReset_compute (hr : resetRuns s (.compute d) = false) (hc : s.churn.colls = []) :
    let t := deckReset s (.compute d) [] 6 0 false none
    (deckAt t d).reset = .compute ∧ (∀ g, (groupAt (deckAt t d) g).alloc = false) ∧ (deckAt t d).penMap = (deckAt s d).penFlash := by
  obtain ⟨-, hdeck⟩ := deckReset_starts (.compute d) [] 6 0 false rfl hr hc
  obtain ⟨-, -, hreset, hpens, hgroups, -⟩ := computeReset_frame (deckAt s d)
  rw [resetOnDeck_compute, stampCleared_compute] at hdeck
  generalize (computeReset (deckAt s d)).1 = k at hdeck hreset hpens hgroups
  intro t
  rw [hdeck]
  exact ⟨hreset, groupAt_noGroups hgroups, hpens⟩

/-- A full reset: recorded and running, the deck in reset, its memory lost, its power waking. -/
theorem deckReset_full (src det : Nat) (esc : Bool) (hr : resetRuns s (.full d) = false) (hc : s.churn.colls = []) :
    let t := deckReset s (.full d) [] src det esc none
    resetStarts s t (.full d) d (causeWord 4 src (if src = 3 then det else 0) d 0 esc (nextReset s)) ∧
    (deckAt t d).mem = [] ∧ (deckAt t d).reset = .full ∧ (deckAt t d).power = .waking := by
  obtain ⟨hstarts, hdeck⟩ := deckReset_starts (.full d) [] src det esc rfl hr hc
  obtain ⟨-, hreset, hmem, -, hpower, -⟩ := fullReset_deck (deckAt s d)
  rw [resetOnDeck_full, stampCleared_full] at hdeck
  refine ⟨hstarts, ?_⟩
  rw [hdeck]
  exact ⟨hmem, hreset, hpower⟩

theorem deckReset_absorbed (hr : resetRuns s (.full d) = true) :
    deckReset s (.full d) [] 6 0 false none = recordCause s (causeWord 4 6 0 d 0 false (nextReset s)) := if_pos hr

/-! ### A reset that exceeds its limit (R519, R531) -/

theorem find_running {e : RunningReset} {x : Scope} (hrun : s.rst.running = [e]) (hx : e.scope = x) :
    s.rst.running.find? (fun r => decide (r.scope = x)) = some e := by
  rw [hrun, List.find?_cons_of_pos (by exact decide_eq_true hx)]

theorem filter_running {e : RunningReset} {x : Scope} (hrun : s.rst.running = [e]) (hx : e.scope = x) :
    s.rst.running.filter (fun y => decide (y.scope ≠ x)) = [] := by
  rw [hrun, hx.symm]
  exact List.filter_cons_of_neg (by simp)

/-- The state in which a failed compute reset no longer runs. -/
def failedReset (s : State) (x : Scope) : State :=
  modRst s (fun r => { r with running := r.running.filter (fun y => decide (y.scope ≠ x)) })

section
variable {e : RunningReset} (hrun : s.rst.running = [e])
include hrun

theorem opResetLimit_other (hx : e.scope ≠ .compute d) : opResetLimit s (.compute d) = s := by
  have hfind : s.rst.running.find? (fun r => decide (r.scope = .compute d)) = none := by
    rw [hrun, List.find?_cons_of_neg (by simpa using hx), List.find?_nil]
  rw [opResetLimit, hfind]

variable (hx : e.scope = .compute d)
include hx

theorem opResetLimit_within (ht : clockNs s < e.since + 2000000) : opResetLimit s (.compute d) = s := by
  rw [opResetLimit, find_running hrun hx]
  exact if_pos (.inl ht)

theorem opResetLimit_capped (ht : e.since + 2000000 ≤ clockNs s) (hm : s.rst.maxAuto.toNat < 4) :
    opResetLimit s (.compute d) = rstEvent s 2 := by
  rw [opResetLimit, find_running hrun hx]
  refine (if_neg ?_).trans (if_pos hm)
  rintro (hlt | hcmdp)
  · exact Nat.not_lt.2 ht hlt
  · exact nomatch hcmdp

theorem opResetLimit_escalates (ht : e.since + 2000000 ≤ clockNs s) (hm : 4 ≤ s.rst.maxAuto.toNat) :
    opResetLimit s (.compute d) = rstEvent (deckReset (failedReset s (.compute d)) (.full d) [] 7 e.detector true none) 1 := by
  have hauto : ¬ s.rst.maxAuto.toNat < scopeLevel (.compute d) + 1 := Nat.not_lt.2 hm
  rw [opResetLimit, find_running hrun hx]
  refine (if_neg ?_).trans ((if_neg hauto).trans (if_neg hauto))
  rintro (hlt | hcmdp)
  · exact Nat.not_lt.2 ht hlt
  · exact nomatch hcmdp

/-- A compute reset that exceeds its limit becomes a full one, escalated. -/
theorem opResetLimit_full (hc : s.churn.colls = []) (ht : e.since + 2000000 ≤ clockNs s) (hm : 4 ≤ s.rst.maxAuto.toNat) :
    ∃ t, opResetLimit s (.compute d) = t ∧ resetStarts s t (.full d) d (causeWord 4 7 0 d 0 true (nextReset s)) ∧
      (deckAt t d).reset = .full ∧ t.rst.events.getLsbD 1 = true := by
  have hnone : resetRuns (failedReset s (.compute d)) (.full d) = false := by
    have hfilter : (failedReset s (.compute d)).rst.running = [] := filter_running hrun hx
    rw [resetRuns, hfilter]
    rfl
  obtain ⟨hstarts, -, hreset, -⟩ := deckReset_full (s := failedReset s (.compute d)) 7 e.detector true hnone hc
  exact ⟨_, opResetLimit_escalates hrun hx ht hm, hstarts, hreset, getLsbD_setBit_same _ 1 true (by decide)⟩

end
end

/-! ### The recovery of a Shutdown deck (R531) -/

section
variable {s : State} {d : Fin 8}

theorem opShutdownRecovery_early (ht : clockNs s < (deckAt s d).hotAt + 10000000000) : opShutdownRecovery s d = s := by
  refine if_neg ?_
  rw [Bool.and_eq_true, decide_eq_true_eq]
  exact fun h => Nat.not_le.2 ht h.2

theorem opShutdownRecovery_fires (ht : (deckAt s d).hotAt + 10000000000 ≤ clockNs s) (hp : (deckAt s d).power = .shutdown)
    (ho : (deckAt s d).outOfService = false) (hc : deckCool s d = true) :
    opShutdownRecovery s d = fireDetector s 11 (some d) none [] := by
  refine if_pos ?_
  simp only [hp, ho, hc, ht, decide_true, Bool.not_false, Bool.and_self]

/-- Detector `n` counted with the action it takes. -/
def detected (s : State) (n : Nat) : State :=
  modRst s (fun r => { r with detCount := mapMod 0 r.detCount n satInc,
                              detLast := mapSet 0 r.detLast n (BitVec.ofNat 3 (actionOf s n)) })

theorem recentReset_noPast (n : Nat) (x : Scope) (h : s.rst.past = []) : recentReset s n x = none := by
  unfold recentReset
  rw [h]
  rfl

/-- Detector 11 with action 4 and no reset of late: a full reset of its deck. -/
theorem fireDetector_full (ha : actionOf s 11 = 4) (hpast : s.rst.past = []) :
    fireDetector s 11 (some d) none [] = deckReset (detected s 11) (.full d) [] 3 11 false none := by
  have hscope : faultScope 4 (some d.val) none [] = some (.full d) := by
    rw [faultScope, Fin.ofNat_val_eq_self]
  have hrecent : recentReset (detected s 11) 11 (.full d) = none := recentReset_noPast 11 _ hpast
  rw [detected, ha] at hrecent
  unfold fireDetector
  dsimp only
  rw [ha, if_neg (by decide), if_neg (by decide), if_neg (by decide), hscope]
  dsimp only
  rw [hrecent, detected, ha]
  rfl

theorem opShutdownRecovery_full (ht : (deckAt s d).hotAt + 10000000000 ≤ clockNs s) (hp : (deckAt s d).power = .shutdown)
    (ho : (deckAt s d).outOfService = false) (hcool : deckCool s d = true) (ha : actionOf s 11 = 4) (hpast : s.rst.past = [])
    (hr : resetRuns s (.full d) = false) (hc : s.churn.colls = []) :
    ∃ t, opShutdownRecovery s d = t ∧ causeRecorded s t (causeWord 4 3 11 d 0 false (nextReset s)) ∧
      (deckAt t d).reset = .full ∧ (deckAt t d).power = .waking := by
  obtain ⟨⟨hcause, -, -⟩, -, hreset, hpower⟩ := deckReset_full (s := detected s 11) 3 11 false hr hc
  exact ⟨_, (opShutdownRecovery_fires ht hp ho hcool).trans (fireDetector_full ha hpast), hcause, hreset, hpower⟩

/-! ### The end of a reset (R527) -/

theorem runHeld_none (h : noneHeld s) : runHeld s = s := by
  obtain ⟨hheld, hfence⟩ := h
  have hdrop : { s with host := { s.host with held := [] } } = s := by rw [← hheld]
  unfold runHeld
  dsimp only
  rw [hheld, List.foldl_nil, hdrop, hfence]
  rfl

/-- The reset of scope `x` is over: it runs no more, and its bit clears. -/
def endReset (e : RunningReset) (x : Scope) (s : State) : State :=
  modRst s (fun r =>
    let rest := r.running.filter (fun e => decide (e.scope ≠ x))
    { r with running := rest,
             past := if e.detector = 0 then r.past else ((e.detector, x, clockNs s) :: r.past).take 256,
             swDeck := match scopeDeck x with
               | some d => mapMod 0 r.swDeck d (swBits rest d)
               | none => r.swDeck })

theorem endReset_running {e : RunningReset} {x : Scope} (hrun : s.rst.running = [e]) (hx : e.scope = x) :
    (endReset e x s).rst.running = [] := filter_running hrun hx

theorem trainChannels_deck (s : State) (d : Nat) : (trainChannels s d).rst = s.rst ∧
    (deckAt (trainChannels s d) d).power = (deckAt s d).power := by
  unfold trainChannels
  split
  · exact ⟨rfl, rfl⟩
  · refine ⟨rfl, ?_⟩
    dsimp only
    rw [deckAt_modDeck]
    split
    · rw [foldl_modStack]
      rfl
    · rfl

section
variable {e : RunningReset} (hrun : s.rst.running = [e]) (hb : s.host.binds = []) (hheld : noneHeld s)
include hrun hb hheld

theorem opResetComplete_compute (hx : e.scope = .compute d) : opResetComplete s (.compute d) =
    modDeck (endReset e (.compute d) s) d (fun k => { k with reset := .none }) := by
  have hfin : finishReset s (.compute d) = modDeck (endReset e (.compute d) s) d (fun k => { k with reset := .none }) := by
    rw [finishReset, find_running hrun hx]
    rfl
  unfold opResetComplete
  dsimp only
  rw [runHeld_none hheld, hfin]
  exact serveBinds_none _ hb

theorem opResetComplete_cmdp (hx : e.scope = .cmdp) : opResetComplete s .cmdp = modRst (endReset e .cmdp s) (fun r =>
    { r with swHub := setBit r.swHub 0 false, cmdpRestart := false, cmdpStopped := false }) := by
  have hfin : finishReset s .cmdp = modRst (endReset e .cmdp s) (fun r =>
      { r with swHub := setBit r.swHub 0 false, cmdpRestart := false, cmdpStopped := false }) := by
    rw [finishReset, find_running hrun hx]
    rfl
  unfold opResetComplete
  dsimp only
  rw [runHeld_none hheld, hfin]
  exact serveBinds_none _ hb

theorem opResetComplete_full (hx : e.scope = .full d) : opResetComplete s (.full d) =
    modDeck (trainChannels (endReset e (.full d) s) d) d (fun k =>
      { k with reset := .none, power := if k.power = .waking then .run else k.power }) := by
  have hfin : finishReset s (.full d) = modDeck (trainChannels (endReset e (.full d) s) d) d (fun k =>
      { k with reset := .none, power := if k.power = .waking then .run else k.power }) := by
    rw [finishReset, find_running hrun hx]
    rfl
  have hbinds : (trainChannels (endReset e (.full d) s) d).host.binds = [] := by
    unfold trainChannels
    split
    · exact hb
    · exact hb
  unfold opResetComplete
  dsimp only
  rw [runHeld_none hheld, hfin]
  exact serveBinds_none _ hbinds

end

/-! ### The CMDP restart (R526) -/

theorem opSwrst_cmdp (hr : resetRuns s .cmdp = false) (ht : s.rst.cmdpTimes = []) :
    ∃ t, opSwrst s .fw .cmdp [] = t ∧ causeRecorded s t (causeWord 0 6 0 0 0 false (nextReset s)) ∧
      (∃ e ∈ t.rst.running, e.scope = .cmdp) ∧ t.rst.cmdpRestart = true ∧ t.rst.cmdpStopped = true ∧
      t.decks = s.decks ∧ t.churn = s.churn ∧ t.ports = s.ports ∧ t.net = s.net := by
  let w := causeWord 0 6 0 0 0 false (nextReset s)
  have hframe : hostFrame (recordCause s w) (busyAll (recordCause s w)) := hostFrame_busyAll _
  have hstep : opSwrst s .fw .cmdp [] = modRst (busyAll (recordCause s w)) (fun r =>
      { markReset r .cmdp with cmdpTimes := [clockNs s], cmdpRestart := true, cmdpStopped := true,
                               running := r.running ++ [{ scope := .cmdp, detector := 0, since := clockNs s }] }) := by
    unfold opSwrst fwOnly applyReset cmdpRestart
    dsimp only
    rw [if_neg (by rw [hr]; exact Bool.false_ne_true), ht]
    rfl
  have hlast : (busyAll (recordCause s w)).rst.last = BitVec.ofNat 32 w := congrArg Rst.last (hostFrame_rst hframe)
  have hbkp : (busyAll (recordCause s w)).rst.bkp = (recordCause s w).rst.bkp := congrArg Rst.bkp (hostFrame_rst hframe)
  have hdecks : (busyAll (recordCause s w)).decks = (recordCause s w).decks := hostFrame_decks hframe
  have hchurn : (busyAll (recordCause s w)).churn = (recordCause s w).churn := hostFrame_churn hframe
  have hports : (busyAll (recordCause s w)).ports = (recordCause s w).ports := hostFrame_ports hframe
  have hnet : (busyAll (recordCause s w)).net = (recordCause s w).net := hostFrame_net hframe
  exact ⟨_, hstep, causeRecorded_of (causeWord_lt _ _ _ _ _ _ _) hlast hbkp, ⟨_, List.mem_append_right _ (List.mem_singleton.2 rfl), rfl⟩,
    rfl, rfl, hdecks, hchurn, hports, hnet⟩

theorem opCmdpTimeout_within {e : RunningReset} (hrun : s.rst.running = [e]) (hx : e.scope = .cmdp)
    (ht : clockNs s < e.since + 100000000) : opCmdpTimeout s = s := by
  rw [opCmdpTimeout, find_running hrun hx]
  exact if_pos ht

theorem opCmdpTimeout_fails {e : RunningReset} (hrun : s.rst.running = [e]) (hx : e.scope = .cmdp)
    (ht : e.since + 100000000 ≤ clockNs s) : opCmdpTimeout s = rstEvent (moduleReset s false false 7 e.detector true) 1 := by
  rw [opCmdpTimeout, find_running hrun hx]
  exact if_neg (Nat.not_lt.2 ht)

theorem optionHold_bkp (s : State) : (optionHold s).rst.bkp = s.rst.bkp := by
  unfold optionHold
  split <;> rfl

/-- A warm module reset that nothing absorbs: recorded, and the release order at step 3. -/
theorem moduleReset_warm (src det : Nat) (esc : Bool) (hh : s.rst.hold = false) (hm : s.power.moduleState ≠ 2)
    (hr : resetRuns s .module = false) :
    let t := moduleReset s false false src det esc
    causeRecorded s t (causeWord 5 src (if src = 3 then det else 0) 0 0 esc (nextReset s)) ∧ t.rst.phase = 3 := by
  intro t
  obtain ⟨w, hw⟩ : ∃ w, w = causeWord 5 src (if src = 3 then det else 0) 0 0 esc (nextReset s) := ⟨_, rfl⟩
  obtain ⟨s1, hs1⟩ : ∃ s1, s1 = takeSample (optionRestart s) .module [] w := ⟨_, rfl⟩
  let s2 := modRst (clearModule false false 3 s1) (fun r => { r with running := [{ scope := .module, detector := det, since := clockNs s }] })
  have hrun : ¬ (s.rst.hold = true ∨ s.power.moduleState = 2) := by
    rw [hh]
    exact fun h => h.elim Bool.false_ne_true hm
  have ht : t = optionHold (recordCause s2 w) := by
    simp only [t, s2, moduleReset, if_neg hrun, hr, hs1, hw, Bool.false_eq_true, and_false, if_false]
  have hbkp : s2.rst.bkp = s.rst.bkp := by
    calc s2.rst.bkp = s1.rst.bkp := rfl
      _ = s.rst.bkp := by rw [hs1, takeSample_rst, optionRestart_frame]
  obtain ⟨-, hphase, hlast⟩ := optionHold_keeps (recordCause s2 w)
  rw [← hw, ht]
  refine ⟨causeRecorded_of (hw ▸ causeWord_lt _ _ _ _ _ _ _) (hlast.trans (recordCause_last s2 w)) ?_, hphase.trans rfl⟩
  exact (optionHold_bkp _).trans (recordCause_bkp_congr hbkp w)

theorem opCmdpTimeout_warm {e : RunningReset} (hrun : s.rst.running = [e]) (hx : e.scope = .cmdp)
    (ht : e.since + 100000000 ≤ clockNs s) (hh : s.rst.hold = false) (hm : s.power.moduleState ≠ 2) :
    ∃ t, opCmdpTimeout s = t ∧ causeRecorded s t (causeWord 5 7 0 0 0 true (nextReset s)) ∧ t.rst.phase = 3 ∧
      t.rst.events.getLsbD 1 = true := by
  have hr : resetRuns s .module = false := by
    rw [resetRuns, hrun, List.any_cons, hx]
    rfl
  obtain ⟨hcause, hphase⟩ := moduleReset_warm 7 e.detector true hh hm hr
  exact ⟨_, opCmdpTimeout_fails hrun hx ht, hcause, hphase, getLsbD_setBit_same _ 1 true (by decide)⟩

/-! ### The watchdog (R154, R531) -/

theorem opWatchdog_counts {c : CoreRef} (hl : (coreOf s c).launch ≠ none) (ha : actionOf s 1 = 0)
    (hr : (coreOf s c).run = .ready ∨ ∃ z, (coreOf s c).run = .fence z) : opWatchdog s c.deck c.core = counted s 1 := by
  have hlaunch : (coreAt (deckAt s c.deck) c.core).launch.isSome = true := Option.isSome_iff_ne_none.2 hl
  have hfire : opWatchdog s c.deck c.core =
      fireDetector s 1 (some c.deck) (coreAt (deckAt s c.deck) c.core).lastCtx [c.core.val] := by
    unfold opWatchdog
    dsimp only
    rw [hlaunch]
    rcases hr with hrun | ⟨z, hrun⟩
    · rw [show (coreAt (deckAt s c.deck) c.core).run = .ready from hrun]
      rfl
    · rw [show (coreAt (deckAt s c.deck) c.core).run = .fence z from hrun]
      rfl
  exact hfire.trans (fireDetector_count s 1 _ _ _ ha)

theorem opWatchdog_waits {c : CoreRef} (hr : (coreOf s c).run = .object ∨ ∃ z z', (coreOf s c).run = .time z z') :
    opWatchdog s c.deck c.core = s := by
  refine if_neg ?_
  rcases hr with hrun | ⟨z, z', hrun⟩
  · rw [show (coreAt (deckAt s c.deck) c.core).run = .object from hrun, Bool.and_false]
    exact Bool.false_ne_true
  · rw [show (coreAt (deckAt s c.deck) c.core).run = .time z z' from hrun, Bool.and_false]
    exact Bool.false_ne_true

end

end Sys2Proof.Machine
end

section
/-! SETTLED. Resets of decks and the CMDP (chapter 14). -/

namespace Sys2Proof.Machine
open Sys2Proof

/-- Settles O53: each reset by what it records, starts and ends. -/
theorem resetsOfDecksAndTheCmdp : Obligations.ResetsOfDecksAndTheCmdp := by
  unfold Obligations.ResetsOfDecksAndTheCmdp
  intro s d x core k n old recorded runs others
  refine ⟨?notFirmware, fun hc => ⟨?ctx, ?engine, ?compute, ?full, ?limit, ?recovery⟩, ?coolLater, ?absorbed, ?ends, ?cmdp, ?cmdpLimit,
    ?watchdog⟩
  case notFirmware =>
    intro a ha i hi
    simp only [List.mem_cons, List.not_mem_nil, or_false] at hi
    rcases hi with rfl | rfl | rfl | rfl | rfl | rfl | rfl <;> exact congrArg done (fwOnly_other ha s _)
  case ctx =>
    intro hr
    obtain ⟨⟨hcause, hrun, hothers⟩, hmem⟩ := deckReset_part (.ctx d x) [] rfl (fun _ => nofun) hr hc
    exact ⟨_, rfl, hcause, hrun, hothers, hmem⟩
  case engine =>
    intro hr
    obtain ⟨⟨hcause, hrun, hothers⟩, hmem⟩ := deckReset_part (.engine d x (core.setWidth 16))
      (if core.toNat < 3200 then [core.toNat] else []) rfl (fun _ => nofun) hr hc
    exact ⟨_, rfl, hcause, hrun, hothers, hmem⟩
  case compute =>
    intro hr
    obtain ⟨⟨hcause, hrun, hothers⟩, hmem⟩ := deckReset_part (.compute d) [] rfl (fun _ => nofun) hr hc
    exact ⟨_, rfl, hcause, hrun, hothers, hmem, deckReset_compute hr hc⟩
  case full =>
    intro hr
    obtain ⟨⟨hcause, hrun, hothers⟩, hmem, hreset, -⟩ := deckReset_full 6 0 false hr hc
    exact ⟨_, rfl, hcause, hrun, hothers, hmem, hreset⟩
  case limit =>
    intro e hrun hx ht hm
    obtain ⟨t, hstep, ⟨hcause, hruns, hothers⟩, hreset, hevent⟩ := opResetLimit_full hrun hx hc ht hm
    exact ⟨t, congrArg done hstep, hcause, hruns, hothers, hreset, hevent⟩
  case recovery =>
    intro ht hp ho hcool ha hpast hr
    obtain ⟨t, hstep, hcause, hreset, hpower⟩ := opShutdownRecovery_full ht hp ho hcool ha hpast hr hc
    exact ⟨t, congrArg done hstep, hcause, hreset, hpower⟩
  case coolLater => exact fun ht => congrArg done (opShutdownRecovery_early ht)
  case absorbed => exact fun hr => congrArg done (deckReset_absorbed hr)
  case ends =>
    intro e hrun hb hheld
    refine ⟨fun hx => ?_, fun hx => ?_, fun hx => ?_, fun hx => ?_, fun hx ht => ?_, fun hx ht hm => ?_⟩
    · refine ⟨_, congrArg done (opResetComplete_compute hrun hb hheld hx), endReset_running hrun hx,
        modDeck_onlyDeck (endReset e (.compute d) s) d _, ?_⟩
      rw [deckAt_modDeck]
    · obtain ⟨hrst, hpower⟩ := trainChannels_deck (endReset e (.full d) s) d
      refine ⟨_, congrArg done (opResetComplete_full hrun hb hheld hx),
        (congrArg Rst.running hrst).trans (endReset_running hrun hx), ?_⟩
      rw [deckAt_modDeck]
      refine ⟨rfl, ?_⟩
      rw [hpower]
      rfl
    · exact ⟨_, congrArg done (opResetComplete_cmdp hrun hb hheld hx), endReset_running hrun hx, rfl, rfl, rfl⟩
    · exact ⟨_, congrArg done (opResetLimit_other hrun hx), rfl⟩
    · exact congrArg done (opResetLimit_within hrun hx ht)
    · exact ⟨_, congrArg done (opResetLimit_capped hrun hx ht hm), rfl, getLsbD_setBit_same _ 2 true (by decide), hrun⟩
  case cmdp =>
    intro hr ht
    obtain ⟨t, hstep, hcause, hruns, hspec⟩ := opSwrst_cmdp hr ht
    exact ⟨t, congrArg done hstep, hcause, hruns, hspec⟩
  case cmdpLimit =>
    intro e hrun hx
    refine ⟨fun ht => congrArg done (opCmdpTimeout_within hrun hx ht), fun ht hh hm => ?_⟩
    obtain ⟨t, hstep, hcause, hphase, hevent⟩ := opCmdpTimeout_warm hrun hx ht hh hm
    exact ⟨t, congrArg done hstep, hcause, hphase, hevent⟩
  case watchdog =>
    intro c hl ha
    refine ⟨fun z hr => ?_, fun z z' hr => congrArg done (opWatchdog_waits (hr.imp id fun h => ⟨z, z', h⟩))⟩
    exact ⟨_, congrArg done (opWatchdog_counts hl ha (hr.imp id fun h => ⟨z, h⟩)), rfl, mapGet_set_same 0 s.rst.detCount 1 _, rfl⟩

end Sys2Proof.Machine
end
